-- ==== Sys2Proof/Word.lean ====
section
/-! DEFINITION. The word types of the machine (R4, R5, R107, R108). Bit-field helpers that a test could show wrong
stand in Sys2Proof/Machine/Bits.lean, not here. -/

namespace Sys2Proof

/-- A general register, a special register, a fat pointer, a PC: 64 bits (R107, R128, R290). -/
abbrev Word := BitVec 64

/-- One byte of memory, of a scratchpad or of a flit payload (R5). -/
abbrev Byte := BitVec 8

/-- A binary32 bit pattern, an IF19 container, a near-bank register: 32 bits (R229, R223). -/
abbrev W32 := BitVec 32

/-- A vector register: 512 bits (R108). -/
abbrev Vec := BitVec 512

/-- A tuple key, template value or care mask (R151). -/
abbrev Key := BitVec 128

end Sys2Proof
end

