-- ==== Sys2Proof/Types.lean ====
section
/-! DEFINITION. The plain data that instructions and events carry: memory operands, messages, flits, tuple requests,
launch submissions, traps in flight. Everything here is data; what it means stands under Sys2Proof/Machine. -/

namespace Sys2Proof

/-- A sparse map from numbers to values: `dflt` where nothing is listed, else the listed value. Keys rise strictly. -/
structure Tab (α : Type) where
  dflt  : α
  cells : List (Nat × α)
  deriving DecidableEq, Repr

/-- The FMEM/FMEMO memory operand `[SA + SB*2^SCL + IMM]` (R294). `imm` is the raw 32-bit field. -/
structure MemOp where
  sa : Nat
  sb : Nat
  ix : Bool
  scl : Nat
  imm : Nat
  deriving DecidableEq, Repr

/-- The destination register of a long-latency instruction (R119): a g register of a context of a core, and the number of the
work that the context held at issue. -/
structure RegDest where
  core : Nat
  ctx : Nat
  reg : Nat
  work : Nat := 0
  deriving DecidableEq, Repr

/-- The mark a faulted reply leaves on a register (R120). -/
structure Poison where
  cause : Nat
  addr : Word
  info : Word
  deriving DecidableEq, Repr

/-- What arrives for a pending register: its value or a fault (R119, R120). -/
inductive Reply where
  | value (w : Word)
  | poison (p : Poison)
  deriving DecidableEq, Repr

/-- A trap as it is raised (R270, R272). `epc` is the resume PC. -/
structure Trap where
  cause : Nat
  epc : Word
  eaddr : Word
  einfo : Word
  pois : Bool
  eng : Bool
  job : Word
  deriving DecidableEq, Repr

/-- An active message: the header of R111 field by field, and its payload bytes. -/
structure Msg where
  kind : Nat
  ackreq : Bool
  timed : Bool
  hi : Bool
  len : Nat
  hpc : Nat
  seqn : BitVec 32
  part : Nat
  sdev : Nat
  score : Nat
  ts : Word
  payload : List Byte
  deriving DecidableEq, Repr

/-- An acknowledgement (R111): outcome 0 accepted, 1 refused FULL, 2 refused PART, of the message with count `seqn`,
from core `score` of device `sdev`. -/
structure Ack where
  outcome : Nat
  seqn : BitVec 32
  sdev : Nat
  score : Nat
  deriving DecidableEq, Repr

/-- A trap record on its way to a partition's supervisor (R274): g8 to g15, the sending core, and the back-off of the
next resend. -/
structure TrapRecord where
  part : Nat
  words : List Word
  score : Nat
  backoff : Nat
  notBefore : Nat := 0
  deriving DecidableEq, Repr

/-- A delivery that starts an arrival handler (R118): `core` and the g8 to g11 values, MSG.SRC and the handler PC. `noted` marks one whose
hold for want of scorebook room has been logged (R281). -/
structure Arrival where
  core : Nat
  addr : Word
  len : Word
  tag : Word
  extra : Word
  src : Word
  hpc : Word
  bytes : List Byte
  noted : Bool := false
  deriving DecidableEq, Repr

/-- A piece of a wider write: bytes within one 64-byte line, and, where not every bit is written (R370), the bits of each byte that stay. -/
structure Piece where
  ptr : Word
  bytes : List Byte
  keep : List Byte := []
  deriving DecidableEq, Repr

/-- The operation of a remote access: a load, a store of `data`, one wider store in pieces (R350, R353, R371), or an atomic sub-operation of
R356. -/
inductive RemoteOp where
  | load
  | store (data : Word)
  | pieces (ps : List Piece)
  | atomic (sub : Nat) (b c : Word)
  deriving DecidableEq, Repr

/-- A scalar access that travels to the owner of its target (R121, R127). -/
structure RemoteAccess where
  src : RegDest
  srcDev : Nat
  part : Nat
  ptr : Word
  ty : Nat
  op : RemoteOp
  xid : Nat := 0
  deriving DecidableEq, Repr

/-- A migrating thread (R123) with its 256-byte image. `access` is true when an access (not MIGR) asked for the move. -/
structure Migration where
  srcDev : Nat
  srcCore : Nat
  srcCtx : Nat
  dstDev : Nat
  dstCore : Nat
  dstCtx : Nat
  part : Nat
  access : Bool
  statusReg : Nat
  vtime : Word := BitVec.allOnes 64
  image : List Byte
  deriving DecidableEq, Repr

/-- Which tuple request (R151 to R164). -/
inductive TupleKind where
  | put | read | take | cancel | withdraw
  deriving DecidableEq, Repr

/-- A request to a tuple home: the fields of PUTK, RDK, TAKK and KCANCEL that travel (R410 to R413). `mode` is 0 block,
1 poll, 2 continuation (R159). -/
structure TupleReq where
  kind : TupleKind
  mode : Nat
  key : Key
  mask : Key
  ref : Word
  len : Nat
  doff : Nat
  cap : Nat
  tcore : Nat
  tag : Word
  hpc : Word
  src : RegDest
  srcDev : Nat
  part : Nat
  deriving DecidableEq, Repr

/-- A stored tuple (R152). -/
structure Tuple where
  key : Key
  part : Nat
  ref : Word
  len : Nat
  arrival : Nat
  putter : Word
  deriving DecidableEq, Repr

/-- A waiter or a continuation at a slice, in one arrival order (R157, R160). -/
structure Waiter where
  req : TupleReq
  arrival : Nat
  deriving DecidableEq, Repr

/-- Where a delivery finds its payload: read at the device that holds it when the delivery completes, bytes brought from
another device, or a fault met there (R153). -/
inductive PayloadSource where
  | memory
  | bytes (bs : List Byte)
  | fault (p : Poison)
  deriving DecidableEq, Repr

/-- A tuple being delivered to a request (R162). -/
structure Delivery where
  req : TupleReq
  tuple : Tuple
  isTake : Bool
  home : Nat
  source : PayloadSource
  deriving DecidableEq, Repr

/-- A tuple handoff (R168). -/
structure Handoff where
  part : Nat
  lo : Nat
  last : Nat
  a : Nat
  b : Nat
  src : RegDest
  srcDev : Nat
  deriving DecidableEq, Repr

/-- What travels between A and B in one handoff stream (R169). `reserve` names, per slice of B, the waiters and continuations
to come; `accept` is B's answer to it. `abandon` bears the status that KSPLIT completes with: from B it asks A to abandon, from A it says
that it has (R168). `killed` says that PKILL has ended the partition at its sender (R172), and `start`, from A, that the handoff has begun. -/
inductive HandoffItem where
  | start
  | reserve (n : List (Nat × Nat × Nat))
  | accept
  | copy (t : Tuple)
  | delete (key : Key) (arrival : Nat)
  | marker
  | waiter (w : Waiter)
  | abandon (status : Word)
  | killed
  | switch
  deriving DecidableEq, Repr

/-- A partial or result of a network reduction (R47): the sender's device, operation, element count and elements. `status`
is 0 for a partial or result, else the status that stands in its place. `use` says how many reductions of that identifier the sender has
opened with the receiver; the word of a failure also bears the participants (R51; DESIGN CHOICE, log entry 68). -/
structure RedMsg where
  group : Nat
  rid : Nat
  sender : Nat
  op : Nat
  n : Nat
  status : Nat
  elems : List Word
  use : Nat := 0
  parts : List Nat := []
  deriving DecidableEq, Repr

/-- One multicast copy at a member (R46, R407). -/
structure McastCopy where
  srcDev : Nat
  srcCore : Nat
  group : Nat
  part : Nat
  dst : Word
  tcore : Nat
  tag : Word
  ahpc : Word
  job : Word
  bytes : List Byte
  noted : Bool := false
  deriving DecidableEq, Repr

/-- A TLBI on its way between walkers (R147). -/
structure TlbiMsg where
  part : Nat
  kind : Nat
  va : Word
  dest : RegDest
  status : Word
  deriving DecidableEq, Repr

/-- What a flit carries. The header's TYPE and VC stand in `Flit`; R27 fixes no payload layout for most types, so the
payload is kept as the data it conveys. -/
inductive FlitBody where
  | pad
  | access (r : RemoteAccess)
  | reply (d : RegDest) (v : Reply)
  | storeDone (d : RegDest) (fault : Option Poison)
  | tuple (r : TupleReq)
  | delivery (d : Delivery)
  | handoff (h : Handoff) (i : HandoffItem)
  | ksplit (h : Handoff)
  | moved (part lo last dev : Nat) (tver : BitVec 32)
  | msg (core : Nat) (m : Msg)
  | msgAck (core : Nat) (a : Ack)
  | arrive (d : Arrival)
  | red (m : RedMsg)
  | redResult (m : RedMsg)
  | mcast (c : McastCopy)
  | mcastStatus (job : Word) (member : Nat) (status : Word)
  | migrRequest (m : Migration)
  | migrReply (m : Migration) (accepted : Bool)
  | migrImage (m : Migration)
  | migrAck (m : Migration)
  | ackPairs (pairs : List (Nat × BitVec 32)) (response : Bool)
  | mgmt (w : Word)
  deriving DecidableEq, Repr

/-- A fabric flit: the header of Table 1 of R27, its 64 payload bytes as they stand on the wire, its end-to-end tag (R28, R36), and what
it conveys. -/
structure Flit where
  dst : Nat
  src : Nat
  age : Nat
  seq : BitVec 32
  vc : Nat
  type : Nat
  part : Nat
  grp : Nat
  len : Nat
  first : Bool
  last : Bool
  xid : Nat
  aux : Nat
  payload : List Byte := List.replicate 64 0
  tag : W32 := 0
  body : FlitBody
  deriving DecidableEq, Repr

/-- A flit that reaches the router on a port's input slot (R31), and the CRC of its trailer (R28). -/
structure ArrivingFlit where
  flit : Flit
  port : Nat
  slot : Nat
  crc : W32
  deriving DecidableEq, Repr

/-- A barrier: a huddle of a cluster, or a crew barrier of a partition on a die (R360). -/
inductive BarrierId where
  | huddle (cluster n : Nat)
  | crew (die part n : Nat)
  deriving DecidableEq, Repr

/-- The alarm sources of Table 10 of R72. -/
inductive AlarmSource where
  | tempAbove105 | tempAbove115 | tempAbove125
  | supplyOutside | supplyThreeExcursions | clockOff
  | integrity | integritySixteen | packageOpening
  deriving DecidableEq, Repr

/-- The SRAM arrays of a die whose contents are copies or tables (R22): caches and L2 slices, TLBs, tuple index and waiter tables, overlay
stores, backstop buffers, and the state of the management firmware (R65). -/
inductive SramArray where
  | cache | tlb | tuples | overlay | backstop | firmware
  deriving DecidableEq, Repr

/-- Where an error correction circuit looks (R22): a 64-byte line, of device memory or of a scratchpad, or an SRAM array of a die. -/
inductive EccSite where
  | line (line : Nat)
  | sram (die : Nat) (array : SramArray)
  deriving DecidableEq, Repr

/-- What error correction finds (R22, R23): nothing, an error that it corrects, an uncorrectable one with no consumer, or one that the
access of an agent meets, numbered as in State.farOwner: a context as 8·core + context, an engine as 2^48 + job id. -/
inductive ScrubFinding where
  | clean | corrected | uncorrectable
  | met (agent : Nat)
  deriving DecidableEq, Repr

/-- A firmware image of the boot flash: its content, the public key and the security version number of its header, and its signature
(R69). -/
structure FlashImage where
  content : List Byte
  key : List Byte
  svn : Nat
  signature : List Byte
  deriving DecidableEq, Repr, Inhabited

/-- A host command of R59 as service core `sc` takes it from a ring: its 128 bytes, and the bytes that a WRITE reads at HADDR. DESIGN CHOICE,
log entry 37. -/
structure HostCmd where
  sc : Nat
  ring : Nat
  bytes : List Byte
  data : List Byte
  deriving DecidableEq, Repr

/-- An access of a host function to BAR0 (R56, R58): the function, the offset, the value of a write, and the tag that the answer to a read
bears. -/
structure BarAccess where
  fn : Nat
  off : Nat
  value : Word
  tag : Word
  deriving DecidableEq, Repr

/-- A completion on its way to the host (R60): its record is written at `cpl`. `data` is what READ and ATTEST write at HADDR;
`idx` counts the ring's commands in the order they were taken. -/
structure HostCompletion where
  sc : Nat
  ring : Nat
  idx : Nat
  cpl : Word
  haddr : Word
  tag : BitVec 32
  status : Nat
  faddr : Word
  irq : Bool
  vec : Nat
  data : List Byte
  deriving DecidableEq, Repr

/-- A partition table entry (Table 6 of R64). `clmask` holds 240 bits of use in 256; `prot` two bits per virtual channel. -/
structure PartEntry where
  state : Nat
  noneok : Bool
  supv : Nat
  clmask : BitVec 256
  qmask : Word
  ptroot : Word
  pinq : Nat
  prot : BitVec 16
  key : Nat
  ssb : Word
  sealMask : BitVec 8
  tanch : Nat
  sbbase : Word
  sblim : Word
  deriving DecidableEq, Repr

/-- A launch record on its way to the launch unit (R62, R81, R426). -/
structure Submission where
  q : Nat
  part : Nat
  record : List Byte
  reply : Option RegDest
  host : Option HostCompletion
  deriving DecidableEq, Repr

/-- A STEAL at its victim (R424): the thief's destination, the victim core and the thief's block offset. -/
structure StealReq where
  dest : RegDest
  victim : Nat
  block : Nat
  deriving DecidableEq, Repr

/-- A TRET with a handle at the parked context's core (R441): action 1 RESUME, 2 SKIP, 3 END. -/
structure TretReq where
  dest : RegDest
  handle : Word
  action : Nat
  deriving DecidableEq, Repr

/-- An MRESUME at its unit (R396). -/
structure ResumeReq where
  dest : RegDest
  job : Word
  deriving DecidableEq, Repr

/-- An engine fault on its way to the job's issuer (R276): `work` names the work that issued the job. -/
structure EngineFault where
  core : Nat
  ctx : Nat
  work : Nat
  trap : Trap
  deriving DecidableEq, Repr

/-- An ordinary read or write of a near-bank unit's channel (R228). -/
inductive OrdinaryAccess where
  | read (pa n : Nat) (dest : RegDest)
  | write (pa : Nat) (bytes : List Byte)
  deriving DecidableEq, Repr

/-- A granted or ungranted operand window of NBC: the physical base of the 2 MiB region and whether writes are allowed
(R221). -/
structure NbWindow where
  base : Nat
  writable : Bool
  deriving DecidableEq, Repr

/-- A near-bank request at its unit (R437): NBOV, NBMODE, NBC and NBSTAT. -/
inductive NbRequest where
  | overlay (off : Nat) (words : List W32)
  | compute (sticky : Bool) (regions : List Nat)
  | normal
  | resume
  | command (pc : Nat) (args : List W32) (windows : List (Option NbWindow)) (span : Bool)
  | status (sel : Nat)
  deriving DecidableEq, Repr

/-- A near-bank request with its issuer. -/
structure NbEnvelope where
  part : Nat
  dest : RegDest
  req : NbRequest
  deriving DecidableEq, Repr

end Sys2Proof
end

