-- ==== Sys2Proof/Config.lean ====
section
/-! DEFINITION. What the spec leaves open or an implementation fixes. Every constant here is opaque: nothing can evaluate it
or prove a value of it. Free values are indexed by State.free, a plain counter (DESIGN CHOICE, log entry 1). -/

namespace Sys2Proof.Config

/-- A value the spec leaves open, for each use in turn. -/
opaque freeWord : Nat → Word

/-- An order or a duration the spec leaves open, for each use in turn. -/
opaque freeNat : Nat → Nat

/-- The set of an L2 slice in which a line stands: R125 gives the number of sets, no rule gives the index (DESIGN CHOICE, log entry 17). -/
opaque l2Set : Nat → Nat

/-- The device's serial number (R71). -/
opaque serial : Word

/-- The images of the boot flash: 0 management firmware, 1 service-core firmware, 2 microcode; 8 and above, the recovery image's
(R69). Nothing in the spec writes the flash. DESIGN CHOICE, log entry 21. -/
opaque flash : Nat → FlashImage

/-- The fused hash of the root key, the fused minimum security version number, and the fused root seed (R69, R71). -/
opaque rootKeyHash : List Byte
opaque minSvn : Nat
opaque rootSeed : List Byte

/-- The contents of a provisioned key slot before anything is known of them (R36, R74). DESIGN CHOICE, log entry 19. -/
opaque keySlot : Nat → List Byte

/-- SHA3-256 (R69, R70, R71). PRESUMED, log entry 9. -/
opaque sha3 : List Byte → List Byte

/-- KMAC256 of a key, a customisation string and a message; AES-256-GCM of a key, a nonce, additional data and a plaintext: ciphertext and
128-bit tag; the tag that a key, a nonce, additional data and a ciphertext have (R36). PRESUMED, log entry 9. -/
opaque kmac : List Byte → List Byte → List Byte → List Byte
opaque aesGcm : List Byte → List Byte → List Byte → List Byte → List Byte × Nat
opaque aesGcmTag : List Byte → List Byte → List Byte → List Byte → Nat

/-- The payload of a flit of a message whose layout no rule gives (R27). DESIGN CHOICE, log entry 8. -/
opaque flitPayload : FlitBody → Nat → List Byte

/-- ML-DSA-44: the signature of a message under the key pair of a seed, and the check of a signature under a public key (R69, R71,
R74). PRESUMED, log entry 9. -/
opaque sign : List Byte → List Byte → List Byte
opaque verify : List Byte → List Byte → List Byte → Bool

end Sys2Proof.Config
end

