-- ==== Sys2Proof/Syntax.lean ====
section
/-! DEFINITION. The one inductive of instructions: one constructor per row of spec/opcode_table.json, core instructions,
near-bank micro-instructions (nbu…) and the device's own events, each with the operands it carries. Register fields, type
codes and immediates are the raw numbers of the encoding (R294 to R297); Sys2Proof/WellFormed.lean says which are legal.
An event's operands are what the outside world or the agent in flight brings to it. -/

namespace Sys2Proof

/-- One instruction or event (R287 to R322, R224, and the events of spec/95_what_each_step_holds.md). -/
inductive Instr where
  /-- BR (R326). -/
  | br (target : Nat)
  /-- BCC (R327). -/
  | bcc (cond sa sb target : Nat)
  /-- BZ (R326). -/
  | bz (a target : Nat)
  /-- BNZ (R326). -/
  | bnz (a target : Nat)
  /-- CALL (R326). -/
  | call (a target : Nat)
  /-- CALLI (R326). -/
  | calli (a sa : Nat)
  /-- RET (R326). -/
  | ret (sa : Nat)
  /-- JMPI (R326). -/
  | jmpi (sa : Nat)
  /-- LOOP (R326). -/
  | loop (a target : Nat)
  /-- SLEEP (R330). -/
  | sleep (sa mask : Nat)
  /-- BRK (R332). -/
  | brk (n : Nat)
  /-- TRAPI (R332). -/
  | trapi (n : Nat)
  /-- LDI (R333). -/
  | ldi (a : Nat) (imm : Word)
  /-- ADD (R334). -/
  | add (a sa sb ty : Nat) (sat : Bool)
  /-- SUB (R334). -/
  | sub (a sa sb ty : Nat) (sat : Bool)
  /-- MUL (R334). -/
  | mul (a sa sb ty : Nat) (sat : Bool)
  /-- MULH (R334). -/
  | mulh (a sa sb ty : Nat)
  /-- MULHN (R334). -/
  | mulhn (a sa sb ty : Nat)
  /-- DIV (R335). -/
  | div (a sa sb ty : Nat)
  /-- DIVN (R335). -/
  | divn (a sa sb ty : Nat)
  /-- REM (R335). -/
  | rem (a sa sb ty : Nat)
  /-- REMN (R335). -/
  | remn (a sa sb ty : Nat)
  /-- MIN (R334). -/
  | min (a sa sb ty : Nat)
  /-- MAX (R334). -/
  | max (a sa sb ty : Nat)
  /-- MINN (R334). -/
  | minn (a sa sb ty : Nat)
  /-- MAXN (R334). -/
  | maxn (a sa sb ty : Nat)
  /-- SEQ (R334). -/
  | seq (a sa sb ty : Nat)
  /-- SLT (R334). -/
  | slt (a sa sb ty : Nat)
  /-- SLTN (R334). -/
  | sltn (a sa sb ty : Nat)
  /-- AND (R336). -/
  | and (a sa sb ty : Nat)
  /-- OR (R336). -/
  | or (a sa sb ty : Nat)
  /-- XOR (R336). -/
  | xor (a sa sb ty : Nat)
  /-- ANDN (R336). -/
  | andn (a sa sb ty : Nat)
  /-- SHL (R336). -/
  | shl (a sa sb ty : Nat)
  /-- SHR (R336). -/
  | shr (a sa sb ty : Nat)
  /-- SRA (R336). -/
  | sra (a sa sb ty : Nat)
  /-- ROL (R336). -/
  | rol (a sa sb ty : Nat)
  /-- CLZ (R337). -/
  | clz (a sa ty : Nat)
  /-- CTZ (R337). -/
  | ctz (a sa ty : Nat)
  /-- POPC (R337). -/
  | popc (a sa ty : Nat)
  /-- BSWP (R337). -/
  | bswp (a sa ty : Nat)
  /-- SEXT (R337). -/
  | sext (a sa ty : Nat)
  /-- ZEXT (R337). -/
  | zext (a sa ty : Nat)
  /-- MOV (R337). -/
  | mov (a sa ty : Nat)
  /-- ADDI (R338). -/
  | addi (a sa imm : Nat)
  /-- ANDI (R338). -/
  | andi (a sa imm : Nat)
  /-- ORI (R338). -/
  | ori (a sa imm : Nat)
  /-- XORI (R338). -/
  | xori (a sa imm : Nat)
  /-- SHLI (R338). -/
  | shli (a sa count : Nat)
  /-- SHRI (R338). -/
  | shri (a sa count : Nat)
  /-- SRAI (R338). -/
  | srai (a sa count : Nat)
  /-- SEL (R339). -/
  | sel (a sa sb sc : Nat)
  /-- LEA (R341). -/
  | lea (a : Nat) (m : MemOp)
  /-- PADD (R342). -/
  | padd (a sa sb : Nat)
  /-- PADD_IMM (R342). -/
  | paddImm (a sa imm : Nat)
  /-- PSET (R342). -/
  | pset (a sa fmt blog : Nat)
  /-- PGET (R342). -/
  | pget (a sa : Nat)
  /-- PSTRIP (R342). -/
  | pstrip (a sa : Nat)
  /-- PGLB (R343). -/
  | pglb (a sa : Nat)
  /-- PCHK (R344). -/
  | pchk (a sa : Nat) (w : Bool)
  /-- BINS (R345). -/
  | bins (a sa sb : Nat)
  /-- BEXT (R345). -/
  | bext (a sa lsb width : Nat)
  /-- FFCS (R346). -/
  | ffcs (a sa : Nat)
  /-- PLSET (R347). -/
  | plset (a sa sb limit : Nat)
  /-- LD (R349). -/
  | ld (a : Nat) (m : MemOp) (ty scp ord : Nat)
  /-- ST (R349). -/
  | st (a : Nat) (m : MemOp) (ty scp ord ch : Nat)
  /-- PF (R353). -/
  | pf (m : MemOp)
  /-- LOCK (R354). -/
  | lock (a : Nat) (m : MemOp)
  /-- UNLOCK (R354). -/
  | unlock (a : Nat) (m : MemOp)
  /-- LOCKQ (R354). -/
  | lockq (a : Nat) (m : MemOp)
  /-- CWB (R353). -/
  | cwb (m : MemOp)
  /-- CINV (R353). -/
  | cinv (m : MemOp)
  /-- CZERO (R353). -/
  | czero (m : MemOp)
  /-- AADD (R356). -/
  | aadd (a sa sb imm ty scp ord : Nat)
  /-- AAND (R356). -/
  | aand (a sa sb imm ty scp ord : Nat)
  /-- AOR (R356). -/
  | aor (a sa sb imm ty scp ord : Nat)
  /-- AXOR (R356). -/
  | axor (a sa sb imm ty scp ord : Nat)
  /-- AMIN (R356). -/
  | amin (a sa sb imm ty scp ord : Nat)
  /-- AMAX (R356). -/
  | amax (a sa sb imm ty scp ord : Nat)
  /-- AMINN (R356). -/
  | aminn (a sa sb imm ty scp ord : Nat)
  /-- AMAXN (R356). -/
  | amaxn (a sa sb imm ty scp ord : Nat)
  /-- ASWP (R356). -/
  | aswp (a sa sb imm ty scp ord : Nat)
  /-- ACAS (R356). -/
  | acas (a sa sb sc imm ty scp ord : Nat)
  /-- AFFCS (R356). -/
  | affcs (a sa imm ty scp ord : Nat)
  /-- APLSET (R356). -/
  | aplset (a sa sb sc imm ty scp ord : Nat)
  /-- AUPD (R357). -/
  | aupd (sa sb op imm ty scp : Nat)
  /-- FENCE (R359). -/
  | fence (scp ord : Nat)
  /-- TFENCE (R360). -/
  | tfence (scp : Nat)
  /-- BARA (R362). -/
  | bara (a bar : Nat)
  /-- BARW (R362). -/
  | barw (a bar sa : Nat)
  /-- BART (R362). -/
  | bart (a bar : Nat)
  /-- BARG (R362). -/
  | barg (a bar : Nat)
  /-- MIGR (R364). -/
  | migr (a sa : Nat)
  /-- VLD (R368). -/
  | vld (a : Nat) (m : MemOp) (ty : Nat)
  /-- VST (R368). -/
  | vst (a : Nat) (m : MemOp) (ty : Nat)
  /-- VLDS (R370). -/
  | vlds (a sa sb imm ty mk : Nat)
  /-- VLDX (R370). -/
  | vldx (a sa sb imm ty mk : Nat)
  /-- VSTX (R370). -/
  | vstx (a sa sb imm ty mk : Nat)
  /-- VADD (R372). -/
  | vadd (a sa sb ty mk : Nat) (sat : Bool)
  /-- VSUB (R372). -/
  | vsub (a sa sb ty mk : Nat) (sat : Bool)
  /-- VMUL (R372). -/
  | vmul (a sa sb ty mk : Nat) (sat : Bool)
  /-- VDIV (R372). -/
  | vdiv (a sa sb ty mk : Nat)
  /-- VMIN (R372). -/
  | vmin (a sa sb ty mk : Nat)
  /-- VMAX (R372). -/
  | vmax (a sa sb ty mk : Nat)
  /-- VFMA (R372). -/
  | vfma (a sa sb sc ty mk : Nat)
  /-- VFMS (R372). -/
  | vfms (a sa sb sc ty mk : Nat)
  /-- VAND (R372). -/
  | vand (a sa sb ty mk : Nat)
  /-- VOR (R372). -/
  | vor (a sa sb ty mk : Nat)
  /-- VXOR (R372). -/
  | vxor (a sa sb ty mk : Nat)
  /-- VSHL (R372). -/
  | vshl (a sa sb ty mk : Nat)
  /-- VSHR (R372). -/
  | vshr (a sa sb ty mk : Nat)
  /-- VSRA (R372). -/
  | vsra (a sa sb ty mk : Nat)
  /-- VSQRT (R373). -/
  | vsqrt (a sa ty mk : Nat)
  /-- VRSQ (R373). -/
  | vrsq (a sa ty mk : Nat)
  /-- VRCP (R373). -/
  | vrcp (a sa ty mk : Nat)
  /-- VEXP2 (R373). -/
  | vexp2 (a sa ty mk : Nat)
  /-- VLOG2 (R373). -/
  | vlog2 (a sa ty mk : Nat)
  /-- VABS (R373). -/
  | vabs (a sa ty mk : Nat)
  /-- VNEG (R373). -/
  | vneg (a sa ty mk : Nat)
  /-- VBC (R373). -/
  | vbc (a sa ty mk : Nat)
  /-- VCMP (R374). -/
  | vcmp (cond a sa sb ty mk : Nat)
  /-- VSEL (R375). -/
  | vsel (a sa sb sc ty : Nat)
  /-- VRED (R376). -/
  | vred (a sa op ty mk : Nat)
  /-- VSCAN (R376). -/
  | vscan (a sa op ty mk : Nat)
  /-- VPERM (R377). -/
  | vperm (a sa sb ty mk : Nat)
  /-- VSHUF (R377). -/
  | vshuf (a sa sb pattern ty mk : Nat)
  /-- VINS (R377). -/
  | vins (a sa lane ty mk : Nat)
  /-- VEXT (R378). -/
  | vext (a sa lane wsel : Nat)
  /-- VCVT (R379). -/
  | vcvt (a sa dcode scode part mk : Nat)
  /-- VENC (R380). -/
  | venc (a sa code part mk : Nat)
  /-- VDEC (R380). -/
  | vdec (a sa code part mk : Nat)
  /-- MKAND (R381). -/
  | mkand (a sa sb : Nat)
  /-- MKOR (R381). -/
  | mkor (a sa sb : Nat)
  /-- MKNOT (R381). -/
  | mknot (a sa : Nat)
  /-- MKSET (R381). -/
  | mkset (a sa : Nat)
  /-- MKPOP (R381). -/
  | mkpop (a sa : Nat)
  /-- TBLLD (R382). -/
  | tblld (t : Nat) (m : MemOp)
  /-- TBLRD (R383). -/
  | tblrd (a t sa : Nat)
  /-- FDTSET (R383). -/
  | fdtset (code sa : Nat)
  /-- FDTGET (R383). -/
  | fdtget (a code : Nat)
  /-- STRM (R384). -/
  | strm (s sa sb : Nat) (w v : Bool)
  /-- STRMX (R386). -/
  | strmx (s sa sb : Nat) (w v p : Bool)
  /-- STRMQ (R387). -/
  | strmq (a sa : Nat) (v : Bool)
  /-- MCFG_WEIGHTS (R392). -/
  | mcfgWeights (sa : Nat)
  /-- MMA (R393). -/
  | mma (sa : Nat)
  /-- MMAG (R394). -/
  | mmag (a sa sb : Nat)
  /-- MDRAIN (R395). -/
  | mdrain (sa sb : Nat) (q : Bool)
  /-- MRESUME (R396). -/
  | mresume (a sa : Nat)
  /-- MSTAT (R396). -/
  | mstat (a sa : Nat)
  /-- GATH (R397). -/
  | gath (sa : Nat)
  /-- SKIPB (R398). -/
  | skipb (sa sb : Nat)
  /-- CBDEF (R399). -/
  | cbdef (a sa sb : Nat)
  /-- CBWAIT_P (R400). -/
  | cbwaitP (a sa : Nat)
  /-- CBWAIT_C (R400). -/
  | cbwaitC (a sa : Nat)
  /-- CBPUB (R401). -/
  | cbpub (a sa : Nat)
  /-- CBADV (R401). -/
  | cbadv (a sa : Nat)
  /-- CBFREE (R401). -/
  | cbfree (a sa : Nat)
  /-- CBQ (R401). -/
  | cbq (a sa : Nat)
  /-- XCOPY (R402). -/
  | xcopy (sa : Nat)
  /-- XPOLL (R403). -/
  | xpoll (a sa : Nat)
  /-- XWAIT (R403). -/
  | xwait (a sa : Nat)
  /-- XCANCEL (R403). -/
  | xcancel (a sa : Nat)
  /-- JWAIT (R403). -/
  | jwait (a sa : Nat)
  /-- JPOLL (R403). -/
  | jpoll (a sa : Nat)
  /-- NRED (R405). -/
  | nred (a sa : Nat)
  /-- NRWAIT (R406). -/
  | nrwait (a sa : Nat)
  /-- NMCAST (R407). -/
  | nmcast (a sa : Nat)
  /-- PUTK (R410). -/
  | putk (a sa sb sc : Nat)
  /-- RDK_B (R412). -/
  | rdkB (a sa : Nat)
  /-- RDK_P (R412). -/
  | rdkP (a sa : Nat)
  /-- RDK_C (R412). -/
  | rdkC (a sa : Nat)
  /-- TAKK_B (R412). -/
  | takkB (a sa : Nat)
  /-- TAKK_P (R412). -/
  | takkP (a sa : Nat)
  /-- TAKK_C (R412). -/
  | takkC (a sa : Nat)
  /-- KCANCEL (R413). -/
  | kcancel (a sa sb : Nat)
  /-- KRANGE (R414). -/
  | krange (a sa sb : Nat)
  /-- KSPLIT (R415). -/
  | ksplit (a sa : Nat)
  /-- MSEND (R417). -/
  | msend (sa sb sc len : Nat) (hi : Bool) (ch : Nat)
  /-- MSENDA (R418). -/
  | msenda (a sa sb sc len : Nat) (hi : Bool) (ch : Nat)
  /-- MREPLY (R419). -/
  | mreply (sa len : Nat)
  /-- SPAWN (R421). -/
  | spawn (a sa : Nat)
  /-- SPAWNT (R422). -/
  | spawnt (a sa sb : Nat)
  /-- POPT (R423). -/
  | popt (a sa : Nat)
  /-- STEAL (R424). -/
  | steal (a sa sb : Nat)
  /-- LNCH (R426). -/
  | lnch (a sa sb : Nat)
  /-- GLD (R430). -/
  | gld (a sa sb sd : Nat)
  /-- GST (R430). -/
  | gst (a sa sb sc sd : Nat)
  /-- GADD (R431). -/
  | gadd (a sa sb : Nat)
  /-- GDAMP (R431). -/
  | gdamp (a sa sb sc : Nat)
  /-- GELIM (R431). -/
  | gelim (a sa sb sc da db : Nat)
  /-- GRES (R432). -/
  | gres (a sa sb sc sd d : Nat)
  /-- GPOST (R432). -/
  | gpost (a sa sb sc sd : Nat)
  /-- CMV_START (R433). -/
  | cmvStart (a arr sa sb sc : Nat)
  /-- CPROG (R433). -/
  | cprog (a arr sa sb sc : Nat)
  /-- CCAL (R433). -/
  | ccal (a arr : Nat)
  /-- CQRY (R433). -/
  | cqry (a arr sel : Nat)
  /-- CMV_READ (R434). -/
  | cmvRead (a arr grp : Nat)
  /-- EADD (R435). -/
  | eadd (a sa sb : Nat)
  /-- ESUB (R435). -/
  | esub (a sa sb : Nat)
  /-- EMUL (R435). -/
  | emul (a sa sb : Nat)
  /-- EFMA (R435). -/
  | efma (a sa sb sc : Nat)
  /-- EMOV (R435). -/
  | emov (a sa : Nat)
  /-- ADMIT (R436). -/
  | admitB (a sa sb sc : Nat)
  /-- EBND (R436). -/
  | ebnd (a sa : Nat)
  /-- NBC (R438). -/
  | nbc (a sa sb : Nat)
  /-- NBOV (R439). -/
  | nbov (a sa sb : Nat)
  /-- NBMODE_NORMAL (R219). -/
  | nbmodeNormal (a sa sb : Nat)
  /-- NBSTAT (R227). -/
  | nbstat (a sa sel : Nat)
  /-- MFS (R440). -/
  | mfs (a num : Nat)
  /-- MTS (R440). -/
  | mts (num sa : Nat)
  /-- TRET_RESUME (R275). -/
  | tretResume (a sa : Nat)
  /-- TRET_SKIP (R275). -/
  | tretSkip (a sa : Nat)
  /-- TRET_END (R275). -/
  | tretEnd (a sa : Nat)
  /-- SYSC (R442). -/
  | sysc (n : Nat)
  /-- TLBI_INV (R147). -/
  | tlbiInv (a sa : Nat)
  /-- TLBI_INVALL (R147). -/
  | tlbiInvall (a sa : Nat)
  /-- TLBI_UNMAP (R148). -/
  | tlbiUnmap (a sa : Nat)
  /-- TLBI_MOVE (R147). -/
  | tlbiMove (a sa : Nat)
  /-- TLBI_MOVEF (R148). -/
  | tlbiMovef (a sa : Nat)
  /-- TLBI_REL (R149). -/
  | tlbiRel (a sa : Nat)
  /-- CTXSV (R279). -/
  | ctxsv (a sa sb : Nat)
  /-- CTXLD (R282). -/
  | ctxld (a sa sb : Nat)
  /-- PKILL (R283). -/
  | pkill (a sa : Nat)
  /-- NBU_OPEN (R224). -/
  | nbuOpen (w s : Nat)
  /-- NBU_SETB_MASK (R224). -/
  | nbuSetbMask (m : Nat)
  /-- NBU_SETB_REG (R224). -/
  | nbuSetbReg (s : Nat)
  /-- NBU_RDCOL (R224). -/
  | nbuRdcol (s t c : Nat)
  /-- NBU_WRCOL (R224). -/
  | nbuWrcol (t c : Nat)
  /-- NBU_MACB (R224). -/
  | nbuMacb (d t c : Nat)
  /-- NBU_MACB_ONES (R224). -/
  | nbuMacbOnes (d t c : Nat)
  /-- NBU_CLRA (R224). -/
  | nbuClra (d : Nat)
  /-- NBU_ADDA (R224). -/
  | nbuAdda (d s : Nat)
  /-- NBU_MAXA (R224). -/
  | nbuMaxa (d s : Nat)
  /-- NBU_SCALA (R224). -/
  | nbuScala (d s : Nat)
  /-- NBU_WBACC (R224). -/
  | nbuWbacc (s b t c : Nat)
  /-- NBU_WBACC_BF (R224). -/
  | nbuWbaccBf (s b t c : Nat)
  /-- NBU_LDI (R224). -/
  | nbuLdi (d i : Nat)
  /-- NBU_ADDI (R224). -/
  | nbuAddi (d s i : Nat)
  /-- NBU_ADD (R224). -/
  | nbuAdd (d s t : Nat)
  /-- NBU_SUB (R224). -/
  | nbuSub (d s t : Nat)
  /-- NBU_AND (R224). -/
  | nbuAnd (d s t : Nat)
  /-- NBU_SHL (R224). -/
  | nbuShl (d s t : Nat)
  /-- NBU_BEQ (R224). -/
  | nbuBeq (s t f : Nat)
  /-- NBU_BNE (R224). -/
  | nbuBne (s t f : Nat)
  /-- NBU_BLT (R224). -/
  | nbuBlt (s t f : Nat)
  /-- NBU_LOOP (R224). -/
  | nbuLoop (s f : Nat)
  /-- NBU_JMP (R224). -/
  | nbuJmp (f : Nat)
  /-- NBU_REPORT (R224). -/
  | nbuReport (s : Nat)
  /-- DEVICE_RESET (R24). -/
  | deviceReset
  /-- BRING_UP_STEP_COMPLETE (R24). -/
  | bringUpStepComplete (step : Nat) (ok : Bool)
  /-- ISL_CTL_WRITE (R17). -/
  | islCtlWrite (isl : Nat) (v : Word)
  /-- OPERATING_POINT_CHANGE_DONE (R16). -/
  | operatingPointChangeDone (isl : Nat)
  /-- POWER_WINDOW (R19). -/
  | powerWindow (milliwatts : Nat) (heat : List Nat)
  /-- HEAT_FLUX_WINDOW (R20). -/
  | heatFluxWindow (cluster milliwattsPerCm2 : Nat)
  /-- ALARM_RAISE (R72). -/
  | alarmRaise (source : AlarmSource) (die : Nat)
  /-- KEY_ERASURE_DONE (R74). -/
  | keyErasureDone
  /-- PATROL_SCRUB (R23). -/
  | patrolScrub (site : EccSite) (finding : ScrubFinding)
  /-- ECC_CORR_WRITE (R23). -/
  | eccCorrWrite (die : Nat) (v : Word)
  /-- REGISTER_WRITE (R7). -/
  | registerWrite (off : Nat) (v : Word)
  /-- FAB_DIM_WRITE (R52). -/
  | fabDimWrite (v : Word)
  /-- FAB_RTO_WRITE (R52). -/
  | fabRtoWrite (v : Word)
  /-- FAB_ERR_WRITE (R52). -/
  | fabErrWrite (v : Word)
  /-- RETRAIN (R34). -/
  | retrain (port : Nat)
  /-- DISABLE (R52). -/
  | disable (port : Nat) (hold : Bool)
  /-- VMISMATCH_CLEAR (R52). -/
  | vmismatchClear (port : Nat)
  /-- LINK_TRAINING_WORDS (R35). -/
  | linkTrainingWords (port : Nat) (version : BitVec 32) (features : Word)
  /-- LANE_LOCK_LOSS (R34). -/
  | laneLockLoss (port : Nat)
  /-- CONTROL_WORD_TIMEOUT (R34). -/
  | controlWordTimeout (port : Nat)
  /-- FLIT_ARRIVE (R31). -/
  | flitArrive (fs : List ArrivingFlit)
  /-- SWAP_INJECT (R32). -/
  | swapInject (passing : List ArrivingFlit)
  /-- FLIT_DELIVER (R39). -/
  | flitDeliver (f : Flit)
  /-- AEAD_PAD (R37). -/
  | aeadPad (dst vc : Nat)
  /-- ACK_TIMER (R40). -/
  | ackTimer (src vc : Nat)
  /-- ACK (R40). -/
  | ack (src : Nat) (pairs : List (Nat × BitVec 32))
  /-- RESPONSE_ACK (R42). -/
  | responseAck (src vc : Nat) (upTo : BitVec 32)
  /-- ARESP (R42). -/
  | aresp (f : Flit)
  /-- REPLAY_TIMER_EXPIRY (R41). -/
  | replayTimerExpiry (dst vc : Nat)
  /-- DEVICE_LOST_DECLARE (R43). -/
  | deviceLostDeclare (dev : Nat)
  /-- MCAST_COPY (R46). -/
  | mcastCopy (c : McastCopy)
  /-- MCAST_STATUS (R46). -/
  | mcastStatus (job : Word) (member : Nat) (status : Word)
  /-- REDC (R47). -/
  | redc (m : RedMsg)
  /-- REDR (R47). -/
  | redr (m : RedMsg)
  /-- CIDAN_LINK_FLIT (R54). -/
  | cidanLinkFlit (crcOk : Bool)
  /-- CIDAN_LINK_TRAINING_DONE (R54). -/
  | cidanLinkTrainingDone (ok : Bool) (version : BitVec 32) (features : Word)
  /-- CIDAN_LANE_LOCK_TIMEOUT (R54). -/
  | cidanLaneLockTimeout
  /-- LOW_POWER_IDLE (R55). -/
  | lowPowerIdle
  /-- APERTURE_READ (R57). -/
  | apertureRead (pa n : Nat) (tag : Word)
  /-- APERTURE_WRITE (R57). -/
  | apertureWrite (pa : Nat) (bytes : List Byte)
  /-- PEER_TO_PEER_REJECT (R53). -/
  | peerToPeerReject (tag : Word)
  /-- BAR_ACCESS_LINK_DOWN (R56). -/
  | barAccessLinkDown (write : Bool) (a : BarAccess)
  /-- HR_CTL_WRITE (R58). -/
  | hrCtlWrite (fn ring : Nat) (v : Word)
  /-- HR_TAIL_WRITE (R58). -/
  | hrTailWrite (fn ring : Nat) (v : Word)
  /-- HOST_NOP (R59). -/
  | hostNop (c : HostCmd)
  /-- HOST_WRITE (R59). -/
  | hostWrite (c : HostCmd)
  /-- HOST_READ (R59). -/
  | hostRead (c : HostCmd)
  /-- HOST_LAUNCH (R60). -/
  | hostLaunch (c : HostCmd)
  /-- HOST_SIGNAL (R59). -/
  | hostSignal (c : HostCmd)
  /-- GATE_CLOSE (R67). -/
  | gateClose (c : HostCmd)
  /-- GATE_OPEN (R67). -/
  | gateOpen (c : HostCmd)
  /-- ATTEST (R71). -/
  | attest (c : HostCmd)
  /-- HOST_CMD_COMPLETE (R60). -/
  | hostCmdComplete (c : HostCompletion)
  /-- GATE_DRAINED (R68). -/
  | gateDrained (region : Nat)
  /-- PARTITION_ENTRY_WRITE (R64). -/
  | partitionEntryWrite (part : Nat) (e : PartEntry)
  /-- LAUNCH_QUEUE_CFG_WRITE (R82). -/
  | launchQueueCfgWrite (q : Nat) (v : Word)
  /-- PERIOD_START (R84). -/
  | periodStart (q : Nat)
  /-- DEPENDENCE_TEST (R85). -/
  | dependenceTest (q : Nat)
  /-- TASK_PLACE (R86). -/
  | taskPlace
  /-- TASK_START (R93). -/
  | taskStart (core : Nat)
  /-- TASK_END (R76). -/
  | taskEnd (task : Nat)
  /-- SHOTCLOCK (R103). -/
  | shotclock (task : Nat)
  /-- HANDLER_SHOTCLOCK (R117). -/
  | handlerShotclock (core ctx : Nat)
  /-- QUIESCE_REQUEST (R104). -/
  | quiesceRequest (part : Nat)
  /-- PARTITION_QUIET (R104). -/
  | partitionQuiet (part : Nat)
  /-- UMPIRE_TICK (R101). -/
  | umpireTick (part : Nat)
  /-- MESSAGE_ARRIVE (R112). -/
  | messageArrive (core : Nat) (m : Msg)
  /-- ACKNOWLEDGEMENT_ARRIVE (R111). -/
  | acknowledgementArrive (core : Nat) (a : Ack)
  /-- HANDLER_START (R114). -/
  | handlerStart (core ctx : Nat)
  /-- OUTGOING_SEND (R115). -/
  | outgoingSend (core : Nat)
  /-- OUTGOING_RESEND (R115). -/
  | outgoingResend (core : Nat) (seqn : BitVec 32)
  /-- TRAP_RECORD_RESEND (R274). -/
  | trapRecordResend (r : TrapRecord)
  /-- ARRIVAL_ENTRY_RESERVE (R118). -/
  | arrivalEntryReserve (d : Arrival)
  /-- ARRIVAL_READY (R118). -/
  | arrivalReady (d : Arrival)
  /-- ARRIVAL_HANDLER_START (R118). -/
  | arrivalHandlerStart (core ctx : Nat)
  /-- PENDING_VALUE_ARRIVE (R119). -/
  | pendingValueArrive (dst : RegDest) (v : Reply)
  /-- REMOTE_FAULT_DELIVER (R350). -/
  | remoteFaultDeliver (core ctx : Nat) (p : Poison)
  /-- PEER_ACCESS_SERVE (R121). -/
  | peerAccessServe (r : RemoteAccess)
  /-- MIGRATION_REQUEST (R123). -/
  | migrationRequest (m : Migration)
  /-- MIGRATION_REPLY (R123). -/
  | migrationReply (m : Migration) (accepted : Bool)
  /-- MIGRATION_IMAGE (R123). -/
  | migrationImage (m : Migration)
  /-- MIGRATION_IMAGE_ACK (R123). -/
  | migrationImageAck (m : Migration)
  /-- HOME_REQUEST (R132). -/
  | homeRequest (line node : Nat)
  /-- ENGINE_LINE_RELEASE (R135). -/
  | engineLineRelease (job : Word) (line : Nat)
  /-- WALK_COMPLETE (R145). -/
  | walkComplete (cluster : Nat) (va : Word)
  /-- TLBI_WALKER_MESSAGE (R147). -/
  | tlbiWalkerMessage (t : TlbiMsg) (cluster : Nat)
  /-- TLBI_ACKNOWLEDGE (R147). -/
  | tlbiAcknowledge (t : TlbiMsg) (cluster : Nat)
  /-- TUPLE_PUT (R160). -/
  | tuplePut (r : TupleReq)
  /-- TUPLE_READ_TAKE (R161). -/
  | tupleReadTake (r : TupleReq)
  /-- TUPLE_CANCEL (R164). -/
  | tupleCancel (r : TupleReq)
  /-- TUPLE_WITHDRAW (R165). -/
  | tupleWithdraw (r : TupleReq)
  /-- TUPLE_DELIVERY_COMPLETE (R162). -/
  | tupleDeliveryComplete (d : Delivery)
  /-- HANDOFF_SPLIT (R169). -/
  | handoffSplit (h : Handoff)
  /-- HANDOFF_COPY_RECEIVE (R169). -/
  | handoffCopyReceive (h : Handoff) (i : HandoffItem)
  /-- HANDOFF_FREEZE (R169). -/
  | handoffFreeze (h : Handoff)
  /-- HANDOFF_CUTOVER (R169). -/
  | handoffCutover (h : Handoff)
  /-- HANDOFF_SWITCH (R169). -/
  | handoffSwitch (h : Handoff)
  /-- HANDOFF_ABANDON (R168). -/
  | handoffAbandon (h : Handoff) (status : Word)
  /-- MOVED (R171). -/
  | moved (part lo last dev : Nat)
  /-- MATRIX_GRAIN (R175). -/
  | matrixGrain (cluster : Nat)
  /-- JOB_COMPLETE (R190). -/
  | jobComplete (job : Word)
  /-- USER_INTERRUPT (R191). -/
  | userInterrupt (core ctx : Nat)
  /-- ENGINE_FAULT_DELIVER (R276). -/
  | engineFaultDeliver (f : EngineFault)
  /-- COPY_ROW (R402). -/
  | copyRow (cluster core : Nat)
  /-- COPY_ARRIVAL_WAIT (R192). -/
  | copyArrivalWait (cluster core : Nat)
  /-- GATHER_ROW (R188). -/
  | gatherRow (cluster core : Nat)
  /-- DRAIN_ROW (R395). -/
  | drainRow (cluster core : Nat)
  /-- STREAM_UNIT (R385). -/
  | streamUnit (core ctx reg : Nat)
  /-- XBAR_COMMAND_HEAD (R196). -/
  | xbarCommandHead (cluster arr : Nat)
  /-- XBAR_PRODUCT_COMPLETE (R201). -/
  | xbarProductComplete (cluster arr : Nat) (readings : List Int) (refA refB : Int)
  /-- XBAR_PROGRAM_ROW (R197). -/
  | xbarProgramRow (cluster arr : Nat) (unverified : Nat)
  /-- CALIBRATION_COMPLETE (R202). -/
  | calibrationComplete (cluster arr : Nat) (beta gamma : BitVec 32)
  /-- NBU_STEP (R223). -/
  | nbuStep (u : Nat)
  /-- NBU_ORDINARY_ACCESS (R228). -/
  | nbuOrdinaryAccess (u : Nat) (a : OrdinaryAccess)
  /-- NBU_REQUEST (R437). -/
  | nbuRequest (u : Nat) (r : NbEnvelope)
  /-- TRAP_DELIVER_SUPERVISOR (R274). -/
  | trapDeliverSupervisor (r : TrapRecord)
  /-- TRAP_DELIVER_TVEC (R273). -/
  | trapDeliverTvec (core ctx : Nat) (t : Trap)
  /-- CORE_MQCAP_WRITE (R457). -/
  | coreMqcapWrite (core : Nat) (v : Word)
  /-- SLEEP_WAKE (R330). -/
  | sleepWake (core ctx : Nat) (countExpired : Bool)
  /-- BARRIER_GENERATION_COMPLETE (R361). -/
  | barrierGenerationComplete (b : BarrierId)
  /-- LAUNCH_SUBMIT (R81). -/
  | launchSubmit (r : Submission)
  /-- HALT_WAKE (R445). -/
  | haltWake
  /-- STORE_ACKNOWLEDGE (R350). -/
  | storeAcknowledge (core ctx : Nat)
  /-- VICTIM_QUEUE_STEAL (R424). -/
  | victimQueueSteal (q : StealReq)
  /-- TRET_HANDLE_ARRIVE (R441). -/
  | tretHandleArrive (t : TretReq)
  /-- MRESUME_AT_UNIT (R396). -/
  | mresumeAtUnit (r : ResumeReq)
  /-- ALARM_CONDITION_END (R72). -/
  | alarmConditionEnd (source : AlarmSource) (die : Nat)
  /-- LOW_POWER_IDLE_EXIT (R55). -/
  | lowPowerIdleExit
  /-- SORTED_INDEX_BUILT (R248). -/
  | sortedIndexBuilt (core t : Nat)
  /-- NBMODE_COMPUTE (R219). -/
  | nbmodeCompute (a sa sb : Nat)
  /-- NBMODE_RESUME (R226). -/
  | nbmodeResume (a sa sb : Nat)
  /-- NOP (R329). -/
  | nop
  /-- END (R329). -/
  | endWork
  /-- MCFG_DISCARD (R392). -/
  | mcfgDiscard
  /-- MZERO (R395). -/
  | mzero
  /-- UIRET (R404). -/
  | uiret
  /-- MDEFER (R420). -/
  | mdefer
  /-- TABORT (R425). -/
  | tabort
  /-- TRET (R441). -/
  | tret
  /-- HALT (R445). -/
  | halt
  /-- NBU_HALT (R224). -/
  | nbuHalt
  /-- NBU_CLOSE (R224). -/
  | nbuClose
  deriving DecidableEq, Repr

end Sys2Proof
end

