-- ==== Sys2Proof/Machine/Encoding.lean ====
section
/-! DEFINITION. The encodings of chapters 15 and 16: the raw fields of a head and a tail (R285, R294, R295), how they are
packed and unpacked, the rows of the opcode map with the class of every field (R309 to R322), and the checks of R324 with
their reasons. `Instr.raw` and `build` say which fields carry which operand of each instruction. -/

namespace Sys2Proof

/-- The fields of a head and a tail. A field that a form does not hold is 0. `rsv` holds the bits that R294 and R295 keep
zero in every tail (MOD bit 15, FMEM bit 15). -/
structure Raw where
  op : Nat := 0
  a : Nat := 0
  sa : Nat := 0
  sb : Nat := 0
  sub : Nat := 0
  ty : Nat := 0
  sat : Bool := false
  scp : Nat := 0
  ord : Nat := 0
  md : Nat := 0
  ch : Nat := 0
  sc : Nat := 0
  sd : Nat := 0
  sub2 : Nat := 0
  ix : Bool := false
  scl : Nat := 0
  imm : Nat := 0
  rsv : Nat := 0
  deriving DecidableEq, Repr

/-- The memory operand in the fields of an FMEMO tail (R294). -/
def Raw.mem (r : Raw) : MemOp := { sa := r.sa, sb := r.sb, ix := r.ix, scl := r.scl, imm := r.imm }

/-- The tail forms of R294 that chapter 16 uses. -/
inductive Form where
  | f0 | frr | fri | frm | frx | ft32 | fmemo | fwide | fi64
  deriving DecidableEq, Repr

/-- The TL code of a form (R285, R294). -/
def Form.tl : Form → Nat
  | .f0 => 0
  | .frr => 1
  | .fri => 1
  | .frm => 2
  | .frx => 2
  | .ft32 => 2
  | .fmemo => 3
  | .fwide => 3
  | .fi64 => 3

/-- The length of a tail in bytes by its TL code (R285). -/
def tailLen : Nat → Nat
  | 0 => 0
  | 1 => 2
  | 2 => 4
  | _ => 8

/-- The form of every major opcode (R312 to R322), none when it is reserved (R323). -/
def formOf (op : Nat) : Option Form :=
  match op with
  | 0x00 => some .f0
  | 0x01 => some .ft32
  | 0x02 => some .f0
  | 0x03 => some .frx
  | 0x04 => some .ft32
  | 0x05 => some .ft32
  | 0x06 => some .ft32
  | 0x07 => some .frr
  | 0x08 => some .frr
  | 0x09 => some .frr
  | 0x0A => some .ft32
  | 0x0B => some .fri
  | 0x0C => some .fri
  | 0x0D => some .fri
  | 0x20 => some .fi64
  | 0x21 => some .frm
  | 0x22 => some .frm
  | 0x23 => some .frm
  | 0x24 => some .frx
  | 0x25 => some .fwide
  | 0x26 => some .fmemo
  | 0x27 => some .frx
  | 0x28 => some .frx
  | 0x50 => some .fmemo
  | 0x51 => some .fmemo
  | 0x52 => some .fmemo
  | 0x53 => some .fmemo
  | 0x54 => some .fmemo
  | 0x55 => some .fmemo
  | 0x56 => some .fmemo
  | 0x57 => some .fmemo
  | 0x58 => some .fmemo
  | 0x60 => some .fwide
  | 0x68 => some .frm
  | 0x69 => some .frm
  | 0x6A => some .frx
  | 0x6B => some .frr
  | 0x80 => some .fmemo
  | 0x81 => some .fmemo
  | 0x82 => some .fwide
  | 0x83 => some .fwide
  | 0x84 => some .fwide
  | 0x88 => some .fwide
  | 0x89 => some .fwide
  | 0x8A => some .fwide
  | 0x8B => some .fwide
  | 0x8C => some .fwide
  | 0x8D => some .frx
  | 0x90 => some .fwide
  | 0x91 => some .fwide
  | 0x92 => some .fwide
  | 0x94 => some .frr
  | 0x95 => some .frr
  | 0x98 => some .fmemo
  | 0x99 => some .frx
  | 0x9C => some .frr
  | 0x9D => some .frr
  | 0x9E => some .frr
  | 0xB0 => some .frx
  | 0xB1 => some .frr
  | 0xB2 => some .frr
  | 0xB3 => some .frr
  | 0xB4 => some .f0
  | 0xB5 => some .frr
  | 0xB6 => some .frr
  | 0xB7 => some .frr
  | 0xB8 => some .frr
  | 0xBA => some .frr
  | 0xBB => some .frm
  | 0xBC => some .frr
  | 0xC0 => some .frr
  | 0xC1 => some .frr
  | 0xC2 => some .f0
  | 0xC8 => some .frr
  | 0xC9 => some .frr
  | 0xCA => some .frr
  | 0xD0 => some .fwide
  | 0xD1 => some .frm
  | 0xD2 => some .frm
  | 0xD3 => some .frr
  | 0xD4 => some .frr
  | 0xD5 => some .frr
  | 0xD8 => some .fwide
  | 0xD9 => some .fwide
  | 0xDA => some .frx
  | 0xDB => some .f0
  | 0xE0 => some .frr
  | 0xE1 => some .frr
  | 0xE2 => some .frr
  | 0xE3 => some .frr
  | 0xE4 => some .f0
  | 0xE5 => some .frr
  | 0xE8 => some .fwide
  | 0xE9 => some .fwide
  | 0xEA => some .fwide
  | 0xEB => some .fwide
  | 0xEC => some .fwide
  | 0xED => some .fwide
  | 0xEE => some .frx
  | 0xEF => some .fwide
  | 0xF0 => some .fwide
  | 0xF1 => some .frr
  | 0xF2 => some .frx
  | 0xF8 => some .frx
  | 0xF9 => some .frx
  | 0xFA => some .frr
  | 0xFB => some .fri
  | 0xFC => some .frr
  | 0xFD => some .frr
  | 0xFE => some .f0
  | _ => none

/-- The MOD parcel (R295). -/
def Raw.mod (r : Raw) : Nat :=
  r.ty + r.sat.toNat * 2 ^ 4 + r.scp * 2 ^ 5 + r.ord * 2 ^ 8 + r.md * 2 ^ 11 + r.ch * 2 ^ 13 + r.rsv % 2 * 2 ^ 15

/-- Parcel 0 of the FRR family (R294). -/
def Raw.p0 (r : Raw) : Nat := r.sa + r.sb * 2 ^ 6 + r.sub * 2 ^ 12

/-- Parcel 0 of FMEMO (R294). -/
def Raw.p0m (r : Raw) : Nat := r.sa + r.sb * 2 ^ 6 + r.ix.toNat * 2 ^ 12 + r.scl * 2 ^ 13 + r.rsv / 2 * 2 ^ 15

/-- The tail of `r` in form `f` as one little-endian number (R286, R294). -/
def Raw.tail (r : Raw) : Form → Nat
  | .f0 => 0
  | .frr => r.p0
  | .fri => r.sa + r.imm * 2 ^ 6
  | .frm => r.p0 + r.mod * 2 ^ 16
  | .frx => r.p0 + r.imm * 2 ^ 16
  | .ft32 => r.imm
  | .fmemo => r.p0m + r.mod * 2 ^ 16 + r.imm * 2 ^ 32
  | .fwide => r.p0 + r.mod * 2 ^ 16 + r.sc * 2 ^ 32 + r.sd * 2 ^ 38 + r.sub2 * 2 ^ 44 + r.imm * 2 ^ 48
  | .fi64 => r.imm

/-- The head of `r` in form `f` (R285). -/
def Raw.head (r : Raw) (f : Form) : Nat := r.a + r.op * 2 ^ 6 + f.tl * 2 ^ 14

/-- Bits `lo` to `lo + w - 1` of a number. -/
def fieldOf (x lo w : Nat) : Nat := x / 2 ^ lo % 2 ^ w

/-- The fields that tail `t` of form `f` holds, beside opcode `op` and field A `a` (R294, R295). -/
def unpack (op a t : Nat) : Form → Raw
  | .f0 => { op := op, a := a }
  | .frr => { op := op, a := a, sa := fieldOf t 0 6, sb := fieldOf t 6 6, sub := fieldOf t 12 4 }
  | .fri => { op := op, a := a, sa := fieldOf t 0 6, imm := fieldOf t 6 10 }
  | .frm => { op := op, a := a, sa := fieldOf t 0 6, sb := fieldOf t 6 6, sub := fieldOf t 12 4, ty := fieldOf t 16 4,
              sat := fieldOf t 20 1 == 1, scp := fieldOf t 21 3, ord := fieldOf t 24 3, md := fieldOf t 27 2,
              ch := fieldOf t 29 2, rsv := fieldOf t 31 1 }
  | .frx => { op := op, a := a, sa := fieldOf t 0 6, sb := fieldOf t 6 6, sub := fieldOf t 12 4, imm := fieldOf t 16 16 }
  | .ft32 => { op := op, a := a, imm := fieldOf t 0 32 }
  | .fmemo => { op := op, a := a, sa := fieldOf t 0 6, sb := fieldOf t 6 6, ix := fieldOf t 12 1 == 1,
                scl := fieldOf t 13 2, ty := fieldOf t 16 4, sat := fieldOf t 20 1 == 1, scp := fieldOf t 21 3,
                ord := fieldOf t 24 3, md := fieldOf t 27 2, ch := fieldOf t 29 2,
                rsv := fieldOf t 31 1 + 2 * fieldOf t 15 1, imm := fieldOf t 32 32 }
  | .fwide => { op := op, a := a, sa := fieldOf t 0 6, sb := fieldOf t 6 6, sub := fieldOf t 12 4, ty := fieldOf t 16 4,
                sat := fieldOf t 20 1 == 1, scp := fieldOf t 21 3, ord := fieldOf t 24 3, md := fieldOf t 27 2,
                ch := fieldOf t 29 2, rsv := fieldOf t 31 1, sc := fieldOf t 32 6, sd := fieldOf t 38 6,
                sub2 := fieldOf t 44 4, imm := fieldOf t 48 16 }
  | .fi64 => { op := op, a := a, imm := fieldOf t 0 64 }

/-- Every field lies within its width in form `f`, and a field the form does not hold is 0: exactly the records that
`unpack` makes. -/
def Raw.fits (r : Raw) (f : Form) : Bool :=
  decide (r.op < 256) && decide (r.a < 64) && decide (r.tail f < 2 ^ (8 * tailLen f.tl)) &&
    unpack r.op r.a (r.tail f) f == r

/-- The class of a field: not used (must be zero), a register class of R297, an even pair or a stream register. -/
inductive Cls where
  | zero | g | v | m | b | q | pair | sg | sv | any
  deriving DecidableEq, Repr

/-- Whether specifier `x` lies outside class `c` (R297, R310, R317). An unused field is no matter of class. -/
def Cls.outside : Cls → Nat → Bool
  | .zero, _ => false
  | .g, x => decide (15 < x)
  | .v, x => decide (31 < x)
  | .m, x => decide (7 < x)
  | .b, x => decide (7 < x)
  | .q, x => decide (15 < x)
  | .pair, x => decide (15 < x) || x % 2 == 1
  | .sg, x => decide (x < 12) || decide (15 < x)
  | .sv, x => decide (x < 24) || decide (31 < x)
  | .any, _ => false

/-- Whether a field that the row does not use is not zero (R296). -/
def Cls.stray : Cls → Nat → Bool
  | .zero, x => x != 0
  | _, _ => false

/-- How a row uses the SUB and SUB2 fields: not at all, as a selector among values below `n`, or as a mask selector. -/
inductive SubUse where
  | unused | below (n : Nat) | maskSel
  deriving DecidableEq, Repr

/-- A row of the opcode map: the class of each field, the IMM bits in use, and the MOD fields it takes. `ty` lists the TY
codes that are not reserved for it. -/
structure Row where
  a : Cls := .zero
  sa : Cls := .zero
  sb : Cls := .zero
  sc : Cls := .zero
  sd : Cls := .zero
  imm : Nat := 0
  ty : List Nat := []
  sat : Bool := false
  scp : Bool := false
  ord : Bool := false
  md : List Nat := []
  ch : Bool := false
  sub : SubUse := .unused
  sub2 : SubUse := .unused
  deriving DecidableEq, Repr

/-- TY codes of the scalar integer opcodes (R311). -/
def tyInt : List Nat := [0, 1, 2, 3, 4, 5, 6, 7]
/-- TY codes that are assigned (R295, Table 5). -/
def tyAny : List Nat := [0, 1, 2, 3, 4, 5, 6, 7, 8, 9, 10, 11, 12, 13]
/-- TY codes of the atomic group, with .f32 where `f` (R316). -/
def tyAtomic (f : Bool) : List Nat := if f then [2, 3, 6, 7, 10] else [2, 3, 6, 7]

def imm16 : Nat := 0xFFFF

/-- The rows of chapters 0x00 to 0x4F (R312 to R314). A group's SUB is checked against its table first (`below`). -/
def rowControl (op sub : Nat) : Option Row :=
  match op with
  | 0x00 => some {}
  | 0x01 => some { imm := 0xFFFFFFFF }
  | 0x02 => some {}
  | 0x03 => some { sa := .g, sb := .g, imm := imm16, sub := .below 6 }
  | 0x04 => some { a := .g, imm := 0xFFFFFFFF }
  | 0x05 => some { a := .g, imm := 0xFFFFFFFF }
  | 0x06 => some { a := .g, imm := 0xFFFFFFFF }
  | 0x07 => some { a := .g, sa := .g }
  | 0x08 => some { sa := .g }
  | 0x09 => some { sa := .g }
  | 0x0A => some { a := .g, imm := 0xFFFFFFFF }
  | 0x0B => some { sa := .g, imm := 0x3FF }
  | 0x0C => some { imm := 0x3FF }
  | 0x0D => some { imm := 0x3FF }
  | 0x20 => some { a := .g, imm := 0xFFFFFFFFFFFFFFFF }
  | 0x21 => some { a := .g, sa := .g, sb := .g, ty := tyInt, sat := decide (sub < 3), sub := .below 16 }
  | 0x22 => some { a := .g, sa := .g, sb := .g, ty := tyInt, sub := .below 8 }
  | 0x23 => some { a := .g, sa := .g, ty := tyInt, sub := .below 7 }
  | 0x24 => some { a := .g, sa := .g, imm := if sub < 4 then imm16 else 0x3F, sub := .below 7 }
  | 0x25 => some { a := .g, sa := .g, sb := .g, sc := .g }
  | 0x26 => some { a := .g, sa := .g, sb := .g, imm := 0xFFFFFFFF }
  | 0x27 =>
    match sub with
    | 0 => some { a := .g, sa := .g, sb := .g, sub := .below 7 }
    | 1 => some { a := .g, sa := .g, imm := imm16, sub := .below 7 }
    | 2 => some { a := .g, sa := .g, imm := 0x3FF, sub := .below 7 }
    | 6 => some { a := .g, sa := .g, imm := 1, sub := .below 7 }
    | _ => some { a := .g, sa := .g, sub := .below 7 }
  | 0x28 =>
    match sub with
    | 0 => some { a := .g, sa := .g, sb := .g, sub := .below 4 }
    | 1 => some { a := .g, sa := .g, imm := 0x1FFF, sub := .below 4 }
    | 2 => some { a := .g, sa := .g, sub := .below 4 }
    | _ => some { a := .g, sa := .g, sb := .g, imm := 0x7F, sub := .below 4 }
  | _ => none

/-- The rows of 0x50 to 0x7F (R315, R316). -/
def rowMemory (op sub : Nat) : Option Row :=
  match op with
  | 0x50 => some { a := .g, sa := .g, sb := .g, imm := 0xFFFFFFFF, ty := tyInt, scp := true, ord := true }
  | 0x51 => some { a := .g, sa := .g, sb := .g, imm := 0xFFFFFFFF, ty := tyInt, scp := true, ord := true, ch := true }
  | 0x52 => some { sa := .g, sb := .g, imm := 0xFFFFFFFF }
  | 0x53 => some { a := .g, sa := .g, sb := .g, imm := 0xFFFFFFFF }
  | 0x54 => some { a := .g, sa := .g, sb := .g, imm := 0xFFFFFFFF }
  | 0x55 => some { a := .g, sa := .g, sb := .g, imm := 0xFFFFFFFF }
  | 0x56 => some { sa := .g, sb := .g, imm := 0xFFFFFFFF }
  | 0x57 => some { sa := .g, sb := .g, imm := 0xFFFFFFFF }
  | 0x58 => some { sa := .g, sb := .g, imm := 0xFFFFFFFF }
  | 0x60 =>
    match sub with
    | 9 => some { a := .g, sa := .g, sb := .g, sc := .g, imm := imm16, ty := tyAtomic false, scp := true, ord := true,
                  sub := .below 13, sub2 := .below 1 }
    | 10 => some { a := .g, sa := .g, imm := imm16, ty := tyAtomic false, scp := true, ord := true,
                   sub := .below 13, sub2 := .below 1 }
    | 11 => some { a := .g, sa := .g, sb := .g, sc := .g, imm := imm16, ty := tyAtomic false, scp := true, ord := true,
                   sub := .below 13, sub2 := .below 1 }
    | 12 => some { sa := .g, sb := .g, imm := imm16, ty := tyAtomic true, scp := true, ord := true,
                   sub := .below 13, sub2 := .below 6 }
    | k => some { a := .g, sa := .g, sb := .g, imm := imm16, ty := tyAtomic (k == 0 || k == 4 || k == 5), scp := true,
                  ord := true, sub := .below 13, sub2 := .below 1 }
  | 0x68 => some { scp := true, ord := true }
  | 0x69 => some { scp := true }
  | 0x6A => some { a := .g, sa := if sub == 1 then .g else .zero, imm := 0x1F, sub := .below 4 }
  | 0x6B => some { a := .g, sa := .g }
  | _ => none

/-- The rows of 0x80 to 0xAF (R317, R318). -/
def rowVector (op sub : Nat) : Option Row :=
  match op with
  | 0x80 => some { a := .v, sa := .g, sb := .g, imm := 0xFFFFFFFF, ty := tyAny }
  | 0x81 => some { a := .v, sa := .g, sb := .g, imm := 0xFFFFFFFF, ty := tyAny }
  | 0x82 => some { a := .v, sa := .g, sb := .g, imm := imm16, ty := tyAny, sub2 := .maskSel }
  | 0x83 => some { a := .v, sa := .g, sb := .v, imm := imm16, ty := tyAny, sub2 := .maskSel }
  | 0x84 => some { a := .v, sa := .g, sb := .v, imm := imm16, ty := tyAny, sub2 := .maskSel }
  | 0x88 => some { a := .v, sa := .v, sb := .v, sc := if sub == 6 || sub == 7 then .v else .zero, ty := tyAny, sat := true,
                   sub := .below 14, sub2 := .maskSel }
  | 0x89 => some { a := .v, sa := if sub == 7 then .g else .v, ty := tyAny, sub := .below 8, sub2 := .maskSel }
  | 0x8A => some { a := .m, sa := .v, sb := .v, ty := tyAny, sub := .below 6, sub2 := .maskSel }
  | 0x8B => some { a := .v, sa := .v, sb := .v, sc := .m, ty := tyAny }
  | 0x8C =>
    match sub with
    | 2 => some { a := .v, sa := .v, sb := .v, ty := tyAny, sub := .below 5, sub2 := .maskSel }
    | 3 => some { a := .v, sa := .v, sb := .v, imm := 0xFFF, ty := tyAny, sub := .below 5, sub2 := .maskSel }
    | 4 => some { a := .v, sa := .g, imm := 0x3F, ty := tyAny, sub := .below 5, sub2 := .maskSel }
    | _ => some { a := .v, sa := .v, imm := 7, ty := tyAny, sub := .below 5, sub2 := .maskSel }
  | 0x8D => some { a := .g, sa := .v, imm := 0xFF }
  | 0x90 => some { a := .v, sa := .v, imm := 0xFFF, sub := .below 16, sub2 := .maskSel }
  | 0x91 => some { a := .v, sa := .v, imm := 0x3F, sub := .below 16, sub2 := .maskSel }
  | 0x92 => some { a := .v, sa := .v, imm := 0x3F, sub := .below 16, sub2 := .maskSel }
  | 0x94 => some { a := .m, sa := if sub == 3 then .g else .m, sb := if sub < 2 then .m else .zero, sub := .below 4 }
  | 0x95 => some { a := .g, sa := .m }
  | 0x98 => some { a := .any, sa := .g, sb := .g, imm := 0xFFFFFFFF }
  | 0x99 =>
    match sub with
    | 0 => some { a := .g, sa := .g, imm := 3, sub := .below 3 }
    | 1 => some { sa := .g, imm := 0x3F, sub := .below 3 }
    | _ => some { a := .g, imm := 0x3F, sub := .below 3 }
  | 0x9C => some { a := if sub / 2 % 2 == 0 then .sg else .sv, sa := .g, sb := .g, sub := .below 4 }
  | 0x9D => some { a := if sub / 2 % 2 == 0 then .sg else .sv, sa := if sub / 4 % 2 == 1 then .g else .q, sb := .g,
                   sub := .below 8 }
  | 0x9E => some { a := .g, sa := if sub / 2 % 2 == 0 then .sg else .sv, sub := .below 4 }
  | _ => none

/-- The rows of 0xB0 to 0xE7 (R319, R320). -/
def rowEngine (op sub : Nat) : Option Row :=
  match op with
  | 0xB0 => some { sa := .g, imm := imm16 }
  | 0xB1 => some { sa := .g }
  | 0xB2 => some { a := .g, sa := .g, sb := .g }
  | 0xB3 => some { sa := if sub % 2 == 1 then .q else .g, sb := .g, sub := .below 2 }
  | 0xB4 => some {}
  | 0xB5 => some { a := .g, sa := .g }
  | 0xB6 => some { a := .g, sa := .g }
  | 0xB7 => some { sa := .g }
  | 0xB8 => some { sa := .g, sb := .g }
  | 0xBA => some { a := .g, sa := .g, sb := .q }
  | 0xBB => some { a := .g, sa := .q, md := [1, 2] }
  | 0xBC => some { a := .g, sa := .q, sub := .below 4 }
  | 0xC0 => some { sa := .g }
  | 0xC1 => some { a := .g, sa := .g, sub := .below 5 }
  | 0xC2 => some {}
  | 0xC8 => some { a := .g, sa := .g }
  | 0xC9 => some { a := .g, sa := .g }
  | 0xCA => some { a := .g, sa := .g }
  | 0xD0 => some { a := .g, sa := .pair, sb := .g, sc := .g }
  | 0xD1 => some { a := .g, sa := .g, md := [0, 1, 2] }
  | 0xD2 => some { a := .g, sa := .g, md := [0, 1, 2] }
  | 0xD3 => some { a := .g, sa := .g, sb := .g }
  | 0xD4 => some { a := .g, sa := .g, sb := .g }
  | 0xD5 => some { a := .g, sa := .g }
  | 0xD8 => some { sa := .g, sb := .g, sc := .g, imm := imm16, ch := true, sub := .below 2 }
  | 0xD9 => some { a := .g, sa := .g, sb := .g, sc := .g, imm := imm16, ch := true, sub := .below 2 }
  | 0xDA => some { sa := .g, imm := imm16 }
  | 0xDB => some {}
  | 0xE0 => some { a := .g, sa := .g }
  | 0xE1 => some { a := .g, sa := .g, sb := .g }
  | 0xE2 => some { a := .g, sa := .g }
  | 0xE3 => some { a := .g, sa := .g, sb := .g }
  | 0xE4 => some {}
  | 0xE5 => some { a := .g, sa := .g, sb := .g }
  | _ => none

/-- The rows of 0xE8 to 0xFF (R321, R322). -/
def rowSystem (op sub : Nat) : Option Row :=
  match op with
  | 0xE8 => some { a := .v, sa := .g, sb := .v, sd := .pair }
  | 0xE9 => some { a := .g, sa := .g, sb := .v, sc := .v, sd := .pair }
  | 0xEA =>
    match sub with
    | 0 => some { a := .v, sa := .v, sb := .v, sub := .below 3 }
    | 1 => some { a := .v, sa := .v, sb := .v, sc := .g, sub := .below 3 }
    | _ => some { a := .v, sa := .v, sb := .v, sc := .v, imm := 0x1F, sub := .below 3 }
  | 0xEB => some { a := .g, sa := .v, sb := .v, sc := .v, sd := .v, imm := 7 }
  | 0xEC => some { a := .g, sa := .g, sb := .g, sc := .g, sd := .g }
  | 0xED =>
    match sub with
    | 0 => some { a := .g, sa := .g, sb := .g, sc := .g, imm := 7, sub := .below 4 }
    | 1 => some { a := .g, sa := .g, sb := .g, sc := .g, imm := 7, sub := .below 4 }
    | 2 => some { a := .g, imm := 7, sub := .below 4 }
    | _ => some { a := .g, imm := 0x7F, sub := .below 4 }
  | 0xEE => some { a := .b, imm := 0xFF }
  | 0xEF =>
    match sub with
    | 3 => some { a := .b, sa := .b, sb := .b, sc := .b, sub := .below 5 }
    | 4 => some { a := .b, sa := .b, sub := .below 5 }
    | _ => some { a := .b, sa := .b, sb := .b, sub := .below 5 }
  | 0xF0 =>
    match sub with
    | 0 => some { a := .g, sa := .b, sb := .v, sc := .g, sub := .below 2 }
    | _ => some { a := .g, sa := .b, sub := .below 2 }
  | 0xF1 => some { a := .g, sa := .g, sb := .g }
  | 0xF2 =>
    match sub with
    | 2 => some { a := .g, sa := .g, imm := 0xF, sub := .below 3 }
    | _ => some { a := .g, sa := .g, sb := .g, sub := .below 3 }
  | 0xF8 => some { a := .g, imm := 0xFFF }
  | 0xF9 => some { sa := .g, imm := 0xFFF }
  | 0xFA => if sub == 0 then some { sub := .below 4 } else some { a := .g, sa := .g, sub := .below 4 }
  | 0xFB => some { imm := 0x3FF }
  | 0xFC => some { a := .g, sa := .g, sub := .below 6 }
  | 0xFD => some { a := .g, sa := .g, sb := if sub < 2 then .g else .zero, sub := .below 3 }
  | 0xFE => some {}
  | _ => none

/-- The row of opcode `op` with SUB `sub`. -/
def rowOf (op sub : Nat) : Option Row :=
  if op < 0x50 then rowControl op sub
  else if op < 0x80 then rowMemory op sub
  else if op < 0xB0 then rowVector op sub
  else if op < 0xE8 then rowEngine op sub
  else rowSystem op sub

/-- Numbers of the special registers of R298, Table 7. -/
def specialRegs : List Nat :=
  [0x000, 0x001, 0x002, 0x003, 0x004, 0x005, 0x006, 0x007, 0x008, 0x009, 0x00A, 0x00B, 0x00C, 0x00D, 0x00E] ++
  [0x010, 0x011, 0x012, 0x013, 0x014, 0x015, 0x016, 0x017, 0x018, 0x019, 0x01A, 0x01B, 0x01C, 0x01D, 0x01E, 0x01F] ++
  [0x020, 0x021, 0x022, 0x030, 0x031]

/-- Field values that chapters 16 to 22 name reserved, opcode by opcode (reason 3 of R324): the SLEEP mask (R330), BEXT and
PLSET (R314), barrier numbers (R316), reduction codes (R318), VSHUF kinds (R377), TBLLD (R317), MCFG selectors (R319),
message lengths (R320), GLD, GELIM and GRES (R430, R210, R209), special registers (R298). -/
def reservedValue (r : Raw) : Bool :=
  match r.op with
  | 0x0B => decide (0x80 ≤ r.imm)
  | 0x28 => (r.sub == 1 && (fieldOf r.imm 6 7 == 0 || decide (64 < fieldOf r.imm 6 7))) ||
            (r.sub == 3 && decide (64 < fieldOf r.imm 0 7))
  | 0x6A => fieldOf r.imm 4 1 == 0 && decide (7 < fieldOf r.imm 0 4)
  | 0x8C => (decide (r.sub < 2) && decide (5 < fieldOf r.imm 0 3)) || (r.sub == 3 && decide (5 < fieldOf r.imm 0 4))
  | 0x98 => decide (3 < r.a)
  | 0x9E => r.sub % 2 == 1
  | 0xB0 => decide (1 < r.imm)
  | 0xD8 => decide (64 < r.imm)
  | 0xD9 => decide (64 < r.imm)
  | 0xE8 => r.a == r.sb
  | 0xEA => r.sub == 2 && (decide (6 < fieldOf r.imm 0 2 + fieldOf r.imm 2 3) || r.sa % 4 != 0 || r.a == r.sc)
  | 0xEB => fieldOf r.imm 0 3 == 0 || decide (4 < fieldOf r.imm 0 3)
  | 0xF8 => !(specialRegs.contains (fieldOf r.imm 0 12))
  | 0xF9 => !(specialRegs.contains (fieldOf r.imm 0 12))
  | _ => false

/-- Unused fields beyond the row's own (reason 5): MCFG selector 1 takes no register (R391), VCVT's part has three bits
(R379), VSHUF uses SB and the count by kind (R377), and IX = 0 leaves SB and SCL unused (R294). -/
def strayValue (r : Raw) : Bool :=
  match r.op with
  | 0xB0 => r.imm == 1 && r.sa != 0
  | 0x90 => decide (7 < r.sub)
  | 0x91 => decide (7 < r.sub)
  | 0x92 => decide (7 < r.sub)
  | 0x8C => r.sub == 3 && ((fieldOf r.imm 0 4 != 4 && fieldOf r.imm 4 8 != 0) || (fieldOf r.imm 0 4 == 5 && r.sb != 0))
  | _ => false

/-- Lane width in bits of a TY code (R365). -/
def laneWidth (ty : Nat) : Nat :=
  if ty < 8 then 8 * 2 ^ (ty % 4)
  else if ty < 10 then 16 else if ty < 12 then 32 else if ty = 12 then 8 else 4

def isIntTy (ty : Nat) : Bool := decide (ty < 8)
def isFloatTy (ty : Nat) : Bool := ty == 8 || ty == 9 || ty == 10

/-- Suffixes and combinations an instruction does not allow (reason 6): the vector types and SAT of R366, the conditions of
R374, the orders of R253, the scopes of R253 and R261, and AUPD (R261,
R357). -/
def badCombination (r : Raw) : Bool :=
  match r.op with
  | 0x50 => r.ord == 2 || r.ord == 3
  | 0x51 => r.ord == 1 || r.ord == 3
  | 0x60 => r.scp == 0 || (r.sub == 12 && (r.ord != 0 || (r.ty == 10 && (r.sub2 == 1 || r.sub2 == 2 || r.sub2 == 3))))
  | 0x68 => r.scp == 0 || r.ord == 0
  | 0x69 => r.scp != 3 && r.scp != 4 && r.scp != 5 && r.scp != 2
  | 0x83 => laneWidth r.ty != 32 && laneWidth r.ty != 64
  | 0x84 => laneWidth r.ty != 32 && laneWidth r.ty != 64
  | 0x88 => (if r.sub < 8 then !(isIntTy r.ty || isFloatTy r.ty) else !(isIntTy r.ty)) ||
            (r.sat && !(decide (r.sub < 3) && isIntTy r.ty))
  | 0x89 =>
    match r.sub with
    | 0 => !(isFloatTy r.ty)
    | 1 => !(isFloatTy r.ty)
    | 2 => !(isFloatTy r.ty)
    | 3 => r.ty != 10
    | 4 => r.ty != 10
    | 5 => !(isIntTy r.ty || isFloatTy r.ty)
    | 6 => !(isIntTy r.ty || isFloatTy r.ty)
    | _ => false
  | 0x8A => !(isIntTy r.ty || isFloatTy r.ty) || (isFloatTy r.ty && (r.sub == 4 || r.sub == 5))
  | 0x8C =>
    match r.sub with
    | 0 => !(isIntTy r.ty || (isFloatTy r.ty && decide (fieldOf r.imm 0 3 < 3)))
    | 1 => !(isIntTy r.ty || (isFloatTy r.ty && decide (fieldOf r.imm 0 3 < 3)))
    | 2 => r.ty == 13
    | 3 => false
    | _ => r.ty == 13
  | _ => false

/-- The use of SUB or SUB2 is reserved (reason 3). -/
def SubUse.reserved : SubUse → Nat → Bool
  | .unused, _ => false
  | .below n, x => decide (n ≤ x)
  | .maskSel, x => decide (1 ≤ x) && decide (x ≤ 7)

/-- SUB or SUB2 is not used and not zero (reason 5). -/
def SubUse.stray : SubUse → Nat → Bool
  | .unused, x => x != 0
  | _, _ => false

/-- Reason 3: reserved SUB, SUB2 or MOD codes, MOD fields the row does not list, and reserved field values (R311, R324). -/
def Row.bad3 (w : Row) (r : Raw) : Bool :=
  w.sub.reserved r.sub || w.sub2.reserved r.sub2 ||
  (if w.ty.isEmpty then r.ty != 0 else !(w.ty.contains r.ty)) ||
  (r.sat && !w.sat) ||
  (if w.scp then decide (5 < r.scp) else r.scp != 0) ||
  (if w.ord then decide (4 < r.ord) else r.ord != 0) ||
  (if w.md.isEmpty then r.md != 0 else !(w.md.contains r.md)) ||
  (if w.ch then r.ch == 3 else r.ch != 0) || reservedValue r

/-- Reason 4: a register specifier outside its class (R297, R310, R317). SB without IX is no specifier. -/
def Row.bad4 (w : Row) (f : Form) (r : Raw) : Bool :=
  w.a.outside r.a || w.sa.outside r.sa || (w.sb.outside r.sb && !(f == .fmemo && !r.ix)) || w.sc.outside r.sc ||
  w.sd.outside r.sd

/-- Reason 5: a field that is not used and not zero (R296). -/
def Row.bad5 (w : Row) (f : Form) (r : Raw) : Bool :=
  w.a.stray r.a || w.sa.stray r.sa || w.sb.stray r.sb || w.sc.stray r.sc || w.sd.stray r.sd ||
  w.sub.stray r.sub || w.sub2.stray r.sub2 || (r.imm &&& w.imm) != r.imm || r.rsv != 0 ||
  (f == .fmemo && !r.ix && (r.sb != 0 || r.scl != 0)) || strayValue r

/-- The lowest reason of R324, from 3 to 6, for which `r` in form `f` is no instruction; none when it is one. -/
def checkFields (f : Form) (r : Raw) : Option Nat :=
  match rowOf r.op r.sub with
  | none => some 3
  | some w =>
    if w.bad3 r then some 3
    else if w.bad4 f r then some 4
    else if w.bad5 f r then some 5
    else if badCombination r then some 6
    else none

/-- A head and tail that are not an instruction: the opcode and the reason of R324. -/
structure BadCode where
  op : Nat
  reason : Nat
  deriving DecidableEq, Repr

/-- EINFO of an encoding that is not an instruction (R324). -/
def BadCode.einfo (b : BadCode) : Word := BitVec.ofNat 64 (2 ^ 63 + b.op % 256 * 256 + b.reason % 16)

/-- The fields of a head and a tail, or the first reason of R324 that applies. -/
def fieldsOf (head tail : Nat) : Except BadCode Raw :=
  let op := fieldOf head 6 8
  match formOf op with
  | none => .error { op := op, reason := 1 }
  | some f =>
    if fieldOf head 14 2 ≠ f.tl then .error { op := op, reason := 2 }
    else
      let r := unpack op (fieldOf head 0 6) tail f
      match checkFields f r with
      | some k => .error { op := op, reason := k }
      | none => .ok r

/-- Fields of form F0. -/
def rZ (op : Nat) : Raw := { op := op }
/-- Fields of a head and an immediate. -/
def rI (op a imm : Nat) : Raw := { op := op, a := a, imm := imm }
/-- Fields of form FRR. -/
def rR (op sub a sa sb : Nat) : Raw := { op := op, sub := sub, a := a, sa := sa, sb := sb }
/-- Fields of forms FRX and FRI. -/
def rX (op sub a sa sb imm : Nat) : Raw := { op := op, sub := sub, a := a, sa := sa, sb := sb, imm := imm }
/-- Fields of form FRM. -/
def rM (op sub a sa sb ty : Nat) (sat : Bool) (scp ord md : Nat) : Raw :=
  { op := op, sub := sub, a := a, sa := sa, sb := sb, ty := ty, sat := sat, scp := scp, ord := ord, md := md }
/-- Fields of form FMEMO. -/
def rO (op a : Nat) (m : MemOp) (ty scp ord ch : Nat) : Raw :=
  { op := op, a := a, sa := m.sa, sb := m.sb, ix := m.ix, scl := m.scl, imm := m.imm, ty := ty, scp := scp, ord := ord,
    ch := ch }
/-- Fields of an atomic (form FWIDE). -/
def rA (op sub a sa sb sc sub2 ty scp ord imm : Nat) : Raw :=
  { op := op, sub := sub, a := a, sa := sa, sb := sb, sc := sc, sub2 := sub2, ty := ty, scp := scp, ord := ord, imm := imm }
/-- Fields of a vector instruction (form FWIDE). -/
def rV (op sub a sa sb sc sub2 ty : Nat) (sat : Bool) (imm : Nat) : Raw :=
  { op := op, sub := sub, a := a, sa := sa, sb := sb, sc := sc, sub2 := sub2, ty := ty, sat := sat, imm := imm }
/-- Fields of the other FWIDE instructions. -/
def rW (op sub a sa sb sc sd ch imm : Nat) : Raw :=
  { op := op, sub := sub, a := a, sa := sa, sb := sb, sc := sc, sd := sd, ch := ch, imm := imm }

/-- The fields of an instruction (none for events and near-bank micro-instructions, which have no head and tail). -/
def rawOf (i : Instr) : Option Raw :=
  match i with
  | .nop => some (rZ 0x00)
  | .endWork => some (rZ 0x02)
  | .mzero => some (rZ 0xB4)
  | .uiret => some (rZ 0xC2)
  | .mdefer => some (rZ 0xDB)
  | .tabort => some (rZ 0xE4)
  | .halt => some (rZ 0xFE)
  | .br target => some (rI 0x01 0 target)
  | .bcc cond sa sb target => some (rX 0x03 cond 0 sa sb target)
  | .bz a target => some (rI 0x04 a target)
  | .bnz a target => some (rI 0x05 a target)
  | .call a target => some (rI 0x06 a target)
  | .loop a target => some (rI 0x0A a target)
  | .calli a sa => some (rR 0x07 0 a sa 0)
  | .ret sa => some (rR 0x08 0 0 sa 0)
  | .jmpi sa => some (rR 0x09 0 0 sa 0)
  | .migr a sa => some (rR 0x6B 0 a sa 0)
  | .sleep sa mask => some (rX 0x0B 0 0 sa 0 mask)
  | .brk n => some (rI 0x0C 0 n)
  | .trapi n => some (rI 0x0D 0 n)
  | .ldi a imm => some (rI 0x20 a imm.toNat)
  | .add a sa sb ty sat => some (rM 0x21 0 a sa sb ty sat 0 0 0)
  | .sub a sa sb ty sat => some (rM 0x21 1 a sa sb ty sat 0 0 0)
  | .mul a sa sb ty sat => some (rM 0x21 2 a sa sb ty sat 0 0 0)
  | .mulh a sa sb ty => some (rM 0x21 3 a sa sb ty false 0 0 0)
  | .mulhn a sa sb ty => some (rM 0x21 4 a sa sb ty false 0 0 0)
  | .div a sa sb ty => some (rM 0x21 5 a sa sb ty false 0 0 0)
  | .divn a sa sb ty => some (rM 0x21 6 a sa sb ty false 0 0 0)
  | .rem a sa sb ty => some (rM 0x21 7 a sa sb ty false 0 0 0)
  | .remn a sa sb ty => some (rM 0x21 8 a sa sb ty false 0 0 0)
  | .min a sa sb ty => some (rM 0x21 9 a sa sb ty false 0 0 0)
  | .max a sa sb ty => some (rM 0x21 10 a sa sb ty false 0 0 0)
  | .minn a sa sb ty => some (rM 0x21 11 a sa sb ty false 0 0 0)
  | .maxn a sa sb ty => some (rM 0x21 12 a sa sb ty false 0 0 0)
  | .seq a sa sb ty => some (rM 0x21 13 a sa sb ty false 0 0 0)
  | .slt a sa sb ty => some (rM 0x21 14 a sa sb ty false 0 0 0)
  | .sltn a sa sb ty => some (rM 0x21 15 a sa sb ty false 0 0 0)
  | .and a sa sb ty => some (rM 0x22 0 a sa sb ty false 0 0 0)
  | .or a sa sb ty => some (rM 0x22 1 a sa sb ty false 0 0 0)
  | .xor a sa sb ty => some (rM 0x22 2 a sa sb ty false 0 0 0)
  | .andn a sa sb ty => some (rM 0x22 3 a sa sb ty false 0 0 0)
  | .shl a sa sb ty => some (rM 0x22 4 a sa sb ty false 0 0 0)
  | .shr a sa sb ty => some (rM 0x22 5 a sa sb ty false 0 0 0)
  | .sra a sa sb ty => some (rM 0x22 6 a sa sb ty false 0 0 0)
  | .rol a sa sb ty => some (rM 0x22 7 a sa sb ty false 0 0 0)
  | .clz a sa ty => some (rM 0x23 0 a sa 0 ty false 0 0 0)
  | .ctz a sa ty => some (rM 0x23 1 a sa 0 ty false 0 0 0)
  | .popc a sa ty => some (rM 0x23 2 a sa 0 ty false 0 0 0)
  | .bswp a sa ty => some (rM 0x23 3 a sa 0 ty false 0 0 0)
  | .sext a sa ty => some (rM 0x23 4 a sa 0 ty false 0 0 0)
  | .zext a sa ty => some (rM 0x23 5 a sa 0 ty false 0 0 0)
  | .mov a sa ty => some (rM 0x23 6 a sa 0 ty false 0 0 0)
  | .addi a sa imm => some (rX 0x24 0 a sa 0 imm)
  | .andi a sa imm => some (rX 0x24 1 a sa 0 imm)
  | .ori a sa imm => some (rX 0x24 2 a sa 0 imm)
  | .xori a sa imm => some (rX 0x24 3 a sa 0 imm)
  | .shli a sa count => some (rX 0x24 4 a sa 0 count)
  | .shri a sa count => some (rX 0x24 5 a sa 0 count)
  | .srai a sa count => some (rX 0x24 6 a sa 0 count)
  | .sel a sa sb sc => some (rV 0x25 0 a sa sb sc 0 0 false 0)
  | .lea a m => some (rO 0x26 a m 0 0 0 0)
  | .padd a sa sb => some (rR 0x27 0 a sa sb)
  | .paddImm a sa imm => some (rX 0x27 1 a sa 0 imm)
  | .pset a sa fmt blog => some (rX 0x27 2 a sa 0 (fmt + blog * 64))
  | .pget a sa => some (rR 0x27 3 a sa 0)
  | .pstrip a sa => some (rR 0x27 4 a sa 0)
  | .pglb a sa => some (rR 0x27 5 a sa 0)
  | .pchk a sa w => some (rX 0x27 6 a sa 0 w.toNat)
  | .bins a sa sb => some (rR 0x28 0 a sa sb)
  | .bext a sa lsb width => some (rX 0x28 1 a sa 0 (lsb + width * 64))
  | .ffcs a sa => some (rR 0x28 2 a sa 0)
  | .plset a sa sb limit => some (rX 0x28 3 a sa sb limit)
  | .ld a m ty scp ord => some (rO 0x50 a m ty scp ord 0)
  | .st a m ty scp ord ch => some (rO 0x51 a m ty scp ord ch)
  | .pf m => some (rO 0x52 0 m 0 0 0 0)
  | .lock a m => some (rO 0x53 a m 0 0 0 0)
  | .unlock a m => some (rO 0x54 a m 0 0 0 0)
  | .lockq a m => some (rO 0x55 a m 0 0 0 0)
  | .cwb m => some (rO 0x56 0 m 0 0 0 0)
  | .cinv m => some (rO 0x57 0 m 0 0 0 0)
  | .czero m => some (rO 0x58 0 m 0 0 0 0)
  | .aadd a sa sb imm ty scp ord => some (rA 0x60 0 a sa sb 0 0 ty scp ord imm)
  | .aand a sa sb imm ty scp ord => some (rA 0x60 1 a sa sb 0 0 ty scp ord imm)
  | .aor a sa sb imm ty scp ord => some (rA 0x60 2 a sa sb 0 0 ty scp ord imm)
  | .axor a sa sb imm ty scp ord => some (rA 0x60 3 a sa sb 0 0 ty scp ord imm)
  | .amin a sa sb imm ty scp ord => some (rA 0x60 4 a sa sb 0 0 ty scp ord imm)
  | .amax a sa sb imm ty scp ord => some (rA 0x60 5 a sa sb 0 0 ty scp ord imm)
  | .aminn a sa sb imm ty scp ord => some (rA 0x60 6 a sa sb 0 0 ty scp ord imm)
  | .amaxn a sa sb imm ty scp ord => some (rA 0x60 7 a sa sb 0 0 ty scp ord imm)
  | .aswp a sa sb imm ty scp ord => some (rA 0x60 8 a sa sb 0 0 ty scp ord imm)
  | .acas a sa sb sc imm ty scp ord => some (rA 0x60 9 a sa sb sc 0 ty scp ord imm)
  | .affcs a sa imm ty scp ord => some (rA 0x60 10 a sa 0 0 0 ty scp ord imm)
  | .aplset a sa sb sc imm ty scp ord => some (rA 0x60 11 a sa sb sc 0 ty scp ord imm)
  | .aupd sa sb op imm ty scp => some (rA 0x60 12 0 sa sb 0 op ty scp 0 imm)
  | .fence scp ord => some (rM 0x68 0 0 0 0 0 false scp ord 0)
  | .tfence scp => some (rM 0x69 0 0 0 0 0 false scp 0 0)
  | .bara a bar => some (rI 0x6A a bar)
  | .barw a bar sa => some (rX 0x6A 1 a sa 0 bar)
  | .bart a bar => some (rX 0x6A 2 a 0 0 bar)
  | .barg a bar => some (rX 0x6A 3 a 0 0 bar)
  | .vld a m ty => some (rO 0x80 a m ty 0 0 0)
  | .vst a m ty => some (rO 0x81 a m ty 0 0 0)
  | .vlds a sa sb imm ty mk => some (rV 0x82 0 a sa sb 0 mk ty false imm)
  | .vldx a sa sb imm ty mk => some (rV 0x83 0 a sa sb 0 mk ty false imm)
  | .vstx a sa sb imm ty mk => some (rV 0x84 0 a sa sb 0 mk ty false imm)
  | .vadd a sa sb ty mk sat => some (rV 0x88 0 a sa sb 0 mk ty sat 0)
  | .vsub a sa sb ty mk sat => some (rV 0x88 1 a sa sb 0 mk ty sat 0)
  | .vmul a sa sb ty mk sat => some (rV 0x88 2 a sa sb 0 mk ty sat 0)
  | .vdiv a sa sb ty mk => some (rV 0x88 3 a sa sb 0 mk ty false 0)
  | .vmin a sa sb ty mk => some (rV 0x88 4 a sa sb 0 mk ty false 0)
  | .vmax a sa sb ty mk => some (rV 0x88 5 a sa sb 0 mk ty false 0)
  | .vfma a sa sb sc ty mk => some (rV 0x88 6 a sa sb sc mk ty false 0)
  | .vfms a sa sb sc ty mk => some (rV 0x88 7 a sa sb sc mk ty false 0)
  | .vand a sa sb ty mk => some (rV 0x88 8 a sa sb 0 mk ty false 0)
  | .vor a sa sb ty mk => some (rV 0x88 9 a sa sb 0 mk ty false 0)
  | .vxor a sa sb ty mk => some (rV 0x88 10 a sa sb 0 mk ty false 0)
  | .vshl a sa sb ty mk => some (rV 0x88 11 a sa sb 0 mk ty false 0)
  | .vshr a sa sb ty mk => some (rV 0x88 12 a sa sb 0 mk ty false 0)
  | .vsra a sa sb ty mk => some (rV 0x88 13 a sa sb 0 mk ty false 0)
  | .vsqrt a sa ty mk => some (rV 0x89 0 a sa 0 0 mk ty false 0)
  | .vrsq a sa ty mk => some (rV 0x89 1 a sa 0 0 mk ty false 0)
  | .vrcp a sa ty mk => some (rV 0x89 2 a sa 0 0 mk ty false 0)
  | .vexp2 a sa ty mk => some (rV 0x89 3 a sa 0 0 mk ty false 0)
  | .vlog2 a sa ty mk => some (rV 0x89 4 a sa 0 0 mk ty false 0)
  | .vabs a sa ty mk => some (rV 0x89 5 a sa 0 0 mk ty false 0)
  | .vneg a sa ty mk => some (rV 0x89 6 a sa 0 0 mk ty false 0)
  | .vbc a sa ty mk => some (rV 0x89 7 a sa 0 0 mk ty false 0)
  | .vcmp cond a sa sb ty mk => some (rV 0x8A cond a sa sb 0 mk ty false 0)
  | .vsel a sa sb sc ty => some (rV 0x8B 0 a sa sb sc 0 ty false 0)
  | .vred a sa op ty mk => some (rV 0x8C 0 a sa 0 0 mk ty false op)
  | .vscan a sa op ty mk => some (rV 0x8C 1 a sa 0 0 mk ty false op)
  | .vperm a sa sb ty mk => some (rV 0x8C 2 a sa sb 0 mk ty false 0)
  | .vshuf a sa sb pattern ty mk => some (rV 0x8C 3 a sa sb 0 mk ty false pattern)
  | .vins a sa lane ty mk => some (rV 0x8C 4 a sa 0 0 mk ty false lane)
  | .vext a sa lane wsel => some (rX 0x8D 0 a sa 0 (lane + wsel * 64))
  | .vcvt a sa dcode scode part mk => some (rV 0x90 part a sa 0 0 mk 0 false (dcode + scode * 64))
  | .venc a sa code part mk => some (rV 0x91 part a sa 0 0 mk 0 false code)
  | .vdec a sa code part mk => some (rV 0x92 part a sa 0 0 mk 0 false code)
  | .mkand a sa sb => some (rR 0x94 0 a sa sb)
  | .mkor a sa sb => some (rR 0x94 1 a sa sb)
  | .mknot a sa => some (rR 0x94 2 a sa 0)
  | .mkset a sa => some (rR 0x94 3 a sa 0)
  | .mkpop a sa => some (rR 0x95 0 a sa 0)
  | .tblld t m => some (rO 0x98 t m 0 0 0 0)
  | .tblrd a t sa => some (rX 0x99 0 a sa 0 t)
  | .fdtset code sa => some (rX 0x99 1 0 sa 0 code)
  | .fdtget a code => some (rX 0x99 2 a 0 0 code)
  | .strm s sa sb w v => some (rR 0x9C (w.toNat + v.toNat * 2) s sa sb)
  | .strmx s sa sb w v p => some (rR 0x9D (w.toNat + v.toNat * 2 + p.toNat * 4) s sa sb)
  | .strmq a sa v => some (rR 0x9E (v.toNat * 2) a sa 0)
  | .mcfgWeights sa => some (rR 0xB0 0 0 sa 0)
  | .mcfgDiscard => some (rI 0xB0 0 1)
  | .mma sa => some (rR 0xB1 0 0 sa 0)
  | .mmag a sa sb => some (rR 0xB2 0 a sa sb)
  | .mdrain sa sb q => some (rR 0xB3 q.toNat 0 sa sb)
  | .mresume a sa => some (rR 0xB5 0 a sa 0)
  | .mstat a sa => some (rR 0xB6 0 a sa 0)
  | .gath sa => some (rR 0xB7 0 0 sa 0)
  | .skipb sa sb => some (rR 0xB8 0 0 sa sb)
  | .cbdef a sa sb => some (rR 0xBA 0 a sa sb)
  | .cbwaitP a sa => some (rM 0xBB 0 a sa 0 0 false 0 0 1)
  | .cbwaitC a sa => some (rM 0xBB 0 a sa 0 0 false 0 0 2)
  | .cbpub a sa => some (rR 0xBC 0 a sa 0)
  | .cbadv a sa => some (rR 0xBC 1 a sa 0)
  | .cbfree a sa => some (rR 0xBC 2 a sa 0)
  | .cbq a sa => some (rR 0xBC 3 a sa 0)
  | .xcopy sa => some (rR 0xC0 0 0 sa 0)
  | .xpoll a sa => some (rR 0xC1 0 a sa 0)
  | .xwait a sa => some (rR 0xC1 1 a sa 0)
  | .xcancel a sa => some (rR 0xC1 2 a sa 0)
  | .jwait a sa => some (rR 0xC1 3 a sa 0)
  | .jpoll a sa => some (rR 0xC1 4 a sa 0)
  | .nred a sa => some (rR 0xC8 0 a sa 0)
  | .nrwait a sa => some (rR 0xC9 0 a sa 0)
  | .nmcast a sa => some (rR 0xCA 0 a sa 0)
  | .putk a sa sb sc => some (rV 0xD0 0 a sa sb sc 0 0 false 0)
  | .rdkB a sa => some (rR 0xD1 0 a sa 0)
  | .rdkP a sa => some (rM 0xD1 0 a sa 0 0 false 0 0 1)
  | .rdkC a sa => some (rM 0xD1 0 a sa 0 0 false 0 0 2)
  | .takkB a sa => some (rR 0xD2 0 a sa 0)
  | .takkP a sa => some (rM 0xD2 0 a sa 0 0 false 0 0 1)
  | .takkC a sa => some (rM 0xD2 0 a sa 0 0 false 0 0 2)
  | .kcancel a sa sb => some (rR 0xD3 0 a sa sb)
  | .krange a sa sb => some (rR 0xD4 0 a sa sb)
  | .ksplit a sa => some (rR 0xD5 0 a sa 0)
  | .msend sa sb sc len hi ch => some (rW 0xD8 hi.toNat 0 sa sb sc 0 ch len)
  | .msenda a sa sb sc len hi ch => some (rW 0xD9 hi.toNat a sa sb sc 0 ch len)
  | .mreply sa len => some (rX 0xDA 0 0 sa 0 len)
  | .spawn a sa => some (rR 0xE0 0 a sa 0)
  | .spawnt a sa sb => some (rR 0xE1 0 a sa sb)
  | .popt a sa => some (rR 0xE2 0 a sa 0)
  | .steal a sa sb => some (rR 0xE3 0 a sa sb)
  | .lnch a sa sb => some (rR 0xE5 0 a sa sb)
  | .gld a sa sb sd => some (rW 0xE8 0 a sa sb 0 sd 0 0)
  | .gst a sa sb sc sd => some (rW 0xE9 0 a sa sb sc sd 0 0)
  | .gadd a sa sb => some (rR 0xEA 0 a sa sb)
  | .gdamp a sa sb sc => some (rV 0xEA 1 a sa sb sc 0 0 false 0)
  | .gelim a sa sb sc da db => some (rV 0xEA 2 a sa sb sc 0 0 false (da + db * 4))
  | .gres a sa sb sc sd d => some (rW 0xEB 0 a sa sb sc sd 0 d)
  | .gpost a sa sb sc sd => some (rW 0xEC 0 a sa sb sc sd 0 0)
  | .cmvStart a arr sa sb sc => some (rV 0xED 0 a sa sb sc 0 0 false arr)
  | .cprog a arr sa sb sc => some (rV 0xED 1 a sa sb sc 0 0 false arr)
  | .ccal a arr => some (rX 0xED 2 a 0 0 arr)
  | .cqry a arr sel => some (rX 0xED 3 a 0 0 (arr + sel * 8))
  | .cmvRead a arr grp => some (rI 0xEE a (arr + grp * 8))
  | .eadd a sa sb => some (rR 0xEF 0 a sa sb)
  | .esub a sa sb => some (rR 0xEF 1 a sa sb)
  | .emul a sa sb => some (rR 0xEF 2 a sa sb)
  | .efma a sa sb sc => some (rV 0xEF 3 a sa sb sc 0 0 false 0)
  | .emov a sa => some (rR 0xEF 4 a sa 0)
  | .admitB a sa sb sc => some (rV 0xF0 0 a sa sb sc 0 0 false 0)
  | .ebnd a sa => some (rR 0xF0 1 a sa 0)
  | .nbc a sa sb => some (rR 0xF1 0 a sa sb)
  | .nbov a sa sb => some (rR 0xF2 0 a sa sb)
  | .nbmodeNormal a sa sb => some (rR 0xF2 1 a sa sb)
  | .nbmodeCompute a sa sb => some (rR 0xF2 1 a sa sb)
  | .nbmodeResume a sa sb => some (rR 0xF2 1 a sa sb)
  | .nbstat a sa sel => some (rX 0xF2 2 a sa 0 sel)
  | .mfs a num => some (rI 0xF8 a num)
  | .mts num sa => some (rX 0xF9 0 0 sa 0 num)
  | .tret => some (rZ 0xFA)
  | .tretResume a sa => some (rR 0xFA 1 a sa 0)
  | .tretSkip a sa => some (rR 0xFA 2 a sa 0)
  | .tretEnd a sa => some (rR 0xFA 3 a sa 0)
  | .sysc n => some (rI 0xFB 0 n)
  | .tlbiInv a sa => some (rR 0xFC 0 a sa 0)
  | .tlbiInvall a sa => some (rR 0xFC 1 a sa 0)
  | .tlbiUnmap a sa => some (rR 0xFC 2 a sa 0)
  | .tlbiMove a sa => some (rR 0xFC 3 a sa 0)
  | .tlbiMovef a sa => some (rR 0xFC 4 a sa 0)
  | .tlbiRel a sa => some (rR 0xFC 5 a sa 0)
  | .ctxsv a sa sb => some (rR 0xFD 0 a sa sb)
  | .ctxld a sa sb => some (rR 0xFD 1 a sa sb)
  | .pkill a sa => some (rR 0xFD 2 a sa 0)
  | .deviceReset => none
  | .bringUpStepComplete _ _ => none
  | .islCtlWrite _ _ => none
  | .operatingPointChangeDone _ => none
  | .powerWindow _ _ => none
  | .heatFluxWindow _ _ => none
  | .alarmRaise _ _ => none
  | .keyErasureDone => none
  | .patrolScrub _ _ => none
  | .eccCorrWrite _ _ => none
  | .registerWrite _ _ => none
  | .fabDimWrite _ => none
  | .fabRtoWrite _ => none
  | .fabErrWrite _ => none
  | .retrain _ => none
  | .disable _ _ => none
  | .vmismatchClear _ => none
  | .linkTrainingWords _ _ _ => none
  | .laneLockLoss _ => none
  | .controlWordTimeout _ => none
  | .flitArrive _ => none
  | .swapInject _ => none
  | .flitDeliver _ => none
  | .aeadPad _ _ => none
  | .ackTimer _ _ => none
  | .ack _ _ => none
  | .responseAck _ _ _ => none
  | .aresp _ => none
  | .replayTimerExpiry _ _ => none
  | .deviceLostDeclare _ => none
  | .mcastCopy _ => none
  | .mcastStatus _ _ _ => none
  | .redc _ => none
  | .redr _ => none
  | .cidanLinkFlit _ => none
  | .cidanLinkTrainingDone _ _ _ => none
  | .cidanLaneLockTimeout => none
  | .lowPowerIdle => none
  | .apertureRead _ _ _ => none
  | .apertureWrite _ _ => none
  | .peerToPeerReject _ => none
  | .barAccessLinkDown _ _ => none
  | .hrCtlWrite _ _ _ => none
  | .hrTailWrite _ _ _ => none
  | .hostNop _ => none
  | .hostWrite _ => none
  | .hostRead _ => none
  | .hostLaunch _ => none
  | .hostSignal _ => none
  | .gateClose _ => none
  | .gateOpen _ => none
  | .attest _ => none
  | .hostCmdComplete _ => none
  | .gateDrained _ => none
  | .partitionEntryWrite _ _ => none
  | .launchQueueCfgWrite _ _ => none
  | .periodStart _ => none
  | .dependenceTest _ => none
  | .taskPlace => none
  | .taskStart _ => none
  | .taskEnd _ => none
  | .shotclock _ => none
  | .handlerShotclock _ _ => none
  | .quiesceRequest _ => none
  | .partitionQuiet _ => none
  | .umpireTick _ => none
  | .messageArrive _ _ => none
  | .acknowledgementArrive _ _ => none
  | .handlerStart _ _ => none
  | .outgoingSend _ => none
  | .outgoingResend _ _ => none
  | .trapRecordResend _ => none
  | .arrivalEntryReserve _ => none
  | .arrivalReady _ => none
  | .arrivalHandlerStart _ _ => none
  | .pendingValueArrive _ _ => none
  | .remoteFaultDeliver _ _ _ => none
  | .peerAccessServe _ => none
  | .migrationRequest _ => none
  | .migrationReply _ _ => none
  | .migrationImage _ => none
  | .migrationImageAck _ => none
  | .homeRequest _ _ => none
  | .engineLineRelease _ _ => none
  | .walkComplete _ _ => none
  | .tlbiWalkerMessage _ _ => none
  | .tlbiAcknowledge _ _ => none
  | .tuplePut _ => none
  | .tupleReadTake _ => none
  | .tupleCancel _ => none
  | .tupleWithdraw _ => none
  | .tupleDeliveryComplete _ => none
  | .handoffSplit _ => none
  | .handoffCopyReceive _ _ => none
  | .handoffFreeze _ => none
  | .handoffCutover _ => none
  | .handoffSwitch _ => none
  | .handoffAbandon _ _ => none
  | .moved _ _ _ _ => none
  | .matrixGrain _ => none
  | .jobComplete _ => none
  | .userInterrupt _ _ => none
  | .engineFaultDeliver _ => none
  | .copyRow _ _ => none
  | .copyArrivalWait _ _ => none
  | .gatherRow _ _ => none
  | .drainRow _ _ => none
  | .streamUnit _ _ _ => none
  | .xbarCommandHead _ _ => none
  | .xbarProductComplete _ _ _ _ _ => none
  | .xbarProgramRow _ _ _ => none
  | .calibrationComplete _ _ _ _ => none
  | .nbuStep _ => none
  | .nbuOrdinaryAccess _ _ => none
  | .nbuRequest _ _ => none
  | .trapDeliverSupervisor _ => none
  | .trapDeliverTvec _ _ _ => none
  | .coreMqcapWrite _ _ => none
  | .sleepWake _ _ _ => none
  | .barrierGenerationComplete _ => none
  | .launchSubmit _ => none
  | .haltWake => none
  | .nbuHalt => none
  | .nbuOpen _ _ => none
  | .nbuClose => none
  | .nbuSetbMask _ => none
  | .nbuSetbReg _ => none
  | .nbuRdcol _ _ _ => none
  | .nbuWrcol _ _ => none
  | .nbuMacb _ _ _ => none
  | .nbuMacbOnes _ _ _ => none
  | .nbuClra _ => none
  | .nbuAdda _ _ => none
  | .nbuMaxa _ _ => none
  | .nbuScala _ _ => none
  | .nbuWbacc _ _ _ _ => none
  | .nbuWbaccBf _ _ _ _ => none
  | .nbuLdi _ _ => none
  | .nbuAddi _ _ _ => none
  | .nbuAdd _ _ _ => none
  | .nbuSub _ _ _ => none
  | .nbuAnd _ _ _ => none
  | .nbuShl _ _ _ => none
  | .nbuBeq _ _ _ => none
  | .nbuBne _ _ _ => none
  | .nbuBlt _ _ _ => none
  | .nbuLoop _ _ => none
  | .nbuJmp _ => none
  | .nbuReport _ => none
  | .storeAcknowledge _ _ => none
  | .victimQueueSteal _ => none
  | .tretHandleArrive _ => none
  | .mresumeAtUnit _ => none
  | .alarmConditionEnd _ _ => none
  | .lowPowerIdleExit => none
  | .sortedIndexBuilt _ _ => none

/-- The instruction that a record of fields encodes, by opcode, SUB, and, where the mnemonic depends on them, IMM or MD
(R312 to R322). The three words of NBMODE are one: OP stands in the block (R437). -/
def build (r : Raw) : Option Instr :=
  match r.op with
  | 0x00 => some (.nop)
  | 0x01 => some (.br r.imm)
  | 0x02 => some (.endWork)
  | 0x03 => some (.bcc r.sub r.sa r.sb r.imm)
  | 0x04 => some (.bz r.a r.imm)
  | 0x05 => some (.bnz r.a r.imm)
  | 0x06 => some (.call r.a r.imm)
  | 0x07 => some (.calli r.a r.sa)
  | 0x08 => some (.ret r.sa)
  | 0x09 => some (.jmpi r.sa)
  | 0x0A => some (.loop r.a r.imm)
  | 0x0B => some (.sleep r.sa r.imm)
  | 0x0C => some (.brk r.imm)
  | 0x0D => some (.trapi r.imm)
  | 0x20 => some (.ldi r.a (BitVec.ofNat 64 r.imm))
  | 0x21 => match r.sub with
    | 0 => some (.add r.a r.sa r.sb r.ty r.sat)
    | 1 => some (.sub r.a r.sa r.sb r.ty r.sat)
    | 2 => some (.mul r.a r.sa r.sb r.ty r.sat)
    | 3 => some (.mulh r.a r.sa r.sb r.ty)
    | 4 => some (.mulhn r.a r.sa r.sb r.ty)
    | 5 => some (.div r.a r.sa r.sb r.ty)
    | 6 => some (.divn r.a r.sa r.sb r.ty)
    | 7 => some (.rem r.a r.sa r.sb r.ty)
    | 8 => some (.remn r.a r.sa r.sb r.ty)
    | 9 => some (.min r.a r.sa r.sb r.ty)
    | 10 => some (.max r.a r.sa r.sb r.ty)
    | 11 => some (.minn r.a r.sa r.sb r.ty)
    | 12 => some (.maxn r.a r.sa r.sb r.ty)
    | 13 => some (.seq r.a r.sa r.sb r.ty)
    | 14 => some (.slt r.a r.sa r.sb r.ty)
    | 15 => some (.sltn r.a r.sa r.sb r.ty)
    | _ => none
  | 0x22 => match r.sub with
    | 0 => some (.and r.a r.sa r.sb r.ty)
    | 1 => some (.or r.a r.sa r.sb r.ty)
    | 2 => some (.xor r.a r.sa r.sb r.ty)
    | 3 => some (.andn r.a r.sa r.sb r.ty)
    | 4 => some (.shl r.a r.sa r.sb r.ty)
    | 5 => some (.shr r.a r.sa r.sb r.ty)
    | 6 => some (.sra r.a r.sa r.sb r.ty)
    | 7 => some (.rol r.a r.sa r.sb r.ty)
    | _ => none
  | 0x23 => match r.sub with
    | 0 => some (.clz r.a r.sa r.ty)
    | 1 => some (.ctz r.a r.sa r.ty)
    | 2 => some (.popc r.a r.sa r.ty)
    | 3 => some (.bswp r.a r.sa r.ty)
    | 4 => some (.sext r.a r.sa r.ty)
    | 5 => some (.zext r.a r.sa r.ty)
    | 6 => some (.mov r.a r.sa r.ty)
    | _ => none
  | 0x24 => match r.sub with
    | 0 => some (.addi r.a r.sa r.imm)
    | 1 => some (.andi r.a r.sa r.imm)
    | 2 => some (.ori r.a r.sa r.imm)
    | 3 => some (.xori r.a r.sa r.imm)
    | 4 => some (.shli r.a r.sa r.imm)
    | 5 => some (.shri r.a r.sa r.imm)
    | 6 => some (.srai r.a r.sa r.imm)
    | _ => none
  | 0x25 => some (.sel r.a r.sa r.sb r.sc)
  | 0x26 => some (.lea r.a r.mem)
  | 0x27 => match r.sub with
    | 0 => some (.padd r.a r.sa r.sb)
    | 1 => some (.paddImm r.a r.sa r.imm)
    | 2 => some (.pset r.a r.sa (r.imm % 64) (r.imm / 64))
    | 3 => some (.pget r.a r.sa)
    | 4 => some (.pstrip r.a r.sa)
    | 5 => some (.pglb r.a r.sa)
    | 6 => some (.pchk r.a r.sa (r.imm == 1))
    | _ => none
  | 0x28 => match r.sub with
    | 0 => some (.bins r.a r.sa r.sb)
    | 1 => some (.bext r.a r.sa (r.imm % 64) (r.imm / 64))
    | 2 => some (.ffcs r.a r.sa)
    | 3 => some (.plset r.a r.sa r.sb r.imm)
    | _ => none
  | 0x50 => some (.ld r.a r.mem r.ty r.scp r.ord)
  | 0x51 => some (.st r.a r.mem r.ty r.scp r.ord r.ch)
  | 0x52 => some (.pf r.mem)
  | 0x53 => some (.lock r.a r.mem)
  | 0x54 => some (.unlock r.a r.mem)
  | 0x55 => some (.lockq r.a r.mem)
  | 0x56 => some (.cwb r.mem)
  | 0x57 => some (.cinv r.mem)
  | 0x58 => some (.czero r.mem)
  | 0x60 => match r.sub with
    | 0 => some (.aadd r.a r.sa r.sb r.imm r.ty r.scp r.ord)
    | 1 => some (.aand r.a r.sa r.sb r.imm r.ty r.scp r.ord)
    | 2 => some (.aor r.a r.sa r.sb r.imm r.ty r.scp r.ord)
    | 3 => some (.axor r.a r.sa r.sb r.imm r.ty r.scp r.ord)
    | 4 => some (.amin r.a r.sa r.sb r.imm r.ty r.scp r.ord)
    | 5 => some (.amax r.a r.sa r.sb r.imm r.ty r.scp r.ord)
    | 6 => some (.aminn r.a r.sa r.sb r.imm r.ty r.scp r.ord)
    | 7 => some (.amaxn r.a r.sa r.sb r.imm r.ty r.scp r.ord)
    | 8 => some (.aswp r.a r.sa r.sb r.imm r.ty r.scp r.ord)
    | 9 => some (.acas r.a r.sa r.sb r.sc r.imm r.ty r.scp r.ord)
    | 10 => some (.affcs r.a r.sa r.imm r.ty r.scp r.ord)
    | 11 => some (.aplset r.a r.sa r.sb r.sc r.imm r.ty r.scp r.ord)
    | 12 => some (.aupd r.sa r.sb r.sub2 r.imm r.ty r.scp)
    | _ => none
  | 0x68 => some (.fence r.scp r.ord)
  | 0x69 => some (.tfence r.scp)
  | 0x6A => match r.sub with
    | 0 => some (.bara r.a r.imm)
    | 1 => some (.barw r.a r.imm r.sa)
    | 2 => some (.bart r.a r.imm)
    | 3 => some (.barg r.a r.imm)
    | _ => none
  | 0x6B => some (.migr r.a r.sa)
  | 0x80 => some (.vld r.a r.mem r.ty)
  | 0x81 => some (.vst r.a r.mem r.ty)
  | 0x82 => some (.vlds r.a r.sa r.sb r.imm r.ty r.sub2)
  | 0x83 => some (.vldx r.a r.sa r.sb r.imm r.ty r.sub2)
  | 0x84 => some (.vstx r.a r.sa r.sb r.imm r.ty r.sub2)
  | 0x88 => match r.sub with
    | 0 => some (.vadd r.a r.sa r.sb r.ty r.sub2 r.sat)
    | 1 => some (.vsub r.a r.sa r.sb r.ty r.sub2 r.sat)
    | 2 => some (.vmul r.a r.sa r.sb r.ty r.sub2 r.sat)
    | 3 => some (.vdiv r.a r.sa r.sb r.ty r.sub2)
    | 4 => some (.vmin r.a r.sa r.sb r.ty r.sub2)
    | 5 => some (.vmax r.a r.sa r.sb r.ty r.sub2)
    | 6 => some (.vfma r.a r.sa r.sb r.sc r.ty r.sub2)
    | 7 => some (.vfms r.a r.sa r.sb r.sc r.ty r.sub2)
    | 8 => some (.vand r.a r.sa r.sb r.ty r.sub2)
    | 9 => some (.vor r.a r.sa r.sb r.ty r.sub2)
    | 10 => some (.vxor r.a r.sa r.sb r.ty r.sub2)
    | 11 => some (.vshl r.a r.sa r.sb r.ty r.sub2)
    | 12 => some (.vshr r.a r.sa r.sb r.ty r.sub2)
    | 13 => some (.vsra r.a r.sa r.sb r.ty r.sub2)
    | _ => none
  | 0x89 => match r.sub with
    | 0 => some (.vsqrt r.a r.sa r.ty r.sub2)
    | 1 => some (.vrsq r.a r.sa r.ty r.sub2)
    | 2 => some (.vrcp r.a r.sa r.ty r.sub2)
    | 3 => some (.vexp2 r.a r.sa r.ty r.sub2)
    | 4 => some (.vlog2 r.a r.sa r.ty r.sub2)
    | 5 => some (.vabs r.a r.sa r.ty r.sub2)
    | 6 => some (.vneg r.a r.sa r.ty r.sub2)
    | 7 => some (.vbc r.a r.sa r.ty r.sub2)
    | _ => none
  | 0x8A => some (.vcmp r.sub r.a r.sa r.sb r.ty r.sub2)
  | 0x8B => some (.vsel r.a r.sa r.sb r.sc r.ty)
  | 0x8C => match r.sub with
    | 0 => some (.vred r.a r.sa r.imm r.ty r.sub2)
    | 1 => some (.vscan r.a r.sa r.imm r.ty r.sub2)
    | 2 => some (.vperm r.a r.sa r.sb r.ty r.sub2)
    | 3 => some (.vshuf r.a r.sa r.sb r.imm r.ty r.sub2)
    | 4 => some (.vins r.a r.sa r.imm r.ty r.sub2)
    | _ => none
  | 0x8D => some (.vext r.a r.sa (r.imm % 64) (r.imm / 64))
  | 0x90 => some (.vcvt r.a r.sa (r.imm % 64) (r.imm / 64) r.sub r.sub2)
  | 0x91 => some (.venc r.a r.sa r.imm r.sub r.sub2)
  | 0x92 => some (.vdec r.a r.sa r.imm r.sub r.sub2)
  | 0x94 => match r.sub with
    | 0 => some (.mkand r.a r.sa r.sb)
    | 1 => some (.mkor r.a r.sa r.sb)
    | 2 => some (.mknot r.a r.sa)
    | 3 => some (.mkset r.a r.sa)
    | _ => none
  | 0x95 => some (.mkpop r.a r.sa)
  | 0x98 => some (.tblld r.a r.mem)
  | 0x99 => match r.sub with
    | 0 => some (.tblrd r.a r.imm r.sa)
    | 1 => some (.fdtset r.imm r.sa)
    | 2 => some (.fdtget r.a r.imm)
    | _ => none
  | 0x9C => some (.strm r.a r.sa r.sb (r.sub % 2 == 1) (r.sub / 2 % 2 == 1))
  | 0x9D => some (.strmx r.a r.sa r.sb (r.sub % 2 == 1) (r.sub / 2 % 2 == 1) (r.sub / 4 % 2 == 1))
  | 0x9E => some (.strmq r.a r.sa (r.sub / 2 % 2 == 1))
  | 0xB0 => match r.imm with
    | 0 => some (.mcfgWeights r.sa)
    | 1 => some (.mcfgDiscard)
    | _ => none
  | 0xB1 => some (.mma r.sa)
  | 0xB2 => some (.mmag r.a r.sa r.sb)
  | 0xB3 => some (.mdrain r.sa r.sb (r.sub % 2 == 1))
  | 0xB4 => some (.mzero)
  | 0xB5 => some (.mresume r.a r.sa)
  | 0xB6 => some (.mstat r.a r.sa)
  | 0xB7 => some (.gath r.sa)
  | 0xB8 => some (.skipb r.sa r.sb)
  | 0xBA => some (.cbdef r.a r.sa r.sb)
  | 0xBB => match r.md with
    | 1 => some (.cbwaitP r.a r.sa)
    | 2 => some (.cbwaitC r.a r.sa)
    | _ => none
  | 0xBC => match r.sub with
    | 0 => some (.cbpub r.a r.sa)
    | 1 => some (.cbadv r.a r.sa)
    | 2 => some (.cbfree r.a r.sa)
    | 3 => some (.cbq r.a r.sa)
    | _ => none
  | 0xC0 => some (.xcopy r.sa)
  | 0xC1 => match r.sub with
    | 0 => some (.xpoll r.a r.sa)
    | 1 => some (.xwait r.a r.sa)
    | 2 => some (.xcancel r.a r.sa)
    | 3 => some (.jwait r.a r.sa)
    | 4 => some (.jpoll r.a r.sa)
    | _ => none
  | 0xC2 => some (.uiret)
  | 0xC8 => some (.nred r.a r.sa)
  | 0xC9 => some (.nrwait r.a r.sa)
  | 0xCA => some (.nmcast r.a r.sa)
  | 0xD0 => some (.putk r.a r.sa r.sb r.sc)
  | 0xD1 => match r.md with
    | 0 => some (.rdkB r.a r.sa)
    | 1 => some (.rdkP r.a r.sa)
    | 2 => some (.rdkC r.a r.sa)
    | _ => none
  | 0xD2 => match r.md with
    | 0 => some (.takkB r.a r.sa)
    | 1 => some (.takkP r.a r.sa)
    | 2 => some (.takkC r.a r.sa)
    | _ => none
  | 0xD3 => some (.kcancel r.a r.sa r.sb)
  | 0xD4 => some (.krange r.a r.sa r.sb)
  | 0xD5 => some (.ksplit r.a r.sa)
  | 0xD8 => some (.msend r.sa r.sb r.sc r.imm (r.sub % 2 == 1) r.ch)
  | 0xD9 => some (.msenda r.a r.sa r.sb r.sc r.imm (r.sub % 2 == 1) r.ch)
  | 0xDA => some (.mreply r.sa r.imm)
  | 0xDB => some (.mdefer)
  | 0xE0 => some (.spawn r.a r.sa)
  | 0xE1 => some (.spawnt r.a r.sa r.sb)
  | 0xE2 => some (.popt r.a r.sa)
  | 0xE3 => some (.steal r.a r.sa r.sb)
  | 0xE4 => some (.tabort)
  | 0xE5 => some (.lnch r.a r.sa r.sb)
  | 0xE8 => some (.gld r.a r.sa r.sb r.sd)
  | 0xE9 => some (.gst r.a r.sa r.sb r.sc r.sd)
  | 0xEA => match r.sub with
    | 0 => some (.gadd r.a r.sa r.sb)
    | 1 => some (.gdamp r.a r.sa r.sb r.sc)
    | 2 => some (.gelim r.a r.sa r.sb r.sc (r.imm % 4) (r.imm / 4))
    | _ => none
  | 0xEB => some (.gres r.a r.sa r.sb r.sc r.sd r.imm)
  | 0xEC => some (.gpost r.a r.sa r.sb r.sc r.sd)
  | 0xED => match r.sub with
    | 0 => some (.cmvStart r.a r.imm r.sa r.sb r.sc)
    | 1 => some (.cprog r.a r.imm r.sa r.sb r.sc)
    | 2 => some (.ccal r.a r.imm)
    | 3 => some (.cqry r.a (r.imm % 8) (r.imm / 8))
    | _ => none
  | 0xEE => some (.cmvRead r.a (r.imm % 8) (r.imm / 8))
  | 0xEF => match r.sub with
    | 0 => some (.eadd r.a r.sa r.sb)
    | 1 => some (.esub r.a r.sa r.sb)
    | 2 => some (.emul r.a r.sa r.sb)
    | 3 => some (.efma r.a r.sa r.sb r.sc)
    | 4 => some (.emov r.a r.sa)
    | _ => none
  | 0xF0 => match r.sub with
    | 0 => some (.admitB r.a r.sa r.sb r.sc)
    | 1 => some (.ebnd r.a r.sa)
    | _ => none
  | 0xF1 => some (.nbc r.a r.sa r.sb)
  | 0xF2 => match r.sub with
    | 0 => some (.nbov r.a r.sa r.sb)
    | 1 => some (.nbmodeNormal r.a r.sa r.sb)
    | 2 => some (.nbstat r.a r.sa r.imm)
    | _ => none
  | 0xF8 => some (.mfs r.a r.imm)
  | 0xF9 => some (.mts r.imm r.sa)
  | 0xFA => match r.sub with
    | 0 => some (.tret)
    | 1 => some (.tretResume r.a r.sa)
    | 2 => some (.tretSkip r.a r.sa)
    | 3 => some (.tretEnd r.a r.sa)
    | _ => none
  | 0xFB => some (.sysc r.imm)
  | 0xFC => match r.sub with
    | 0 => some (.tlbiInv r.a r.sa)
    | 1 => some (.tlbiInvall r.a r.sa)
    | 2 => some (.tlbiUnmap r.a r.sa)
    | 3 => some (.tlbiMove r.a r.sa)
    | 4 => some (.tlbiMovef r.a r.sa)
    | 5 => some (.tlbiRel r.a r.sa)
    | _ => none
  | 0xFD => match r.sub with
    | 0 => some (.ctxsv r.a r.sa r.sb)
    | 1 => some (.ctxld r.a r.sa r.sb)
    | 2 => some (.pkill r.a r.sa)
    | _ => none
  | 0xFE => some (.halt)
  | _ => none

end Sys2Proof
end

