-- ==== Sys2Proof/WellFormed.lean ====
section
/-! DEFINITION. Which terms of Instr are instructions: every field within its width and every check of R324 that depends on
the encoding alone passed (R288, R296, R297, R309 to R311). Privilege, features and operand values are checked when an
instruction runs. -/

namespace Sys2Proof

/-- A near-bank micro-instruction's fields lie within the widths of R224, Table 2. -/
def microFits (i : Instr) : Bool :=
  match i with
  | .nbuHalt => true
  | .nbuClose => true
  | .nbuOpen w s => decide (w < 2) && decide (s < 16)
  | .nbuSetbMask m => decide (m < 2 ^ 16)
  | .nbuSetbReg s => decide (s < 16)
  | .nbuRdcol s t c => decide (s < 16) && decide (t < 16) && decide (c < 32)
  | .nbuWrcol t c => decide (t < 16) && decide (c < 32)
  | .nbuMacb d t c => decide (d < 8) && decide (t < 16) && decide (c < 32)
  | .nbuMacbOnes d t c => decide (d < 8) && decide (t < 16) && decide (c < 32)
  | .nbuClra d => decide (d < 8)
  | .nbuAdda d t => decide (d < 8) && decide (t < 8)
  | .nbuMaxa d t => decide (d < 8) && decide (t < 8)
  | .nbuScala d t => decide (d < 8) && decide (t < 16)
  | .nbuWbacc d b t c => decide (d < 8) && decide (b < 16) && decide (t < 16) && decide (c < 32)
  | .nbuWbaccBf d b t c => decide (d < 8) && decide (b < 16) && decide (t < 16) && decide (c < 32)
  | .nbuLdi d k => decide (d < 16) && decide (k < 2 ^ 23)
  | .nbuAddi d t k => decide (d < 16) && decide (t < 16) && decide (k < 2 ^ 15)
  | .nbuAdd d t u => decide (d < 16) && decide (t < 16) && decide (u < 16)
  | .nbuSub d t u => decide (d < 16) && decide (t < 16) && decide (u < 16)
  | .nbuAnd d t u => decide (d < 16) && decide (t < 16) && decide (u < 16)
  | .nbuShl d t u => decide (d < 16) && decide (t < 16) && decide (u < 16)
  | .nbuBeq t u f => decide (t < 16) && decide (u < 16) && decide (f < 2 ^ 15)
  | .nbuBne t u f => decide (t < 16) && decide (u < 16) && decide (f < 2 ^ 15)
  | .nbuBlt t u f => decide (t < 16) && decide (u < 16) && decide (f < 2 ^ 15)
  | .nbuLoop t f => decide (t < 16) && decide (f < 2 ^ 15)
  | .nbuJmp f => decide (f < 2 ^ 23)
  | .nbuReport t => decide (t < 16)
  | _ => true

/-- Two operands that share an immediate field lie within their parts of it (R309 to R322): FMT of PSET, the first
operand of BEXT, the lane of VEXT, DCODE of VCVT, the first dimension of GELIM, the array of CQRY and of CMV. -/
def partFits (i : Instr) : Bool :=
  match i with
  | .pset _ _ p _ => decide (p < 64)
  | .bext _ _ p _ => decide (p < 64)
  | .vext _ _ p _ => decide (p < 64)
  | .vcvt _ _ p _ _ _ => decide (p < 64)
  | .gelim _ _ _ _ m _ => decide (m < 4)
  | .cqry _ m _ => decide (m < 8)
  | .cmvRead _ m _ => decide (m < 8)
  | _ => true

/-- `i` is a well-formed instruction. An event is well-formed whatever it carries. -/
def Instr.wellFormed (i : Instr) : Bool :=
  match rawOf i with
  | some r =>
    match formOf r.op with
    | some f => r.fits f && (checkFields f r).isNone && partFits i
    | none => false
  | none => microFits i

end Sys2Proof
end

