-- ==== Sys2Proof/Decode.lean ====
section
/-! DEFINITION. Decoding and encoding: a head and a tail (R285 to R288, R324), a 64-byte line (R284, R286), a near-bank
micro-instruction word (R223, R224), and a word of the opcode table. Every decoder is total; what is no instruction is
rejected with the reason of R324, or by none. -/

namespace Sys2Proof

/-- A list of bytes as a little-endian number (R5). -/
def leNat : List Byte → Nat
  | [] => 0
  | b :: bs => b.toNat + 256 * leNat bs

/-- The instruction in a head and a tail, or the reason of R324 why there is none. -/
def decodeCode (head tail : Nat) : Except BadCode Instr :=
  match fieldsOf head tail with
  | .error b => .error b
  | .ok r =>
    match build r with
    | some i => .ok i
    | none => .error { op := r.op, reason := 3 }

/-- A head, a tail and the tail's length in bytes. -/
structure Code where
  head : Nat
  tail : Nat
  len : Nat
  deriving DecidableEq, Repr

/-- The head and tail of a well-formed core instruction (none for events, micro-instructions and ill-formed terms). -/
def encode (i : Instr) : Option Code :=
  if i.wellFormed then
    match rawOf i with
    | some r =>
      match formOf r.op with
      | some f => some { head := r.head f, tail := r.tail f, len := tailLen f.tl }
      | none => none
    | none => none
  else none

/-- The bytes of `bs` from `off` on, `len` of them, as a number. -/
def leAt (bs : List Byte) (off len : Nat) : Nat := leNat ((bs.drop off).take len)

/-- The heads and tails of `n` more instructions of a line, of which `k` have been read and whose tails end at byte `off`
(R286). -/
def lineCodes (bs : List Byte) : Nat → Nat → Nat → List Code
  | 0, _, _ => []
  | n + 1, k, off =>
    let h := leAt bs (2 + 2 * k) 2
    let len := tailLen (h / 2 ^ 14)
    { head := h, tail := leAt bs (off - len) len, len := len } :: lineCodes bs n (k + 1) (off - len)

/-- The instructions of a line, none where the line is malformed: N = 0, reserved bits of the line word not zero, or heads
and tails overlapping (R284, R286, R288). -/
def parseLine (bs : List Byte) : Option (List Code) :=
  let w := leAt bs 0 2
  let n := w / 2 ^ 11
  if n = 0 ∨ w % 2 ^ 11 ≠ 0 then none
  else
    let cs := lineCodes bs n 0 64
    if 64 < 2 + 2 * n + (cs.map (fun c => c.len)).sum then none else some cs

/-- A near-bank micro-instruction, apart from the instructions of a core (R224, Table 2). -/
inductive Micro where
  | halt
  | close
  | open_ (w s : Nat)
  | setbMask (m : Nat)
  | setbReg (s : Nat)
  | rdcol (s t c : Nat)
  | wrcol (t c : Nat)
  | macb (d t c : Nat)
  | macbOnes (d t c : Nat)
  | clra (d : Nat)
  | adda (d s : Nat)
  | maxa (d s : Nat)
  | scala (d s : Nat)
  | wbacc (s b t c : Nat)
  | wbaccBf (s b t c : Nat)
  | ldi (d i : Nat)
  | addi (d s i : Nat)
  | add (d s t : Nat)
  | sub (d s t : Nat)
  | and_ (d s t : Nat)
  | shl (d s t : Nat)
  | beq (s t f : Nat)
  | bne (s t f : Nat)
  | blt (s t f : Nat)
  | loop (s f : Nat)
  | jmp (f : Nat)
  | report (s : Nat)
  deriving DecidableEq, Repr

/-- The micro-instruction in an overlay word, none where R223 makes it the fault ILLOP. -/
def decodeMicroOp (w : W32) : Option Micro :=
  let x := w.toNat
  let d4 := fieldOf x 23 4
  let d3 := fieldOf x 23 3
  let s4 := fieldOf x 19 4
  let t4 := fieldOf x 15 4
  let c5 := fieldOf x 0 5
  let only (mask : Nat) (i : Micro) : Option Micro := if fieldOf x 0 27 &&& mask = fieldOf x 0 27 then some i else none
  match fieldOf x 27 5 with
  | 0 => only 0 .halt
  | 1 => only 0x4780000 (.open_ (fieldOf x 26 1) s4)
  | 2 => only 0 .close
  | 3 => only 0x478FFFF (if fieldOf x 26 1 = 1 then .setbReg s4 else .setbMask (fieldOf x 0 16))
  | 4 => only 0x7F801F (.rdcol s4 t4 c5)
  | 5 => only 0x7801F (.wrcol t4 c5)
  | 6 => only 0x387C01F (if fieldOf x 14 1 = 1 then .macbOnes d3 t4 c5 else .macb d3 t4 c5)
  | 7 => only 0x3800000 (.clra d3)
  | 8 => only 0x3B80000 (.adda d3 (fieldOf x 19 3))
  | 9 => only 0x3B80000 (.maxa d3 (fieldOf x 19 3))
  | 10 => only 0x3F80000 (.scala d3 s4)
  | 11 => only 0x3FFC01F (if fieldOf x 14 1 = 1 then .wbaccBf d3 s4 t4 c5 else .wbacc d3 s4 t4 c5)
  | 12 => only 0x7FFFFFF (.ldi d4 (fieldOf x 0 23))
  | 13 => only 0x7F87FFF (.addi d4 s4 (fieldOf x 0 15))
  | 14 => only 0x7FF8000 (.add d4 s4 t4)
  | 15 => only 0x7FF8000 (.sub d4 s4 t4)
  | 16 => only 0x7FF8000 (.and_ d4 s4 t4)
  | 17 => only 0x7FF8000 (.shl d4 s4 t4)
  | 18 => only 0x7FFFFF (.beq s4 t4 (fieldOf x 0 15))
  | 19 => only 0x7FFFFF (.bne s4 t4 (fieldOf x 0 15))
  | 20 => only 0x7FFFFF (.blt s4 t4 (fieldOf x 0 15))
  | 21 => only 0x787FFF (.loop s4 (fieldOf x 0 15))
  | 22 => only 0x7FFFFF (.jmp (fieldOf x 0 23))
  | 23 => only 0x780000 (.report s4)
  | _ => none

noncomputable section

/-- A micro-instruction as an instruction. -/
def Micro.toInstr : Micro → Instr
  | .halt => .nbuHalt
  | .close => .nbuClose
  | .open_ w s => .nbuOpen w s
  | .setbMask m => .nbuSetbMask m
  | .setbReg s => .nbuSetbReg s
  | .rdcol s t c => .nbuRdcol s t c
  | .wrcol t c => .nbuWrcol t c
  | .macb d t c => .nbuMacb d t c
  | .macbOnes d t c => .nbuMacbOnes d t c
  | .clra d => .nbuClra d
  | .adda d s => .nbuAdda d s
  | .maxa d s => .nbuMaxa d s
  | .scala d s => .nbuScala d s
  | .wbacc s b t c => .nbuWbacc s b t c
  | .wbaccBf s b t c => .nbuWbaccBf s b t c
  | .ldi d i => .nbuLdi d i
  | .addi d s i => .nbuAddi d s i
  | .add d s t => .nbuAdd d s t
  | .sub d s t => .nbuSub d s t
  | .and_ d s t => .nbuAnd d s t
  | .shl d s t => .nbuShl d s t
  | .beq s t f => .nbuBeq s t f
  | .bne s t f => .nbuBne s t f
  | .blt s t f => .nbuBlt s t f
  | .loop s f => .nbuLoop s f
  | .jmp f => .nbuJmp f
  | .report s => .nbuReport s

/-- The instruction in an overlay word, none where R223 makes it the fault ILLOP. -/
def decodeMicro (w : W32) : Option Instr := (decodeMicroOp w).map Micro.toInstr

end

/-- The overlay word of a micro-instruction (R224, Table 2). -/
def encodeMicro (i : Instr) : Option W32 :=
  if i.wellFormed then
    (match i with
    | .nbuHalt => some 0
    | .nbuOpen w t => some (1 * 2 ^ 27 + w * 2 ^ 26 + t * 2 ^ 19)
    | .nbuClose => some (2 * 2 ^ 27)
    | .nbuSetbMask m => some (3 * 2 ^ 27 + m)
    | .nbuSetbReg t => some (3 * 2 ^ 27 + 2 ^ 26 + t * 2 ^ 19)
    | .nbuRdcol t u c => some (4 * 2 ^ 27 + t * 2 ^ 19 + u * 2 ^ 15 + c)
    | .nbuWrcol u c => some (5 * 2 ^ 27 + u * 2 ^ 15 + c)
    | .nbuMacb d u c => some (6 * 2 ^ 27 + d * 2 ^ 23 + u * 2 ^ 15 + c)
    | .nbuMacbOnes d u c => some (6 * 2 ^ 27 + d * 2 ^ 23 + u * 2 ^ 15 + 2 ^ 14 + c)
    | .nbuClra d => some (7 * 2 ^ 27 + d * 2 ^ 23)
    | .nbuAdda d t => some (8 * 2 ^ 27 + d * 2 ^ 23 + t * 2 ^ 19)
    | .nbuMaxa d t => some (9 * 2 ^ 27 + d * 2 ^ 23 + t * 2 ^ 19)
    | .nbuScala d t => some (10 * 2 ^ 27 + d * 2 ^ 23 + t * 2 ^ 19)
    | .nbuWbacc a b u c => some (11 * 2 ^ 27 + a * 2 ^ 23 + b * 2 ^ 19 + u * 2 ^ 15 + c)
    | .nbuWbaccBf a b u c => some (11 * 2 ^ 27 + a * 2 ^ 23 + b * 2 ^ 19 + u * 2 ^ 15 + 2 ^ 14 + c)
    | .nbuLdi d k => some (12 * 2 ^ 27 + d * 2 ^ 23 + k)
    | .nbuAddi d t k => some (13 * 2 ^ 27 + d * 2 ^ 23 + t * 2 ^ 19 + k)
    | .nbuAdd d t u => some (14 * 2 ^ 27 + d * 2 ^ 23 + t * 2 ^ 19 + u * 2 ^ 15)
    | .nbuSub d t u => some (15 * 2 ^ 27 + d * 2 ^ 23 + t * 2 ^ 19 + u * 2 ^ 15)
    | .nbuAnd d t u => some (16 * 2 ^ 27 + d * 2 ^ 23 + t * 2 ^ 19 + u * 2 ^ 15)
    | .nbuShl d t u => some (17 * 2 ^ 27 + d * 2 ^ 23 + t * 2 ^ 19 + u * 2 ^ 15)
    | .nbuBeq t u f => some (18 * 2 ^ 27 + t * 2 ^ 19 + u * 2 ^ 15 + f)
    | .nbuBne t u f => some (19 * 2 ^ 27 + t * 2 ^ 19 + u * 2 ^ 15 + f)
    | .nbuBlt t u f => some (20 * 2 ^ 27 + t * 2 ^ 19 + u * 2 ^ 15 + f)
    | .nbuLoop t f => some (21 * 2 ^ 27 + t * 2 ^ 19 + f)
    | .nbuJmp f => some (22 * 2 ^ 27 + f)
    | .nbuReport t => some (23 * 2 ^ 27 + t * 2 ^ 19)
    | _ => none).map (BitVec.ofNat 32)
  else none

/-- What a word of spec/opcode_table.json names. The table writes a head alone in 16 bits, and a head above its 2-byte tail
in 32 bits; it writes a near-bank micro-instruction as its 32-bit word. -/
inductive TableWord where
  | core (head tail : Nat)
  | micro (w : W32)
  deriving DecidableEq, Repr

/-- How a word of the opcode table lies in the machine: a word that is no core head of a 2-byte tail (R285) with its tail is a
near-bank word. -/
def tableWord (nbits w : Nat) : TableWord :=
  if nbits ≤ 16 then .core (fieldOf w 0 16) 0
  else if fieldOf w 30 2 ≠ 1 then .micro (BitVec.ofNat 32 w)
  else
    match decodeCode (fieldOf w 16 16) (fieldOf w 0 16) with
    | .ok _ => .core (fieldOf w 16 16) (fieldOf w 0 16)
    | .error _ => .micro (BitVec.ofNat 32 w)

noncomputable section

/-- The instruction that the decoder reads from a word of the opcode table. -/
def decodeTableWord (nbits w : Nat) : Option Instr :=
  match tableWord nbits w with
  | .core h t =>
    match decodeCode h t with
    | .ok i => some i
    | .error _ => none
  | .micro x => decodeMicro x

end

end Sys2Proof
end

