-- ==== Sys2Proof/Event.lean ====
section
/-! DEFINITION. The device's own events as plain data, so that State can hold the ones in flight: one constructor for each
constructor of Instr that is no instruction of a program, with the same operands. `Event.toInstr` is the instruction that a
step runs for it. -/

namespace Sys2Proof

/-- An event of the device (the rows of spec/opcode_table.json without a mnemonic of chapters 17 to 22 or 11). -/
inductive Event where
  /-- DEVICE_RESET (R24). -/
  | deviceReset
  /-- BRING_UP_STEP_COMPLETE (R24). -/
  | bringUpStepComplete (step : Nat) (ok : Bool)
  /-- ISL_CTL_WRITE (R17). -/
  | islCtlWrite (isl : Nat) (v : Word)
  /-- OPERATING_POINT_CHANGE_DONE (R16). -/
  | operatingPointChangeDone (isl : Nat)
  /-- POWER_WINDOW (R19). -/
  | powerWindow (milliwatts : Nat) (heat : List Nat)
  /-- HEAT_FLUX_WINDOW (R20). -/
  | heatFluxWindow (cluster milliwattsPerCm2 : Nat)
  /-- ALARM_RAISE (R72). -/
  | alarmRaise (source : AlarmSource) (die : Nat)
  /-- KEY_ERASURE_DONE (R74). -/
  | keyErasureDone
  /-- PATROL_SCRUB (R23). -/
  | patrolScrub (site : EccSite) (finding : ScrubFinding)
  /-- ECC_CORR_WRITE (R23). -/
  | eccCorrWrite (die : Nat) (v : Word)
  /-- REGISTER_WRITE (R7). -/
  | registerWrite (off : Nat) (v : Word)
  /-- FAB_DIM_WRITE (R52). -/
  | fabDimWrite (v : Word)
  /-- FAB_RTO_WRITE (R52). -/
  | fabRtoWrite (v : Word)
  /-- FAB_ERR_WRITE (R52). -/
  | fabErrWrite (v : Word)
  /-- RETRAIN (R34). -/
  | retrain (port : Nat)
  /-- DISABLE (R52). -/
  | disable (port : Nat) (hold : Bool)
  /-- VMISMATCH_CLEAR (R52). -/
  | vmismatchClear (port : Nat)
  /-- LINK_TRAINING_WORDS (R35). -/
  | linkTrainingWords (port : Nat) (version : BitVec 32) (features : Word)
  /-- LANE_LOCK_LOSS (R34). -/
  | laneLockLoss (port : Nat)
  /-- CONTROL_WORD_TIMEOUT (R34). -/
  | controlWordTimeout (port : Nat)
  /-- FLIT_ARRIVE (R31). -/
  | flitArrive (fs : List ArrivingFlit)
  /-- SWAP_INJECT (R32). -/
  | swapInject (passing : List ArrivingFlit)
  /-- FLIT_DELIVER (R39). -/
  | flitDeliver (f : Flit)
  /-- AEAD_PAD (R37). -/
  | aeadPad (dst vc : Nat)
  /-- ACK_TIMER (R40). -/
  | ackTimer (src vc : Nat)
  /-- ACK (R40). -/
  | ack (src : Nat) (pairs : List (Nat × BitVec 32))
  /-- RESPONSE_ACK (R42). -/
  | responseAck (src vc : Nat) (upTo : BitVec 32)
  /-- ARESP (R42). -/
  | aresp (f : Flit)
  /-- REPLAY_TIMER_EXPIRY (R41). -/
  | replayTimerExpiry (dst vc : Nat)
  /-- DEVICE_LOST_DECLARE (R43). -/
  | deviceLostDeclare (dev : Nat)
  /-- MCAST_COPY (R46). -/
  | mcastCopy (c : McastCopy)
  /-- MCAST_STATUS (R46). -/
  | mcastStatus (job : Word) (member : Nat) (status : Word)
  /-- REDC (R47). -/
  | redc (m : RedMsg)
  /-- REDR (R47). -/
  | redr (m : RedMsg)
  /-- CIDAN_LINK_FLIT (R54). -/
  | cidanLinkFlit (crcOk : Bool)
  /-- CIDAN_LINK_TRAINING_DONE (R54). -/
  | cidanLinkTrainingDone (ok : Bool) (version : BitVec 32) (features : Word)
  /-- CIDAN_LANE_LOCK_TIMEOUT (R54). -/
  | cidanLaneLockTimeout
  /-- LOW_POWER_IDLE (R55). -/
  | lowPowerIdle
  /-- APERTURE_READ (R57). -/
  | apertureRead (pa n : Nat) (tag : Word)
  /-- APERTURE_WRITE (R57). -/
  | apertureWrite (pa : Nat) (bytes : List Byte)
  /-- PEER_TO_PEER_REJECT (R53). -/
  | peerToPeerReject (tag : Word)
  /-- BAR_ACCESS_LINK_DOWN (R56). -/
  | barAccessLinkDown (write : Bool) (a : BarAccess)
  /-- HR_CTL_WRITE (R58). -/
  | hrCtlWrite (fn ring : Nat) (v : Word)
  /-- HR_TAIL_WRITE (R58). -/
  | hrTailWrite (fn ring : Nat) (v : Word)
  /-- HOST_NOP (R59). -/
  | hostNop (c : HostCmd)
  /-- HOST_WRITE (R59). -/
  | hostWrite (c : HostCmd)
  /-- HOST_READ (R59). -/
  | hostRead (c : HostCmd)
  /-- HOST_LAUNCH (R60). -/
  | hostLaunch (c : HostCmd)
  /-- HOST_SIGNAL (R59). -/
  | hostSignal (c : HostCmd)
  /-- GATE_CLOSE (R67). -/
  | gateClose (c : HostCmd)
  /-- GATE_OPEN (R67). -/
  | gateOpen (c : HostCmd)
  /-- ATTEST (R71). -/
  | attest (c : HostCmd)
  /-- HOST_CMD_COMPLETE (R60). -/
  | hostCmdComplete (c : HostCompletion)
  /-- GATE_DRAINED (R68). -/
  | gateDrained (region : Nat)
  /-- PARTITION_ENTRY_WRITE (R64). -/
  | partitionEntryWrite (part : Nat) (e : PartEntry)
  /-- LAUNCH_QUEUE_CFG_WRITE (R82). -/
  | launchQueueCfgWrite (q : Nat) (v : Word)
  /-- PERIOD_START (R84). -/
  | periodStart (q : Nat)
  /-- DEPENDENCE_TEST (R85). -/
  | dependenceTest (q : Nat)
  /-- TASK_PLACE (R86). -/
  | taskPlace
  /-- TASK_START (R93). -/
  | taskStart (core : Nat)
  /-- TASK_END (R76). -/
  | taskEnd (task : Nat)
  /-- SHOTCLOCK (R103). -/
  | shotclock (task : Nat)
  /-- HANDLER_SHOTCLOCK (R117). -/
  | handlerShotclock (core ctx : Nat)
  /-- QUIESCE_REQUEST (R104). -/
  | quiesceRequest (part : Nat)
  /-- PARTITION_QUIET (R104). -/
  | partitionQuiet (part : Nat)
  /-- UMPIRE_TICK (R101). -/
  | umpireTick (part : Nat)
  /-- MESSAGE_ARRIVE (R112). -/
  | messageArrive (core : Nat) (m : Msg)
  /-- ACKNOWLEDGEMENT_ARRIVE (R111). -/
  | acknowledgementArrive (core : Nat) (a : Ack)
  /-- HANDLER_START (R114). -/
  | handlerStart (core ctx : Nat)
  /-- OUTGOING_SEND (R115). -/
  | outgoingSend (core : Nat)
  /-- OUTGOING_RESEND (R115). -/
  | outgoingResend (core : Nat) (seqn : BitVec 32)
  /-- TRAP_RECORD_RESEND (R274). -/
  | trapRecordResend (r : TrapRecord)
  /-- ARRIVAL_ENTRY_RESERVE (R118). -/
  | arrivalEntryReserve (d : Arrival)
  /-- ARRIVAL_READY (R118). -/
  | arrivalReady (d : Arrival)
  /-- ARRIVAL_HANDLER_START (R118). -/
  | arrivalHandlerStart (core ctx : Nat)
  /-- PENDING_VALUE_ARRIVE (R119). -/
  | pendingValueArrive (dst : RegDest) (v : Reply)
  /-- REMOTE_FAULT_DELIVER (R350). -/
  | remoteFaultDeliver (core ctx : Nat) (p : Poison)
  /-- PEER_ACCESS_SERVE (R121). -/
  | peerAccessServe (r : RemoteAccess)
  /-- MIGRATION_REQUEST (R123). -/
  | migrationRequest (m : Migration)
  /-- MIGRATION_REPLY (R123). -/
  | migrationReply (m : Migration) (accepted : Bool)
  /-- MIGRATION_IMAGE (R123). -/
  | migrationImage (m : Migration)
  /-- MIGRATION_IMAGE_ACK (R123). -/
  | migrationImageAck (m : Migration)
  /-- HOME_REQUEST (R132). -/
  | homeRequest (line node : Nat)
  /-- ENGINE_LINE_RELEASE (R135). -/
  | engineLineRelease (job : Word) (line : Nat)
  /-- WALK_COMPLETE (R145). -/
  | walkComplete (cluster : Nat) (va : Word)
  /-- TLBI_WALKER_MESSAGE (R147). -/
  | tlbiWalkerMessage (t : TlbiMsg) (cluster : Nat)
  /-- TLBI_ACKNOWLEDGE (R147). -/
  | tlbiAcknowledge (t : TlbiMsg) (cluster : Nat)
  /-- TUPLE_PUT (R160). -/
  | tuplePut (r : TupleReq)
  /-- TUPLE_READ_TAKE (R161). -/
  | tupleReadTake (r : TupleReq)
  /-- TUPLE_CANCEL (R164). -/
  | tupleCancel (r : TupleReq)
  /-- TUPLE_WITHDRAW (R165). -/
  | tupleWithdraw (r : TupleReq)
  /-- TUPLE_DELIVERY_COMPLETE (R162). -/
  | tupleDeliveryComplete (d : Delivery)
  /-- HANDOFF_SPLIT (R169). -/
  | handoffSplit (h : Handoff)
  /-- HANDOFF_COPY_RECEIVE (R169). -/
  | handoffCopyReceive (h : Handoff) (i : HandoffItem)
  /-- HANDOFF_FREEZE (R169). -/
  | handoffFreeze (h : Handoff)
  /-- HANDOFF_CUTOVER (R169). -/
  | handoffCutover (h : Handoff)
  /-- HANDOFF_SWITCH (R169). -/
  | handoffSwitch (h : Handoff)
  /-- HANDOFF_ABANDON (R168). -/
  | handoffAbandon (h : Handoff) (status : Word)
  /-- MOVED (R171). -/
  | moved (part lo last dev : Nat)
  /-- MATRIX_GRAIN (R175). -/
  | matrixGrain (cluster : Nat)
  /-- JOB_COMPLETE (R190). -/
  | jobComplete (job : Word)
  /-- USER_INTERRUPT (R191). -/
  | userInterrupt (core ctx : Nat)
  /-- ENGINE_FAULT_DELIVER (R276). -/
  | engineFaultDeliver (f : EngineFault)
  /-- COPY_ROW (R402). -/
  | copyRow (cluster core : Nat)
  /-- COPY_ARRIVAL_WAIT (R192). -/
  | copyArrivalWait (cluster core : Nat)
  /-- GATHER_ROW (R188). -/
  | gatherRow (cluster core : Nat)
  /-- DRAIN_ROW (R395). -/
  | drainRow (cluster core : Nat)
  /-- STREAM_UNIT (R385). -/
  | streamUnit (core ctx reg : Nat)
  /-- XBAR_COMMAND_HEAD (R196). -/
  | xbarCommandHead (cluster arr : Nat)
  /-- XBAR_PRODUCT_COMPLETE (R201). -/
  | xbarProductComplete (cluster arr : Nat) (readings : List Int) (refA refB : Int)
  /-- XBAR_PROGRAM_ROW (R197). -/
  | xbarProgramRow (cluster arr : Nat) (unverified : Nat)
  /-- CALIBRATION_COMPLETE (R202). -/
  | calibrationComplete (cluster arr : Nat) (beta gamma : BitVec 32)
  /-- NBU_STEP (R223). -/
  | nbuStep (u : Nat)
  /-- NBU_ORDINARY_ACCESS (R228). -/
  | nbuOrdinaryAccess (u : Nat) (a : OrdinaryAccess)
  /-- NBU_REQUEST (R437). -/
  | nbuRequest (u : Nat) (r : NbEnvelope)
  /-- TRAP_DELIVER_SUPERVISOR (R274). -/
  | trapDeliverSupervisor (r : TrapRecord)
  /-- TRAP_DELIVER_TVEC (R273). -/
  | trapDeliverTvec (core ctx : Nat) (t : Trap)
  /-- CORE_MQCAP_WRITE (R457). -/
  | coreMqcapWrite (core : Nat) (v : Word)
  /-- SLEEP_WAKE (R330). -/
  | sleepWake (core ctx : Nat) (countExpired : Bool)
  /-- BARRIER_GENERATION_COMPLETE (R361). -/
  | barrierGenerationComplete (b : BarrierId)
  /-- LAUNCH_SUBMIT (R81). -/
  | launchSubmit (r : Submission)
  /-- HALT_WAKE (R445). -/
  | haltWake
  /-- STORE_ACKNOWLEDGE (R350). -/
  | storeAcknowledge (core ctx : Nat)
  /-- VICTIM_QUEUE_STEAL (R424). -/
  | victimQueueSteal (q : StealReq)
  /-- TRET_HANDLE_ARRIVE (R441). -/
  | tretHandleArrive (t : TretReq)
  /-- MRESUME_AT_UNIT (R396). -/
  | mresumeAtUnit (r : ResumeReq)
  /-- ALARM_CONDITION_END (R72). -/
  | alarmConditionEnd (source : AlarmSource) (die : Nat)
  /-- LOW_POWER_IDLE_EXIT (R55). -/
  | lowPowerIdleExit
  /-- SORTED_INDEX_BUILT (R248). -/
  | sortedIndexBuilt (core t : Nat)
  deriving DecidableEq, Repr

noncomputable section

/-- The instruction that runs event `e`. (Not compiled: Lean's runtime has no tag for so many constructors. The kernel
evaluates it.) -/
def Event.toInstr (e : Event) : Instr :=
  match e with
  | .deviceReset => .deviceReset
  | .bringUpStepComplete step ok => .bringUpStepComplete step ok
  | .islCtlWrite isl v => .islCtlWrite isl v
  | .operatingPointChangeDone isl => .operatingPointChangeDone isl
  | .powerWindow milliwatts heat => .powerWindow milliwatts heat
  | .heatFluxWindow cluster milliwattsPerCm2 => .heatFluxWindow cluster milliwattsPerCm2
  | .alarmRaise source die => .alarmRaise source die
  | .keyErasureDone => .keyErasureDone
  | .patrolScrub site finding => .patrolScrub site finding
  | .eccCorrWrite die v => .eccCorrWrite die v
  | .registerWrite off v => .registerWrite off v
  | .fabDimWrite v => .fabDimWrite v
  | .fabRtoWrite v => .fabRtoWrite v
  | .fabErrWrite v => .fabErrWrite v
  | .retrain port => .retrain port
  | .disable port hold => .disable port hold
  | .vmismatchClear port => .vmismatchClear port
  | .linkTrainingWords port version features => .linkTrainingWords port version features
  | .laneLockLoss port => .laneLockLoss port
  | .controlWordTimeout port => .controlWordTimeout port
  | .flitArrive fs => .flitArrive fs
  | .swapInject passing => .swapInject passing
  | .flitDeliver f => .flitDeliver f
  | .aeadPad dst vc => .aeadPad dst vc
  | .ackTimer src vc => .ackTimer src vc
  | .ack src pairs => .ack src pairs
  | .responseAck src vc upTo => .responseAck src vc upTo
  | .aresp f => .aresp f
  | .replayTimerExpiry dst vc => .replayTimerExpiry dst vc
  | .deviceLostDeclare dev => .deviceLostDeclare dev
  | .mcastCopy c => .mcastCopy c
  | .mcastStatus job member status => .mcastStatus job member status
  | .redc m => .redc m
  | .redr m => .redr m
  | .cidanLinkFlit crcOk => .cidanLinkFlit crcOk
  | .cidanLinkTrainingDone ok version features => .cidanLinkTrainingDone ok version features
  | .cidanLaneLockTimeout => .cidanLaneLockTimeout
  | .lowPowerIdle => .lowPowerIdle
  | .apertureRead pa n tag => .apertureRead pa n tag
  | .apertureWrite pa bytes => .apertureWrite pa bytes
  | .peerToPeerReject tag => .peerToPeerReject tag
  | .barAccessLinkDown write a => .barAccessLinkDown write a
  | .hrCtlWrite fn ring v => .hrCtlWrite fn ring v
  | .hrTailWrite fn ring v => .hrTailWrite fn ring v
  | .hostNop c => .hostNop c
  | .hostWrite c => .hostWrite c
  | .hostRead c => .hostRead c
  | .hostLaunch c => .hostLaunch c
  | .hostSignal c => .hostSignal c
  | .gateClose c => .gateClose c
  | .gateOpen c => .gateOpen c
  | .attest c => .attest c
  | .hostCmdComplete c => .hostCmdComplete c
  | .gateDrained region => .gateDrained region
  | .partitionEntryWrite part e => .partitionEntryWrite part e
  | .launchQueueCfgWrite q v => .launchQueueCfgWrite q v
  | .periodStart q => .periodStart q
  | .dependenceTest q => .dependenceTest q
  | .taskPlace => .taskPlace
  | .taskStart core => .taskStart core
  | .taskEnd task => .taskEnd task
  | .shotclock task => .shotclock task
  | .handlerShotclock core ctx => .handlerShotclock core ctx
  | .quiesceRequest part => .quiesceRequest part
  | .partitionQuiet part => .partitionQuiet part
  | .umpireTick part => .umpireTick part
  | .messageArrive core m => .messageArrive core m
  | .acknowledgementArrive core a => .acknowledgementArrive core a
  | .handlerStart core ctx => .handlerStart core ctx
  | .outgoingSend core => .outgoingSend core
  | .outgoingResend core seqn => .outgoingResend core seqn
  | .trapRecordResend r => .trapRecordResend r
  | .arrivalEntryReserve d => .arrivalEntryReserve d
  | .arrivalReady d => .arrivalReady d
  | .arrivalHandlerStart core ctx => .arrivalHandlerStart core ctx
  | .pendingValueArrive dst v => .pendingValueArrive dst v
  | .remoteFaultDeliver core ctx p => .remoteFaultDeliver core ctx p
  | .peerAccessServe r => .peerAccessServe r
  | .migrationRequest m => .migrationRequest m
  | .migrationReply m accepted => .migrationReply m accepted
  | .migrationImage m => .migrationImage m
  | .migrationImageAck m => .migrationImageAck m
  | .homeRequest line node => .homeRequest line node
  | .engineLineRelease job line => .engineLineRelease job line
  | .walkComplete cluster va => .walkComplete cluster va
  | .tlbiWalkerMessage t cluster => .tlbiWalkerMessage t cluster
  | .tlbiAcknowledge t cluster => .tlbiAcknowledge t cluster
  | .tuplePut r => .tuplePut r
  | .tupleReadTake r => .tupleReadTake r
  | .tupleCancel r => .tupleCancel r
  | .tupleWithdraw r => .tupleWithdraw r
  | .tupleDeliveryComplete d => .tupleDeliveryComplete d
  | .handoffSplit h => .handoffSplit h
  | .handoffCopyReceive h i => .handoffCopyReceive h i
  | .handoffFreeze h => .handoffFreeze h
  | .handoffCutover h => .handoffCutover h
  | .handoffSwitch h => .handoffSwitch h
  | .handoffAbandon h status => .handoffAbandon h status
  | .moved part lo last dev => .moved part lo last dev
  | .matrixGrain cluster => .matrixGrain cluster
  | .jobComplete job => .jobComplete job
  | .userInterrupt core ctx => .userInterrupt core ctx
  | .engineFaultDeliver f => .engineFaultDeliver f
  | .copyRow cluster core => .copyRow cluster core
  | .copyArrivalWait cluster core => .copyArrivalWait cluster core
  | .gatherRow cluster core => .gatherRow cluster core
  | .drainRow cluster core => .drainRow cluster core
  | .streamUnit core ctx reg => .streamUnit core ctx reg
  | .xbarCommandHead cluster arr => .xbarCommandHead cluster arr
  | .xbarProductComplete cluster arr readings refA refB => .xbarProductComplete cluster arr readings refA refB
  | .xbarProgramRow cluster arr unverified => .xbarProgramRow cluster arr unverified
  | .calibrationComplete cluster arr beta gamma => .calibrationComplete cluster arr beta gamma
  | .nbuStep u => .nbuStep u
  | .nbuOrdinaryAccess u a => .nbuOrdinaryAccess u a
  | .nbuRequest u r => .nbuRequest u r
  | .trapDeliverSupervisor r => .trapDeliverSupervisor r
  | .trapDeliverTvec core ctx t => .trapDeliverTvec core ctx t
  | .coreMqcapWrite core v => .coreMqcapWrite core v
  | .sleepWake core ctx countExpired => .sleepWake core ctx countExpired
  | .barrierGenerationComplete b => .barrierGenerationComplete b
  | .launchSubmit r => .launchSubmit r
  | .haltWake => .haltWake
  | .storeAcknowledge core ctx => .storeAcknowledge core ctx
  | .victimQueueSteal q => .victimQueueSteal q
  | .tretHandleArrive t => .tretHandleArrive t
  | .mresumeAtUnit r => .mresumeAtUnit r
  | .alarmConditionEnd source die => .alarmConditionEnd source die
  | .lowPowerIdleExit => .lowPowerIdleExit
  | .sortedIndexBuilt core t => .sortedIndexBuilt core t

end

end Sys2Proof
end

