-- ==== Sys2Proof/Machine/CoreState.lean ====
section
/-! DEFINITION. The state of a context, a core, a task and a cluster (chapters 4, 5, 7 to 10, 14) as plain data. -/

namespace Sys2Proof.Machine

/-- What a context is doing. `ended` is a gang thread that has executed END while its gang runs on (R76); `parked` is
parked by a trap or an expiry (R274, R103); `moving` waits for a migration's answer (R123); `halted` executed HALT. -/
inductive Phase where
  | idle | running | ended | parked | moving | halted
  deriving DecidableEq, Repr

/-- What work a context holds: a task by its number in State.tasks, an arrival entry, or a message entry. -/
inductive Work where
  | none | task (id : Nat) | arrival (uid : Nat) | message (uid : Nat)
  deriving DecidableEq, Repr

/-- The trap registers (R272). -/
structure TrapRegs where
  epc : Word
  ecause : Word
  eaddr : Word
  einfo : Word
  ejob : Word
  tvec : Word
  deriving DecidableEq, Repr

/-- The identity registers that a dispatch sets (R79). -/
structure Ident where
  taskId : Word
  org0 : Nat
  org1 : Nat
  ext0 : Nat
  ext1 : Nat
  nom0 : Nat
  nom1 : Nat
  gext0 : Nat
  gext1 : Nat
  squadRank : Nat
  crewRank : Nat
  vtime : Word
  deriving DecidableEq, Repr

/-- The message and job registers of R298. -/
structure MsgRegs where
  id : Word
  src : Word
  len : Word
  jobLast : Word
  xferId : Word
  deriving DecidableEq, Repr

/-- What a stream register is bound to (R193, R384, R386). -/
inductive StreamSource where
  | pattern (base : Word) (c0 c1 c2 : Nat) (s1 s2 : Int)
  | buffer (num : Nat) (off : Nat)
  | port (ptr : Word)
  deriving DecidableEq, Repr

/-- A register in stream mode: direction, vector class, binding, units moved, the END flag of R387, and the units fetched ahead
of use (R385). -/
structure Stream where
  write : Bool
  vec : Bool
  src : StreamSource
  moved : Nat
  ended : Bool
  ahead : List (List Byte)
  deriving DecidableEq, Repr

/-- A message on its way out: its destination pointer, channel, and the state of its resend (R115). -/
structure OutMsg where
  dest : Word
  ch : Nat
  msg : Msg
  sent : Bool
  backoff : Nat
  notBefore : Nat
  deriving DecidableEq, Repr

/-- A user-level interrupt that waits (R191): job id and handler PC. -/
structure UserIntr where
  job : Word
  hpc : Word
  deriving DecidableEq, Repr

/-- A result read that waits for earlier products (R198): 32·array + group, the numbers of the products, and what the last of them left:
results, bound word, and whether it drifted. -/
structure XbarRead where
  key : Nat
  wait : List Nat
  got : Option (Vec × W32 × Bool)
  deriving DecidableEq, Repr

/-- A context of a core (R106, R107, R272, R119, R120). `lineN` is N of the line last fetched (R291). `vwin` is VWIN of CSW. `sleep` is
the deadline and the mask of a SLEEP in progress (R330). `uiSaved` is the PC saved by a user-level interrupt (R191). `work`, `serial` name
the work it holds. `stores` counts the stores not yet acknowledged (R350). `seen` marks the poisoned registers that a trap has reported
(R120). `blocked` are the blocking tuple requests that wait (R159, R165). `stay` says that the core the thread would migrate to has
refused it, so that the access is performed remotely (R122); `wakeSeen` is the count of wake events seen by HALT (R445); `moveDev` is the
device that a moving thread has asked (R123). `xread` is a crossbar result read that waits (R198). `blk` is the operand block that a held
instruction read at issue (R97, R409), and `wout` are the pieces of a held write (R352); they stand only in the snapshot of a held item. -/
structure Ctx where
  phase : Phase
  work : Work
  serial : Nat
  g : Tab Word
  pend : BitVec 16
  poison : List (Nat × Poison)
  seen : BitVec 16
  pc : Word
  lineN : Nat
  uie : Bool
  atrap : Bool
  vwin : Nat
  q : List (Nat × Nat)
  trap : TrapRegs
  ident : Ident
  msgr : MsgRegs
  latch : BitVec 7
  sleep : Option (Nat × Nat)
  sendBuf : List OutMsg
  streams : List (Nat × Stream)
  parkCount : Nat
  heldTrap : Option Trap
  waitIntr : List UserIntr
  uiSaved : Option Word
  retStack : List Word
  lastIssue : Nat
  stores : Nat
  shotEnd : Option Nat
  deferred : Bool
  blocked : List TupleReq
  stay : Bool
  wakeSeen : Nat
  moveDev : Option Nat
  xread : Option XbarRead
  blk : Option (List Byte)
  wout : List Piece
  deriving DecidableEq, Repr

/-- The second half of a pair (R109): the context that has just issued, its serial, the PC of the instruction after it in the same
line, the issue class and the registers written of the first one (register keys as in Machine/Choose.lean). -/
structure Pair where
  ctx : Nat
  serial : Nat
  pc : Word
  vec : Bool
  writes : List Nat
  deriving DecidableEq, Repr

/-- A vector window: v0 to v31, m0 to m7, and b0 to b7 with their bound words (R108, R204). -/
structure Window where
  used : Bool
  v : Tab Vec
  m : Tab Word
  b : Tab Vec
  bound : Tab W32
  deriving DecidableEq, Repr

/-- An entry of a task queue (R92). -/
structure TaskEntry where
  entry : Word
  arg : Word
  cnt : Word
  shot : Nat
  origq : Nat
  idx : Nat
  /-- The launch record's index in its queue run, so that its end is counted (R76); none for a SPAWN. -/
  record : Option Nat
  ident : Option Ident
  sreg : Nat
  spawned : Bool
  deriving DecidableEq, Repr

/-- An entry of the residual queue (R215). -/
structure ResidEntry where
  node : Nat
  resid : W32
  entry : Word
  arg : Word
  seqn : Nat
  origq : Nat
  deriving DecidableEq, Repr

/-- An entry of a message queue (R112): `state` 0 not started, 1 started, 2 started and parked. -/
structure MsgEntry where
  uid : Nat
  msg : Msg
  state : Nat
  deferred : Bool
  deriving DecidableEq, Repr

/-- An entry of an arrival queue (R118). -/
structure ArrEntry where
  uid : Nat
  arr : Arrival
  ready : Bool
  state : Nat
  deriving DecidableEq, Repr

/-- A job record (R190, R391). `pos` is POS; `code` and `pfail` stand from the moment the work is done or stopped; `later`
counts jobs of the core completed after this one; `huddles` names the huddles on which it registered (R361); `sreg` is SREG of
the issuing work; `fmts` are the formats its operands name (R248); `arr` is the arrival of a copy that asks for one, with its
device (R192); `after` are the owners of destination lines when the command issued, for whose lines its reads wait (R264); `wrote` are the
destination lines that it has written, as bits [53:6] of their pointers with their lines (R135); `task` is TASK.ID of the issuing work
(R274). `fmts` pairs each code with the core whose tables decode it. -/
structure Job where
  id : Word
  ctx : Nat
  serial : Nat
  engine : Nat
  state : Nat
  pfail : Nat
  code : Nat
  pos : Nat
  cpl : Word
  hpc : Word
  tag : Word
  buf : Option Nat
  huddles : List Nat
  later : Nat
  sreg : Nat
  fmts : List (Nat × Nat)
  arr : Option (Nat × Arrival)
  after : List Word
  wrote : List (Nat × Nat)
  task : Word
  deriving DecidableEq, Repr

/-- A first-level TLB entry (R144): virtual base, page size in bits, and the leaf. `use` orders the entries. -/
structure TlbEntry where
  vbase : Nat
  logSize : Nat
  leaf : Word
  use : Nat
  deriving DecidableEq, Repr

/-- A core (chapter 5): contexts, windows, decode tables and descriptors (R233, R236), GCFG (R213), SVEC (R274), queues
(R92, R112, R118, R115, R215), counters, job records, TLB, and PLOST of R140. `tables` lists the decode-table entries
that TBLLD has changed, at 256·table + code. `pickAc` is the local ac in which it last picked a context, and `pair` what it may issue
beside that pick (R109, R110); `arrAc` is the local ac in which a message last arrived, with its place in the order of arrivals (R113), and
`startAc` that of the last start from the residual queue (R215). -/
structure Core where
  ctx : Tab Ctx
  win : Tab Window
  tables : List (Nat × W32)
  building : List Nat
  fdt : List (Nat × Nat)
  gcfg : Word
  svec : Word
  taskq : List TaskEntry
  residq : List ResidEntry
  residSeq : Nat
  lowq : List MsgEntry
  highq : List MsgEntry
  arrq : List ArrEntry
  outq : List OutMsg
  sendaPend : List (BitVec 32 × RegDest × Word)
  merr : Nat
  mqcap : Word
  jobs : List Job
  jobSeq : Nat
  spawnCount : Nat
  seqn : BitVec 32
  slots : Nat
  storeq : Nat
  plost : Bool
  tlb : List TlbEntry
  tlbUse : Nat
  ports : Nat
  pickAc : Option Nat
  pair : Option Pair
  arrAc : Option (Nat × Nat)
  startAc : Option Nat
  deriving DecidableEq, Repr

/-- A running task (R75, R76): its threads, which of them have ended, and what its end does. `clockEnd` is the count of its core
island's ac at which its shot clock expires (R103). `ordered` names its entry of an ordered-task table. -/
structure Task where
  part : Nat
  width : Nat
  clusters : List Nat
  gang : Bool
  crew : Bool
  threads : List (Nat × Nat)
  ended : List (Nat × Nat)
  cnt : Word
  shot : Nat
  clockEnd : Option Nat
  origq : Nat
  sreg : Nat
  record : Option Nat
  ordered : Option (Nat × Nat)
  start : Nat
  homeDev : Nat
  homeCore : Nat
  deriving DecidableEq, Repr

/-- The state of an ordered task (R102). -/
inductive OrdState where
  | queued | running | finished
  deriving DecidableEq, Repr

/-- An instruction that a speculative task has issued and that waits for it to become irrevocable (R97): its destinations, and the
context as it stood at issue. -/
structure Held where
  instr : Instr
  dsts : List Nat
  core : Nat
  cidx : Nat
  snapshot : Ctx
  deriving DecidableEq, Repr

/-- An ordered task in a cluster's table (R95, R96, R98): `sends` are the messages it
buffered until commit (R115), `log` holds the undo log, newest first, as location and old word; `ctx` and `serial` name the context
that ran it, so that its commit finds the jobs and the accesses of its work (R76, R101). -/
structure OrdTask where
  uid : Nat
  ts : Word
  spCore : Nat
  spCount : Nat
  entry : TaskEntry
  state : OrdState
  irrevocable : Bool
  aborted : Bool
  core : Nat
  ctx : Nat
  serial : Nat
  slot : Option Nat
  log : List (Nat × Word)
  reads : List Nat
  writes : List Nat
  held : List Held
  sends : List OutMsg
  deriving DecidableEq, Repr

/-- An entry of a cluster's circular-buffer table (R183, R184): the descriptor's bytes, the defining task, and the three
counters. -/
structure CircBuf where
  desc : List Byte
  owner : Nat
  core : Nat
  pidx : BitVec 32
  cidx : BitVec 32
  fidx : BitVec 32
  deriving DecidableEq, Repr

/-- A barrier (R360). `arrived` are the threads that have arrived at the open generation. -/
structure Barrier where
  gen : BitVec 32
  count : Nat
  arrived : List (Nat × Nat)
  engc : Nat
  engArr : Nat
  task : Nat
  deriving DecidableEq, Repr

/-- A gather list bound to the next command (R188): pointer, stride, rows and indices. -/
structure GatherList where
  src : Word
  stride : Nat
  rows : Nat
  idx : List Nat
  strict : Bool
  deriving DecidableEq, Repr

/-- What a command of a matrix queue does. -/
inductive MatKind where
  | op | placeholder (job : Word) | drain | zero
  deriving DecidableEq, Repr

/-- A partner of a matrix operation (R177, R182): its core, the context and serial of its thread, its A buffer's handle, its
format of A, the slot it consumes, the mask of its invalid A rows, and the status of a local fault. A single-core command has
one partner. -/
structure Partner where
  core : Nat
  cidx : Nat
  serial : Nat
  handle : Option Nat
  fmt : Word
  slot : Word
  invalid : Nat
  failed : Nat
  deriving DecidableEq, Repr

/-- A command of a matrix queue (R173, R178, R179). `cls` is the element class of R243, 0 IF19, 1 INT8, 2 FP32. `step` is the
K-step reached and `blk` the next 64-column block of it; `avals` and `bvals` are the operand elements read for that step. A
drain uses `dest`, `stride`, `bbuf` (its slot's handle) and `row`. -/
structure MatCmd where
  job : Word
  core : Nat
  kind : MatKind
  block : List Byte
  parts : List Partner
  bbuf : Option Nat
  bslot : Word
  binvalid : Nat
  gather : Option GatherList
  skip : Option (Nat × List Word)
  cls : Nat
  dest : Word
  stride : Nat
  started : Bool
  stopped : Bool
  step : Nat
  blk : Nat
  row : Nat
  avals : List (Nat × List (Nat × List Int))
  bvals : List (List Int)
  deriving DecidableEq, Repr

/-- The shape of an accumulator's last operation: rows, columns, a mask of valid rows, and whether it was of INT8 class
(R179, R245, R395). -/
structure AccShape where
  m : Nat
  n : Nat
  valid : Nat
  int : Bool
  deriving DecidableEq, Repr

/-- The matrix unit of a cluster (R173, R175, R392, R395). An accumulator word lies at 24576·core + 384·row + column.
`issued` holds M and N of the latest operation issued on each accumulator. -/
structure MatrixUnit where
  acc : Tab W32
  shape : Tab AccShape
  issued : Tab (Nat × Nat)
  queue : Tab (List MatCmd)
  weight : Tab Nat
  cur : Nat
  used : Nat
  gather : List (Nat × GatherList)
  skip : List (Nat × (Nat × List Word))
  deriving DecidableEq, Repr

/-- A command of a copy queue (R192, R402). -/
structure CopyCmd where
  job : Word
  block : List Byte
  toBuf : Option Nat
  row : Nat
  stopped : Bool
  reserved : Bool
  deriving DecidableEq, Repr

/-- A gather job with OUTQ = 1 (R397). -/
structure GathCmd where
  job : Word
  list : GatherList
  rowb : Nat
  buf : Nat
  row : Nat
  stopped : Bool
  deriving DecidableEq, Repr

/-- A command of an array's queue (R196): 0 CMV, 1 CPROG, 2 CCAL; its source pointer, SREG of the issuing work, first row and count. `xs`
are the inputs that a product drives (R198), `row` and `bad` the rows programmed and the unverified cells (R197). `id` numbers the
command, `stamp` and `start` are the analogue island's ac in which it entered the queue and reached the head (R201). -/
structure XbarCmd where
  op : Nat
  dest : RegDest
  ptr : Word
  sreg : Nat
  r0 : Nat
  count : Nat
  xs : List Int
  row : Nat
  bad : Nat
  started : Bool
  id : Nat
  stamp : Nat
  start : Nat
  part : Nat := 0
  deriving DecidableEq, Repr

/-- A crossbar array of a cluster (R194 to R203). Weights lie at 512·row + column. The bank of core k holds result j at 512·k + j and the
bound word of group g at 32·k + g (R198); `bankDrift` says that the core's latest product drifted, `progDone` is PROG as of the last
completed command (R203), and `leaving` that the array is to be erased once its running command has ended (R194, R196). -/
structure XbarArray where
  weights : Tab Int
  prog : Bool
  bank : Tab W32
  bound : Tab W32
  bankDrift : Tab Bool
  queue : List XbarCmd
  calok : Bool
  beta : W32
  gamma : W32
  drifts : Nat
  prods : Nat
  progDone : Bool
  leaving : Bool
  deriving DecidableEq, Repr

/-- A cluster: its partition, matrix, copy and gather units, circular buffers, huddles, ordered-task table, arrays and
second-level TLB (chapters 4, 6, 8, 9). -/
structure Cluster where
  mx : MatrixUnit
  copyq : Tab (List CopyCmd)
  copyNext : Nat
  gathq : Tab (List GathCmd)
  bufs : List (Nat × CircBuf)
  huddle : Tab Barrier
  ord : List OrdTask
  xbar : Tab XbarArray
  tlb2 : List TlbEntry
  walkq : List (Nat × Nat)
  gang : Option Nat
  throttle : Nat
  /-- The gating of R20 is being taken back: the estimate has fallen below 180 W/cm² since it last exceeded 200. -/
  easing : Bool
  deriving DecidableEq, Repr

end Sys2Proof.Machine
end

