-- ==== Sys2Proof/Machine/DevState.lean ====
section
/-! DEFINITION. The state of the device around its cores (chapters 1 to 4, 6, 7, 11): islands, host link, partitions,
security, launch queues, tuple homes, near-bank units, placement of lines, as plain data. The fabric's state stands in
Machine/FabState.lean. -/

namespace Sys2Proof.Machine

/-- A voltage and frequency island (R15 to R21): REQ, LIMIT, EFF, BADREQ, whether gating is in force, the windows since the
last rise, and a change of point in progress. `noisy` says that a matrix unit of the island has gated, or that an alarm of grade 1 or 2
has named its die, at some time in this window of the power manager (R21). `cycles` counts quarters of the island's own ac (R8, R15). -/
structure Island where
  req : Nat
  limit : Nat
  eff : Nat
  badreq : Bool
  gated : Bool
  quietWindows : Nat
  sinceRise : Nat
  changing : Bool
  noisy : Bool
  cycles : Nat
  deriving DecidableEq, Repr

/-- A host ring (R58). `owner` is the function it is assigned to: 32·endpoint + 0 for a PF, and + k + 1 for VF k (R53). `taken` and
`written` count the commands taken and the completion records written; `held` are completions that wait for the link, or for an earlier
one (R56, R60). -/
structure Ring where
  base : Word
  en : Bool
  sc : Nat
  size : Nat
  vec : Nat
  tail : Nat
  head : Nat
  badcfg : Bool
  stopped : Bool
  owner : Nat
  taken : Nat
  written : Nat
  held : List HostCompletion
  deriving DecidableEq, Repr

/-- The Cidan Link (R54): 0 DOWN, 1 TRAINING, 2 UP, 3 RECOVERY, 4 DEAD; the failures in a row of one flit, the first sending among them, the
agreed feature bits and minor version, whether the major versions differ (R35), low-power idle, and ADP.DROP (R56). -/
structure CidanLink where
  state : Nat
  failed : Nat
  feat : Word
  ver : Nat
  vmismatch : Bool
  idle : Bool
  drop : Nat
  deriving DecidableEq, Repr

/-- A sealed shared region (R66, R67): base and size, gate 0 OPEN, 1 CLOSING, 2 DRAINED, the bound-task count, and the
GATE close commands that wait. -/
structure Sealed where
  base : Nat
  size : Nat
  gate : Nat
  count : Nat
  waiting : List HostCompletion
  deriving DecidableEq, Repr

/-- Boot, keys, measurements and alarms (R24, R69 to R74). `boot` is the number of bring-up steps completed; `keys` lists the
key-store slots that hold a key and `slots` holds their contents; `xi` is the seed of the identity key, which stands while `idKey` is
set; `acted` lists the alarms in force whose grade's action has been taken; `silent` says that step 1 of R74 has stopped the ports and
the Cidan Link; `integ` and `supply` are the times of INTEGRITY alarms and of supply excursions that still count (R72). -/
structure Security where
  boot : Nat
  recovery : Bool
  failed : Bool
  meas : List (List Byte)
  keys : List Nat
  slots : Tab (List Byte)
  idKey : Bool
  xi : List Byte
  gen : Nat
  flag : Bool
  alarms : List (AlarmSource × Nat)
  acted : List (AlarmSource × Nat)
  noNewParts : Bool
  silent : Bool
  erasing : Bool
  integ : List Nat
  supply : List Nat
  deriving DecidableEq, Repr

/-- An entry of the management core's event log (R277). -/
inductive MgmtEvent where
  | overrun (q : Nat) (left : Int)
  | integrity (src vc : Nat)
  | memberLoss (dev : Nat)
  | alarm (source : AlarmSource) (die : Nat)
  | scorebookFull (part : Nat)
  | linkDead
  | fabric (w : Word)
  | partitionEnded (part : Nat)
  deriving DecidableEq, Repr

/-- A launch record in a queue (R62, R81), its next unplaced task, the dependences met so far, and its running tasks. -/
structure LaunchRec where
  uid : Nat
  bytes : List Byte
  placed : Nat
  dep0 : Bool
  dep1 : Bool
  deriving DecidableEq, Repr

/-- A launch queue (R81 to R84). -/
structure LaunchQ where
  en : Bool
  budget : Nat
  period : Nat
  ovr : Bool
  left : Int
  dl : Word
  recs : List LaunchRec
  raised : Bool
  deriving DecidableEq, Repr

/-- A range table entry (R154, Table 1). -/
structure RangeEntry where
  lo : Nat
  last : Nat
  dev : Nat
  moving : Bool
  deriving DecidableEq, Repr

/-- A partition's range table and TVER (R154). -/
structure RangeTable where
  entries : List RangeEntry
  tver : BitVec 32
  deriving DecidableEq, Repr

/-- A home slice (R157): stored tuples, waiters and continuations in one arrival order, shadow entries of a handoff, and the
entries reserved by one (R169). -/
structure Slice where
  tuples : List Tuple
  waiters : List Waiter
  conts : List Waiter
  shadow : List Tuple
  resIndex : Nat
  resWait : Nat
  resCont : Nat
  next : Nat
  deriving DecidableEq, Repr

/-- A handoff at this device (R169): its step, as source or target, the requests queued since step 3, and at the target the entries that
it still reserves: slice, waiters, continuations, each with its index entry. A target in step 9 has given up: it ignores the items of
the stream until A's word that the handoff is abandoned. -/
structure HandoffState where
  h : Handoff
  step : Nat
  queued : List TupleReq
  reserved : List (Nat × Nat × Nat)
  source : Bool
  deriving DecidableEq, Repr

/-- An open row of a bank: the window's region base and writability, and the row (R223, R224). -/
structure OpenRow where
  base : Nat
  row : Nat
  writable : Bool
  deriving DecidableEq, Repr

/-- A near-bank unit (chapter 11): `state` 0 NORMAL, 1 COMPUTE, 2 RUNNING, 3 STOPPED. Lane e of accumulator d lies at
16·d + e; X holds sixteen BF16 values. -/
structure NbUnit where
  state : Nat
  owner : Nat
  fmode : Bool
  pending : Bool
  regions : List Nat
  overlay : Tab W32
  n : Tab W32
  a : Tab W32
  x : Tab (BitVec 16)
  bm : BitVec 16
  pc : Nat
  steps : Nat
  report : W32
  rows : Tab (Option OpenRow)
  win : List (Option NbWindow)
  spc : Nat
  sbank : Nat
  scol : Nat
  scause : Nat
  summary : Nat
  dest : Option RegDest
  normals : List RegDest
  waiting : List OrdinaryAccess
  deriving DecidableEq, Repr

/-- Where a line of the migrating policy is held (R131): the node of the last requester, the run count, the holding node. -/
structure LineHome where
  node : Nat
  run : Nat
  holder : Nat
  deriving DecidableEq, Repr

/-- A holder of a line in update-only state (R136): core, operation, TY code, and one partial per element. -/
structure ULine where
  line : Nat
  core : Nat
  op : Nat
  ty : Nat
  parts : List Nat
  deriving DecidableEq, Repr

/-- A pin (R138): the line, its partition, the pinning core and the virtual line. -/
structure Pin where
  line : Nat
  part : Nat
  core : Nat
  vline : Nat
  deriving DecidableEq, Repr

/-- A hold on a page (R149): the partition, the page and its size, and the context that set it. -/
structure Hold where
  part : Nat
  vbase : Nat
  logSize : Nat
  core : Nat
  ctx : Nat
  serial : Nat
  deriving DecidableEq, Repr

/-- A TLBI in progress (R147): the message, and the clusters whose acknowledgement is awaited. -/
structure TlbiWait where
  msg : TlbiMsg
  clusters : List Nat
  deriving DecidableEq, Repr

/-- The umpire tree of a partition (R101): the key sampled (none when no ordered task was live), the key published, GVT, the
commit floor, and the last multiple of 1,024 of DEV.TIME at which it acted. -/
structure Umpire where
  sampled : Option (Option (Nat × Nat × Nat))
  published : Option (Option (Nat × Nat × Nat))
  gvt : Word
  floor : Word
  tick : Nat
  deriving DecidableEq, Repr

/-- A saved partition (R279 to R282): where its image and the blocks of its clusters lie, the scorebook's write pointer, and what
the device that saved it still knows: the clusters, cores, queued records and tasks as they stood, for what the image does not
hold. `loaded` says that CTXLD has restored it and replays the scorebook: the next record, the pointer below which records name
cores as they stood at the save, the clusters of the restore, and the destination of the CTXLD. DESIGN CHOICE, log entry 49. -/
structure Swap where
  image : Nat
  blocks : Nat
  sbptr : Nat
  clusters : List Nat
  cores : List (Nat × Core)
  recs : List (Nat × List LaunchRec)
  tasks : List (Nat × Task)
  loaded : Bool
  rdptr : Nat
  mapEnd : Nat
  dest : Option RegDest
  deriving DecidableEq, Repr

/-- An older value of a page-table word, which a walk may still read: a walk is ordered after the store that replaced it only through a
TFENCE of the storing thread (R146, R260), and a walker may hold a pointer entry in its cache (R145). `core` and `serial` name that
thread; `fenced` lists the clusters whose walkers a TFENCE of a narrower scope has ordered. -/
structure StaleWord where
  loc : Nat
  old : Word
  core : Nat
  serial : Nat
  fenced : List Nat
  deriving DecidableEq, Repr

/-- A decrement of a completion counter on another device, under way (R76): its reply names register 16 + `id`; the partition, the
counter's address and TASK.ID stand in the decrement record that a fault sends (R274). -/
structure CountOut where
  id : Nat
  part : Nat
  cnt : Word
  taskId : Word
  deriving DecidableEq, Repr

/-- A word of another device's memory that a vector instruction, a stream or an engine reads (R371): who asked (a context as 8·core +
context, or 2^48 + job id; 2^49 + job id for an engine's writes), where, and what has come back. A reply for it names register 16 + `id`.
-/
structure FarWord where
  id : Nat
  owner : Nat
  ptr : Word
  reply : Option Reply
  deriving DecidableEq, Repr

/-- An error report of an uncorrectable memory line (R23). -/
structure Ecc where
  corr : Nat
  unc : Nat
  deriving DecidableEq, Repr

end Sys2Proof.Machine
end

