-- ==== Sys2Proof/Machine/FabState.lean ====
section
/-! DEFINITION. The state of the fabric interface, the router and the reduction engine (chapter 2) as plain data. -/

namespace Sys2Proof.Machine

/-- A fabric port (R34, R35, R52): `state` 0 DOWN, 1 TRAINING, 2 UP, 3 DEAD; `crcTimes` are the times of the CRC
failures of the last 2^20 ac. -/
structure Port where
  state : Nat
  disable : Bool
  vmismatch : Bool
  crccnt : Nat
  pfeat : Word
  ver : Nat
  crcTimes : List Nat
  deriving DecidableEq, Repr

/-- A stream's sending side (R38, R41): next SEQ and epoch, flits held in the backstop (oldest first), each 0 not yet sent, 1
sent or 2 to be replayed, the timeout (0: FAB.RTO), the timer, UNREACH, and when its last flit joined it (R37). Streams are numbered
8·device + channel. -/
structure TxStream where
  next : BitVec 32
  epoch : BitVec 32
  held : List (Flit × Nat)
  timeout : Nat
  expiries : Nat
  deadline : Option Nat
  unreach : Bool
  last : Nat
  deriving DecidableEq, Repr

/-- A stream's receiving side (R39, R40): B, the flits held out of order, the deliveries since the last acknowledgement and
the time of the first of them, the times of the tag failures of the last 2^20 ac (R37), the key epoch at B (R36), and the AEAD group that
has been verified, as SEQ / 4 (R37). -/
structure RxStream where
  b : BitVec 32
  pool : List Flit
  since : Nat
  first : Option Nat
  failTimes : List Nat
  epoch : BitVec 32
  verified : Option Nat
  deriving DecidableEq, Repr

/-- An entry of the response cache (R42): the request's stream and SEQ, and the ARESP sent. -/
structure CachedResp where
  src : Nat
  seq : BitVec 32
  resp : Flit
  deriving DecidableEq, Repr

/-- A request this device has sent and awaits a response for: its XID and what it completes. `words` are the 8-byte words that it accesses
(R254), as bits [53:3] of their pointers. -/
structure Outstanding where
  xid : Nat
  ptr : Word
  dev : Nat
  dest : RegDest
  seq : BitVec 32
  vc : Nat
  store : Bool
  acq : Bool
  words : List Nat
  deriving DecidableEq, Repr

/-- The fabric interface and router (R25 to R46, R52). `seen` lists the ARESP sequence numbers received, per device. -/
structure Fabric where
  dim : Word
  rto : Word
  intthr : Nat
  badf : Nat
  agesat : Nat
  intfail : Nat
  pooldrop : Nat
  port : Tab Port
  tx : Tab TxStream
  rx : Tab RxStream
  swap : Option Flit
  cache : List CachedResp
  out : List Outstanding
  seen : List (Nat × BitVec 32)
  acked : Tab (BitVec 32)
  lost : List Nat
  xid : Nat
  headWait : Nat
  rr : Nat
  sentAcks : List Flit
  wire : List (Nat × Flit)
  deriving DecidableEq, Repr

/-- A multicast group (R46): member devices (a bit mask of 4,096) and the partition it is assigned to. -/
structure Group where
  members : BitVec 4096
  part : Option Nat
  deriving DecidableEq, Repr

/-- A reduction open on this device (R47): the job, its operands, the participants' devices in ascending order, this device's
index among them, and the partials received. -/
structure Reduction where
  group : Nat
  rid : Nat
  part : Nat
  job : Word
  core : Nat
  dst : Word
  op : Nat
  n : Nat
  c : Nat
  index : Nat
  parts : List Nat
  src : Word
  partials : List RedMsg
  sent : Bool
  deriving DecidableEq, Repr

/-- A multicast job of this device (R46, R407): its operands, whether the payload has been read and sent, the members still to
answer, and the failed ones. -/
structure McastJob where
  job : Word
  core : Nat
  part : Nat
  group : Nat
  src : Word
  dst : Word
  len : Nat
  tcore : Nat
  tag : Word
  ahpc : Word
  maskp : Word
  started : Bool
  waiting : List Nat
  failed : List Nat
  deriving DecidableEq, Repr

/-- The reduction engine and the multicast unit (R46 to R51). `early` are partials whose reduction is not yet open here;
`failed` are the words of failure that came before their NRED, and `uses` counts the reductions opened here by group, identifier and other
participant, so that a word of failure is matched with its own (R51; DESIGN CHOICE, log entry 68). -/
structure NetEngine where
  groups : Tab Group
  open_ : List Reduction
  early : List RedMsg
  failed : List RedMsg
  uses : List ((Nat × Nat × Nat) × Nat)
  mcasts : List McastJob
  deriving DecidableEq, Repr

end Sys2Proof.Machine
end

