-- ==== Sys2Proof/Machine/Bits.lean ====
section
/-! DEFINITION. Bit fields, sign extension, byte order and vector lanes (R5, R108, R365), and the sparse maps of Types. -/

namespace Sys2Proof

/-- Bits `hi` to `lo` of `w` as a number. -/
def bits (w : Word) (hi lo : Nat) : Nat := w.toNat / 2 ^ lo % 2 ^ (hi + 1 - lo)

/-- Bit `k` of `w`. -/
def bit (w : Word) (k : Nat) : Bool := w.toNat / 2 ^ k % 2 == 1

/-- `w` with bits `hi` to `lo` set to `v` modulo the field's width. -/
def setBits (w : Word) (hi lo v : Nat) : Word :=
  BitVec.ofNat 64 (w.toNat - bits w hi lo * 2 ^ lo + v % 2 ^ (hi + 1 - lo) * 2 ^ lo)

/-- A number as a word, modulo 2^64. -/
def ofN (n : Nat) : Word := BitVec.ofNat 64 n

/-- An integer as a word, modulo 2^64. -/
def ofZ (z : Int) : Word := BitVec.ofInt 64 z

/-- The low `w` bits of `n` read as two's complement (R5). -/
def signed (n w : Nat) : Int :=
  let m := n % 2 ^ w
  if 2 ^ w ≤ 2 * m then (m : Int) - 2 ^ w else m

/-- `z` modulo 2^`w` as a number. -/
def wrap (z : Int) (w : Nat) : Nat := (z % (2 ^ w : Int)).toNat

/-- The `n` low bytes of a number, lowest first (R5). -/
def bytesOf (n : Nat) : Nat → List Byte
  | 0 => []
  | k + 1 => BitVec.ofNat 8 n :: bytesOf (n / 256) k

/-- A list of bytes as a little-endian number (R5). -/
def natOfBytes : List Byte → Nat
  | [] => 0
  | b :: bs => b.toNat + 256 * natOfBytes bs

/-- Bytes `off` to `off + n - 1` of `bs` as a number; bytes beyond the end read 0. -/
def fieldAt (bs : List Byte) (off n : Nat) : Nat := natOfBytes ((bs.drop off).take n)

/-- The word at byte `off` of `bs`. -/
def wordAt (bs : List Byte) (off : Nat) : Word := ofN (fieldAt bs off 8)

/-- Words as bytes, in order. -/
def bytesOfWords (ws : List Word) : List Byte := ws.flatMap (fun w => bytesOf w.toNat 8)

/-- Lane `k` of width `w` bits of a vector (R365). -/
def lane (v : Vec) (w k : Nat) : Nat := v.toNat / 2 ^ (w * k) % 2 ^ w

/-- The first `n` lanes of width `w`. -/
def lanes (v : Vec) (w n : Nat) : List Nat := (List.range n).map (lane v w)

/-- The number whose lanes of width `w` are `xs`, the first lowest. -/
def packLanes (w : Nat) : List Nat → Nat
  | [] => 0
  | x :: xs => x % 2 ^ w + 2 ^ w * packLanes w xs

/-- The vector whose lanes of width `w` are `xs`. -/
def ofLanes (w : Nat) (xs : List Nat) : Vec := BitVec.ofNat 512 (packLanes w xs)

/-- `v` with lane `k` of width `w` set to `x`. -/
def setLane (v : Vec) (w k x : Nat) : Vec :=
  BitVec.ofNat 512 (v.toNat - lane v w k * 2 ^ (w * k) + x % 2 ^ w * 2 ^ (w * k))

/-- The value listed for `k`, if any. -/
def assocGet {α : Type} : List (Nat × α) → Nat → Option α
  | [], _ => none
  | (j, x) :: r, k => if k = j then some x else if k < j then none else assocGet r k

/-- List `x` for `k`, keeping the keys rising. -/
def assocSet {α : Type} : List (Nat × α) → Nat → α → List (Nat × α)
  | [], k, x => [(k, x)]
  | (j, y) :: r, k, x =>
    if k < j then (k, x) :: (j, y) :: r else if k = j then (k, x) :: r else (j, y) :: assocSet r k x

/-- Drop what is listed for `k`. -/
def assocErase {α : Type} : List (Nat × α) → Nat → List (Nat × α)
  | [], _ => []
  | (j, y) :: r, k => if k < j then (j, y) :: r else if k = j then r else (j, y) :: assocErase r k

/-- The value of a sparse map at `k`. -/
def Tab.get {α : Type} (t : Tab α) (k : Nat) : α := (assocGet t.cells k).getD t.dflt

/-- A sparse map with the value at `k` replaced. -/
def Tab.set {α : Type} (t : Tab α) (k : Nat) (x : α) : Tab α := { t with cells := assocSet t.cells k x }

/-- A sparse map with the value at `k` changed by `f`. -/
def Tab.modify {α : Type} (t : Tab α) (k : Nat) (f : α → α) : Tab α := t.set k (f (t.get k))

/-- The sparse map that is `x` everywhere. -/
def Tab.const {α : Type} (x : α) : Tab α := { dflt := x, cells := [] }

/-- The keys of a list of pairs rise strictly. -/
def assocSorted {α : Type} : List (Nat × α) → Bool
  | [] => true
  | [_] => true
  | (j, _) :: (k, y) :: r => decide (j < k) && assocSorted ((k, y) :: r)

/-- The keys of a sparse map rise strictly. -/
def Tab.sorted {α : Type} (t : Tab α) : Bool := assocSorted t.cells

/-- The number of 1 bits among the low `n` bits of `x` (POPC and masks). -/
def popCount (x : Nat) : Nat → Nat
  | 0 => 0
  | n + 1 => x % 2 + popCount (x / 2) n

/-- The number of 0 bits below the lowest 1 bit among the low `n` bits of `x`; `n` when there is none. -/
def trailingZeros (x : Nat) : Nat → Nat
  | 0 => 0
  | n + 1 => if x % 2 = 1 then 0 else 1 + trailingZeros (x / 2) n

/-- The number of 0 bits above the highest 1 bit of an `n`-bit number. -/
def leadingZeros (x n : Nat) : Nat := if x % 2 ^ n = 0 then n else n - 1 - Nat.log2 (x % 2 ^ n)

/-- The least position of `xs` at which `p` holds. -/
def firstIdx {α : Type} (p : α → Bool) (xs : List α) : Option Nat := xs.findIdx? p

end Sys2Proof
end

