-- ==== Sys2Proof/Machine/Float.lean ====
section
/-! DEFINITION. Number formats and arithmetic (chapter 12): formats and exact values (R229, R230), rounding (R231), exp2 and
log2 (R242), decode tables (R234, R235), format descriptors (R236 to R239), the matrix step (R243, R244) and the drain
(R245). -/

namespace Sys2Proof

/-- An exact value, or an infinity, or a NaN (R231). `fin neg m e` is (-1)^neg · m · 2^e, and keeps the sign of a zero. -/
inductive Num where
  | nan
  | inf (neg : Bool)
  | fin (neg : Bool) (m : Nat) (e : Int)
  deriving DecidableEq, Repr

/-- A floating format by its exponent and fraction widths (R229). -/
structure Fmt where
  ew : Nat
  fw : Nat
  deriving DecidableEq, Repr

def Fmt.b32 : Fmt := { ew := 8, fw := 23 }
def Fmt.if19 : Fmt := { ew := 8, fw := 10 }
def Fmt.bf16 : Fmt := { ew := 8, fw := 7 }
def Fmt.b16 : Fmt := { ew := 5, fw := 10 }

def Fmt.bias (f : Fmt) : Int := 2 ^ (f.ew - 1) - 1
/-- Exponent of the unit of a subnormal. -/
def Fmt.unit (f : Fmt) : Int := 1 - f.bias - f.fw
/-- Bit pattern of +Inf. -/
def Fmt.infBits (f : Fmt) : Nat := (2 ^ f.ew - 1) * 2 ^ f.fw
/-- The default NaN (R229, R230). -/
def Fmt.nanBits (f : Fmt) : Nat := f.infBits + 2 ^ (f.fw - 1)
def Fmt.signBit (f : Fmt) : Nat := 2 ^ (f.ew + f.fw)

/-- The value of a bit pattern (R229). -/
def Fmt.decode (f : Fmt) (b : Nat) : Num :=
  let frac := b % 2 ^ f.fw
  let ex := b / 2 ^ f.fw % 2 ^ f.ew
  let neg := b / f.signBit % 2 == 1
  if ex = 2 ^ f.ew - 1 then (if frac = 0 then .inf neg else .nan)
  else if ex = 0 then .fin neg frac f.unit
  else .fin neg (2 ^ f.fw + frac) ((ex : Int) - 1 + f.unit)

/-- How a value is narrowed (R231). -/
inductive Rounding where
  | ne | tz | up
  deriving DecidableEq, Repr

/-- Whether the kept significand `q`, with remainder `r` of `2 * half`, is raised by one. -/
def Rounding.raises (d : Rounding) (neg : Bool) (q r half : Nat) : Bool :=
  match d with
  | .ne => decide (half < r) || (r == half && q % 2 == 1)
  | .tz => false
  | .up => r != 0 && !neg

/-- round_ne, round_tz and round_up of R231: the bit pattern in `f` of a value. -/
def Fmt.round (f : Fmt) (d : Rounding) (x : Num) : Nat :=
  match x with
  | .nan => f.nanBits
  | .inf neg => neg.toNat * f.signBit + f.infBits
  | .fin neg m e =>
    if m = 0 then neg.toNat * f.signBit
    else
      let top : Int := (Nat.log2 m : Int) + e
      let q : Int := max (top - f.fw) f.unit
      let sig : Nat :=
        if q ≤ e then m * 2 ^ (e - q).toNat
        else
          let sh := (q - e).toNat
          let k := m / 2 ^ sh
          k + (d.raises neg k (if sh = 0 then 0 else m % 2 ^ sh * 2) (2 ^ sh)).toNat
      let b := (q - f.unit).toNat * 2 ^ f.fw + sig
      let b' := if b < f.infBits then b
        else match d with
          | .ne => f.infBits
          | .tz => f.infBits - 1
          | .up => if neg then f.infBits - 1 else f.infBits
      neg.toNat * f.signBit + b'

def Num.isNan : Num → Bool
  | .nan => true
  | _ => false

def Num.isZero : Num → Bool
  | .fin _ m _ => m == 0
  | _ => false

def Num.isFin : Num → Bool
  | .fin _ _ _ => true
  | _ => false

def Num.sign : Num → Bool
  | .nan => false
  | .inf n => n
  | .fin n _ _ => n

def Num.neg : Num → Num
  | .nan => .nan
  | .inf n => .inf (!n)
  | .fin n m e => .fin (!n) m e

def Num.abs : Num → Num
  | .nan => .nan
  | .inf _ => .inf false
  | .fin _ m e => .fin false m e

def Num.zero : Num := .fin false 0 0
def Num.one : Num := .fin false 1 0

/-- An integer as an exact value. -/
def Num.ofInt (z : Int) : Num := .fin (decide (z < 0)) z.natAbs 0

/-- `x · 2^k`, exactly. -/
def Num.scale (x : Num) (k : Int) : Num :=
  match x with
  | .fin n m e => .fin n m (e + k)
  | y => y

/-- The signed significand of a finite value at the exponent `e0`, which must not exceed its own. -/
def sigAt (n : Bool) (m : Nat) (e e0 : Int) : Int :=
  let k : Int := (m * 2 ^ (e - e0).toNat : Nat)
  if n then -k else k

/-- The exact sum (R231): Inf - Inf is a NaN; a zero sum is +0 unless both terms are zeros of one sign. -/
def Num.add (x y : Num) : Num :=
  match x, y with
  | .nan, _ => .nan
  | _, .nan => .nan
  | .inf a, .inf b => if a = b then .inf a else .nan
  | .inf a, _ => .inf a
  | _, .inf b => .inf b
  | .fin a m e, .fin b k g =>
    if m = 0 ∧ k = 0 then .fin (a && b) 0 0
    else
      let e0 := min e g
      let z := sigAt a m e e0 + sigAt b k g e0
      .fin (decide (z < 0)) z.natAbs e0

def Num.sub (x y : Num) : Num := x.add y.neg

/-- The exact product (R231): 0 · Inf is a NaN. -/
def Num.mul (x y : Num) : Num :=
  match x, y with
  | .nan, _ => .nan
  | _, .nan => .nan
  | .inf a, .inf b => .inf (a != b)
  | .inf a, .fin b m _ => if m = 0 then .nan else .inf (a != b)
  | .fin a m _, .inf b => if m = 0 then .nan else .inf (a != b)
  | .fin a m e, .fin b k g => .fin (a != b) (m * k) (e + g)

/-- A quotient of numbers to 160 significant bits, with the bit below them set when it is not exact. Rounding it once gives
the correctly rounded quotient in every format of R229. -/
def ratio (m k : Nat) : Nat × Int :=
  let sh := 160 + Nat.log2 k
  let q := m * 2 ^ sh / k
  (2 * q + (if m * 2 ^ sh % k = 0 then 0 else 1), -(sh : Int) - 1)

/-- The quotient of R231 and R372, as a value that one rounding makes correct. -/
def Num.div (x y : Num) : Num :=
  match x, y with
  | .nan, _ => .nan
  | _, .nan => .nan
  | .inf _, .inf _ => .nan
  | .inf a, .fin b _ _ => .inf (a != b)
  | .fin a _ _, .inf b => .fin (a != b) 0 0
  | .fin a m e, .fin b k g =>
    if k = 0 then (if m = 0 then .nan else .inf (a != b))
    else
      let (q, s) := ratio m k
      .fin (a != b) q (s + e - g)

/-- One bit of an integer square root: `fuel` bits of the root remain, `r` is the root so far. -/
def isqrtLoop (n : Nat) : Nat → Nat → Nat
  | 0, r => r
  | k + 1, r =>
    let c := r + 2 ^ k
    isqrtLoop n k (if c * c ≤ n then c else r)

/-- The integer square root. -/
def isqrt (n : Nat) : Nat := isqrtLoop n (Nat.log2 n / 2 + 1) 0

/-- The square root of R231, as a value that one rounding makes correct. -/
def Num.sqrt (x : Num) : Num :=
  match x with
  | .nan => .nan
  | .inf n => if n then .nan else .inf false
  | .fin n m e =>
    if m = 0 then .fin n 0 0
    else if n then .nan
    else
      let odd := (e % 2).toNat
      let sh := 128
      let big := m * 2 ^ (odd + 2 * sh)
      let r := isqrt big
      .fin false (2 * r + (if r * r = big then 0 else 1)) ((e - odd) / 2 - sh - 1)

/-- 1/sqrt(x) (R241), as a value that one rounding makes correct: the quotient is taken of the exact square first. -/
def Num.rsqrt (x : Num) : Num :=
  match x with
  | .nan => .nan
  | .inf n => if n then .nan else .fin false 0 0
  | .fin n m e =>
    if m = 0 then .inf n
    else if n then .nan
    else
      let odd := (e % 2).toNat
      -- 1/(m·2^e) = (2^(2·sh) / (m·2^odd)) · 2^(-(e - odd) - 2·sh)
      let den := m * 2 ^ odd
      let sh := 128 + Nat.log2 den
      let big := 2 ^ (2 * sh) / den
      let r := isqrt big
      let exact := r * r * den == 2 ^ (2 * sh)
      .fin false (2 * r + (if exact then 0 else 1)) (-((e - odd) / 2) - sh - 1)

/-- Comparison of values that are not NaNs: -1, 0 or 1 as x is below, equal to or above y. Zeros of both signs are equal. -/
def Num.cmp (x y : Num) : Int :=
  match x, y with
  | .inf a, .inf b => if a = b then 0 else if a then -1 else 1
  | .inf a, _ => if a then -1 else 1
  | _, .inf b => if b then 1 else -1
  | .fin a m e, .fin b k g =>
    let e0 := min e g
    let z := sigAt a m e e0 - sigAt b k g e0
    if z < 0 then -1 else if z = 0 then 0 else 1
  | _, _ => 0

def Num.lt (x y : Num) : Bool := !x.isNan && !y.isNan && x.cmp y == -1
def Num.le (x y : Num) : Bool := !x.isNan && !y.isNan && x.cmp y != 1
/-- IEEE equality: a NaN equals nothing. -/
def Num.eqv (x y : Num) : Bool := !x.isNan && !y.isNan && x.cmp y == 0

/-- max of R231: -0 lies below +0, and a NaN operand gives a NaN. -/
def Num.maxN (x y : Num) : Num :=
  if x.isNan || y.isNan then .nan
  else if x.cmp y = 0 then (if x.sign then y else x)
  else if x.cmp y = 1 then x else y

/-- min of R231. -/
def Num.minN (x y : Num) : Num :=
  if x.isNan || y.isNan then .nan
  else if x.cmp y = 0 then (if x.sign then x else y)
  else if x.cmp y = 1 then y else x

/-- Fraction bits of the fixed-point work of exp2 and log2. -/
def workBits : Nat := 320

/-- The product over the bits of `frac` (of `k` bits, the highest first) of the square roots of 2 that they select: `root`
is 2^(2^-i) and `acc` the product so far, both with `workBits` fraction bits, rounded down. -/
def exp2Loop : Nat → Nat → Nat → Nat → Nat
  | 0, _, _, acc => acc
  | k + 1, frac, root, acc =>
    let root' := isqrt (root * 2 ^ workBits)
    let acc' := if frac / 2 ^ k % 2 = 1 then acc * root' / 2 ^ workBits else acc
    exp2Loop k frac root' acc'

/-- exp2 (R242), as a value that one rounding makes correct. The power of a fraction that is not 0 is irrational, so the bit
set below the computed ones stands for the rest. UNVERIFIED, log entry 51. -/
def Num.exp2 (x : Num) : Num :=
  match x with
  | .nan => .nan
  | .inf n => if n then .fin false 0 0 else .inf false
  | .fin n m e =>
    if m = 0 then Num.one
    else if (Nat.log2 m : Int) + e ≥ 9 then (if n then .fin false 1 (-400) else .fin false 1 400)
    else
      -- |x| < 2^9; bits below 2^-60 only tell on which side of a boundary the value lies
      let cut : Int := -60
      let z : Int := if cut ≤ e then m * 2 ^ (e - cut).toNat else (m / 2 ^ (cut - e).toNat : Nat)
      let exact : Bool := decide (cut ≤ e) || m % 2 ^ (cut - e).toNat == 0
      let z' : Int := if n then (if exact then -z else -z - 1) else z
      let whole := z' / 2 ^ 60
      let frac := (z' % 2 ^ 60).toNat
      if frac = 0 && exact then .fin false 1 whole
      else
        let p := exp2Loop 60 frac (2 ^ (workBits + 1)) (2 ^ workBits)
        .fin false (2 * p + 1) (whole - workBits - 1)

/-- Bits of log2 of a number in [1, 2) held with `workBits` fraction bits: `k` more squarings, `acc` the bits so far. -/
def log2Loop : Nat → Nat → Nat → Nat
  | 0, _, acc => acc
  | k + 1, t, acc =>
    let y := t * t / 2 ^ workBits
    if 2 ^ (workBits + 1) ≤ y then log2Loop k (y / 2) (2 * acc + 1) else log2Loop k y (2 * acc)

/-- log2 (R242), as a value that one rounding makes correct: 110 fraction bits, and the bit below set unless it is exact. -/
def Num.log2 (x : Num) : Num :=
  match x with
  | .nan => .nan
  | .inf n => if n then .nan else .inf false
  | .fin n m e =>
    if m = 0 then .inf true
    else if n then .nan
    else
      let l := Nat.log2 m
      let whole : Int := (l : Int) + e
      if m = 2 ^ l then Num.ofInt whole
      else
        let frac := log2Loop 110 (m * 2 ^ workBits / 2 ^ l) 0
        let z : Int := whole * 2 ^ 111 + (2 * frac + 1 : Nat)
        .fin (decide (z < 0)) z.natAbs (-111)

/-- binary32 as a value, and back with round_ne. -/
def f32 (w : W32) : Num := Fmt.b32.decode w.toNat
def toF32 (x : Num) : W32 := BitVec.ofNat 32 (Fmt.b32.round .ne x)

def f32nan : W32 := 0x7FC00000#32
def f32pinf : W32 := 0x7F800000#32
def f32one : W32 := 0x3F800000#32

def fadd (a b : W32) : W32 := toF32 ((f32 a).add (f32 b))
def fsub (a b : W32) : W32 := toF32 ((f32 a).sub (f32 b))
def fmul (a b : W32) : W32 := toF32 ((f32 a).mul (f32 b))
def fdiv (a b : W32) : W32 := toF32 ((f32 a).div (f32 b))
def ffma (a b c : W32) : W32 := toF32 (((f32 a).mul (f32 b)).add (f32 c))
def fsqrt (a : W32) : W32 := toF32 (f32 a).sqrt
def fmax (a b : W32) : W32 := toF32 ((f32 a).maxN (f32 b))
def fmin (a b : W32) : W32 := toF32 ((f32 a).minN (f32 b))
def fneg (a : W32) : W32 := toF32 (f32 a).neg
def fabs (a : W32) : W32 := toF32 (f32 a).abs

/-- An IF19 value in its 32-bit container (R229). -/
def if19 (w : W32) : Num := Fmt.if19.decode (w.toNat / 2 ^ 13)
def toIf19 (d : Rounding) (x : Num) : W32 := BitVec.ofNat 32 (Fmt.if19.round d x * 2 ^ 13)

/-- Nearest integer to a finite value, ties to even, or truncation. -/
def roundInt (d : Rounding) (neg : Bool) (m : Nat) (e : Int) : Int :=
  let k : Nat :=
    if 0 ≤ e then m * 2 ^ e.toNat
    else
      let sh := (-e).toNat
      let q := m / 2 ^ sh
      q + (d.raises neg q (m % 2 ^ sh * 2) (2 ^ sh)).toNat
  if neg then -(k : Int) else k

/-- Least and greatest values of a `w`-bit integer type. -/
def intRange (sgn : Bool) (w : Nat) : Int × Int := if sgn then (-(2 ^ (w - 1)), 2 ^ (w - 1) - 1) else (0, 2 ^ w - 1)

def clampInt (sgn : Bool) (w : Nat) (z : Int) : Int :=
  let (lo, hi) := intRange sgn w
  if z < lo then lo else if hi < z then hi else z

/-- A value as a `w`-bit integer: rounded and clamped; a NaN gives 0 (R239, R245). -/
def toInt (d : Rounding) (sgn : Bool) (w : Nat) (x : Num) : Nat :=
  match x with
  | .nan => 0
  | .inf n => wrap (if n then (intRange sgn w).1 else (intRange sgn w).2) w
  | .fin n m e => wrap (clampInt sgn w (roundInt d n m e)) w

/-- Table 2 of R234: the entries of the decode tables at reset, as IF19 containers. -/
def resetEntry (t c : Nat) : W32 :=
  let neg := c / 128 % 2 == 1
  let k := c % 128
  match t with
  | 0 =>
    let e := k / 8
    let m := k % 8
    if k = 127 then f32nan
    else if e = 0 then toIf19 .ne (.fin neg m (-9))
    else toIf19 .ne (.fin neg (8 + m) ((e : Int) - 10))
  | 1 =>
    let e := k / 4
    let m := k % 4
    if e = 31 then (if m = 0 then toIf19 .ne (.inf neg) else f32nan)
    else if e = 0 then toIf19 .ne (.fin neg m (-16))
    else toIf19 .ne (.fin neg (4 + m) ((e : Int) - 17))
  | 2 =>
    if k = 0 then (if neg then f32nan else 0)
    else
      match Num.exp2 (.fin (decide (k < 64)) ((k : Int) - 64).natAbs (-3)) with
      | .fin _ m e => toIf19 .ne (.fin neg m e)
      | y => toIf19 .ne y
  | _ => 0

/-- The best candidate so far of an encoding: a code and its value. -/
abbrev Cand := Option (Nat × Num)

/-- The candidate of greatest value among entries at or below `x` (`below`), or of least value at or above it; the lowest
code among equal values (R233, R235). Entries come in rising codes. -/
def nearestSide (below : Bool) (x : Num) : List (Nat × Num) → Cand → Cand
  | [], best => best
  | (c, v) :: r, best =>
    let fits := if below then v.le x else x.le v
    let better := match best with
      | none => true
      | some (_, b) => if below then b.lt v else v.lt b
    nearestSide below x r (if fits && better then some (c, v) else best)

/-- The code with the greatest or least value, the lowest code among equals. -/
def extremeCode (greatest : Bool) (es : List (Nat × Num)) : Nat :=
  (es.foldl (fun (b : Cand) p =>
    match b with
    | none => some p
    | some q => if (if greatest then q.2.lt p.2 else p.2.lt q.2) then some p else b) none).elim 0 (fun p => p.1)

/-- x - v with Inf - Inf counted as 0 (R235). -/
def gap (x v : Num) : Num :=
  match x, v with
  | .inf a, .inf b => if a = b then Num.zero else x.sub v
  | _, _ => x.sub v

/-- Encoding of R235 of a value into the entries `es` (code and value, codes rising). -/
def encodeTable (es : List (Nat × Num)) (x : Num) : Nat :=
  let fins := es.filter (fun p => !p.2.isNan)
  if x.isNan then
    match es.find? (fun p => p.2.isNan) with
    | some p => p.1
    | none => ((es.find? (fun p => p.2.isZero && !p.2.sign)).map (fun p => p.1)).getD 0
  else if fins.isEmpty then 0
  else
    match (if x.isZero then fins.find? (fun p => p.2.isZero && p.2.sign == x.sign) else none) with
    | some p => p.1
    | none =>
      -- a finite value never takes an infinite entry (R235)
      let cands := if x.isFin && fins.any (fun p => p.2.isFin) then fins.filter (fun p => p.2.isFin) else fins
      match nearestSide true x cands none, nearestSide false x cands none with
      | none, none => 0
      | none, some (c, _) => c
      | some (c, _), none => c
      | some (cl, vl), some (ch, vh) =>
        let dl := gap x vl
        let dh := (gap x vh).abs
        if dl.lt dh then cl
        else if dh.lt dl then ch
        else if cl % 2 ≠ ch % 2 then (if cl % 2 = 0 then cl else ch)
        else if vl.abs.lt vh.abs then cl
        else if vh.abs.lt vl.abs then ch
        else if x.sign then cl else ch

/-- A format descriptor entry (R236). -/
structure Desc where
  wid : Nat
  kind : Nat
  tbl : Nat
  valid : Bool
  deriving DecidableEq, Repr

def descOf (x : Nat) : Desc :=
  { wid := x / 2 ^ 14 % 4, kind := x / 2 ^ 11 % 8, tbl := x / 2 ^ 9 % 4, valid := x % 2 == 1 }

/-- Element width in bits. -/
def Desc.width (d : Desc) : Nat := 4 * 2 ^ d.wid

/-- The fixed entries of codes 0 to 15 (R237). -/
def fixedDesc (code : Nat) : Nat :=
  match code with
  | 1 => 0xD801
  | 2 => 0x9001
  | 3 => 0x8801
  | 4 => 0x6001
  | 5 => 0x6801
  | 6 => 0xA001
  | 7 => 0xE001
  | 8 => 0x4001
  | 9 => 0x4201
  | 10 => 0x2001
  | _ => 0

/-- Whether a word may be written as an entry (R238): KIND 0 to 5, no reserved bit, and with V an allowed width. -/
def descLegal (x : Nat) : Bool :=
  let d := descOf x
  decide (x < 2 ^ 16) && decide (d.kind < 6) && x / 2 % 256 == 0 &&
    (!d.valid ||
      (match d.kind with
       | 0 => decide (d.wid ≤ 1)
       | 1 => d.wid == 2
       | 2 => d.wid == 2
       | 3 => d.wid == 3
       | _ => true))

/-- The entries of table `t` that a `w`-bit code can name, with `entry` the table's contents (R233). -/
def tableEntries (entry : Nat → Nat → W32) (t w : Nat) : List (Nat × Num) :=
  (List.range (2 ^ w)).map (fun c => (c, if19 (entry t c)))

/-- The exact value of an element of descriptor `d` (R229, R233, R239). -/
def Desc.decode (entry : Nat → Nat → W32) (d : Desc) (x : Nat) : Num :=
  match d.kind with
  | 0 => if19 (entry d.tbl (x % 2 ^ d.width))
  | 1 => Fmt.b16.decode x
  | 2 => Fmt.bf16.decode x
  | 3 => Fmt.b32.decode x
  | 4 => Num.ofInt (signed x d.width)
  | _ => Num.ofInt ((x % 2 ^ d.width : Nat) : Int)

/-- The element of descriptor `d` for a value (R235, R239). -/
def Desc.encode (entry : Nat → Nat → W32) (d : Desc) (x : Num) : Nat :=
  match d.kind with
  | 0 => encodeTable (tableEntries entry d.tbl d.width) x
  | 1 => Fmt.b16.round .ne x
  | 2 => Fmt.bf16.round .ne x
  | 3 => Fmt.b32.round .ne x
  | 4 => toInt .ne true d.width x
  | _ => toInt .ne false d.width x

/-- The candidates of R245 between 0 and x inclusive, and the nearest of them to x: for x ≥ 0 the greatest value not above x,
else the least value not below x. Infinite entries count only for an infinite x. -/
def drainTable (es : List (Nat × Num)) (x : Num) : Nat :=
  if x.isNan then encodeTable es x
  else
    let between := es.filter (fun p =>
      !p.2.isNan &&
        (if x.isZero then p.2.isZero
         else if x.sign then x.le p.2 && p.2.le Num.zero else p.2.le x && Num.zero.le p.2))
    if between.isEmpty then encodeTable es x
    else extremeCode (!x.sign) between

/-- MDRAIN's narrowing of an accumulator value into descriptor `d` (R245): round_tz, truncation, or the table rule. -/
def Desc.drain (entry : Nat → Nat → W32) (d : Desc) (x : Num) : Nat :=
  match d.kind with
  | 0 => drainTable (tableEntries entry d.tbl d.width) x
  | 1 => Fmt.b16.round .tz x
  | 2 => Fmt.bf16.round .tz x
  | 3 => Fmt.b32.round .tz x
  | 4 => toInt .tz true d.width x
  | _ => toInt .tz false d.width x

/-- `kstep_add` of R243 on decoded elements: products exact, one rounding. -/
def kstepAdd (c : W32) (ab : List (Num × Num)) : W32 :=
  toF32 ((f32 c).add (ab.foldl (fun acc p => acc.add (p.1.mul p.2)) Num.zero))

/-- The split of an FP32 operand (R244): hi is x truncated to IF19, lo the rounded rest. -/
def splitHi (x : W32) : Num :=
  match f32 x with
  | .nan => .nan
  | _ => if19 x

def splitLo (x : W32) : Num :=
  match f32 x with
  | .nan => Num.zero
  | .inf _ => Num.zero
  | y => if19 (toIf19 .ne (y.sub (if19 x)))

/-- The terms of one K-step of an FP32 product: hi·hi, then hi·lo, then lo·hi (R244). -/
def splitTerms (ab : List (W32 × W32)) : List (Num × Num) :=
  ab.map (fun p => (splitHi p.1, splitHi p.2)) ++ ab.map (fun p => (splitHi p.1, splitLo p.2)) ++
    ab.map (fun p => (splitLo p.1, splitHi p.2))

end Sys2Proof
end

