-- ==== Sys2Proof/Machine/State.lean ====
section
/-! DEFINITION. The state of the device, its value after reset, and the reasons a step can stop. -/

namespace Sys2Proof.Machine

/-- What a step does next: a context issues, a near-bank unit runs a micro-instruction, an event happens, a held instruction
of an ordered task is released (R97), or nothing is ready. -/
inductive Turn where
  | ctx (core c : Nat)
  | unit (u : Nat)
  | event (e : Event)
  | held (cluster uid : Nat)
  | idle
  deriving DecidableEq, Repr

/-- Why a step stops the machine. `bootRom`: the firmware image and the recovery image have both failed, and the device stays
in boot ROM (R69); raised by step alone, and safe: nothing more is defined to happen. -/
inductive Fault where
  | bootRom
  deriving DecidableEq, Repr

/-- Why an instruction has no meaning. `notModelled` is raised only by an arm of exec without a meaning; safe. -/
inductive Refusal where
  | notModelled (mnemonic : String)
  deriving DecidableEq, Repr

/-- The device.

The model's own fields, not the spec's: `turn` and `agenda` say which agent acts next and which actions are in flight (DESIGN CHOICE, log
entry 2); `free` counts the free values used (DESIGN CHOICE, log entry 1); `curCore`, `curCtx`, `curUnit`, `curJob` name the agent whose
instruction runs (a context number of 8 or more stands for an engine, see Ops.lean); `uid` numbers works, records, entries and tasks.
`sentTuples` are the tuple requests not yet answered, with f0 and the device each was sent to (R171), and `splits` the KSPLITs not yet
answered. `mgmtCmds` counts the commands that have reached the management core (R445); `hostOut` holds the completions written to the host
(HostCompletion.writes), `ringNext` the ring at which a service core's round robin goes on (R61), and `aperture` what the adapter has
answered to reads, none an Unsupported Request (R53, R57). `stepped` says that a LIMIT has fallen in this window of the power manager (R21).
`meets` are the agents whose next access meets an uncorrectable error in an SRAM array (R23; DEDUCED, log entry 31). `stale` are the values
of words that a walk may still read there (DESIGN CHOICE, log entry 63). -/
structure State where
  turn : Turn
  agenda : List Event
  free : Nat
  uid : Nat
  curCore : Nat
  curCtx : Nat
  curUnit : Nat
  curJob : Nat
  time : Nat
  mem : List Host.Cell
  badLines : List Nat
  meets : List Nat
  fuse : Tab Word
  island : Tab Island
  ecc : Tab Ecc
  fab : Fabric
  net : NetEngine
  link : CidanLink
  ring : Tab Ring
  part : Tab PartEntry
  sealed_ : Tab Sealed
  sec : Security
  mgmtLog : List MgmtEvent
  mgmtCmds : Nat
  hostOut : List HostCompletion
  ringNext : Tab Nat
  aperture : List (Word × Option (List Byte))
  stepped : Bool
  launch : Tab LaunchQ
  reserved : List (Nat × Nat × List Nat)
  records : List (Nat × Nat)
  tasks : List (Nat × Task)
  core : Tab Core
  cluster : Tab Cluster
  crew : Tab Barrier
  umpire : Tab Umpire
  quiescing : List Nat
  swaps : List (Nat × Swap)
  range : Tab RangeTable
  slice : Tab Slice
  handoffs : List HandoffState
  sentTuples : List (RegDest × Nat × Nat)
  splits : List Handoff
  unit : Tab NbUnit
  home : Tab LineHome
  forwards : Tab Nat
  uline : List ULine
  owned : List (Nat × Word)
  pins : List Pin
  holds : List Hold
  tlbis : List TlbiWait
  far : List FarWord
  counts : List CountOut
  stale : List StaleWord
  deriving DecidableEq, Repr

/-- Trap registers of a context that starts work (R77, R272). -/
def TrapRegs.zero : TrapRegs := { epc := 0, ecause := 0, eaddr := 0, einfo := 0, ejob := 0, tvec := 0 }

/-- Identity registers of work that is no task (R79). -/
def Ident.none : Ident :=
  { taskId := 0, org0 := 0, org1 := 0, ext0 := 0, ext1 := 0, nom0 := 0, nom1 := 0, gext0 := 0, gext1 := 0,
    squadRank := 0, crewRank := 0, vtime := BitVec.allOnes 64 }

def MsgRegs.zero : MsgRegs := { id := 0, src := 0, len := 0, jobLast := 0, xferId := 0 }

/-- A context that holds no work (R106): every register zero (R107, R272). DESIGN CHOICE, log entry 4. -/
def Ctx.idle : Ctx :=
  { phase := .idle, work := .none, serial := 0, g := Tab.const 0, pend := 0, poison := [], seen := 0, pc := 0, lineN := 1,
    uie := false, atrap := false, vwin := 0, q := [], trap := TrapRegs.zero, ident := Ident.none, msgr := MsgRegs.zero,
    latch := 0, sleep := none, sendBuf := [], streams := [], parkCount := 0, heldTrap := none,
    waitIntr := [], uiSaved := none, retStack := [], lastIssue := 0, stores := 0, shotEnd := none, deferred := false,
    blocked := [], stay := false, wakeSeen := 0, moveDev := none, xread := none, blk := none, wout := [] }

/-- A window as its binding clears it (R108, R204). -/
def Window.clear : Window :=
  { used := false, v := Tab.const 0, m := Tab.const 0, b := Tab.const 0, bound := Tab.const 0 }

/-- A core after reset: decode tables and descriptors as R234 and R237 give, GCFG as R213. -/
def Core.reset : Core :=
  { ctx := Tab.const Ctx.idle, win := Tab.const Window.clear, tables := [], building := [], fdt := [],
    gcfg := 0x35800000#64, svec := 0, taskq := [], residq := [], residSeq := 0, lowq := [], highq := [], arrq := [],
    outq := [], sendaPend := [], merr := 0, mqcap := 0, jobs := [], jobSeq := 0, spawnCount := 0,
    seqn := 0, slots := 0, storeq := 0, plost := false, tlb := [], tlbUse := 0, ports := 0,
    pickAc := none, pair := none, arrAc := none, startAc := none }

def Barrier.reset : Barrier := { gen := 0, count := 0, arrived := [], engc := 0, engArr := 0, task := 0 }

/-- A matrix unit after reset: weights 1 (R392), accumulators +0 and shapes 0×0 (R393, R395). DESIGN CHOICE, log entry 5. -/
def MatrixUnit.reset : MatrixUnit :=
  { acc := Tab.const 0, shape := Tab.const { m := 0, n := 0, valid := 0, int := false },
    issued := Tab.const (0, 0),
    queue := Tab.const [], weight := Tab.const 1, cur := 0, used := 0, gather := [], skip := [] }

/-- An array after reset: weights 0, banks +0 with bounds +Inf (R194, and the prose under R434), no calibration. -/
def XbarArray.reset : XbarArray :=
  { weights := Tab.const 0, prog := false, bank := Tab.const 0, bound := Tab.const 0x7F800000#32,
    bankDrift := Tab.const false, queue := [], calok := false, beta := 0, gamma := 0, drifts := 0, prods := 0,
    progDone := false, leaving := false }

def Cluster.reset : Cluster :=
  { mx := MatrixUnit.reset, copyq := Tab.const [], copyNext := 0, gathq := Tab.const [], bufs := [],
    huddle := Tab.const Barrier.reset, ord := [], xbar := Tab.const XbarArray.reset, tlb2 := [], walkq := [],
    gang := none, throttle := 0, easing := false }

/-- An island at OP 0 (R16, R24). -/
def Island.reset (req : Nat) : Island :=
  { req := req, limit := 3, eff := req, badreq := false, gated := false, quietWindows := 0, sinceRise := 0,
    changing := false, noisy := false, cycles := 0 }

def Ring.reset : Ring :=
  { base := 0, en := false, sc := 0, size := 0, vec := 0, tail := 0, head := 0, badcfg := false, stopped := true,
    owner := 0, taken := 0, written := 0, held := [] }

def PartEntry.free : PartEntry :=
  { state := 0, noneok := false, supv := 0, clmask := 0, qmask := 0, ptroot := 0, pinq := 0, prot := 0, key := 0,
    ssb := 0, sealMask := 0, tanch := 0, sbbase := 0, sblim := 0 }

def LaunchQ.reset : LaunchQ :=
  { en := false, budget := 0, period := 0, ovr := false, left := 0, dl := BitVec.allOnes 64, recs := [],
    raised := false }

def Port.reset : Port :=
  { state := 0, disable := false, vmismatch := false, crccnt := 0, pfeat := 0, ver := 0, crcTimes := [] }

def TxStream.reset : TxStream :=
  { next := 0, epoch := 0, held := [], timeout := 0, expiries := 0, deadline := none, unreach := false, last := 0 }

def RxStream.reset : RxStream := { b := 0, pool := [], since := 0, first := none, failTimes := [], epoch := 0, verified := none }

/-- The fabric after reset (R52). FAB.DIM has no reset value: 0 is the model's (DESIGN CHOICE, log entry 10). -/
def Fabric.reset : Fabric :=
  { dim := 0, rto := 0x3F02000#64, intthr := 16, badf := 0, agesat := 0, intfail := 0, pooldrop := 0,
    port := Tab.const Port.reset, tx := Tab.const TxStream.reset, rx := Tab.const RxStream.reset, swap := none,
    cache := [], out := [], seen := [], acked := Tab.const 0xFFFFFFFF#32, lost := [], xid := 0, headWait := 0, rr := 0,
    sentAcks := [], wire := [] }

def NbUnit.reset : NbUnit :=
  { state := 0, owner := 0, fmode := false, pending := false, regions := [], overlay := Tab.const 0, n := Tab.const 0,
    a := Tab.const 0, x := Tab.const 0, bm := 0xFFFF#16, pc := 0, steps := 0, report := 0, rows := Tab.const none,
    win := [none, none], spc := 0, sbank := 0, scol := 0, scause := 0, summary := 0, dest := none, normals := [], waiting := [] }

/-- The seed ξ of the identity key of provisioning generation `g`: SHA3-256(fused root seed ‖ "MRX-ID" ‖ G) (R71). -/
def Security.seed (g : Nat) : List Byte :=
  Config.sha3 (Config.rootSeed ++ [0x4D, 0x52, 0x58, 0x2D, 0x49, 0x44].map (BitVec.ofNat 8) ++ [BitVec.ofNat 8 g])

/-- A fuse map with its 60 lowest bits set: the model's, for a map that R14 says is fused (DESIGN CHOICE, log entry 11). -/
def fuseDefault : Word := 0x0FFFFFFFFFFFFFFF#64

/-- Right after power-on or device reset (R24): every island at OP 0 but island 31 at OP 3, no partition, no work, memory
with nothing listed, the Cidan Link and the ports DOWN. The key store is that of a provisioned device, every slot holding a key (DESIGN
CHOICE, log entry 19). What happens next is DEVICE_RESET, and then the bring-up of R24. Rings, sealed regions and line homes are
DESIGN CHOICE, log entry 6; DEV.TIME and the umpire are log entry 55. -/
def State.reset : State :=
  { turn := .event .deviceReset, agenda := [], free := 0, uid := 1, curCore := 0, curCtx := 0,
    curUnit := 0, curJob := 0, time := 0, mem := [], badLines := [], meets := [], fuse := Tab.const fuseDefault,
    island := (Tab.const (Island.reset 0)).set 31 (Island.reset 3), ecc := Tab.const { corr := 0, unc := 0 },
    fab := Fabric.reset,
    net := { groups := Tab.const { members := 0, part := none }, open_ := [], early := [], failed := [], uses := [], mcasts := [] },
    link := { state := 0, failed := 0, feat := 0, ver := 0, vmismatch := false, idle := false, drop := 0 }, ring := Tab.const Ring.reset,
    part := Tab.const PartEntry.free,
    sealed_ := Tab.const { base := 0, size := 0, gate := 0, count := 0, waiting := [] },
    sec := { boot := 0, recovery := false, failed := false, meas := List.replicate 4 (List.replicate 32 0), keys := List.range 16,
             slots := { dflt := [], cells := (List.range 16).map (fun n => (n, Config.keySlot n)) }, idKey := true,
             xi := Security.seed 0, gen := 0, flag := false, alarms := [], acted := [], noNewParts := false, silent := false,
             erasing := false, integ := [], supply := [] },
    mgmtLog := [], mgmtCmds := 0, hostOut := [], ringNext := Tab.const 0, aperture := [], stepped := false, launch := Tab.const LaunchQ.reset, reserved := [], records := [],
    tasks := [], core := Tab.const Core.reset, cluster := Tab.const Cluster.reset, crew := Tab.const Barrier.reset,
    umpire := Tab.const { sampled := none, published := none, gvt := 0, floor := 0, tick := 0 }, quiescing := [], swaps := [],
    range := Tab.const { entries := [], tver := 0 },
    slice := Tab.const { tuples := [], waiters := [], conts := [], shadow := [], resIndex := 0, resWait := 0,
                         resCont := 0, next := 0 },
    handoffs := [], sentTuples := [], splits := [], unit := Tab.const NbUnit.reset,
    home := Tab.const { node := 64, run := 0, holder := 64 }, forwards := Tab.const 0, uline := [], owned := [],
    pins := [], holds := [], tlbis := [], far := [], counts := [], stale := [] }

end Sys2Proof.Machine
end

