-- ==== Sys2Proof/Machine/Wire.lean ====
section
/-! DEFINITION. A flit as the 88 bytes of its link: header, payload, trailer with CRC-32C and integrity tag, and the protection of a
stream (R27, R28, R36); a host command and a completion record as bytes (R59, R60). -/

namespace Sys2Proof

/-! ## The bytes of a flit (R27, R28) -/

/-- The header of Table 1 as one 128-bit value. -/
def flitHeader (f : Flit) : Nat :=
  f.dst % 2 ^ 12 * 2 ^ 116 + f.src % 2 ^ 12 * 2 ^ 104 + f.age % 2 ^ 10 * 2 ^ 94 + f.seq.toNat * 2 ^ 62 + f.vc % 2 ^ 3 * 2 ^ 59 +
    f.type % 2 ^ 5 * 2 ^ 54 + f.part % 2 ^ 4 * 2 ^ 50 + f.grp % 2 ^ 2 * 2 ^ 48 + f.len % 2 ^ 7 * 2 ^ 41 + f.first.toNat * 2 ^ 40 +
    f.last.toNat * 2 ^ 39 + f.xid % 2 ^ 16 * 2 ^ 23 + f.aux % 2 ^ 23

/-- Header and payload, in the order of the wire. -/
def flitCovered (f : Flit) : List Byte := bytesOf (flitHeader f) 16 ++ f.payload

/-- Header with AGE zeroed, and payload: what the end-to-end tag covers (R36). -/
def flitSealed (f : Flit) : List Byte := flitCovered { f with age := 0 }

/-- One bit of CRC-32C, least significant bit first: 0x82F63B78 is the polynomial 0x1EDC6F41 reflected. -/
def crcBit (c : Nat) : Nat := if c % 2 = 1 then (c / 2) ^^^ 0x82F63B78 else c / 2

def crcByte (c : Nat) (b : Byte) : Nat := crcBit (crcBit (crcBit (crcBit (crcBit (crcBit (crcBit (crcBit (c ^^^ b.toNat))))))))

/-- CRC-32C (R28), with the initial value, the reflection and the final inversion that go by that name (PRESUMED, log entry 67). -/
def crc32c (bs : List Byte) : W32 := BitVec.ofNat 32 (bs.foldl crcByte 0xFFFFFFFF ^^^ 0xFFFFFFFF)

/-- The CRC that a link's transmitter computes over header and payload (R28). -/
def flitCrc (f : Flit) : W32 := crc32c (flitCovered f)

/-- The 88 bytes of a flit on a link: the trailer holds the tag in bits [31:0] and the CRC in bits [63:32] (R27, R28). -/
def flitBytes (f : Flit) : List Byte := flitCovered f ++ bytesOf f.tag.toNat 4 ++ bytesOf (flitCrc f).toNat 4

/-- The receiver's check of a link's CRC (R28). -/
def ArrivingFlit.crcOk (a : ArrivingFlit) : Bool := a.crc == flitCrc a.flit

/-- Payload bytes padded to the 64 of a flit. -/
def pad64 (bs : List Byte) : List Byte := (bs ++ List.replicate 64 0).take 64

/-- The payload of flit `k` of a message: the layouts that the spec gives (R46, R123), and an unstated one for the rest (DESIGN CHOICE,
log entry 8). -/
def payloadOf (b : FlitBody) (k : Nat) : List Byte :=
  match b with
  | .pad => pad64 []
  | .mcast c => pad64 (c.bytes.drop (64 * k))
  | .mcastStatus _ _ st => pad64 (bytesOf st.toNat 8)
  | .migrImage m => pad64 (m.image.drop (64 * k))
  | b => pad64 (Config.flitPayload b k)

/-! ## A host command and its completion record (R59, R60) -/

/-- The fields of Table 3, and the body. -/
def HostCmd.op (c : HostCmd) : Nat := fieldAt c.bytes 0 1
def HostCmd.irq (c : HostCmd) : Bool := bit (wordAt c.bytes 0) 8
def HostCmd.waitall (c : HostCmd) : Bool := bit (wordAt c.bytes 0) 9
def HostCmd.part (c : HostCmd) : Nat := bits (wordAt c.bytes 0) 19 16
def HostCmd.tag (c : HostCmd) : BitVec 32 := BitVec.ofNat 32 (fieldAt c.bytes 4 4)
def HostCmd.daddr (c : HostCmd) : Word := wordAt c.bytes 8
def HostCmd.haddr (c : HostCmd) : Word := wordAt c.bytes 16
def HostCmd.len (c : HostCmd) : Nat := fieldAt c.bytes 24 8
def HostCmd.arg0 (c : HostCmd) : Word := wordAt c.bytes 32
def HostCmd.arg1 (c : HostCmd) : Word := wordAt c.bytes 40
def HostCmd.cpl (c : HostCmd) : Word := wordAt c.bytes 48
def HostCmd.body (c : HostCmd) : List Byte := (c.bytes.drop 64).take 64

/-- The reserved fields are zero. -/
def HostCmd.reservedZero (c : HostCmd) : Bool :=
  bits (wordAt c.bytes 0) 15 10 == 0 && bits (wordAt c.bytes 0) 31 20 == 0 && fieldAt c.bytes 56 8 == 0

/-- The 16 bytes of a completion record: TAG, the status, zero, and the first device address that faulted. -/
def HostCompletion.record (c : HostCompletion) : List Byte :=
  bytesOf c.tag.toNat 4 ++ bytesOf c.status 2 ++ bytesOf 0 2 ++ bytesOf c.faddr.toNat 8

/-- What a completion writes to host memory, in order: the data of READ and ATTEST at HADDR, then the record at CPL. -/
def HostCompletion.writes (c : HostCompletion) : List (Word × List Byte) := [(c.haddr, c.data), (c.cpl, c.record)]

namespace Machine

/-! ## Protection (R36) -/

/-- Protection mode of a partition's channel (R36, R64). -/
def PartEntry.mode (e : PartEntry) (vc : Nat) : Nat := e.prot.toNat / 2 ^ (2 * vc) % 4

/-- The mode of a flit's partition and channel at this device. -/
def State.flitMode (s : State) (f : Flit) : Nat := PartEntry.mode (s.part.get f.part) f.vc

/-- The link key of a partition (R36, R64). -/
def State.linkKey (s : State) (part : Nat) : List Byte := s.sec.slots.get (s.part.get part).key

/-- "MRXF", the customisation string (R36). -/
def mrxf : List Byte := [0x4D, 0x52, 0x58, 0x46].map (BitVec.ofNat 8)

/-- The tag of mode INTEGRITY: the first 32 bits of KMAC256 under the link key (R36). -/
def State.kmacTag (s : State) (f : Flit) : W32 :=
  BitVec.ofNat 32 (natOfBytes ((Config.kmac (s.linkKey f.part) mrxf (flitSealed f)).take 4))

/-- The tag of a flit outside an AEAD group. A flit of no stream belongs to no group, so in mode AEAD it bears the tag of INTEGRITY
(DESIGN CHOICE, log entry 67). -/
def State.tagFor (s : State) (f : Flit) : W32 := if s.flitMode f = 0 then 0 else s.kmacTag f

/-- A flit outside an AEAD group bears the tag that this device expects (R37). -/
def State.tagOk (s : State) (f : Flit) : Bool := f.tag == s.tagFor f

/-- The nonce of a group: SRC ‖ DST ‖ VC ‖ 0b00000 ‖ EPOCH ‖ SEQ₀, most significant byte first (R36; the byte order is DEDUCED, log
entry 67). -/
def aeadNonce (f : Flit) (epoch : BitVec 32) : List Byte :=
  (bytesOf (f.src % 2 ^ 12 * 2 ^ 84 + f.dst % 2 ^ 12 * 2 ^ 72 + f.vc % 2 ^ 3 * 2 ^ 69 + epoch.toNat * 2 ^ 32 +
    f.seq.toNat / 4 * 4) 12).reverse

/-- The additional data of a group: its headers with AGE zeroed (R36). -/
def aeadData (g : List Flit) : List Byte := g.flatMap (fun f => bytesOf (flitHeader { f with age := 0 }) 16)

/-- A group of flits sealed: the payloads are encrypted, and the 128-bit tag is spread over the trailers, bits [31:0] in GRP 0 (R36). -/
def sealGroup (key : List Byte) (epoch : BitVec 32) (g : List Flit) : List Flit :=
  match g with
  | [] => []
  | f :: _ =>
    let (ct, tag) := Config.aesGcm key (aeadNonce f epoch) (aeadData g) (g.flatMap (fun x => x.payload))
    ((List.range g.length).zip g).map (fun p =>
      { p.2 with payload := pad64 (ct.drop (64 * p.1)), tag := BitVec.ofNat 32 (tag / 2 ^ (32 * p.2.grp)) })

/-- The trailers of a group hold the tag of its headers and encrypted payloads (R36, R37). -/
def groupOk (key : List Byte) (epoch : BitVec 32) (g : List Flit) : Bool :=
  match g with
  | [] => true
  | f :: _ =>
    let tag := Config.aesGcmTag key (aeadNonce f epoch) (aeadData g) (g.flatMap (fun x => x.payload))
    g.all (fun x => x.tag == BitVec.ofNat 32 (tag / 2 ^ (32 * x.grp)))

end Machine

end Sys2Proof
end

