-- ==== Sys2Proof/Machine/Ops.lean ====
section
/-! DEFINITION. The named operations over memory, registers and translation, taking a trap and returning from one. -/

namespace Sys2Proof.Machine

/-! ## Status and cause codes (R269, R270) -/

def stOK : Nat := 0
def stFULL : Nat := 1
def stEMPTY : Nat := 2
def stREFUSED : Nat := 3
def stPRESENT : Nat := 4
def stQUOTA : Nat := 5
def stCOUNT : Nat := 6
def stSPAN : Nat := 7
def stPENDING : Nat := 8
def stNOMATCH : Nat := 9
def stMOVED : Nat := 10
def stMEMBERLOSS : Nat := 11

def cILL : Nat := 1
def cILLINE : Nat := 2
def cILLTGT : Nat := 3
def cXLATE : Nat := 4
def cPERM : Nat := 5
def cALIGN : Nat := 6
def cECC : Nat := 7
def cSHOTCLOCK : Nat := 8
def cSHAPE : Nat := 10
def cSINGULAR : Nat := 11
def cDRIFT : Nat := 12
def cGANGSTOP : Nat := 13
def cNBFAULT : Nat := 14
def cMEMBERLOSS : Nat := 15
def cBOUND : Nat := 17
def cSOFT : Nat := 18
def cSYSCALL : Nat := 19

/-- A status word with bit 63 set (R269). -/
def st63 (c : Nat) : Word := ofN (2 ^ 63 + c)

/-- The management core's number in this model: the number after the last logical core (DESIGN CHOICE, log entry 12). -/
def mgmtCore : Nat := 1920

/-! ## Actions -/

/-- Why an instruction does not simply complete: it traps, having read a poisoned register or not; it must wait and leaves
the state as it was; it waits with requests of its own in flight; or its ordered task is rolled back (R100). -/
inductive Stop where
  | trap (t : Trap) (reg : Option Nat)
  | stall
  | wait (s : State)
  | rollback

/-- A step of an instruction's meaning. -/
abbrev Act (α : Type) := StateT State (Except Stop) α

def stop {α : Type} (x : Stop) : Act α := fun _ => .error x

/-- Waits, leaving the state as the instruction found it (R119). DEDUCED, log entry 56. -/
def stall {α : Type} : Act α := stop .stall

/-- Waits, keeping what has been done so far; the instruction is tried again. -/
def waitHere {α : Type} : Act α := fun s => .error (.wait s)

/-! ## Contexts and cores -/

def State.coreAt (s : State) (c : Nat) : Core := s.core.get c
def State.ctxAt (s : State) (c k : Nat) : Ctx := (s.core.get c).ctx.get k
def State.me (s : State) : Ctx := s.ctxAt s.curCore s.curCtx
def State.clusterAt (s : State) (c : Nat) : Cluster := s.cluster.get c

def State.modCore (s : State) (c : Nat) (f : Core → Core) : State := { s with core := s.core.modify c f }
def State.modCtx (s : State) (c k : Nat) (f : Ctx → Ctx) : State :=
  s.modCore c (fun x => { x with ctx := x.ctx.modify k f })
def State.modMe (s : State) (f : Ctx → Ctx) : State := s.modCtx s.curCore s.curCtx f
def State.modCluster (s : State) (c : Nat) (f : Cluster → Cluster) : State :=
  { s with cluster := s.cluster.modify c f }

/-- The cluster of a core. The spec gives the management core none of the 240; in this model it stands in a cluster of its own, number
240, with a matrix unit, arrays and peer scratchpads of its own (DESIGN CHOICE, log entry 12). -/
def clusterOf (core : Nat) : Nat := core / 8

/-- Puts an event in flight. -/
def State.push (s : State) (e : Event) : State := { s with agenda := s.agenda ++ [e] }
def State.pushAll (s : State) (es : List Event) : State := { s with agenda := s.agenda ++ es }

/-- A fresh number for a work, an entry or a record. -/
def State.fresh (s : State) : Nat × State := (s.uid, { s with uid := s.uid + 1 })

/-- A free value (DESIGN CHOICE, log entry 1). -/
def State.freeW (s : State) : Word × State := (Config.freeWord s.free, { s with free := s.free + 1 })

/-- This device's number (R25). -/
def State.dev (s : State) : Nat := bits s.fab.dim 23 12

/-- How many devices the torus holds (R25). -/
def State.devices (s : State) : Nat :=
  (bits s.fab.dim 3 0 + 1) * (bits s.fab.dim 7 4 + 1) * (bits s.fab.dim 11 8 + 1)

/-- The partition that owns a cluster (R64). -/
def State.partOfCluster (s : State) (cl : Nat) : Option Nat :=
  (List.range 16).find? (fun p => (s.part.get p).state != 0 && (s.part.get p).clmask.getLsbD cl)

def State.partOfCore (s : State) (core : Nat) : Option Nat :=
  if core < 1920 then s.partOfCluster (clusterOf core) else none

/-- PART.ID of the running work (R79); 0 where there is none. -/
def State.curPart (s : State) : Nat := (s.partOfCore s.curCore).getD 0

/-- The clusters of a partition, ascending. -/
def State.clustersOf (s : State) (p : Nat) : List Nat :=
  (List.range 240).filter (fun c => (s.part.get p).clmask.getLsbD c)

/-- The issuing context holds privilege S: the partition's supervisor core, or the management core (R310). -/
def State.privS (s : State) : Bool :=
  s.curCore == mgmtCore ||
    (match s.partOfCore s.curCore with
     | some p => (s.part.get p).supv == s.curCore
     | none => false)

/-- The issuing context holds privilege M (R310). -/
def State.privM (s : State) : Bool := s.curCore == mgmtCore

/-- The running task of a context, with its number. -/
def State.taskOf (s : State) (core k : Nat) : Option (Nat × Task) :=
  match (s.ctxAt core k).work with
  | .task id => (assocGet s.tasks id).map (fun t => (id, t))
  | _ => none

def State.modTask (s : State) (id : Nat) (f : Task → Task) : State :=
  match assocGet s.tasks id with
  | some t => { s with tasks := assocSet s.tasks id (f t) }
  | none => s

/-- The ordered-task entry that a context runs (R96). -/
def State.ordOf (s : State) (core k : Nat) : Option (Nat × OrdTask) :=
  match s.taskOf core k with
  | some (_, t) =>
    match t.ordered with
    | some (cl, u) => ((s.clusterAt cl).ord.find? (fun o => o.uid == u)).map (fun o => (cl, o))
    | none => none
  | none => none

/-- The context runs a speculative ordered task (R97, CSW.SPEC). -/
def State.specAt (s : State) (core k : Nat) : Bool :=
  match s.ordOf core k with
  | some (_, o) => !o.irrevocable
  | none => false

def State.spec (s : State) : Bool := s.specAt s.curCore s.curCtx

def State.modOrd (s : State) (cl u : Nat) (f : OrdTask → OrdTask) : State :=
  s.modCluster cl (fun c => { c with ord := c.ord.map (fun o => if o.uid = u then f o else o) })

/-! ## Memory: bytes by location

A location below 2^39 is a device physical address; the scratchpad byte at offset o of core c stands at
2^40 + c·2^18 + o (DESIGN CHOICE, log entry 13). An unlisted location reads 0 (R24, DESIGN CHOICE, log entry 14). -/

def memRead : List Host.Cell → Nat → Byte
  | [], _ => 0
  | (j, b) :: r, a => if a = j then b else if a < j then 0 else memRead r a

/-- Writes a byte, keeping the list rising and without zeros. -/
def memWrite : List Host.Cell → Nat → Byte → List Host.Cell
  | [], a, b => if b = 0 then [] else [(a, b)]
  | (j, c) :: r, a, b =>
    if a < j then (if b = 0 then (j, c) :: r else (a, b) :: (j, c) :: r)
    else if a = j then (if b = 0 then r else (a, b) :: r)
    else (j, c) :: memWrite r a b

def memBytes (m : List Host.Cell) (a : Nat) : Nat → List Byte
  | 0 => []
  | n + 1 => memRead m a :: memBytes m (a + 1) n

def memWriteBytes (m : List Host.Cell) (a : Nat) : List Byte → List Host.Cell
  | [] => m
  | b :: bs => memWriteBytes (memWrite m a b) (a + 1) bs

/-- The canonical form of memory: addresses strictly rising and no entry equal to 0. -/
def Memory.wf : List Host.Cell → Bool
  | [] => true
  | [(_, b)] => b != 0
  | (j, b) :: (k, c) :: r => b != 0 && decide (j < k) && Memory.wf ((k, c) :: r)

/-- The location of a scratchpad byte. -/
def spadLoc (core off : Nat) : Nat := 2 ^ 40 + core * 2 ^ 18 + off

def State.bytesAt (s : State) (loc n : Nat) : List Byte := memBytes s.mem loc n
def State.wordAtLoc (s : State) (loc : Nat) : Word := ofN (natOfBytes (memBytes s.mem loc 8))
/-- A write of bytes. Whole lines lose their ECC mark (R23). -/
def State.putBytes (s : State) (loc : Nat) (bs : List Byte) : State :=
  { s with mem := memWriteBytes s.mem loc bs,
           badLines := if s.badLines.isEmpty then []
             else s.badLines.filter (fun l => !(decide (loc ≤ 64 * l) && decide (64 * l + 64 ≤ loc + bs.length))) }

/-- One of the lines carries an uncorrectable error (R23). -/
def State.badRange (s : State) (loc n : Nat) : Bool :=
  !s.badLines.isEmpty && s.badLines.any (fun l => decide (loc / 64 ≤ l) && decide (l ≤ (loc + n - 1) / 64))

/-! ## Update-only lines (R136, R137) -/

/-- One combination of AUPD (R356, R357): operation, TY code, operands of `w` bits. -/
def updCombine (op ty : Nat) (x y : Nat) : Nat :=
  let w := if ty = 3 ∨ ty = 7 then 64 else 32
  if ty = 10 then
    match op with
    | 0 => (fadd (BitVec.ofNat 32 x) (BitVec.ofNat 32 y)).toNat
    | 4 => (fmin (BitVec.ofNat 32 x) (BitVec.ofNat 32 y)).toNat
    | _ => (fmax (BitVec.ofNat 32 x) (BitVec.ofNat 32 y)).toNat
  else
    let sg := decide (ty < 4)
    match op with
    | 0 => (x + y) % 2 ^ w
    | 1 => x &&& y
    | 2 => x ||| y
    | 3 => x ^^^ y
    | 4 => if sg then (if signed x w ≤ signed y w then x else y) else min x y
    | _ => if sg then (if signed x w ≤ signed y w then y else x) else max x y

/-- The identity of an update operation (R136). -/
def updIdentity (op ty : Nat) : Nat :=
  let w := if ty = 3 ∨ ty = 7 then 64 else 32
  if ty = 10 then (match op with
    | 0 => 0x80000000
    | 4 => 0x7F800000
    | _ => 0xFF800000)
  else
    match op with
    | 1 => 2 ^ w - 1
    | 4 => if ty < 4 then 2 ^ (w - 1) - 1 else 2 ^ w - 1
    | 5 => if ty < 4 then 2 ^ (w - 1) else 0
    | _ => 0

/-- Combines a holder's partials into the stored line. -/
def State.combine (s : State) (u : ULine) : State :=
  let b := if u.ty = 3 ∨ u.ty = 7 then 8 else 4
  ((List.range u.parts.length).zip u.parts).foldl (fun x p =>
    let loc := u.line * 64 + p.1 * b
    x.putBytes loc (bytesOf (updCombine u.op u.ty (natOfBytes (x.bytesAt loc b)) p.2) b)) s

/-- The recall of R137: every holder of a line, in ascending core number. -/
def State.recall (s : State) (line : Nat) : State :=
  if s.uline.isEmpty then s
  else
    let hs := s.uline.filter (fun u => u.line == line)
    let sorted := hs.mergeSort (fun a b => decide (a.core ≤ b.core))
    { sorted.foldl State.combine s with uline := s.uline.filter (fun u => u.line != line) }

/-- The recall of every line that `n` bytes at `loc` touch. -/
def State.recallRange (s : State) (loc n : Nat) : State :=
  if s.uline.isEmpty then s
  else (List.range ((loc + n - 1) / 64 - loc / 64 + 1)).foldl (fun x j => x.recall (loc / 64 + j)) s

/-! ## Translation (R142 to R145) -/

/-- What an access does. -/
inductive Access where
  | read | write | fetch
  deriving DecidableEq, Repr

/-- EINFO of PERM (R270). -/
def Access.permInfo : Access → Word
  | .read => 0
  | .write => 1
  | .fetch => 2

/-- A fault of an access: its cause and EINFO. -/
structure AccFault where
  cause : Nat
  info : Word
  deriving DecidableEq, Repr

/-- Frame or next table of an entry. -/
def pteAddr (e : Word) : Nat := bits e 51 12 * 2 ^ 12

/-- An entry at `level` that ends a walk in XLATE (R143). -/
def pteBad (level : Nat) (e : Word) : Bool :=
  let v := bit e 0
  let leaf := bit e 1
  let travel := bit e 4
  let homec := bits e 62 52
  !v || bit e 63 || bits e 11 10 != 0 || bits e 51 39 != 0 || (leaf && level == 1) ||
    (homec != 0 && !travel) || decide (1920 ≤ homec) ||
    (bit e 6 && !(bit e 8 && leaf && level == 3)) || (bit e 9 && !(leaf && level == 4)) ||
    (!leaf && level == 4) || (leaf && level == 2 && bits e 29 12 != 0) || (leaf && level == 3 && bits e 20 12 != 0)

/-- A page found by a walk: the leaf entry, and the logarithm of the page's size. -/
structure Leaf where
  entry : Word
  logSize : Nat
  deriving DecidableEq, Repr

/-- The 16 entries of a CONT group, as read together, are consistent (R143). -/
def contGroup (es : List Word) : Bool :=
  match es with
  | [] => false
  | e0 :: _ =>
    bits e0 15 12 == 0 &&
      ((List.range 16).zip es).all (fun p =>
        bit p.2 0 && bit p.2 1 && bit p.2 9 && pteAddr p.2 == pteAddr e0 + p.1 * 4096 &&
          setBits p.2 51 12 0 == setBits e0 51 12 0)

/-- What a walker of cluster `cl` reads at a table entry (R137, R145): the word, after the recall of its update-only holders, or an older
value of it that no TFENCE has ordered before the walk; which, is free (R146). -/
def State.entryAt (s : State) (cl loc : Nat) : Word × State :=
  let s1 := s.recallRange loc 8
  match s1.stale.filter (fun x => x.loc == loc && !x.fenced.contains cl) with
  | [] => (s1.wordAtLoc loc, s1)
  | x :: r =>
    let vs := s1.wordAtLoc loc :: (x :: r).map (fun y => y.old)
    (vs.getD (Config.freeNat s1.free % vs.length) 0, { s1 with free := s1.free + 1 })

/-- The `n` entries from `loc` on, as a walker of cluster `cl` reads them. -/
def State.tableEntries (cl loc : Nat) : Nat → State → List Word × State
  | 0, s => ([], s)
  | n + 1, s =>
    let (e, s1) := s.entryAt cl loc
    let (es, s2) := State.tableEntries cl (loc + 8) n s1
    (e :: es, s2)

/-- An engine owns one of the lines (R135). -/
def State.ownedRange (s : State) (loc n : Nat) : Bool :=
  !s.owned.isEmpty && s.owned.any (fun p => decide (loc / 64 ≤ p.1) && decide (p.1 ≤ (loc + n - 1) / 64))

/-- An access waits for an engine that owns one of its lines (R135, R264): a thread's for every owner, an engine's read for the owners that
had issued when its own command did, and the read of an engine without a job record for every owner but itself. DEDUCED, log entry 76. -/
def State.ownerWait (s : State) (core k loc n : Nat) : Bool :=
  s.ownedRange loc n &&
    (decide (k < 8) ||
      (let mine : List (Nat × Word) := match (s.coreAt core).jobs.find? (fun j => j.id == ofN s.curJob) with
        | some j => s.owned.filter (fun p => j.after.contains p.2)
        | none => s.owned.filter (fun p => p.2 != ofN s.curJob)
       mine.any (fun p => decide (loc / 64 ≤ p.1) && decide (p.1 ≤ (loc + n - 1) / 64))))

/-- The cluster number of a walk that no cluster's walker makes: the device's own (R85, R127, R155). -/
def devWalker : Nat := 1000

/-- A walk must wait for an engine that owns a line of the table (R135, R264). -/
def State.walkWait (s : State) (cl loc n : Nat) : Bool :=
  if cl = devWalker then s.ownedRange loc n else s.ownerWait s.curCore s.curCtx loc n

/-- How a walk ends without a page: a fault, or at a line that an engine owns, for which it waits. -/
inductive WalkStop where
  | fault (f : AccFault)
  | busy
  deriving DecidableEq, Repr

/-- The walk from level `4 - n` on by a walker of cluster `cl`: `shift` is the lowest bit of that level's index (R142). It ends in XLATE
with the level, or in ECC at a line that carries an uncorrectable error (R23). -/
def walkFrom (cl va : Nat) : Nat → Nat → Nat → State → Except WalkStop Leaf × State
  | 0, _, _, s => (.error (.fault { cause := cXLATE, info := 4 }), s)
  | n + 1, table, shift, s =>
    let level := 4 - n
    let width := if level = 1 then 13 else 9
    let idx := va / 2 ^ shift % 2 ^ width
    if s.walkWait cl (table + 8 * idx) 8 then (.error .busy, s)
    else if s.badRange (table + 8 * idx) 8 then (.error (.fault { cause := cECC, info := 0 }), s)
    else
      let (e, s1) := s.entryAt cl (table + 8 * idx)
      if pteBad level e then (.error (.fault { cause := cXLATE, info := ofN level }), s1)
      else if bit e 1 then
        if level = 4 && bit e 9 then
          let first := table + 128 * (idx / 16)
          if s1.walkWait cl first 128 then (.error .busy, s1)
          else if s1.badRange first 128 then (.error (.fault { cause := cECC, info := 0 }), s1)
          else
            let (es, s2) := State.tableEntries cl first 16 s1
            (.ok { entry := e, logSize := if contGroup (es.set (idx % 16) e) then 16 else shift }, s2)
        else (.ok { entry := e, logSize := shift }, s1)
      else walkFrom cl va n (pteAddr e) (shift - 9) s1

/-- The walk of a partition's tables by the walker of a cluster (R142). -/
def State.walk (s : State) (cl part va : Nat) : Except WalkStop Leaf × State :=
  walkFrom cl va 4 (bits (s.part.get part).ptroot 51 16 * 2 ^ 16) 39 s

/-- The base frame of a page of size 2^logSize that holds the entry's frame. -/
def Leaf.frame (l : Leaf) : Nat := pteAddr l.entry / 2 ^ l.logSize * 2 ^ l.logSize

def Leaf.phys (l : Leaf) (va : Nat) : Nat := l.frame + va % 2 ^ l.logSize

/-- The hidden region at the top of device memory (R42). -/
def hidden (pa : Nat) : Bool := decide (2 ^ 39 - 2 ^ 26 ≤ pa)

/-- The sealed region that holds a physical address (R66). -/
def State.sealedAt (s : State) (pa : Nat) : Option Nat :=
  (List.range 8).find? (fun r =>
    decide ((s.sealed_.get r).base ≤ pa) && decide (pa < (s.sealed_.get r).base + (s.sealed_.get r).size))

/-- Whether a leaf allows an access (R143, R66). `sreg` is SREG of the running task. -/
def State.allows (s : State) (part sreg : Nat) (e : Word) (pa : Nat) (a : Access) : Bool :=
  !hidden pa &&
    (match s.sealedAt pa with
     | some r => bit e 7 && a == .read && sreg == r + 1 && (s.part.get part).sealMask.getLsbD r
     | none =>
       !(bit e 7) &&
         (match a with
          | .read => true
          | .write => bit e 2
          | .fetch => bit e 3))

/-- SREG of the work of a context. An engine acts as context 8 + SREG of the core that issued its job. -/
def State.sregAt (s : State) (core k : Nat) : Nat :=
  if 8 ≤ k then k - 8
  else
    match s.taskOf core k with
    | some (_, t) => t.sreg
    | none => 0

/-- The TLB entry that covers a page address. -/
def tlbFind (es : List TlbEntry) (va : Nat) : Option TlbEntry :=
  es.find? (fun t => decide (t.vbase ≤ va) && decide (va < t.vbase + 2 ^ t.logSize))

/-- Insert into a first-level TLB of 96 entries, the least recently used leaving (R144). -/
def tlbInsert (es : List TlbEntry) (t : TlbEntry) : List TlbEntry :=
  let rest := es.filter (fun x => !(x.vbase == t.vbase && x.logSize == t.logSize))
  if rest.length < 96 then t :: rest
  else
    let oldest := rest.foldl (fun m x => min m x.use) (rest.headD t).use
    t :: rest.filter (fun x => x.use != oldest)

/-- Set of a second-level entry (R144): virtual address bits [log2 S + 7 : log2 S]. -/
def tlb2Set (t : TlbEntry) : Nat := t.vbase / 2 ^ t.logSize % 256

/-- Insert into a second-level TLB, 8 ways in 256 sets; which way leaves is not stated, and a free value picks it (DESIGN
CHOICE, log entry 15). -/
def tlb2Insert (pick : Nat) (es : List TlbEntry) (t : TlbEntry) : List TlbEntry :=
  let rest := es.filter (fun x => !(x.vbase == t.vbase && x.logSize == t.logSize))
  let same := rest.filter (fun x => tlb2Set x == tlb2Set t)
  if same.length < 8 then t :: rest
  else
    match same[pick % 8]? with
    | some v => t :: rest.filter (fun x => x != v)
    | none => t :: rest

/-- A page under a hold (R149). -/
def State.holdOn (s : State) (part va : Nat) : Option Hold :=
  s.holds.find? (fun h => h.part == part && decide (h.vbase ≤ va) && decide (va < h.vbase + 2 ^ h.logSize))

/-- A page under a hold that the running context itself has set (R149). -/
def State.ownHold (s : State) (h : Hold) : Bool := h.core == s.curCore && h.ctx == s.curCtx && h.serial == s.me.serial

/-- A miss of both TLBs is walked (R145): it merges with a walk of its page that waits at the cluster's walker; with 32 walks in flight
there it joins their queue, and with 64 queued its context stalls; a walk of a held page waits (R149). -/
def missFor (core part va : Nat) : Act (Except AccFault Leaf) := fun s =>
  let cl := clusterOf core
  let q := (s.clusterAt cl).walkq
  let w := (part, va / 4096)
  if q.contains w then .error .stall
  else if 96 ≤ q.length then .error .stall
  else if (s.holdOn part va).isSome || decide (32 ≤ q.length) then
    .error (.wait (s.modCluster cl (fun c => { c with walkq := c.walkq ++ [w] })))
  else
    match s.walk cl part va with
    | (.error .busy, _) => .error .stall
    | (.error (.fault f), s1) => .ok (.error f, s1)
    | (.ok l, s0) =>
      let use := (s.coreAt core).tlbUse + 1
      let t : TlbEntry :=
        { vbase := va / 2 ^ l.logSize * 2 ^ l.logSize, logSize := l.logSize, leaf := setBits l.entry 51 12 (l.frame / 4096), use := use }
      let full := (((s.clusterAt cl).tlb2.filter (fun x => tlb2Set x == tlb2Set t)).length == 8)
      let s1 := if full then { s0 with free := s0.free + 1 } else s0
      .ok (.ok { l with entry := t.leaf },
        (s1.modCore core (fun c => { c with tlbUse := use, tlb := tlbInsert c.tlb t })).modCluster cl
          (fun c => { c with tlb2 := tlb2Insert (Config.freeNat s0.free) c.tlb2 t }))

/-- The leaf for an address: a page that the running context holds traps XLATE (R149); else through the core's and the cluster's TLB, or
by a walk that fills both (R144, R145). -/
def leafFor (core part va : Nat) : Act (Except AccFault Leaf) := fun s =>
  let cl := clusterOf core
  let use := (s.coreAt core).tlbUse + 1
  let hit (t : TlbEntry) : Except Stop (Except AccFault Leaf × State) :=
    .ok (.ok { entry := t.leaf, logSize := t.logSize },
      s.modCore core (fun c => { c with tlbUse := use, tlb := tlbInsert c.tlb { t with use := use } }))
  match (s.holdOn part va).filter s.ownHold with
  | some h => .ok (.error { cause := cXLATE, info := ofN (if h.logSize = 30 then 2 else if h.logSize = 21 then 3 else 4) }, s)
  | none =>
    match tlbFind (s.coreAt core).tlb va with
    | some t => hit t
    | none =>
      match tlbFind (s.clusterAt cl).tlb2 va with
      | some t => hit t
      | none => missFor core part va s

/-- Where an access goes. -/
inductive Target where
  | mem (loc : Nat) (leaf : Word)
  | far (dev : Nat)
  | reg (off : Nat)
  deriving DecidableEq, Repr

/-- Translation of a partition virtual address for an access (R142, R143). The management core has no tables: its addresses
are physical (DESIGN CHOICE, log entry 12). -/
def translate (core part sreg va : Nat) (a : Access) : Act (Except AccFault Target) := do
  if core = mgmtCore then
    let s ← get
    if 2 ^ 39 ≤ va then return .error { cause := cXLATE, info := 0 }
    else if hidden va || (s.sealedAt va).isSome then return .error { cause := cPERM, info := a.permInfo }
    else return .ok (.mem va 0x2F)
  else
    match ← leafFor core part va with
    | .error f => return .error f
    | .ok l =>
      let s ← get
      if s.allows part sreg l.entry (l.phys va) a then return .ok (.mem (l.phys va) l.entry)
      else return .error { cause := cPERM, info := a.permInfo }

/-- Where a pointer leads for an access by `core` of partition `part`, with the checks of R129 and R121. -/
def resolveAt (core part sreg : Nat) (p : Word) (a : Access) : Act (Except AccFault Target) := do
  let s ← get
  let bad : Except AccFault Target := .error { cause := cXLATE, info := 0 }
  match bits p 53 52 with
  | 0 => translate core part sreg (bits p 51 0) a
  | 1 =>
    let d := bits p 51 40
    let c := bits p 39 28
    let off := bits p 27 0
    if s.devices ≤ d then return bad
    else if d ≠ s.dev then return .ok (.far d)
    else if 1920 ≤ c ∨ 2 ^ 18 ≤ off then return bad
    else if c = core then return .ok (.mem (spadLoc c off) 0)
    else if s.partOfCore c ≠ some part then return .error { cause := cPERM, info := a.permInfo }
    else return .ok (.mem (spadLoc c off) 0)
  | 2 =>
    let d := bits p 51 40
    if s.devices ≤ d then return bad
    else if d ≠ s.dev then return .ok (.far d)
    else translate core part sreg (bits p 39 0) a
  | _ =>
    match bits p 51 48 with
    | 0 => if bits p 47 18 ≠ 0 then return bad else return .ok (.mem (spadLoc core (bits p 17 0)) 0)
    | 1 =>
      if bits p 47 21 ≠ 0 ∨ (core = mgmtCore ∧ bits p 20 18 ≠ 0) then return bad
      else
        return .ok (.mem (spadLoc (clusterOf core * 8 + bits p 20 18) (bits p 17 0)) 0)
    | 2 => return .ok (.reg (bits p 47 0))
    | _ => return bad

/-! ## Traps (R270 to R274) -/

/-- A precise trap of the running instruction: EPC names it. -/
def trapNow {α : Type} (cause : Nat) (addr info : Word) : Act α := fun s =>
  .error (.trap { cause := cause, epc := s.me.pc, eaddr := addr, einfo := info, pois := false, eng := false, job := 0 } none)

/-- ILL from an instruction's own operands (R324): EINFO as the instruction states. -/
def ill {α : Type} (info : Nat) : Act α := trapNow cILL 0 (ofN info)

/-- ILL with a reason of R324. -/
def illReason {α : Type} (op reason : Nat) : Act α := trapNow cILL 0 (BadCode.einfo { op := op, reason := reason })

/-- Causes that Table 1 of R270 gives to TVEC. -/
def tvecCause (c : Nat) : Bool := [11, 12, 13, 14, 17, 18].contains c

/-- The handle of a parked context (R274). -/
def parkHandle (core k count : Nat) : Word := ofN (core + k * 2 ^ 11 + count % 2 ^ 32 * 2 ^ 16)

/-- ECAUSE of a trap (R272). -/
def ecauseOf (t : Trap) (handler intv : Bool) : Word :=
  ofN (t.cause % 256 + t.eng.toNat * 2 ^ 8 + handler.toNat * 2 ^ 10 + t.pois.toNat * 2 ^ 11 + intv.toNat * 2 ^ 12)

/-- The context is in its TVEC handler (R272). -/
def Ctx.intv (c : Ctx) : Bool := bit c.trap.ecause 12

/-- A user-level interrupt comes before the context's next instruction; it waits while UIE = 0 and in a TVEC handler (R191, R273). -/
def Ctx.interrupted (c : Ctx) : Bool := c.uie && !c.intv && !c.waitIntr.isEmpty

/-- The context takes that interrupt now; a SLEEP does not keep it (R331). -/
def Ctx.takesIntr (c : Ctx) : Bool := c.interrupted && c.phase == .running && c.heldTrap.isNone

/-- A queue whose entry `u` has been aborted: it stands at the head, and is held until the supervisor acts (R117). -/
def abortMsg (q : List MsgEntry) (u : Nat) : List MsgEntry :=
  match q.find? (fun e => e.uid == u) with
  | some e => { e with state := 2, deferred := false } :: q.filter (fun x => x.uid != u)
  | none => q

def abortArr (q : List ArrEntry) (u : Nat) : List ArrEntry :=
  match q.find? (fun e => e.uid == u) with
  | some e => { e with state := 2 } :: q.filter (fun x => x.uid != u)
  | none => q

/-- An aborted handler's entry returns to the head, not started, and held until the supervisor acts (R117, R118). -/
def State.abortEntry (s : State) (core : Nat) (w : Work) : State :=
  match w with
  | .message u => s.modCore core (fun c => { c with lowq := abortMsg c.lowq u, highq := abortMsg c.highq u })
  | .arrival u => s.modCore core (fun c => { c with arrq := abortArr c.arrq u })
  | _ => s

/-- Sends a trap record to the partition's supervisor core as a high-priority message (R274). -/
def State.sendRecord (s : State) (part score : Nat) (words : List Word) : State :=
  s.push (.trapDeliverSupervisor { part := part, words := words, score := score, backoff := 64 })

/-- The shot clock of a context's task stops while it is parked (R103). -/
def State.stopClock (s : State) (core k : Nat) : State :=
  match (s.ctxAt core k).work with
  | .task id => s.modTask id (fun t => { t with clockEnd := none })
  | _ => s.modCtx core k (fun c => { c with shotEnd := none })

/-- Delivery of a trap to a context whose pending registers have all arrived: a TVEC-level cause with TVEC set, in a task
context outside its TVEC handler, enters the handler; every other trap parks the context and sends its record (R273, R274). A
handler context is aborted (R117). -/
def State.deliverTrap (s : State) (core k : Nat) (t : Trap) : State :=
  let c := s.ctxAt core k
  let handler := decide (4 ≤ k)
  let level := tvecCause t.cause || t.eng
  if level && c.trap.tvec != 0 && !handler && !c.intv then
    s.modCtx core k (fun x =>
      { x with pc := x.trap.tvec, sleep := none, xread := none,
               trap := { x.trap with epc := t.epc, ecause := ecauseOf t false true, eaddr := t.eaddr, einfo := t.einfo,
                                     ejob := t.job } })
  else
    let count := (c.parkCount + 1) % 2 ^ 32
    let ec := ecauseOf t handler c.intv
    let msgid : Word := if handler then c.msgr.id else 0
    let s1 := if handler then s.abortEntry core c.work else s
    let s2 := (s1.stopClock core k).modCtx core k (fun x =>
      { x with phase := .parked, parkCount := count, sleep := none, xread := none, pc := t.epc,
               blocked := x.blocked.filter (fun r => r.kind != .withdraw),
               sendBuf := if handler then [] else x.sendBuf, deferred := false,
               trap := { x.trap with epc := t.epc, ecause := ec, eaddr := t.eaddr, einfo := t.einfo, ejob := t.job } })
    s2.sendRecord ((s.partOfCore core).getD 0) core
      [ec, t.epc, t.eaddr, t.einfo, t.job, parkHandle core k count, c.ident.taskId, msgid]

/-- TAKING A TRAP, for every instruction and event: a trap of a speculative task is held until the task is irrevocable
(R97); a trap waits for the context's pending registers (R119); otherwise it is delivered at once. -/
def State.takeTrap (s : State) (core k : Nat) (t : Trap) : State :=
  if s.specAt core k || (s.ctxAt core k).pend != 0 then
    s.modCtx core k (fun x => { x with heldTrap := some t, sleep := none })
  else s.deliverTrap core k t

/-- RETURNING FROM A TRAP (R273, R441): PC := EPC, and INTV is cleared. -/
def State.returnTrap (s : State) (core k : Nat) : State :=
  s.modCtx core k (fun x =>
    { x with pc := x.trap.epc, trap := { x.trap with ecause := setBits x.trap.ecause 12 12 0 } })

/-! ## Charges (R83) -/

/-- Core-ac per ac of a task. -/
def Task.rate (t : Task) : Nat := if t.gang then 8 * t.clusters.length else 1

/-- Every running task is charged up to now. -/
def State.charge (s : State) : State :=
  { s with
    launch := s.tasks.foldl (fun l p =>
      l.modify p.2.origq (fun q => { q with left := q.left - (p.2.rate * (s.time - p.2.start) : Nat) })) s.launch,
    tasks := s.tasks.map (fun p => (p.1, { p.2 with start := s.time })) }

/-! ## Ordered tasks: conflicts and rollback (R98 to R100) -/

/-- The order of keys (R95). -/
def keyLt (a b : OrdTask) : Bool :=
  decide (a.ts.toNat < b.ts.toNat) ||
    (a.ts == b.ts && (decide (a.spCore < b.spCore) || (a.spCore == b.spCore && decide (a.spCount < b.spCount))))

/-- The window of a context is freed (R108). -/
def State.freeWindow (s : State) (core k : Nat) : State :=
  let w := (s.ctxAt core k).vwin
  if w = 0 then s
  else s.modCore core (fun c => { c with win := c.win.modify (w - 1) (fun x => { x with used := false }) })

/-- The words of other devices that an owner has asked for are dropped, with the long-latency slot that a context holds for them (R371), and
the mark of an error that its access was to meet (R23). -/
def State.farDrop (s : State) (owner : Nat) : State :=
  let s1 : State := if s.meets.contains owner then { s with meets := s.meets.filter (fun a => a != owner) } else s
  if s1.far.any (fun f => f.owner == owner) then
    let s2 : State := { s1 with far := s1.far.filter (fun f => f.owner != owner) }
    if owner < 2 ^ 48 then s2.modCore (owner / 8) (fun c => { c with slots := c.slots - 1 }) else s2
  else s1

/-- Reports of faulted stores that wait for a context are dropped with its work. -/
def State.dropFaults (s : State) (core k : Nat) : State :=
  let mine (e : Event) : Bool := match e with
    | .remoteFaultDeliver c j _ => c == core && j == k
    | _ => false
  if s.agenda.any mine then { s with agenda := s.agenda.filter (fun e => !mine e) } else s

/-- The port routes of a context's streams are closed with its work (R387). -/
def State.closePorts (s : State) (core k : Nat) : State :=
  let n := ((s.ctxAt core k).streams.filter (fun t => match t.2.src with
    | .port _ => true
    | _ => false)).length
  if n = 0 then s else s.modCore core (fun c => { c with ports := c.ports - n })

/-- A context becomes idle; its park count stands, and so do the values of its general registers, which no rule clears before work starts
on it again (R77, R114). -/
def State.freeCtx (s : State) (core k : Nat) : State :=
  ((((s.freeWindow core k).closePorts core k).farDrop (8 * core + k)).dropFaults core k).modCtx core k
    (fun c => { Ctx.idle with g := c.g, parkCount := c.parkCount, lastIssue := c.lastIssue })

/-- Rollback of an ordered task (R100); its run so far is charged (R83). -/
def State.rollback (s : State) (cl : Nat) (o : OrdTask) : State :=
  let s1 := o.log.foldl (fun x p => x.putBytes p.1 (bytesOf p.2.toNat 8)) s.charge
  let ctxs := s1.tasks.filter (fun p => p.2.ordered == some (cl, o.uid))
  let s2 := ctxs.foldl (fun x p => p.2.threads.foldl (fun y q => y.freeCtx q.1 q.2) x) s1
  let s3 := { s2 with tasks := s2.tasks.filter (fun p => p.2.ordered != some (cl, o.uid)) }
  s3.modOrd cl o.uid (fun x =>
    { x with state := .queued, irrevocable := false, aborted := false, slot := none, log := [], reads := [], writes := [],
             held := [], sends := [] })

/-- The ordered tasks that are neither queued nor irrevocable, with their clusters. -/
def State.liveOrd (s : State) : List (Nat × OrdTask) :=
  s.cluster.cells.flatMap (fun c =>
    ((s.clusterAt c.1).ord.filter (fun o => o.state != .queued && !o.irrevocable)).map (fun o => (c.1, o)))

/-- What R99 covers for a task on `core`: device memory, and the core's own scratchpad outside the log area of R98. -/
def covered (core loc : Nat) : Bool :=
  decide (loc < 2 ^ 39) || (decide (spadLoc core 0 ≤ loc) && decide (loc < spadLoc core 0x3C000))

/-- The log area of R98 is in use by the partition's ordered tasks. -/
def State.logInUse (s : State) (part : Nat) : Bool := (s.clustersOf part).any (fun cl => !(s.clusterAt cl).ord.isEmpty)

/-- `n` bytes at a location touch a log area in use, whose contents are undefined to software (R98). -/
def State.inLog (s : State) (loc n : Nat) : Bool :=
  decide (2 ^ 40 ≤ loc) && decide (0x3C000 < (loc - 2 ^ 40) % 2 ^ 18 + n) &&
    (match s.partOfCore ((loc - 2 ^ 40) / 2 ^ 18) with
     | some p => s.logInUse p
     | none => false)

/-- `n` free bytes. -/
def State.freeBytes (s : State) (n : Nat) : List Byte × State :=
  (((List.range ((n + 7) / 8)).flatMap (fun j => bytesOf (Config.freeWord (s.free + j)).toNat 8)).take n,
   { s with free := s.free + (n + 7) / 8 })

/-- The log entries of a task from entry `first` on are written, each of 16 bytes; what they hold is undefined to software, and so is free
here (R98). -/
def State.writeLog (s : State) (core slot first n : Nat) : State :=
  let (bs, s1) := s.freeBytes (16 * n)
  s1.putBytes (spadLoc core (0x3C000 + 2048 * slot + 16 * first)) bs

/-- An access of `n` bytes at `loc` by a context: conflicts with speculative tasks are resolved by rolling back the later
task (R99), and a speculative task's own lines and old words are recorded (R97, R98). A task without a log slot, or whose slot
is full, waits until it is irrevocable. -/
def specAccess (core k loc n : Nat) (write : Bool) : Act Unit := fun s =>
  let lines := (List.range ((loc + n - 1) / 64 - loc / 64 + 1)).map (fun j => loc / 64 + j)
  let live := s.liveOrd
  if live.isEmpty then .ok ((), s)
  else
    let own := s.ordOf core k
    let clash := live.filter (fun p =>
      (match own with
       | some (_, o) => p.2.uid != o.uid
       | none => true) &&
        lines.any (fun l => p.2.writes.contains l || (write && p.2.reads.contains l)))
    let earlier := clash.any (fun p =>
      match own with
      | some (_, o) => !o.irrevocable && keyLt p.2 o
      | none => false)
    if earlier then .error .rollback
    else
      let s1 := clash.foldl (fun x p => x.rollback p.1 p.2) s
      match own with
      | none => .ok ((), s1)
      | some (cl, o) =>
        if o.irrevocable || !covered core loc then .ok ((), s1)
        else if !write then
          .ok ((), s1.modOrd cl o.uid (fun x => { x with reads := lines.filter (fun l => !x.reads.contains l) ++ x.reads }))
        else
          let words := (List.range ((loc + n - 1) / 8 - loc / 8 + 1)).map (fun j => (loc / 8 + j) * 8)
          let fresh := words.filter (fun w => !(o.log.any (fun p => p.1 == w)))
          match o.slot with
          | none => .error .stall
          | some slot =>
            if 128 < o.log.length + fresh.length then .error .stall
            else
              .ok ((), (s1.writeLog core slot o.log.length fresh.length).modOrd cl o.uid (fun x =>
                { x with log := (fresh.map (fun w => (w, s1.wordAtLoc w))).reverse ++ x.log,
                         writes := lines.filter (fun l => !x.writes.contains l) ++ x.writes }))

/-- The node of a core's cluster on its die (R14): the local index of the enabled node with the cluster's number. -/
def State.nodeOf (s : State) (core : Nat) : Nat :=
  let die := clusterOf core / 60
  let n := clusterOf core % 60
  let en := (List.range 64).filter (fun k => bit (s.fuse.get die) k)
  (en[n]?).getD 0

/-! ## Islands (R13, R15, R16, R21, R73) -/

/-- The mesh quadrant of a core's cluster on its die (R13). -/
def State.quadrantOf (s : State) (core : Nat) : Nat :=
  let n := s.nodeOf core
  2 * (n / 8 / 4) + n % 8 / 4

/-- The core-quadrant island of a cluster (R15). -/
def State.islandOf (s : State) (cl : Nat) : Nat := 8 * (cl / 60) + s.quadrantOf (8 * cl)

/-- The island of a core; the management core's is the fabric-and-host island of D3 (R15). -/
def State.coreIsland (s : State) (core : Nat) : Nat := if core = mgmtCore then 31 else s.islandOf (clusterOf core)

/-- A grade-2 alarm whose action has been taken holds the core-quadrant islands of a die at OP 1 or below (R73). -/
def State.held2 (s : State) (die : Nat) : Bool := s.sec.acted.any (fun a => a.2 == die &&
  (a.1 == .tempAbove115 || a.1 == .integrity))

/-- The slower of the requested point, the thermal limit, and a grade-2 hold (R16, R21, R73). -/
def State.pointOf (s : State) (i : Nat) : Nat :=
  let x := s.island.get i
  let p := min x.req x.limit
  if i % 8 < 4 && s.held2 (i / 8) then min p 1 else p

/-- The point at which an island runs: during a change of point the slower of the old and the new (R16). -/
def State.runPoint (s : State) (i : Nat) : Nat :=
  if (s.island.get i).changing then min (s.island.get i).eff (s.pointOf i) else (s.island.get i).eff

/-- Quarters of an ac that an island's clock counts in one nominal ac at an operating point (R8, R16, Table 4). -/
def opRate (p : Nat) : Nat := if p = 0 then 0 else p + 1

/-- `dt` nominal ac pass: every island counts its own. -/
def State.elapse (s : State) (dt : Nat) : State :=
  { s with time := s.time + dt,
           island := (List.range 32).foldl (fun t i => t.modify i (fun x =>
             { x with cycles := x.cycles + dt * opRate (s.runPoint i) })) s.island }

/-- The local count of ac of a core: its island's (R8, R103, R110). -/
def State.coreAc (s : State) (core : Nat) : Nat := (s.island.get (s.coreIsland core)).cycles / 4

/-! ## Accesses -/

/-- The page of a location follows the migrating policy: no leaf of it that the core holds has FIXH or PCONT (R131). -/
def State.migrating (s : State) (core loc : Nat) : Bool :=
  !((s.coreAt core).tlb.any (fun t => (bit t.leaf 5 || bit t.leaf 8) && pteAddr t.leaf / 2 ^ t.logSize == loc / 2 ^ t.logSize))

/-- A core's access to a line of device memory of its own die is a request that counts at the line's home (R131). -/
def State.homeCounts (s : State) (core k loc : Nat) : Bool :=
  decide (loc < 2 ^ 39) && decide (k < 8) && clusterOf core / 60 == loc / 2 ^ 37 && s.migrating core loc

/-- Accesses of a context whose targets have yet to answer. -/
def State.outOf (s : State) (core k : Nat) : List Outstanding :=
  s.fab.out.filter (fun o => o.dest.core == core && o.dest.ctx == k)

/-- A store of a thread to device memory: a walk may still read the old words, until a TFENCE (R146). -/
def State.noteTable (s : State) (core k loc n : Nat) : State :=
  if k < 8 ∧ loc < 2 ^ 39 then
    { s with stale := (List.range ((loc + n - 1) / 8 - loc / 8 + 1)).map (fun j =>
        { loc := (loc / 8 + j) * 8, old := s.wordAtLoc ((loc / 8 + j) * 8), core := core, serial := (s.ctxAt core k).serial, fenced := [] })
        ++ s.stale }
  else s

/-! ### The words of an access, and accesses that a context has not performed yet (R97, R254, R255) -/

/-- The location is another core's scratchpad. -/
def State.peerLoc (s : State) (loc : Nat) : Bool := decide (2 ^ 40 ≤ loc) && (loc - 2 ^ 40) / 2 ^ 18 != s.curCore

/-- The space-01 pointer to the scratchpad byte at a location. -/
def State.peerPtr (s : State) (loc : Nat) : Word :=
  ofN (2 ^ 52 + s.dev * 2 ^ 40 + (loc - 2 ^ 40) / 2 ^ 18 * 2 ^ 28 + (loc - 2 ^ 40) % 2 ^ 18)

/-- The line of an address. -/
def linePtr (p : Word) : Word := setBits p 5 0 0

/-- The 8-byte words of `n` bytes at a pointer, as bits [53:3]. -/
def wordsOf (p : Word) (n : Nat) : List Nat := (List.range ((bits p 2 0 + n + 7) / 8)).map (fun j => bits p 53 3 + j)

/-- The 8-byte words of a remote access. -/
def accessWords (r : RemoteAccess) : List Nat :=
  match r.op with
  | .pieces ps => ps.flatMap (fun p => wordsOf p.ptr p.bytes.length)
  | _ => [bits r.ptr 53 3]

/-- A pointer to a scratchpad of the core's own cluster as one in space 01; any other as it is. -/
def State.plainPtr (s : State) (core : Nat) (p : Word) : Word :=
  if bits p 53 52 = 3 ∧ bits p 51 48 = 1 then s.peerPtr (spadLoc (clusterOf core * 8 + bits p 20 18) (bits p 17 0)) else p

/-- A held item is an access of the thread: a store, CZERO, an atomic or AUPD (R352). -/
def Held.access (h : Held) : Bool :=
  match rawOf h.instr with
  | some r => [0x51, 0x58, 0x60].contains r.op
  | none => false

/-- A held item is an acquire: an atomic .acq, .ar or .sc, or a store .sc (R255, Table 2). -/
def Held.acquire (h : Held) : Bool :=
  match rawOf h.instr with
  | some r => (r.op == 0x60 && [1, 3, 4].contains r.ord) || (r.op == 0x51 && r.ord == 4)
  | none => false

/-- A held item reads memory: an atomic. -/
def Held.reads (h : Held) : Bool :=
  match rawOf h.instr with
  | some r => r.op == 0x60
  | none => false

/-- The 8-byte words that a held access touches. -/
def State.heldWords (s : State) (h : Held) : List Nat :=
  let g := h.snapshot.g
  if !h.snapshot.wout.isEmpty then
    h.snapshot.wout.flatMap (fun p => wordsOf (s.plainPtr h.core p.ptr) p.bytes.length)
  else
    match rawOf h.instr with
    | some r =>
      if r.op = 0x60 then wordsOf (s.plainPtr h.core (g.get r.sa + (BitVec.ofNat 16 r.imm).signExtend 64)) 8
      else if r.op = 0x51 ∨ r.op = 0x58 then
        let p := s.plainPtr h.core
          (g.get r.sa + (BitVec.ofNat 32 r.imm).signExtend 64 + (if r.ix then g.get r.sb <<< r.scl else 0))
        if r.op = 0x58 then wordsOf (linePtr p) 64 else wordsOf p 8
      else []
    | none => []

/-- The items that the ordered task of a context holds back. -/
def State.heldOf (s : State) (core k : Nat) : List Held :=
  match s.ordOf core k with
  | some (_, o) => o.held
  | none => []

/-- The context's ordered task is irrevocable and has held items still to release (R97). -/
def State.heldBack (s : State) (core k : Nat) : Bool :=
  match s.ordOf core k with
  | some (_, o) => o.irrevocable && !o.held.isEmpty
  | none => false

/-- An earlier acquire of the context is still out, or held back (R97, R255). -/
def State.acquireOut (s : State) (core k : Nat) : Bool :=
  (s.outOf core k).any (fun o => o.acq) || (s.heldOf core k).any Held.acquire

/-- An earlier access of the context to one of the words of a peer scratchpad's location is still out, or held back (R254). -/
def State.peerOut (s : State) (core k loc n : Nat) : Bool :=
  s.peerLoc loc &&
    (let ws := wordsOf (s.peerPtr loc) n
     (s.outOf core k).any (fun o => o.dev == s.dev && o.words.any ws.contains) ||
      (s.heldOf core k).any (fun h => h.access && (s.heldWords h).any ws.contains))

/-- What a thread access of `n` bytes at a local location does before it acts: it waits for an earlier acquire and for an earlier access to
the same peer scratchpad (R254, R255), and for an owning engine (R135, R264), recalls update-only holders (R137), resolves conflicts (R99),
and reaches the line's home (R131). An engine does not count at the home, and its writes wait for no owner. -/
def enterLine (core k loc n : Nat) (write : Bool) : Act Unit := do
  let s ← get
  if s.acquireOut core k || s.peerOut core k loc n then stall
  if (k < 8 || !write) && s.ownerWait core k loc n then stall
  modify (fun x => x.recallRange loc n)
  specAccess core k loc n write
  modify (fun x => if x.homeCounts core k loc then x.push (.homeRequest (loc / 64) (x.nodeOf core)) else x)

/-- Reads `n` bytes for a context. A log area in use reads as free bytes (R98). -/
def readLoc (core k loc n : Nat) (p : Word) : Act (List Byte) := do
  enterLine core k loc n false
  let s ← get
  if s.badRange loc n then trapNow cECC p 0
  if s.inLog loc n then
    let (bs, s1) := s.freeBytes n
    set s1
    return bs
  else return s.bytesAt loc n

/-- Writes bytes for a context. -/
def writeLoc (core k loc : Nat) (bs : List Byte) : Act Unit := do
  enterLine core k loc bs.length true
  modify (fun s => (s.noteTable core k loc bs.length).putBytes loc bs)

/-- An earlier acquire of the context that is still out is ordered before this access, which waits (R255). -/
def acquireWait : Act Unit := do
  let s ← get
  if s.acquireOut s.curCore s.curCtx then stall

/-- An instruction that waits on held accesses of its own ordered task stalls until the task is irrevocable and has released them (R97). -/
def heldWait : Act Unit := do
  let s ← get
  if (s.heldOf s.curCore s.curCtx).any Held.access then stall

/-- A release, and an .sc access, waits for every earlier access of the context, held ones among them (R255, R97). -/
def releaseWait (ord : Nat) : Act Unit := do
  let s ← get
  if 2 ≤ ord && !(s.outOf s.curCore s.curCtx).isEmpty then stall
  if 2 ≤ ord then heldWait

/-- Who asks for words of another device, and whose access meets an error: a context, or a job (FarWord). -/
def State.farOwner (s : State) : Nat := if s.curCtx < 8 then 8 * s.curCore + s.curCtx else 2 ^ 48 + s.curJob

/-- The target of a pointer for the running context; a fault traps with the pointer in EADDR (R129, R348), and an access that meets an
uncorrectable error in an SRAM array traps ECC (R23). -/
def resolve (p : Word) (a : Access) : Act Target := do
  acquireWait
  let s ← get
  if s.meets.contains s.farOwner then trapNow cECC p 0
  match ← resolveAt s.curCore s.curPart (s.sregAt s.curCore s.curCtx) p a with
  | .ok t => return t
  | .error f => trapNow f.cause p f.info

/-! ## The fabric's send side (R30, R38) -/

/-- Number of a stream. -/
def streamNo (dev vc : Nat) : Nat := 8 * dev + vc

/-- Elements of `n` elements of a reduction operation, in bytes (R48, R405). -/
def redBytes (op n : Nat) : Nat := if op < 3 then 4 * n else if op = 7 then 72 * n else 8 * n

/-- The valid payload bytes of the flits that carry a body: each 64 but the last (R27, R46, R111, R123). A body of no stated
length fills one flit. DEDUCED, log entry 8. -/
def bodyLens (b : FlitBody) : List Nat :=
  let cut (n : Nat) : List Nat := List.replicate ((n - 1) / 64) 64 ++ [n - (n - 1) / 64 * 64]
  match b with
  | .msg _ m => if m.payload.isEmpty then [24] else [24, m.payload.length]
  | .migrImage m => cut m.image.length
  | .red m => cut (if m.status = 0 then redBytes m.op m.n else 0)
  | .redResult m => cut (if m.status = 0 then redBytes m.op m.n else 0)
  | .mcast c => cut c.bytes.length
  | .mcastStatus _ _ _ => [8]
  | .delivery d =>
    match d.source with
    | .bytes bs => cut (32 + bs.length)
    | _ => [32]
  | .pad => [0]
  | _ => [64]

/-- One flit joins its stream: it takes the next SEQ and is held in the backstop (R30, R38), with its tag (R36). EPOCH rises when SEQ wraps.
In mode AEAD the tag needs the whole group, so the group is sealed when its fourth flit joins. Where the flits of one group belong to
partitions of different modes or keys, which R36 does not settle, the AEAD ones are sealed, under the key of the fourth flit's partition, and
opened under that of the flit at B (DESIGN CHOICE, log entry 75). -/
def TxStream.put (s : State) (st : TxStream) (f : Flit) : TxStream :=
  let g : Flit := { f with seq := st.next, grp := st.next.toNat % 4 }
  let aead := s.flitMode g == 2
  let held := st.held ++ [(if aead then g else { g with tag := s.tagFor g }, 0)]
  let mine (e : Flit × Nat) : Bool := e.1.seq.toNat / 4 == st.next.toNat / 4 && s.flitMode e.1 == 2
  let sealed := sealGroup (s.linkKey f.part) st.epoch ((held.filter mine).map (fun e => e.1))
  { st with next := st.next + 1, epoch := if st.next = BitVec.allOnes 32 then st.epoch + 1 else st.epoch, last := s.time,
            held := if st.next.toNat % 4 = 3 && held.any mine then
                held.map (fun e => if mine e then ((sealed.find? (fun x => x.seq == e.1.seq)).getD e.1, e.2) else e)
              else held }

/-- The flits of a message, in order: FIRST on the first, LAST on the last, which carries the body. -/
def flitsOf (f : Flit) : Bool → List Nat → List Flit
  | _, [] => []
  | first, [n] => [{ f with len := n, first := first, last := true }]
  | first, n :: m :: r => { f with len := n, first := first, last := false, body := .pad } :: flitsOf f false (m :: r)

/-- The flits of a message with their payloads. -/
def flitsWith (f : Flit) (lens : List Nat) : List Flit :=
  ((List.range lens.length).zip (flitsOf f true lens)).map (fun p => { p.2 with payload := payloadOf f.body p.1 })

/-- Hands a message to the fabric interface (R30, R38). -/
def State.fabSend (s : State) (dst vc type part : Nat) (xid aux : Nat) (body : FlitBody) : State :=
  let f : Flit :=
    { dst := dst, src := s.dev, age := 0, seq := 0, vc := vc, type := type, part := part, grp := 0, len := 0, first := true,
      last := true, xid := xid, aux := aux, body := body }
  { s with fab := { s.fab with tx := s.fab.tx.modify (streamNo dst vc) (fun st =>
      (flitsWith f (bodyLens body)).foldl (TxStream.put s) st) } }

/-- A long-latency slot is taken (R119). -/
def takeSlot (core : Nat) : Act Unit := do
  let s ← get
  if 64 ≤ (s.coreAt core).slots then stall
  modify (fun x => x.modCore core (fun c => { c with slots := c.slots + 1 }))

/-- A register becomes pending (R119). -/
def State.setPend (s : State) (d : RegDest) : State :=
  s.modCtx d.core d.ctx (fun c => { c with pend := c.pend ||| BitVec.ofNat 16 (2 ^ d.reg),
                                           poison := c.poison.filter (fun p => p.1 != d.reg) })

/-- The destination of an instruction of the running context. -/
def State.dest (s : State) (r : Nat) : RegDest := { core := s.curCore, ctx := s.curCtx, reg := r, work := s.me.serial }

/-- The operation stores. -/
def opStores : RemoteOp → Bool
  | .store _ => true
  | .pieces _ => true
  | _ => false

/-- The channel and the flit type of an access to another device (R30). -/
def opLane (ch : Nat) : RemoteOp → Nat × Nat
  | .load => (0, 1)
  | .store _ => ((if ch = 1 then 6 else if ch = 2 then 7 else 0), 2)
  | .pieces _ => (0, 2)
  | .atomic _ _ _ => (2, 3)

/-- The access writes no register: a store, or an AUPD, which names register 16. Its fault comes back as that of a store (R350). -/
def accessAcked (r : RemoteAccess) : Bool := opStores r.op || r.src.reg == 16

/-- Sends a scalar access to another device (R127, R350). The flit's type and channel are those of R30 for its operation. XIDs count
modulo 2^16 over all destinations, and one that is still outstanding is not skipped: the spec does not say how they are assigned (DESIGN
CHOICE, log entry 64). -/
def State.sendAccess (s : State) (dev ch : Nat) (acq : Bool) (r : RemoteAccess) : State :=
  let (vc, ty) := opLane ch r.op
  let xid := s.fab.xid % 65536
  let seq := (s.fab.tx.get (streamNo dev vc)).next
  let o : Outstanding := { xid := xid, ptr := r.ptr, dev := dev, dest := r.src, seq := seq, vc := vc, acq := acq, store := accessAcked r, words := accessWords r }
  let s1 := s.fabSend dev vc ty r.part xid 0 (.access { r with xid := xid })
  { s1 with fab := { s1.fab with xid := xid + 1, out := s1.fab.out ++ [o] } }

/-- An access of the running context to a scratchpad of another core of this device is served by that core (R121, R350); it bears a number
of this device alone. -/
def State.sendPeer (s : State) (acq : Bool) (r : RemoteAccess) : State :=
  let (u, s1) := s.fresh
  let o : Outstanding := { xid := u, ptr := r.ptr, dev := s.dev, dest := r.src, seq := 0, vc := 0, acq := acq, store := accessAcked r, words := accessWords r }
  { s1 with fab := { s1.fab with out := s1.fab.out ++ [o] } }.push (.peerAccessServe { r with xid := u })

/-- Two accesses of one context to one location of another device are performed in program order (R254): an access waits while one to the same
8-byte word is out on another channel, since each channel keeps its own order alone (R39), and while one to it is held back (R97). -/
def sameWait (dev : Nat) (ws : List Nat) (vc : Nat) : Act Unit := do
  let s ← get
  if (s.outOf s.curCore s.curCtx).any (fun o => o.dev == dev && o.vc != vc && o.words.any ws.contains) then stall
  if (s.heldOf s.curCore s.curCtx).any (fun h => h.access && (s.heldWords h).any ws.contains) then stall

/-! ## Reading another device for vectors, streams and engines (R371) -/

/-- The eight-byte words that hold `n` bytes from pointer `p`. -/
def farWords (p : Word) (n : Nat) : List Word :=
  let off := p.toNat % 8
  (List.range ((off + n + 7) / 8)).map (fun j => ofN (p.toNat - off + 8 * j))

/-- The bytes of another device's memory, once every word has come back; a fault among them; or none while some are still to
come, with the requests sent. -/
def State.farRead (s : State) (owner : Nat) (src : RegDest) (part dev : Nat) (p : Word) (n : Nat) :
    Option (Except Poison (List Byte)) × State :=
  let ws := farWords p n
  let missing := ws.filter (fun w => !(s.far.any (fun f => f.owner == owner && f.ptr == w)))
  let s1 := missing.foldl (fun (x : State) w =>
    let fw : FarWord := { id := x.uid, owner := owner, ptr := w, reply := none }
    let y : State := { x with uid := x.uid + 1, far := x.far ++ [fw] }
    let r : RemoteAccess :=
      { src := { src with reg := 16 + x.uid }, srcDev := x.dev, part := part, ptr := w, ty := 7, op := .load }
    y.sendAccess dev 0 false r) s
  let found := ws.map (fun w => (s1.far.find? (fun f => f.owner == owner && f.ptr == w)).bind (fun f => f.reply))
  if found.any (fun r => r.isNone) then (none, s1)
  else
    let bad := found.findSome? (fun r => match r with
      | some (.poison q) => some q
      | _ => none)
    match bad with
    | some q => (some (.error q), s1)
    | none =>
      let bs := found.flatMap (fun r => match r with
        | some (.value v) => bytesOf v.toNat 8
        | _ => [])
      (some (.ok ((bs.drop (p.toNat % 8)).take n)), s1)

/-- The words an owner has read are dropped. DEDUCED, log entry 57. -/
def State.farClear (s : State) (owner : Nat) : State := s.farDrop owner

/-- An instruction that read another device completes: its words are dropped. -/
def farDone : Act Unit := modify (fun s => s.farClear s.farOwner)

/-- Reads bytes of one line through any pointer for a context, waiting for another device where it must, with one long-latency slot (R371). A
remote fault traps as if local. -/
def readPtr (p : Word) (n : Nat) : Act (List Byte) := do
  let s ← get
  match ← resolve p .read with
  | .mem loc _ => readLoc s.curCore s.curCtx loc n p
  | .reg _ => trapNow cALIGN p 0
  | .far d =>
    sameWait d (wordsOf p n) 0
    if s.curCtx < 8 && !s.far.any (fun f => f.owner == s.farOwner) then takeSlot s.curCore
    let s ← get
    let me : RegDest := { core := s.curCore, ctx := s.curCtx, reg := 0 }
    match s.farRead s.farOwner me s.curPart d p n with
    | (none, s') => do set s'; waitHere
    | (some (.error q), _) => trapNow q.cause p q.info
    | (some (.ok bs), s') => do set s'; return bs

/-- A store of the running context that its target has yet to acknowledge: it holds an entry of the core's store queue and a
long-latency slot (R350). -/
def State.storeOut (s : State) : State :=
  (s.modCore s.curCore (fun c => { c with storeq := c.storeq + 1, slots := c.slots + 1 })).modMe
    (fun c => { c with stores := c.stores + 1 })

/-- `n` entries of the store queue of 16 and as many long-latency slots must be free, else the context stalls (R350). -/
def storeRoom (n : Nat) : Act Unit := do
  let s ← get
  if 16 < (s.coreAt s.curCore).storeq + n || 64 < (s.coreAt s.curCore).slots + n then stall

/-- `bs` from address `addr` on, cut at the aligned 8-byte words, each of which is written at once (R250): offset and bytes. -/
def pieces : Nat → Nat → Nat → List Byte → List (Nat × List Byte)
  | 0, _, _, _ => []
  | _, _, _, [] => []
  | n + 1, addr, off, b :: bs =>
    let k := 8 - addr % 8
    (off, (b :: bs).take k) :: pieces n (addr + k) (off + k) ((b :: bs).drop k)

/-- The pieces of a write at pointer `p`. -/
def piecesAt (p : Word) (bs : List Byte) : List (Nat × List Byte) := pieces bs.length p.toNat 0 bs

/-- A store of the running context must find room in the store queue (R350). -/
def queueRoom : Act Unit := do
  let s ← get
  if s.curCtx < 8 && decide (16 ≤ (s.coreAt s.curCore).storeq) then stall

/-- A speculative task's write to peer scratchpads or other devices joins its held items, as one store (R352). -/
def holdPieces (ps : List Piece) : Act Unit := fun s =>
  match s.ordOf s.curCore s.curCtx with
  | some (cl, o) =>
    let item : Held :=
      { instr := .st 1 { sa := 0, sb := 0, ix := false, scl := 0, imm := 0 } 7 4 0 0, dsts := [], core := s.curCore, cidx := s.curCtx,
        snapshot := { s.me with wout := ps, blk := none, pend := 0, poison := [], streams := [] } }
    .ok ((), s.modOrd cl o.uid (fun x => { x with held := x.held ++ [item] }))
  | none => .ok ((), s)

/-- An engine's write to another device: none while a piece is still to be acknowledged, with the pieces sent. -/
def State.farWrite (s : State) (part dev : Nat) (p : Word) (bs : List Byte) : Option (Except Poison Unit) × State :=
  let owner := 2 ^ 49 + s.curJob
  let cs := piecesAt p bs
  let addr (c : Nat × List Byte) : Word := ofN (p.toNat + c.1)
  let missing := cs.filter (fun c => !(s.far.any (fun f => f.owner == owner && f.ptr == addr c)))
  let s1 := missing.foldl (fun (x : State) c =>
    let fw : FarWord := { id := x.uid, owner := owner, ptr := addr c, reply := none }
    let y : State := { x with uid := x.uid + 1, far := x.far ++ [fw] }
    let r : RemoteAccess :=
      { src := { core := s.curCore, ctx := 8, reg := 16 + x.uid }, srcDev := x.dev, part := part, ptr := addr c, ty := 7,
        op := .pieces [{ ptr := addr c, bytes := c.2 }] }
    y.sendAccess dev 0 false r) s
  let found := cs.map (fun c => (s1.far.find? (fun f => f.owner == owner && f.ptr == addr c)).bind (fun f => f.reply))
  if found.any (fun r => r.isNone) then (none, s1)
  else
    match found.findSome? (fun r => match r with
      | some (.poison q) => some q
      | _ => none) with
    | some q => (some (.error q), s1)
    | none => (some (.ok ()), s1)

/-- A piece cut at the ends of 64-byte lines. -/
def cutPiece : Nat → Piece → List Piece
  | 0, _ => []
  | n + 1, p =>
    let k := 64 - bits p.ptr 5 0
    if p.bytes.length ≤ k then [p]
    else { p with bytes := p.bytes.take k, keep := p.keep.take k } ::
      cutPiece n { ptr := setBits p.ptr 53 0 ((bits p.ptr 53 0 + k) % 2 ^ 54), bytes := p.bytes.drop k, keep := p.keep.drop k }

/-- The bytes of a piece over the old ones. -/
def overOld (p : Piece) (old : List Byte) : List Byte :=
  if p.keep.isEmpty then p.bytes
  else ((old.zip p.bytes).zip p.keep).map (fun x => (x.1.1 &&& x.2) ||| (x.1.2 &&& ~~~x.2))

/-- Where the pieces of a write go; a fault traps with the piece's pointer, and a device register takes no such write (R351). -/
def targets : List Piece → Act (List (Piece × Target))
  | [] => return []
  | p :: r => do
    match ← resolve p.ptr .write with
    | .reg _ => trapNow cALIGN p.ptr 0
    | t =>
      let ts ← targets r
      return (p, t) :: ts

/-- The device that serves a piece for a thread, with the piece as that device sees it: none where it is written in place (R121, R127). -/
def State.awayOf (s : State) (x : Piece × Target) : Option (Nat × Piece) :=
  match x.2 with
  | .far d => some (d, x.1)
  | .mem loc _ => if s.peerLoc loc then some (s.dev, { x.1 with ptr := s.peerPtr loc }) else none
  | .reg _ => none

/-- One store in pieces to another device, or to peer scratchpads of this one (R350). -/
def sendPieces (dev : Nat) (ps : List Piece) : Act Unit := do
  let s ← get
  let r : RemoteAccess :=
    { src := s.dest 0, srcDev := s.dev, part := s.curPart, ptr := (ps.head?.map (fun p => p.ptr)).getD 0, ty := 7, op := .pieces ps }
  sameWait dev (accessWords r) 0
  modify (fun x => (if dev = x.dev then x.sendPeer false r else x.sendAccess dev 0 false r).storeOut)

/-- A piece is written at a local location. -/
def overLoc (loc : Nat) (p : Piece) : Act Unit := do
  if !p.keep.isEmpty then modify (fun x => x.recallRange loc p.bytes.length)
  let s ← get
  writeLoc s.curCore s.curCtx loc (overOld p (s.bytesAt loc p.bytes.length))

/-- An engine writes a piece. -/
def enginePiece (x : Piece × Target) : Act Unit := do
  let s ← get
  match x.2 with
  | .mem loc _ => overLoc loc x.1
  | .reg _ => pure ()
  | .far d =>
    match s.farWrite s.curPart d x.1.ptr x.1.bytes with
    | (none, s') => do set s'; waitHere
    | (some (.error q), _) => trapNow q.cause x.1.ptr q.info
    | (some (.ok _), s') => set s'

/-- A thread writes a piece in place. -/
def localPiece (x : Piece × Target) : Act Unit := do
  match x.2 with
  | .mem loc _ =>
    let s ← get
    if s.peerLoc loc then return
    queueRoom
    overLoc loc x.1
  | _ => return

/-- One write in pieces (R350, R352, R371): every piece is checked first; those of this device's memory and of the own scratchpad are written
in place; those of each other device, and of peer scratchpads, leave as one store, or join a speculative task's held items. -/
def writePieces (ps : List Piece) : Act Unit := do
  let ts ← targets (ps.flatMap (fun p => cutPiece (p.bytes.length / 64 + 2) p))
  let s ← get
  if 8 ≤ s.curCtx then ts.forM enginePiece
  else
    ts.forM localPiece
    let away := ts.filterMap s.awayOf
    let devs := (away.map (fun x => x.1)).eraseDups
    if s.spec then
      if !away.isEmpty then holdPieces (away.map (fun x => x.2))
    else
      if !devs.isEmpty then storeRoom devs.length
      devs.forM (fun d => sendPieces d ((away.filter (fun x => x.1 == d)).map (fun x => x.2)))

/-- Writes bytes through any pointer for a context. -/
def writePtr (p : Word) (bs : List Byte) : Act Unit := writePieces [{ ptr := p, bytes := bs }]

/-- The parts of `n` bytes at a pointer that lie within one 64-byte line each. -/
def cutSpan : Nat → Word → Nat → List (Word × Nat)
  | 0, _, _ => []
  | k + 1, p, n =>
    let m := 64 - bits p 5 0
    if n ≤ m then [(p, n)] else (p, m) :: cutSpan k (setBits p 53 0 ((bits p 53 0 + m) % 2 ^ 54)) (n - m)

/-- Reads bytes that may cross the ends of lines (R385): every part is checked before any is read. -/
def readSpan (p : Word) (n : Nat) : Act (List Byte) := do
  let ps := cutSpan (n / 64 + 2) p n
  match ps with
  | [_] => readPtr p n
  | _ =>
    ps.forM (fun x => do
      let _ ← resolve x.1 .read)
    let bs ← ps.mapM (fun x => readPtr x.1 x.2)
    return bs.flatten

/-! ## The program counter (R290 to R293) -/

/-- The line address of a PC. -/
def lineOf (pc : Word) : Nat := bits pc 51 6 * 64

/-- The PC after an instruction at `pc` of a line with `n` instructions (R291). -/
def nextPc (pc : Word) (n : Nat) : Word :=
  if bits pc 4 0 + 1 < n then pc + 1 else ofN ((lineOf pc + 64) % 2 ^ 52)

/-- The PC at which work that is interrupted goes on: after a SLEEP that it ends (R331). -/
def Ctx.resumePc (c : Ctx) : Word := if c.sleep.isSome then nextPc c.pc c.lineN else c.pc

/-- What a fetch of a line gives: a fault, a malformed line, or its instructions. -/
inductive Fetched where
  | fault (f : AccFault)
  | malformed
  | line (cs : List Code)
  deriving DecidableEq, Repr

/-- The line that holds `pc` as the running core would fetch it (R289, R290): a fetch waits for an engine that owns the line (R135) and
recalls update-only holders (R137), as every access does. DEDUCED, log entry 59. A line that stands in the fetch buffer may still issue
after a store to it (R134); in this model none does (DESIGN CHOICE, log entry 75). -/
def fetchLine (pc : Word) : Act Fetched := do
  let s ← get
  if s.meets.contains s.farOwner then return .fault { cause := cECC, info := 0 }
  match ← translate s.curCore s.curPart (s.sregAt s.curCore s.curCtx) (lineOf pc) .fetch with
  | .error f =>
    return .fault { f with info := if f.cause = cXLATE then ofN (f.info.toNat % 8 + 8) else f.info }
  | .ok (.mem loc _) =>
    let s ← get
    if s.ownedRange loc 64 then stall
    modify (fun x => x.recallRange loc 64)
    let s ← get
    if s.badRange loc 64 then return .fault { cause := cECC, info := 0 }
    else
      match parseLine (s.bytesAt loc 64) with
      | none => return .malformed
      | some cs => return .line cs
  | .ok _ => return .fault { cause := cXLATE, info := 8 }

/-- Whether a transfer to `t` is an ILLTGT (R293): steps 1 and 4. -/
def badTarget (t : Word) : Act Bool := do
  if bit t 5 || bits t 63 52 != 0 then return true
  else
    match ← fetchLine t with
    | .line cs => return decide (cs.length ≤ bits t 4 0)
    | _ => return false

/-- An instruction's transfer of control to `t` (R293): a bad target traps ILLTGT precisely. -/
def jump (t : Word) : Act Unit := do
  if ← badTarget t then trapNow cILLTGT t 0
  modify (fun s => s.modMe (fun c => { c with pc := t }))

/-- The next instruction in order (R291). -/
def State.nextOf (s : State) : Word := nextPc s.me.pc s.me.lineN

/-- The instruction completes and control falls through (R291). -/
def advance : Act Unit := modify (fun s => s.modMe (fun c => { c with pc := nextPc c.pc c.lineN }))

/-! ## Running a meaning -/

/-- A waiting instruction keeps its requests in flight, but has taken no stream unit and no buffer slot (R367). -/
def State.undoTaken (s' s : State) : State :=
  (s'.modMe (fun c => { c with streams := s.me.streams })).modCluster (clusterOf s.curCore)
    (fun c => { c with bufs := (s.clusterAt (clusterOf s.curCore)).bufs })

/-- The outcome of a core instruction's meaning in the running context: its new state; its trap, taken; a wait; or a
rollback of its own ordered task. -/
def runAct (m : Act Unit) (s : State) : Host.Outcome State Fault Refusal :=
  match m s with
  | .ok (_, s') => .next s'
  | .error (.trap t none) => .next ((s.farClear (8 * s.curCore + s.curCtx)).takeTrap s.curCore s.curCtx t)
  | .error (.trap t (some r)) =>
    .next (((s.farClear (8 * s.curCore + s.curCtx)).modMe
      (fun c => { c with seen := c.seen ||| BitVec.ofNat 16 (2 ^ r) })).takeTrap s.curCore s.curCtx t)
  | .error .stall => .next s
  | .error (.wait s') => .next (s'.undoTaken s)
  | .error .rollback =>
    match s.ordOf s.curCore s.curCtx with
    | some (cl, o) => .next (s.rollback cl o)
    | none => .next s

/-- The outcome of an event: its new state. -/
def runEvent (f : State → State) (s : State) : Host.Outcome State Fault Refusal := .next (f s)

end Sys2Proof.Machine
end

