-- ==== Sys2Proof/Machine/Buffers.lean ====
section
/-! DEFINITION. Circular buffers: descriptors, handles, the three counters and slot trailers (R183 to R186), and event
latches (R330). -/

namespace Sys2Proof.Machine

/-- Sets an event latch of a context that holds work (R330). -/
def State.latch (s : State) (core k b : Nat) : State :=
  if (s.ctxAt core k).phase = .idle then s
  else s.modCtx core k (fun c => { c with latch := c.latch ||| BitVec.ofNat 7 (2 ^ b) })

/-- Sets an event latch in every context of a core. -/
def State.latchCore (s : State) (core b : Nat) : State :=
  (List.range 8).foldl (fun x k => x.latch core k b) s

/-- The cores of a cluster. -/
def coresOf (cl : Nat) : List Nat := (List.range 8).map (fun k => 8 * cl + k)

/-- The number of the work of a context: it owns the buffers that it defines (R183). -/
def Ctx.workId (c : Ctx) : Nat :=
  match c.work with
  | .task id => id
  | .arrival u => u
  | .message u => u
  | .none => 0

def CircBuf.base (b : CircBuf) : Word := wordAt b.desc 0
def CircBuf.slotb (b : CircBuf) : Nat := fieldAt b.desc 8 4
def CircBuf.logn (b : CircBuf) : Nat := fieldAt b.desc 12 1 % 16
def CircBuf.prod (b : CircBuf) : Nat := fieldAt b.desc 14 1 % 16
def CircBuf.cons (b : CircBuf) : Nat := fieldAt b.desc 14 1 / 16
def CircBuf.fmtc (b : CircBuf) : Nat := fieldAt b.desc 15 1

/-- There is room for a publish: PIDX - FIDX < 2^LOGN (R184). -/
def CircBuf.room (b : CircBuf) : Bool := decide ((b.pidx - b.fidx).toNat < 2 ^ b.logn)
/-- There is a slot to consume: CIDX < PIDX (R184). -/
def CircBuf.ready (b : CircBuf) : Bool := b.cidx != b.pidx

/-- The slot's address through pointer BASE, with format FMTC (R400). -/
def CircBuf.slotAddr (b : CircBuf) (j : BitVec 32) : Word :=
  setBits (ofN (b.base.toNat + j.toNat % 2 ^ b.logn * (b.slotb + 64))) 63 54 (b.fmtc % 64 * 16)

/-- A handle's contents: buffer number and defining work. DESIGN CHOICE, log entry 41. -/
def mkHandle (num owner : Nat) : Nat := num + 64 * owner

/-- The buffer that a handle names in a cluster, while the handle is valid. -/
def State.bufOf (s : State) (cl h : Nat) : Option CircBuf :=
  match assocGet (s.clusterAt cl).bufs (h % 64) with
  | some b => if b.owner = h / 64 then some b else none
  | none => none

/-- What q register `q` of a context holds, if it is valid. -/
def State.handleAt (s : State) (core k q : Nat) : Option (Nat × CircBuf) :=
  match assocGet (s.ctxAt core k).q q with
  | some h => (s.bufOf (clusterOf core) h).map (fun b => (h, b))
  | none => none

/-- The buffer of a q register of the running context; an invalid handle traps ILL (R183). -/
def handle (q : Nat) : Act (Nat × CircBuf) := do
  let s ← get
  match s.handleAt s.curCore s.curCtx q with
  | some x => return x
  | none => ill 0

def State.modBuf (s : State) (cl h : Nat) (f : CircBuf → CircBuf) : State :=
  match s.bufOf cl h with
  | some b => s.modCluster cl (fun c => { c with bufs := assocSet c.bufs (h % 64) (f b) })
  | none => s

/-- A publish or a free is an event for every context that holds a valid handle to the buffer (R330, bit 1). -/
def State.bufEvent (s : State) (cl h : Nat) : State :=
  (coresOf cl).foldl (fun x c =>
    (List.range 8).foldl (fun y k =>
      if (y.ctxAt c k).q.any (fun e => e.2 == h) then y.latch c k 1 else y) x) s

/-- Publish, advance and free (R184). -/
def State.bufPublish (s : State) (cl h : Nat) : State :=
  (s.modBuf cl h (fun b => { b with pidx := b.pidx + 1 })).bufEvent cl h
def State.bufAdvance (s : State) (cl h : Nat) : State := s.modBuf cl h (fun b => { b with cidx := b.cidx + 1 })
def State.bufFree (s : State) (cl h : Nat) : State :=
  (s.modBuf cl h (fun b => { b with fidx := b.fidx + 1 })).bufEvent cl h

/-- The trailer of a slot (R186, Table 3): validity mask, row count, status. -/
def trailerBytes (mask rows status : Nat) : List Byte :=
  bytesOf mask 32 ++ bytesOf rows 2 ++ bytesOf status 2 ++ bytesOf 0 28

/-- The mask of rows 0 to `n` - 1. -/
def rowMask (n : Nat) : Nat := 2 ^ n - 1

/-- Buffers that a work defined are freed when it ends; every handle to them becomes invalid (R183). -/
def State.freeBufs (s : State) (cl owner : Nat) : State :=
  s.modCluster cl (fun c => { c with bufs := c.bufs.filter (fun b => b.2.owner != owner) })

end Sys2Proof.Machine
end

