-- ==== Sys2Proof/Machine/Operands.lean ====
section
/-! DEFINITION. Reading and writing operands: pending and poisoned registers (R119, R120), registers in stream mode (R367,
R384 to R387), vector windows (R108), effective addresses (R294, R348), types and lanes (R325, R365). -/

namespace Sys2Proof.Machine

/-! ## Pending and poisoned registers -/

/-- Waits for the value of a pending register among `ks` (R119). -/
def waitPend (ks : List Nat) : Act Unit := do
  let s ← get
  if ks.any (fun k => s.me.pend.getLsbD k) then stall

/-- The cause of a poisoned source register, lowest register first (R120, R271): the first instruction that reads it traps, and once a
trap has reported the mark a later read of the register does not. DEDUCED, log entry 39. -/
def poisonCheck (srcs : List Nat) : Act Unit := fun s =>
  match s.me.poison.find? (fun p => srcs.contains p.1 && !s.me.seen.getLsbD p.1) with
  | some (r, p) =>
    .error (.trap { cause := p.cause, epc := s.me.pc, eaddr := p.addr, einfo := p.info, pois := true, eng := false,
                    job := 0 } (some r))
  | none => .ok ((), s)

/-- A register can be read: it bears no poison that is still unread (R120). -/
def State.readable (s : State) (k : Nat) : Bool := !s.me.poison.any (fun p => p.1 == k && !s.me.seen.getLsbD k)

/-- The stream key of a vector register. -/
def vkey (v : Nat) : Nat := 32 + v

def State.streamOf (s : State) (key : Nat) : Option Stream := assocGet s.me.streams key

/-- Registers of chapters 18 and 20 to 22 must not be in stream mode: ILL, reason 6 (R348, R389). -/
def noStream (op : Nat) (keys : List Nat) : Act Unit := do
  let s ← get
  if keys.any (fun k => (s.streamOf k).isSome) then illReason op 6

/-- A pointer into system sub-space 2, where the device registers stand (R129). -/
def isRegister (p : Word) : Bool := bits p 53 52 == 3 && bits p 51 48 == 2

/-- The operand checks of an instruction whose g registers must not be in stream mode: sources, destinations. -/
def prep (op : Nat) (srcs dsts : List Nat) : Act Unit := do
  noStream op (srcs ++ dsts)
  waitPend (srcs ++ dsts)
  poisonCheck srcs

/-- The same where `chk` may find the instruction ILL by the values of the registers `dec`: when those are readable, it does so before the
cause of any poisoned register is raised (R271). -/
def prepEarly (op : Nat) (srcs dsts dec : List Nat) (chk : Act Unit) : Act Unit := do
  noStream op (srcs ++ dsts)
  waitPend (srcs ++ dsts)
  let s ← get
  if !(s.me.poison.any (fun p => dec.contains p.1 && !s.me.seen.getLsbD p.1)) then chk
  poisonCheck srcs

/-- The same for a test of the state. -/
def prepIll (op : Nat) (srcs dsts dec : List Nat) (bad : State → Bool) : Act Unit :=
  prepEarly op srcs dsts dec (do
    let s ← get
    if bad s then ill 0)

/-- The operand checks of an instruction of chapters 17 and 19 (R325, R367): a read of a write stream, a write of a read
stream, and a register in stream mode that is both read and written trap ILL, reason 6. Keys above 31 are vector registers. -/
def prepS (op : Nat) (srcs dsts both : List Nat) : Act Unit := do
  let s ← get
  let isW (k : Nat) : Bool := match s.streamOf k with
    | some t => t.write
    | none => false
  let isR (k : Nat) : Bool := match s.streamOf k with
    | some t => !t.write
    | none => false
  if srcs.any isW || dsts.any isR || both.any (fun k => (s.streamOf k).isSome) then illReason op 6
  let g := fun (k : Nat) => decide (k < 16)
  waitPend ((srcs ++ dsts ++ both).filter g)
  poisonCheck ((srcs ++ both).filter g)

/-- An instruction of a privilege the issuing context lacks: ILL, reason 7 (R310). DEDUCED, log entry 38. -/
def needPriv (op : Nat) (held : Bool) : Act Unit := do
  if !held then illReason op 7

/-- The operand checks of an instruction that needs a privilege: of several reasons of ILL the lowest is reported (R324). -/
def prepPriv (op : Nat) (held : Bool) (srcs dsts : List Nat) : Act Unit := do
  noStream op (srcs ++ dsts)
  needPriv op held
  waitPend (srcs ++ dsts)
  poisonCheck srcs

/-! ## General registers -/

/-- Writes a general register; the poison mark is cleared (R120). -/
def Ctx.setG (c : Ctx) (k : Nat) (v : Word) : Ctx :=
  { c with g := c.g.set k v, poison := c.poison.filter (fun p => p.1 != k),
           seen := c.seen &&& ~~~(BitVec.ofNat 16 (2 ^ k)) }

def State.setG (s : State) (k : Nat) (v : Word) : State := s.modMe (fun c => c.setG k v)

/-- Marks a register poisoned (R120). -/
def State.poisonReg (s : State) (d : RegDest) (p : Poison) : State :=
  s.modCtx d.core d.ctx (fun c =>
    { c with poison := assocSet c.poison d.reg p, seen := c.seen &&& ~~~(BitVec.ofNat 16 (2 ^ d.reg)) })

/-! ## Streams (R384 to R387) -/

/-- Bytes of a stream unit. -/
def Stream.unit (t : Stream) : Nat := if t.vec then 64 else 8

/-- Units of a pattern. -/
def Stream.total (t : Stream) : Nat :=
  match t.src with
  | .pattern _ c0 c1 c2 _ _ => c0 * c1 * c2
  | _ => 0

/-- The pointer of the next unit of a pattern (R384). -/
def Stream.unitPtr (t : Stream) : Word :=
  match t.src with
  | .pattern base c0 c1 _ s1 s2 =>
    let i0 := t.moved % c0
    let i1 := t.moved / c0 % c1
    let i2 := t.moved / c0 / c1
    ofZ ((bits base 53 0 : Int) + i0 * t.unit + i1 * s1 + i2 * s2)
  | .port p => ofN (p.toNat + t.moved * t.unit)
  | .buffer _ _ => 0

def State.setStream (s : State) (key : Nat) (t : Stream) : State :=
  s.modMe (fun c => { c with streams := assocSet c.streams key t })

/-- The core that a space-01 pointer names. -/
def portCore (p : Word) : Nat × Nat := (bits p 51 40, bits p 39 28)

/-- Another port of this device holds the wormhole route to the core (R386). -/
def State.portBusy (s : State) (key : Nat) (p : Word) : Bool :=
  s.core.cells.any (fun c => c.2.ctx.cells.any (fun k => k.2.streams.any (fun t =>
    !(c.1 == s.curCore && k.1 == s.curCtx && t.1 == key) &&
      (match t.2.src with
       | .port q => t.2.moved != 0 && portCore q == portCore p
       | _ => false))))

/-- The trailer of a slot that a stream fills: every row valid, 256 rows, status 0 (R386). -/
def streamTrailer : List Byte := trailerBytes (rowMask 256) 256 0

/-- The value of a unit that was fetched ahead: each 8-byte word is the one fetched or the present one (R385); which, is free. -/
def mixWords : Nat → List Byte → List Byte → List Byte
  | _, [], _ => []
  | _, _, [] => []
  | n, a :: as, b :: bs =>
    (if n % 2 = 0 then a else b) :: mixWords (if as.length % 8 = 0 then n / 2 else n) as bs

/-- The next unit of a read stream (R385, R386): zeros and END past the end of a pattern. -/
def readStream (key : Nat) (t : Stream) : Act (List Byte) := do
  let s ← get
  match t.src with
  | .pattern _ _ _ _ _ _ =>
    if t.total ≤ t.moved then
      modify (fun x => x.setStream key { t with ended := true })
      return List.replicate t.unit 0
    else
      let bs ← readSpan t.unitPtr t.unit
      match t.ahead with
      | [] =>
        modify (fun x => x.setStream key { t with moved := t.moved + 1 })
        return bs
      | u :: rest =>
        modify (fun x =>
          { x.setStream key { t with moved := t.moved + 1, ahead := rest } with free := x.free + 1 })
        return mixWords (Config.freeNat s.free) u bs
  | .buffer h off =>
    let cl := clusterOf s.curCore
    match s.bufOf cl h with
    | none => ill 0
    | some b =>
      if off = 0 && !b.ready then stall
      let bs ← readSpan (ofN ((b.slotAddr b.cidx).toNat + off)) t.unit
      let last := decide (b.slotb ≤ off + t.unit)
      modify (fun x =>
        let y := x.setStream key { t with moved := t.moved + 1, src := .buffer h (if last then 0 else off + t.unit) }
        if last then (y.bufAdvance cl h).bufFree cl h else y)
      return bs
  | .port _ => ill 0

/-- One unit to a write stream (R385, R386): discarded past the end of a pattern, with END. -/
def writeStream (key : Nat) (t : Stream) (bs : List Byte) : Act Unit := do
  let s ← get
  match t.src with
  | .pattern _ _ _ _ _ _ =>
    if t.total ≤ t.moved then modify (fun x => x.setStream key { t with ended := true })
    else
      writePtr t.unitPtr bs
      modify (fun x => x.setStream key { t with moved := t.moved + 1 })
  | .buffer h off =>
    let cl := clusterOf s.curCore
    match s.bufOf cl h with
    | none => ill 0
    | some b =>
      if off = 0 && !b.room then stall
      let slot := b.slotAddr b.pidx
      writePtr (ofN (slot.toNat + off)) bs
      let last := decide (b.slotb ≤ off + t.unit)
      if last then writePtr (ofN (slot.toNat + b.slotb)) streamTrailer
      modify (fun x =>
        let y := x.setStream key { t with moved := t.moved + 1, src := .buffer h (if last then 0 else off + t.unit) }
        if last then y.bufPublish cl h else y)
  | .port p =>
    if t.moved = 0 && s.portBusy key p then stall
    if 2 ^ 18 < bits p 27 0 + (t.moved + 1) * t.unit then trapNow cXLATE t.unitPtr 0
    writePtr t.unitPtr bs
    modify (fun x => x.setStream key { t with moved := t.moved + 1 })

/-- Releases a stream (R387): a partial slot is filled with zeros and published, a port's route is closed. -/
def releaseStream (key : Nat) : Act Unit := do
  let s ← get
  match s.streamOf key with
  | none => return
  | some t =>
    match t.src with
    | .buffer h off =>
      if t.write && off != 0 then
        match s.bufOf (clusterOf s.curCore) h with
        | none => pure ()
        | some b =>
          writePtr (ofN ((b.slotAddr b.pidx).toNat + off)) (List.replicate (b.slotb - off) 0 ++ streamTrailer)
          modify (fun x => x.bufPublish (clusterOf s.curCore) h)
    | .port _ => modify (fun x => x.modCore s.curCore (fun c => { c with ports := c.ports - 1 }))
    | .pattern _ _ _ _ _ _ => pure ()
    modify (fun x => x.modMe (fun c => { c with streams := assocErase c.streams key }))

/-- Reads general register `k`, or the next unit of its stream (R325). -/
def readG (k : Nat) : Act Word := do
  let s ← get
  match s.streamOf k with
  | none => return s.me.g.get k
  | some t => return ofN (natOfBytes (← readStream k t))

/-- Writes general register `k`, or one unit to its stream. -/
def writeG (k : Nat) (v : Word) : Act Unit := do
  let s ← get
  match s.streamOf k with
  | none => modify (fun x => x.setG k v)
  | some t => writeStream k t (bytesOf v.toNat 8)

/-- The instruction completes (R291); words read from another device are dropped. -/
def finish : Act Unit := do
  let s ← get
  if s.me.streams.isEmpty then advance
  else
    farDone
    advance

/-! ## Vector windows (R108) -/

/-- The window of the running context, bound at the first instruction that names a v, m or b register: the lowest free one,
cleared; none free stalls. -/
def window : Act Nat := do
  let s ← get
  if s.me.vwin ≠ 0 then return s.me.vwin - 1
  else
    match (List.range 4).find? (fun w => !((s.coreAt s.curCore).win.get w).used) with
    | none => stall
    | some w =>
      modify (fun x => (x.modCore x.curCore (fun c => { c with win := c.win.set w { Window.clear with used := true } })).modMe
        (fun c => { c with vwin := w + 1 }))
      return w

/-- The window's contents. -/
def State.winAt (s : State) (w : Nat) : Window := (s.coreAt s.curCore).win.get w

def State.modWin (s : State) (w : Nat) (f : Window → Window) : State :=
  s.modCore s.curCore (fun c => { c with win := c.win.modify w f })

/-- A vector register, or the next unit of its stream. -/
def readV (v : Nat) : Act Vec := do
  let w ← window
  let s ← get
  match s.streamOf (vkey v) with
  | none => return (s.winAt w).v.get v
  | some t => return BitVec.ofNat 512 (natOfBytes (← readStream (vkey v) t))

def writeV (v : Nat) (x : Vec) : Act Unit := do
  let w ← window
  let s ← get
  match s.streamOf (vkey v) with
  | none => modify (fun y => y.modWin w (fun n => { n with v := n.v.set v x }))
  | some t => writeStream (vkey v) t (bytesOf x.toNat 64)

/-- The old value of a destination vector register; a stream has none, and every lane of it is written (R367). -/
def oldV (v : Nat) : Act Vec := do
  let w ← window
  let s ← get
  match s.streamOf (vkey v) with
  | none => return (s.winAt w).v.get v
  | some _ => return 0

/-- The same where not every lane is written: what the other lanes of a stream's unit hold is not stated, and so is free (R379; log entry
71). -/
def keptV (v : Nat) : Act Vec := do
  let old ← oldV v
  let s ← get
  if (s.streamOf (vkey v)).isNone then return old
  else
    let (bs, s1) := s.freeBytes 64
    set s1
    return BitVec.ofNat 512 (natOfBytes bs)

def readM (m : Nat) : Act Word := do
  let w ← window
  let s ← get
  return (s.winAt w).m.get m

def writeM (m : Nat) (x : Word) : Act Unit := do
  let w ← window
  modify (fun y => y.modWin w (fun n => { n with m := n.m.set m x }))

/-- A bounded-error register: sixteen FP32 lanes and the bound word (R204). -/
def readB (b : Nat) : Act (Vec × W32) := do
  let w ← window
  let s ← get
  return ((s.winAt w).b.get b, (s.winAt w).bound.get b)

def writeB (b : Nat) (x : Vec) (bound : W32) : Act Unit := do
  let w ← window
  modify (fun y => y.modWin w (fun n => { n with b := n.b.set b x, bound := n.bound.set b bound }))

/-! ## Types, immediates, addresses -/

/-- Operand width of an integer TY code (R311). -/
def tyWidth (ty : Nat) : Nat := 8 * 2 ^ (ty % 4)

/-- ext(x, w, TY) of R325. -/
def extTy (x : Int) (w ty : Nat) : Word :=
  if ty < 4 then ofZ (signed (wrap x w) w) else ofN (wrap x w)

/-- A signed immediate field of `w` bits as 64 bits. -/
def sextImm (imm w : Nat) : Word := ofZ (signed imm w)

/-- The effective address of an FMEMO operand (R294), its registers read in order. -/
def effAddr (m : MemOp) : Act Word := do
  let a ← readG m.sa
  if m.ix then
    let b ← readG m.sb
    return a + sextImm m.imm 32 + BitVec.ofNat 64 (b.toNat * 2 ^ m.scl)
  else return a + sextImm m.imm 32

/-- The g registers an FMEMO operand reads. -/
def memSrcs (m : MemOp) : List Nat := if m.ix then [m.sa, m.sb] else [m.sa]

/-- PC of a direct target (R292): line displacement from the line of the transferring instruction, and slot. -/
def targetPc (pc : Word) (disp : Int) (slot : Nat) : Word :=
  ofN ((((lineOf pc : Int) + disp * 64) % (2 ^ 52 : Int)).toNat + slot)

/-- The target of an FT32 field, and of an FT16 field. -/
def target32 (pc : Word) (t : Nat) : Word := targetPc pc (signed (t / 32) 27) (t % 32)
def target16 (pc : Word) (t : Nat) : Word := targetPc pc (signed (t / 32) 11) (t % 32)

/-- Lane `i` of width `w` is active under mask selector `mk` (R365). -/
def activeLane (mk : Nat) (mask : Word) (w i : Nat) : Bool :=
  if mk = 0 then true else if w = 4 then bit mask (i / 2) else bit mask i

/-- The mask that a selector names (R310). -/
def maskOf (mk : Nat) : Act Word := if mk < 8 then return 0 else readM (mk - 8)

/-- A destination that is a stream takes no mask selector other than 0 (R367). -/
def noMaskedStream (op mk d : Nat) : Act Unit := do
  let s ← get
  if mk ≠ 0 && (s.streamOf (vkey d)).isSome then illReason op 6

/-! ## Held instructions of a speculative task (R97) -/

/-- Opcodes that issue a job, and so write JOB.LAST (R190). -/
def issuesJob (op : Nat) : Bool := [0xB1, 0xB2, 0xB3, 0xB4, 0xB7, 0xC0, 0xC8, 0xCA].contains op

/-- Opcodes that bind a gather list or a skip bitmap, discard them, or define a buffer (R390). -/
def bindsOp (op : Nat) : Bool := [0xB0, 0xB7, 0xB8, 0xBA].contains op

/-- The ordered task of the running context holds back an instruction of such an opcode. -/
def State.holdsOp (s : State) (p : Nat → Bool) : Bool :=
  (s.heldOf s.curCore s.curCtx).any (fun h => match rawOf h.instr with
    | some r => p r.op
    | none => false)

/-- What is ILL because a list, a bitmap or a handle that a held instruction gives is not there yet stalls instead (R390). -/
def orHeld {α : Type} (m : Act α) : Act α := fun s =>
  match m s with
  | .error (.trap t r) => if t.cause = cILL && s.holdsOp bindsOp then .error .stall else .error (.trap t r)
  | x => x

/-- A meaning that a speculative task holds: what it would trap at issue traps now; otherwise the instruction joins the
task's held items with the operand block it has read, its destination registers become pending, and control falls through.
Otherwise the meaning itself. DEDUCED, log entry 42. -/
def holding (i : Instr) (dsts : List Nat) (blk : Option (List Byte)) (m : Act Unit) : Act Unit := fun s =>
  match s.ordOf s.curCore s.curCtx with
  | some (cl, o) =>
    if o.irrevocable then m s
    else
      match m s with
      | .error (.trap t r) => if t.cause = cILL && s.holdsOp bindsOp then .error .stall else .error (.trap t r)
      | .error .rollback => .error .rollback
      | _ =>
        let h : Held := { instr := i, dsts := dsts, core := s.curCore, cidx := s.curCtx, snapshot := { s.me with blk := blk } }
        let s1 := s.modOrd cl o.uid (fun x => { x with held := x.held ++ [h] })
        let s2 := dsts.foldl (fun x d => x.setPend (x.dest d)) s1
        advance s2
  | none => m s

/-- An instruction that a speculative task must not run before it is irrevocable stalls (R352, R354, R362, R382). -/
def notSpec : Act Unit := do
  let s ← get
  if s.spec then stall

end Sys2Proof.Machine
end

