-- ==== Sys2Proof/Machine/Flags.lean ====
section
/-! DEFINITION. The status word CSW (R107), branch conditions (R327), and the registers that describe the device (R299). -/

namespace Sys2Proof.Machine

/-- CSW as MFS reads it (R107, Table 2). -/
def State.csw (s : State) : Word :=
  let c := s.me
  let sgs := c.streams.any (fun t => decide (t.1 < 32))
  let svs := c.streams.any (fun t => decide (32 ≤ t.1))
  ofN (c.pend.toNat * 2 ^ 32 + c.vwin % 8 * 2 ^ 16 + c.uie.toNat * 2 ^ 11 + c.atrap.toNat * 2 ^ 10 + sgs.toNat * 2 ^ 9 +
    svs.toNat * 2 ^ 8 + s.spec.toNat * 2 ^ 3 + s.curCtx % 8)

/-- A write of CSW changes UIE and ATRAP only (R107). -/
def Ctx.setCsw (c : Ctx) (v : Word) : Ctx := { c with uie := bit v 11, atrap := bit v 10 }

/-- Branch conditions over 64 bits (R327). -/
def condHolds (cond : Nat) (a b : Word) : Bool :=
  match cond with
  | 0 => a == b
  | 1 => a != b
  | 2 => a.slt b
  | 3 => !a.slt b
  | 4 => a.ult b
  | _ => !a.ult b

/-- This device's own fabric feature word: the features of R35, Table 4. -/
def fabFeat : Word := 0x1F

/-- FABF of ISA.FEAT (R299): the AND over every UP port of its agreed feature bits. -/
def State.fabFeatures (s : State) : Nat :=
  let up := (List.range 6).filter (fun p => (s.fab.port.get p).state == 2)
  if up.isEmpty then bits fabFeat 15 0
  else up.foldl (fun x p => x &&& bits (s.fab.port.get p).pfeat 15 0) 0xFFFF

/-- ISA.FEAT (R299): HANDOFF, GAUSS, NBANK and XBAR read 1. -/
def State.isaFeat (s : State) : Word :=
  ofN (0xF * 2 ^ 32 + (if s.link.state = 2 then bits s.link.feat 15 0 else 0) * 2 ^ 16 + s.fabFeatures)

/-- ISA.VER (R299). -/
def isaVer : Word := 1

end Sys2Proof.Machine
end

