-- ==== Sys2Proof/Machine/Work.lean ====
section
/-! DEFINITION. Starting and ending work: contexts, barriers, tasks, handlers, ordered tasks, charges and sealed-region counts
(R67, R76, R77, R79, R83, R84, R95 to R102, R103, R114 to R118, R149, R165, R360, R361). -/

namespace Sys2Proof.Machine

/-! ## Running Acts inside events -/

/-- An event that must wait stays the first of its lane (DESIGN CHOICE, log entry 2). -/
def State.pushFront (s : State) (e : Event) : State := { s with agenda := e :: s.agenda }

/-- An event's action: what must wait is tried again, as `again`, or as `kept` where it keeps what it has done so far. -/
def State.runEvKept (s : State) (again kept : Event) (m : Act Unit) : State :=
  match m s with
  | .ok (_, s') => s'
  | .error (.wait s') => s'.pushFront kept
  | .error .stall => s.pushFront again
  | .error .rollback => s.pushFront again
  | .error (.trap _ _) => s

/-- An event's action: what must wait is tried again. -/
def State.runEvAct (s : State) (again : Event) (m : Act Unit) : State := s.runEvKept again again m

/-- The same action as if by context `k` of `core`. -/
def State.asCtx (s : State) (core k : Nat) : State := { s with curCore := core, curCtx := k }

/-! ## Barriers (R360, R361) -/

def crewKey (die part n : Nat) : Nat := die * 256 + part * 16 + n

def State.barrier (s : State) : BarrierId → Barrier
  | .huddle cl n => (s.clusterAt cl).huddle.get n
  | .crew d p n => s.crew.get (crewKey d p n)

def State.modBarrier (s : State) (b : BarrierId) (f : Barrier → Barrier) : State :=
  match b with
  | .huddle cl n => s.modCluster cl (fun c => { c with huddle := c.huddle.modify n f })
  | .crew d p n => { s with crew := s.crew.modify (crewKey d p n) f }

/-- The arrivals of the open generation: threads that arrived, and threads of the task that have executed END and belong to
the barrier's cluster or die (R361). -/
def State.arrivals (s : State) (b : BarrierId) : Nat :=
  let x := s.barrier b
  let gone := match assocGet s.tasks x.task with
    | some t => t.ended.filter (fun q => !x.arrived.contains q &&
        (match b with
         | .huddle cl _ => clusterOf q.1 == cl
         | .crew d _ _ => clusterOf q.1 / 60 == d))
    | none => []
  x.arrived.length + gone.length

/-- The open generation is complete (R361). -/
def State.barrierFull (s : State) (b : BarrierId) : Bool :=
  let x := s.barrier b
  x.count != 0 && decide (x.count ≤ s.arrivals b) && decide (x.engc ≤ x.engArr) && (!x.arrived.isEmpty || x.engArr != 0)

/-- The cores that a completion on a barrier concerns (R330, bit 5). -/
def State.barrierCores (s : State) : BarrierId → List Nat
  | .huddle cl _ => coresOf cl
  | .crew _ p _ => (s.clustersOf p).flatMap coresOf

/-- A generation whose arrivals are all there completes in the same turn: GEN rises by 1, and the next generation opens with no
arrivals (R361). -/
def State.barrierCheck (s : State) (b : BarrierId) : State :=
  if s.barrierFull b then
    let s1 := s.modBarrier b (fun x => { x with gen := x.gen + 1, arrived := [], engc := 0, engArr := 0 })
    (s.barrierCores b).foldl (fun x c => x.latchCore c 5) s1
  else s

/-- The barriers that a thread of a gang task belongs to. -/
def barriersOf (t : Task) (core : Nat) : List BarrierId :=
  (if t.gang then (List.range 8).map (BarrierId.huddle (clusterOf core)) else []) ++
    (if t.crew then (List.range 16).map (BarrierId.crew (clusterOf core / 60) t.part) else [])

/-! ## Outgoing messages (R115) -/

/-- The buffered sends of a context enter the core's outgoing queue if they fit, in order. -/
def State.releaseSends (s : State) (core k : Nat) : Option State :=
  let ms := (s.ctxAt core k).sendBuf
  if 32 < (s.coreAt core).outq.length + ms.length then none
  else some ((s.modCore core (fun c => { c with outq := c.outq ++ ms })).modCtx core k (fun c => { c with sendBuf := [] }))

/-! ## Holds, jobs, tuples -/

/-- Jobs of a context's work that have not completed. -/
def State.openJobs (s : State) (core k : Nat) : List Job :=
  (s.coreAt core).jobs.filter (fun j => j.ctx == k && j.serial == (s.ctxAt core k).serial && j.state != 4)

/-- Holds end with the work that set them (R149). -/
def State.freeHolds (s : State) (core k : Nat) : State :=
  if s.holds.isEmpty then s
  else { s with holds := s.holds.filter (fun h => !(h.core == core && h.ctx == k && h.serial == (s.ctxAt core k).serial)) }

/-- The event of a request at its home. -/
def reqEvent (r : TupleReq) : Event :=
  match r.kind with
  | .put => .tuplePut r
  | .read => .tupleReadTake r
  | .take => .tupleReadTake r
  | .cancel => .tupleCancel r
  | .withdraw => .tupleWithdraw r

/-- A request goes to a device. -/
def State.tupleTo (s : State) (d : Nat) (r : TupleReq) : State :=
  if d = s.dev then s.push (reqEvent r) else s.fabSend d 3 7 r.part 0 0 (.tuple r)

/-- The blocking tuple requests of a context are withdrawn: each withdrawal follows its request, to the device that it was sent to (R165). -/
def State.withdrawAll (s : State) (core k : Nat) : State :=
  (s.ctxAt core k).blocked.foldl (fun (x : State) r =>
    match s.sentTuples.find? (fun t => t.1 == r.src) with
    | some t => x.tupleTo t.2.2 { r with kind := .withdraw }
    | none => x) s

/-! ## Overruns (R84) -/

/-- OVERRUN at a task end (R84). A background queue (PERIOD = 0) has no period: its LEFT below 0 raises OVERRUN once, until its
configuration is written (DESIGN CHOICE, log entry 75). -/
def State.overrunCheck (s : State) (q : Nat) : State :=
  let l := s.launch.get q
  if l.left < 0 && !l.raised then
    { s with launch := s.launch.set q { l with raised := true, ovr := true },
             mgmtLog := s.mgmtLog ++ [.overrun q l.left] }
  else s

/-- A task bound to a sealed region ends or leaves: the count falls, and a CLOSING region at 0 drains (R67, R68). -/
def State.unbind (s : State) (sreg n : Nat) : State :=
  if sreg = 0 then s
  else
    let r := s.sealed_.get (sreg - 1)
    let r' := { r with count := r.count - n }
    let s1 := { s with sealed_ := s.sealed_.set (sreg - 1) r' }
    if r'.count = 0 && r'.gate == 1 then s1.push (.gateDrained (sreg - 1)) else s1

/-! ## The completion counter (R76) -/

/-- The decrement record (R274). -/
def decrementRecord (f : AccFault) (cnt taskId : Word) : List Word :=
  [ofN (f.cause + 2 ^ 9), 0, cnt, f.info, 0, 0, taskId, 0]

/-- A fault of a decrement: no counter is changed, and the supervisor receives the decrement record (R76). -/
def State.refuseCnt (s : State) (part : Nat) (cnt taskId : Word) (f : AccFault) : State :=
  s.sendRecord part (s.part.get part).supv (decrementRecord f cnt taskId)

/-- Decrements the completion counter for a task of a partition: an atomic add of -1, an access of the device and not of the ordered task
whose context stands there. A fault changes nothing and sends the decrement record; so does a fault that another device reports. -/
def decrementCnt (core part sreg : Nat) (cnt taskId : Word) : Act Unit := do
  if cnt ≠ 0 then
    let s ← get
    let refuse (f : AccFault) : Act Unit := modify (fun x => x.refuseCnt part cnt taskId f)
    match ← resolveAt core part sreg cnt .write with
    | .error f => refuse f
    | .ok (.reg _) => refuse { cause := cPERM, info := 1 }
    | .ok (.far d) =>
      let (u, s1) := s.fresh
      let r : RemoteAccess :=
        { src := { core := core, ctx := 8, reg := 16 + u }, srcDev := s.dev, part := part, ptr := cnt, ty := 7,
          op := .atomic 0 (BitVec.allOnes 64) 0 }
      set ({ s1 with counts := s1.counts ++ [{ id := u, part := part, cnt := cnt, taskId := taskId }] } : State)
      modify (fun x => x.sendAccess d 0 false r)
    | .ok (.mem loc _) =>
      let s ← get
      if s.badRange loc 8 then refuse { cause := cECC, info := 0 }
      else
        if s.ownedRange loc 8 then stall
        enterLine core 8 loc 8 true
        modify (fun x => x.putBytes loc (bytesOf (x.wordAtLoc loc - 1).toNat 8))

/-! ## Starting a context (R77, R79, R106, R114) -/

/-- A context that starts work `w`: everything as R77 gives, then `f`. -/
def State.startCtx (s : State) (core k : Nat) (w : Work) (pc : Word) (f : Ctx → Ctx) : State :=
  let (u, s1) := s.fresh
  s1.modCtx core k (fun c =>
    f { Ctx.idle with phase := .running, work := w, serial := u, pc := pc, parkCount := c.parkCount,
                      lastIssue := s.coreAc core })

/-- Contexts 0 to 3 of a core that are idle, lowest first. -/
def State.freeTaskCtx (s : State) (core : Nat) : List Nat :=
  (List.range 4).filter (fun k => (s.ctxAt core k).phase == .idle)

/-- A task's count of ac: that of its first thread's core island (R103). -/
def State.taskAc (s : State) (t : Task) : Nat := s.coreAc (t.threads.headD (t.homeCore, 0)).1

/-- Length of a shot clock (R103). -/
def shotLen (shot : Nat) : Nat := if shot = 0 then 2 ^ 20 else 2 ^ shot

/-! ## Ending tasks (R76) -/

/-- The contexts of a task are freed, with its holds, and with the buffers that it owns on any cluster (R76 step 4, R149, R183). -/
def State.freeTask (s : State) (id : Nat) (t : Task) : State :=
  let s0 := s.cluster.cells.foldl (fun x c => x.freeBufs c.1 id) s
  let s1 := t.threads.foldl (fun x q => (x.freeHolds q.1 q.2).freeCtx q.1 q.2) s0
  let s2 := t.clusters.foldl (fun x cl =>
    x.modCluster cl (fun c => { c with gang := if c.gang = some id then none else c.gang })) s1
  { s2 with tasks := assocErase s2.tasks id }

/-- One task of a launch record has ended (R76). -/
def State.recordEnd (s : State) (r : Option Nat) : State :=
  match r with
  | none => s
  | some u =>
    match assocGet s.records u with
    | some n => { s with records := if n ≤ 1 then assocErase s.records u else assocSet s.records u (n - 1) }
    | none => s

/-- The completion counter of a task as the device where it ends names it: an address of its first core's device (R123). -/
def Task.counter (t : Task) (dev : Nat) : Word :=
  if t.cnt != 0 && t.homeDev != dev && bits t.cnt 53 52 == 0 then ofN (2 * 2 ^ 52 + t.homeDev * 2 ^ 40 + bits t.cnt 39 0)
  else t.cnt

/-- An ordered task of the partition that is FINISHED and not yet committed, with a key below `o`'s: commits take effect in key order
(R101). -/
def State.finishedBefore (s : State) (part : Nat) (o : OrdTask) : Bool :=
  (s.clustersOf part).any (fun cl => (s.clusterAt cl).ord.any (fun x => x.state == .finished && keyLt x o))

/-- The commit of an ordered task: its table entry is freed, and the floor is its timestamp (R101). -/
def State.commitEntry (s : State) (part cl : Nat) (o : OrdTask) : State :=
  { s.modCluster cl (fun c => { c with ord := c.ord.filter (fun p => p.uid != o.uid) }) with
    umpire := s.umpire.modify part (fun m => { m with floor := if m.floor.ult o.ts then o.ts else m.floor }) }

/-- The ordered-task entry of a task. -/
def State.entryOfTask (s : State) (t : Task) : Option (Nat × OrdTask) :=
  t.ordered.bind (fun c => ((s.clusterAt c.1).ord.find? (fun o => o.uid == c.2)).map (fun o => (c.1, o)))

/-- The streams of a context's work that ends are released (R387). One whose release faults is dropped. -/
def releaseStreams (core k : Nat) : Act Unit := fun s =>
  let home (r : Unit × State) : Unit × State := ((), r.2.asCtx s.curCore s.curCtx)
  let one (key : Nat) : Act Unit := fun x =>
    match releaseStream key x with
    | .error (.trap _ _) => .ok ((), x)
    | r => r
  match ((s.ctxAt core k).streams.forM (fun t => one t.1)) (s.asCtx core k) with
  | .ok r => .ok (home r)
  | .error (.wait s') => .error (.wait (s'.asCtx s.curCore s.curCtx))
  | .error x => .error x

/-- The end of a task whose threads have all ended (R76, in its order), tried again while it must wait: for registers that are pending, for
earlier commits, and for the held items of an irrevocable ordered task (R97, R101). Its sends are releases: they leave once its accesses have
been performed (R255, R263). -/
def taskEndAct (id : Nat) : Act Unit := do
  let s ← get
  match assocGet s.tasks id with
  | none => return
  | some t =>
    if t.threads.any (fun q => (s.ctxAt q.1 q.2).pend != 0) then stall
    match s.entryOfTask t with
    | some (_, o) => if s.finishedBefore t.part o || !o.held.isEmpty then stall
    | none => pure ()
    t.threads.forM (fun q => releaseStreams q.1 q.2)
    let s ← get
    if t.threads.any (fun q => (s.ctxAt q.1 q.2).stores != 0 || !(s.outOf q.1 q.2).isEmpty) then waitHere
    if t.threads.any (fun q => (s.releaseSends q.1 q.2).isNone) then stall
    modify (fun x => t.threads.foldl (fun y q => (y.releaseSends q.1 q.2).getD y) x)
    let s ← get
    if t.threads.any (fun q => decide (32 < (s.coreAt q.1).outq.length)) then stall
    if t.threads.any (fun q => !(s.openJobs q.1 q.2).isEmpty) then waitHere
    match t.threads with
    | [] => return
    | (core, k) :: _ =>
      decrementCnt core t.part t.sreg (t.counter s.dev) (s.ctxAt core k).ident.taskId
      modify (fun x =>
        let c := x.charge
        ((((c.freeTask id t).unbind t.sreg 1).recordEnd t.record).overrunCheck t.origq))
      modify (fun x =>
        match x.entryOfTask t with
        | none => x
        | some (cl, o) => x.commitEntry t.part cl o)

/-- The last thread of a task has ended: its end is in flight. -/
def State.endTask (s : State) (id : Nat) : State := s.push (.taskEnd id)

/-- A thread ends (R76, R101, R102): a speculative ordered task finishes and leaves its context; any other thread waits for its
partners, and the last one ends the task. -/
def State.endThread (s : State) (core k : Nat) : State :=
  match s.taskOf core k with
  | none => s.freeCtx core k
  | some (id, t) =>
    match s.ordOf core k with
    | some (cl, o) =>
      if o.irrevocable then
        (s.modCtx core k (fun c => { c with phase := .ended })).endTask id
      else
        let ms := (s.ctxAt core k).sendBuf
        ((s.charge.freeTask id t).modOrd cl o.uid (fun x =>
          { x with state := .finished, sends := ms, ctx := k, serial := (s.ctxAt core k).serial })).overrunCheck t.origq
    | none =>
      let s1 := (s.modCtx core k (fun c => { c with phase := .ended })).modTask id
        (fun x => { x with ended := x.ended ++ [(core, k)] })
      if t.threads.all (fun q => q == (core, k) || t.ended.contains q) then s1.endTask id
      else (barriersOf t core).foldl State.barrierCheck s1

/-- A task ends by TABORT or by the supervisor (R425, R275): its threads stop, their blocked requests are withdrawn and their
send buffers discarded. -/
def State.abortTask (s : State) (id : Nat) (t : Task) : State :=
  (t.threads.foldl (fun x q =>
    ((x.withdrawAll q.1 q.2).modCtx q.1 q.2 (fun c =>
      { c with phase := .ended, sendBuf := [], sleep := none, heldTrap := none, waitIntr := [] }))) s).endTask id

/-- TABORT of a speculative ordered task (R102): its held items are discarded, its logged words restored, its read bits kept,
and it finishes with the abort mark. -/
def State.abortSpec (s : State) (cl : Nat) (o : OrdTask) (id : Nat) (t : Task) : State :=
  let s1 := o.log.foldl (fun x p => x.putBytes p.1 (bytesOf p.2.toNat 8)) s
  ((s1.charge.freeTask id t).modOrd cl o.uid (fun x =>
    { x with state := .finished, aborted := true, log := [], writes := [], held := [], sends := [] })).overrunCheck t.origq

/-! ## Handlers and arrivals (R114, R117, R118) -/

/-- The message entry that a handler context runs. -/
def State.msgEntry (s : State) (core uid : Nat) : Option MsgEntry :=
  ((s.coreAt core).lowq ++ (s.coreAt core).highq).find? (fun e => e.uid == uid)

/-- The place of a message in its queue (R113): a timed one before the first timed one with a greater key. -/
def msgKeyLt (a b : Msg) : Bool :=
  decide (a.ts.toNat < b.ts.toNat) || (a.ts == b.ts && (decide (a.sdev < b.sdev) || (a.sdev == b.sdev &&
    (decide (a.score < b.score) || (a.score == b.score && decide (a.seqn.toNat < b.seqn.toNat))))))

def insertMsg (q : List MsgEntry) (e : MsgEntry) : List MsgEntry :=
  match q with
  | [] => [e]
  | x :: r => if e.msg.timed && x.msg.timed && msgKeyLt e.msg x.msg then e :: x :: r else x :: insertMsg r e

/-- The entry of an ended handler is freed, or goes back to its queue when deferred (R114, R420). -/
def State.dropEntry (s : State) (core : Nat) (w : Work) (deferred : Bool) : State :=
  let again (q : List MsgEntry) (u : Nat) : List MsgEntry :=
    let rest := q.filter (fun e => e.uid != u)
    match q.find? (fun e => e.uid == u) with
    | some e => if deferred then insertMsg rest { e with state := 0, deferred := false } else rest
    | none => q
  match w with
  | .message u => s.modCore core (fun c => { c with lowq := again c.lowq u, highq := again c.highq u })
  | .arrival u => s.modCore core (fun c => { c with arrq := c.arrq.filter (fun e => e.uid != u) })
  | _ => s

/-- END of a handler or an arrival (R329): none while its accesses are not performed, since its sends are releases (R263), or while its sends
do not fit the outgoing queue. -/
def State.endHandler (s : State) (core k : Nat) : Option State :=
  if !(s.outOf core k).isEmpty then none
  else
    match s.releaseSends core k with
    | none => none
    | some s1 =>
      let c := s1.ctxAt core k
      some ((((s1.dropEntry core c.work c.deferred).freeHolds core k).freeBufs (clusterOf core) c.workId).freeCtx core k)

/-! ## Ordered tasks: publication, commit (R97, R101) -/

/-- Key comparison with a published key. -/
def keyLtK (o : OrdTask) (k : Nat × Nat × Nat) : Bool :=
  decide (o.ts.toNat < k.1) || (o.ts.toNat == k.1 && (decide (o.spCore < k.2.1) ||
    (o.spCore == k.2.1 && decide (o.spCount < k.2.2))))

def OrdTask.key (o : OrdTask) : Nat × Nat × Nat := (o.ts.toNat, o.spCore, o.spCount)

/-- The released held items of a finished ordered task are not yet visible: a job of its work, or one of its accesses, is still out
(R76 step 2, R101). -/
def State.heldOut (s : State) (o : OrdTask) : Bool :=
  (s.coreAt o.core).jobs.any (fun j => j.ctx == o.ctx && j.serial == o.serial && j.state != 4) ||
    s.fab.out.any (fun x => x.dest.core == o.core && x.dest.work == o.serial && o.serial != 0)

/-- The commit of an ordered task whose held items have all been released (R101): its sends leave, its stores and engine completions are
waited for, and CNT is decremented (R76). -/
def commitAct (cl : Nat) (o : OrdTask) : Act Unit := do
  let s ← get
  let part := (s.partOfCluster cl).getD 0
  if s.heldOut o then stall
  if 32 < (s.coreAt o.core).outq.length + o.sends.length then stall
  if !o.aborted then modify (fun x => x.modCore o.core (fun c => { c with outq := c.outq ++ o.sends }))
  decrementCnt o.core part 0 o.entry.cnt (ofN (o.entry.idx + o.entry.origq * 2 ^ 32 + 2 ^ 63))
  modify (fun x => (x.charge.commitEntry part cl o).overrunCheck o.entry.origq)

end Sys2Proof.Machine
end

