-- ==== Sys2Proof/Machine/Registers.lean ====
section
/-! DEFINITION. The device registers of system sub-space 2 (R7, R14, R16, R17, R23, R34, R52, R82, R111, R351, R457): which
register stands at an offset, who may access it, and what a read and a write do. -/

namespace Sys2Proof.Machine

/-- A device register. -/
inductive Reg where
  | clmap (die : Nat) | islCtl (i : Nat) | islStat (i : Nat) | eccCorr (die : Nat) | eccUnc (die : Nat)
  | merr (core : Nat) | mqcap (core : Nat)
  | fabDim | fabRto | fabFeat | fabIntthr | fabPort (k : Nat) | fabErr
  | lqCfg (q : Nat) | lqStat (q : Nat) | lqLeft (q : Nat) | lqDl (q : Nat)
  deriving DecidableEq, Repr

/-- The register of a die's block at byte offset `r` (R14, R16, R23, R111, R457). -/
def regOfDie (die r : Nat) : Option Reg :=
  if r = 0 then some (.clmap die)
  else if 0x100 ≤ r ∧ r < 0x140 then some (.islCtl (die * 8 + (r - 0x100) / 8))
  else if 0x200 ≤ r ∧ r < 0x240 then some (.islStat (die * 8 + (r - 0x200) / 8))
  else if r = 0x300 then some (.eccCorr die)
  else if r = 0x308 then some (.eccUnc die)
  else if 0x1000 ≤ r ∧ r < 0x1000 + 8 * 1920 then
    if (r - 0x1000) / 8 / 480 = die then some (.merr ((r - 0x1000) / 8)) else none
  else if 0x8000 ≤ r ∧ r < 0x8000 + 8 * 1920 then
    if (r - 0x8000) / 8 / 480 = die then some (.mqcap ((r - 0x8000) / 8)) else none
  else none

/-- The register at an offset of sub-space 2, if there is one. DEDUCED, log entry 32. -/
def regAt (off : Nat) : Option Reg :=
  if off % 8 ≠ 0 then none
  else if off < 0x400000 then regOfDie (off / 0x100000) (off % 0x100000)
  else if off < 0x800000 then
    let r := off - 0x400000
    if r = 0 then some .fabDim
    else if r = 8 then some .fabRto
    else if r = 0x10 then some .fabFeat
    else if r = 0x18 then some .fabIntthr
    else if 0x100 ≤ r ∧ r < 0x130 then some (.fabPort ((r - 0x100) / 8))
    else if r = 0x200 then some .fabErr
    else none
  else if off < 0x800800 then
    let q := (off - 0x800000) / 32
    match (off - 0x800000) % 32 with
    | 0 => some (.lqCfg q)
    | 8 => some (.lqStat q)
    | 16 => some (.lqLeft q)
    | _ => some (.lqDl q)
  else none

/-- The partition that owns a launch queue (R64, R81). -/
def State.partOfQueue (s : State) (q : Nat) : Option Nat :=
  (List.range 16).find? (fun p => (s.part.get p).state != 0 && bit (s.part.get p).qmask q)

/-- Whether the running context may access a register (R16, R52, R82, R457). A register whose description names no restriction
grants access to every context (DESIGN CHOICE, log entry 16). -/
def State.regMay (s : State) (r : Reg) (write : Bool) : Bool :=
  match r with
  | .clmap _ => true
  | .merr _ => true
  | .eccCorr _ => true
  | .eccUnc _ => true
  | .lqCfg _ => s.privM || (!write && s.privS)
  | .lqStat _ => s.privM || (!write && s.privS)
  | .lqLeft _ => s.privM || (!write && s.privS)
  | .lqDl _ => s.privM || (!write && s.privS)
  | _ => s.privM

/-- Budget left, with the charges of running tasks up to now (R83). -/
def State.leftNow (s : State) (q : Nat) : Int :=
  (s.launch.get q).left -
    ((s.tasks.filter (fun p => p.2.origq == q)).foldl (fun n p => n + p.2.rate * (s.time - p.2.start)) 0 : Nat)

/-- A field of a launch record (R62). -/
def LaunchRec.sreg (r : LaunchRec) : Nat := fieldAt r.bytes 2 1 % 16
def LaunchRec.kind (r : LaunchRec) : Nat := fieldAt r.bytes 0 1 % 4
def LaunchRec.sqw (r : LaunchRec) : Nat := fieldAt r.bytes 0 1 / 4 % 8 + 1
def LaunchRec.crewn (r : LaunchRec) : Nat := fieldAt r.bytes 0 2 / 32 % 64 + 1
def LaunchRec.shot (r : LaunchRec) : Nat := fieldAt r.bytes 0 2 / 2 ^ 11
def LaunchRec.tasks (r : LaunchRec) : Nat := fieldAt r.bytes 4 4
def LaunchRec.entry (r : LaunchRec) : Word := wordAt r.bytes 8
def LaunchRec.arg (r : LaunchRec) : Word := wordAt r.bytes 16
def LaunchRec.cnt (r : LaunchRec) : Word := wordAt r.bytes 40

/-- The gate of a record's sealed region is CLOSING or DRAINED (R67, R91). -/
def State.gateClosed (s : State) (r : LaunchRec) : Bool := r.sreg != 0 && (s.sealed_.get (r.sreg - 1)).gate != 0

/-- HEAD of LQ.STAT (R82). Where several conditions hold the first in this order is read, and the head of a disabled queue, or of one
whose partition is not RUNNING, reads 3: the spec does not rank the codes (DESIGN CHOICE, log entry 65). -/
def State.headState (s : State) (q : Nat) : Nat :=
  let l := s.launch.get q
  match l.recs with
  | [] => 0
  | r :: _ =>
    if s.gateClosed r then 4
    else if !(r.dep0 && r.dep1) then 1
    else if l.period ≠ 0 ∧ s.leftNow q ≤ 0 then 2
    else if s.reserved.any (fun x => x.2.1 == q) then 5
    else if r.placed ≠ 0 then 6
    else 3

/-- FAB.PORT as it reads (R52). -/
def Port.word (p : Port) : Word :=
  ofN (p.disable.toNat * 2 ^ 62 + p.vmismatch.toNat * 2 ^ 61 + p.crccnt % 2 ^ 16 * 2 ^ 32 + bits p.pfeat 15 0 * 2 ^ 16 +
    p.ver % 256 * 2 ^ 8 + p.state)

/-- What a register reads. DEDUCED, log entry 52. -/
def State.regRead (s : State) (r : Reg) : Word :=
  let own (q : Nat) (v : Word) : Word := if s.privM || s.partOfQueue q == some s.curPart then v else 0
  match r with
  | .clmap d => s.fuse.get d
  | .islCtl i => ofN (s.island.get i).req
  | .islStat i =>
    let x := s.island.get i
    ofN (x.badreq.toNat * 2 ^ 7 + (x.gated || decide (x.limit < 3)).toNat * 2 ^ 6 + x.limit * 2 ^ 3 + x.eff)
  | .eccCorr d => ofN (s.ecc.get d).corr
  | .eccUnc d => ofN (s.ecc.get d).unc
  | .merr c => ofN (s.coreAt c).merr
  | .mqcap c => (s.coreAt c).mqcap
  | .fabDim => s.fab.dim
  | .fabRto => s.fab.rto
  | .fabFeat => fabFeat
  | .fabIntthr => ofN s.fab.intthr
  | .fabPort k => (s.fab.port.get k).word
  | .fabErr => ofN (s.fab.badf * 2 ^ 48 + s.fab.agesat * 2 ^ 32 + s.fab.intfail * 2 ^ 16 + s.fab.pooldrop)
  | .lqCfg q =>
    let l := s.launch.get q
    own q (ofN (l.en.toNat * 2 ^ 63 + l.budget * 2 ^ 28 + l.period))
  | .lqStat q =>
    let l := s.launch.get q
    own q (ofN (l.ovr.toNat * 2 ^ 63 + l.recs.length * 2 ^ 48 + s.headState q * 2 ^ 45))
  | .lqLeft q => own q (ofZ (s.leftNow q))
  | .lqDl q => own q (s.launch.get q).dl

/-! ## Writes -/

/-- A context of the quadrant is running or parked, or a task queue in it holds an entry (R17). -/
def State.quadrantBusy (s : State) (die k : Nat) : Bool :=
  s.core.cells.any (fun c => decide (c.1 < 1920) && decide (clusterOf c.1 / 60 = die) && s.quadrantOf c.1 == k &&
    (!c.2.taskq.isEmpty || c.2.ctx.cells.any (fun x => x.2.phase != .idle)))

/-- A write of ISL.CTL (R16, R17): a refused one sets BADREQ; another starts a change of point. -/
def State.writeIslCtl (s : State) (i : Nat) (v : Word) : State :=
  let req := bits v 2 0
  let k := i % 8
  let x := s.island.get i
  let bad := decide (4 ≤ req) || (req == 0 && (k == 4 || k == 6 || k == 7)) ||
    (req == 0 && decide (k < 4) && s.quadrantBusy (i / 8) k)
  if bad then { s with island := s.island.set i { x with badreq := true } }
  else ({ s with island := s.island.set i { x with req := req, badreq := false, changing := true } }).push
    (.operatingPointChangeDone i)

/-- A write of FAB.DIM: ignored while a port is TRAINING or UP (R52). -/
def State.writeFabDim (s : State) (v : Word) : State :=
  if (List.range 6).any (fun p => (s.fab.port.get p).state == 1 || (s.fab.port.get p).state == 2) then s
  else { s with fab := { s.fab with dim := ofN (bits v 23 0) } }

/-- A write of FAB.RTO: a base below 1,024 is stored as 1,024 (R52). -/
def State.writeFabRto (s : State) (v : Word) : State :=
  { s with fab := { s.fab with rto := ofN (bits v 27 20 * 2 ^ 20 + max 1024 (bits v 19 0)) } }

/-- A write of FAB.ERR clears its four fields (R52). -/
def State.writeFabErr (s : State) : State :=
  { s with fab := { s.fab with badf := 0, agesat := 0, intfail := 0, pooldrop := 0 } }

def State.modPort (s : State) (p : Nat) (f : Port → Port) : State :=
  { s with fab := { s.fab with port := s.fab.port.modify p f } }

/-- RETRAIN (R34, R52): training starts from DEAD or DOWN; CRCCNT is cleared. A port of a dimension of extent 1 stays DOWN
(R25). -/
def State.retrainPort (s : State) (p : Nat) : State :=
  s.modPort p (fun x =>
    { x with crccnt := 0, crcTimes := [],
             state := if !x.disable && (x.state == 0 || x.state == 3) && bits s.fab.dim (4 * (p / 2) + 3) (4 * (p / 2)) != 0 then 1
               else x.state })

/-- DISABLE holds a port DOWN, a DEAD one too: R34 lets only RETRAIN take a port out of DEAD, and R52 does not except it (DESIGN CHOICE,
log entry 64). -/
def State.disablePort (s : State) (p : Nat) (hold : Bool) : State :=
  s.modPort p (fun x => { x with disable := hold, state := if hold then 0 else x.state })

/-- RETRAIN and DISABLE of the Cidan Link, which R54 leaves to the management core: it stands as port 6 (DESIGN CHOICE, log entry 20). -/
def State.retrainLink (s : State) : State :=
  { s with link := { s.link with state := if s.link.state = 4 then 1 else s.link.state } }

/-- Disabling holds the link DOWN, a DEAD one too: Table 1 of R54 says both that disabling gives DOWN and that a DEAD link is left only by
retrain (DESIGN CHOICE, log entry 75). -/
def State.disableLink (s : State) : State := { s with link := { s.link with state := 0, failed := 0, idle := false } }

/-- VMISMATCH of a port, and of the Cidan Link as port 6 (R35, R54; log entry 20). -/
def State.clearVmismatch (s : State) (p : Nat) : State :=
  if p = 6 then { s with link := { s.link with vmismatch := false } } else s.modPort p (fun x => { x with vmismatch := false })

/-- The start, at `start`, of a period of a queue (R84). -/
def State.startPeriod (s : State) (q start : Nat) : State :=
  let s1 := s.charge
  let l := s1.launch.get q
  let l' : LaunchQ :=
    { l with left := (l.budget * 8192 : Nat) + min l.left 0, raised := false,
             dl := if l.period = 0 then BitVec.allOnes 64 else ofN (start + l.period * 1024) }
  { s1 with launch := s1.launch.set q l' }

/-- A write of LQ.CFG (R82): while EN = 1 a write that alters another field is ignored; setting EN starts the first period, where PERIOD
is not 0 (R84); clearing it removes a reservation. -/
def State.writeLqCfg (s : State) (q : Nat) (v : Word) : State :=
  let l := s.launch.get q
  let en := bit v 63
  let budget := bits v 48 28
  let period := bits v 19 0
  if l.en && (l.budget != budget || l.period != period) then s
  else
    let s1 := { s with launch := s.launch.set q { l with en := en, budget := budget, period := period } }
    if en && !l.en && period != 0 then s1.startPeriod q s1.time
    else if !en then
      { s1 with launch := s1.launch.modify q (fun x => { x with dl := BitVec.allOnes 64 }),
                reserved := s1.reserved.filter (fun r => r.2.1 != q) }
    else s1

/-- A write of a register (R7): fields that are RO keep their values. -/
def State.regWrite (s : State) (r : Reg) (v : Word) : State :=
  match r with
  | .islCtl i => s.writeIslCtl i v
  | .islStat i =>
    if bit v 7 then { s with island := s.island.modify i (fun x => { x with badreq := false }) } else s
  | .eccCorr d => { s with ecc := s.ecc.modify d (fun x => { x with corr := 0 }) }
  | .mqcap c => s.modCore c (fun x => { x with mqcap := ofN (bits v 6 0) })
  | .fabDim => s.writeFabDim v
  | .fabRto => s.writeFabRto v
  | .fabIntthr => { s with fab := { s.fab with intthr := bits v 15 0 } }
  | .fabPort k =>
    let s1 := if bit v 61 then s.clearVmismatch k else s
    let s2 := s1.disablePort k (bit v 62)
    if bit v 63 then s2.retrainPort k else s2
  | .fabErr => s.writeFabErr
  | .lqCfg q => s.writeLqCfg q v
  | .lqStat q =>
    if bit v 63 then { s with launch := s.launch.modify q (fun x => { x with ovr := false }) } else s
  | _ => s

/-- A load of a device register by the running context (R351): no grant traps PERM. -/
def loadReg (off : Nat) (p : Word) : Act Word := do
  let s ← get
  match regAt off with
  | some r => if s.regMay r false then return s.regRead r else trapNow cPERM p 0
  | none => trapNow cPERM p 0

/-- A store to a device register (R351). -/
def storeReg (off : Nat) (p v : Word) : Act Unit := do
  let s ← get
  match regAt off with
  | some r => if s.regMay r true then set (s.regWrite r v) else trapNow cPERM p 1
  | none => trapNow cPERM p 1

end Sys2Proof.Machine
end

