-- ==== Sys2Proof/Machine/Control.lean ====
section
/-! DEFINITION. Control instructions (R326 to R332): branches, calls, END, SLEEP, BRK, TRAPI. -/

namespace Sys2Proof.Machine

/-- Checks a target before anything is written (R293, R326). -/
def checkTarget (t : Word) : Act Unit := do
  if ← badTarget t then trapNow cILLTGT t 0

/-- A transfer to a checked target completes. -/
def goto (t : Word) : Act Unit := do
  let s ← get
  if !s.me.streams.isEmpty then farDone
  modify (fun x => x.modMe (fun c => { c with pc := t }))

/-- NOP does nothing (R329). -/
def execNop (s : State) : Host.Outcome State Fault Refusal := runAct advance s

def brAct (target : Nat) : Act Unit := do
  let s ← get
  let t := target32 s.me.pc target
  checkTarget t
  goto t

def execBr (target : Nat) (s : State) : Host.Outcome State Fault Refusal := runAct (brAct target) s

def bccAct (cond sa sb target : Nat) : Act Unit := do
  prepS 0x03 [sa, sb] [] []
  let a ← readG sa
  let b ← readG sb
  let s ← get
  if condHolds cond a b then
    checkTarget (target16 s.me.pc target)
    goto (target16 s.me.pc target)
  else finish

def execBcc (cond sa sb target : Nat) (s : State) : Host.Outcome State Fault Refusal := runAct (bccAct cond sa sb target) s

/-- BZ and BNZ: branch when the register's being zero is `z`. -/
def branchZero (op : Nat) (z : Bool) (a target : Nat) : Act Unit := do
  prepS op [a] [] []
  let x ← readG a
  let s ← get
  if (x == 0) == z then
    checkTarget (target32 s.me.pc target)
    goto (target32 s.me.pc target)
  else finish

def execBz (a target : Nat) (s : State) : Host.Outcome State Fault Refusal := runAct (branchZero 0x04 true a target) s
def execBnz (a target : Nat) (s : State) : Host.Outcome State Fault Refusal := runAct (branchZero 0x05 false a target) s

/-- The return stack of 8 entries, newest first; a push on a full stack drops the oldest (R328). -/
def pushReturn (w : Word) : Act Unit :=
  modify (fun s => s.modMe (fun c => { c with retStack := (w :: c.retStack).take 8 }))

/-- CALL; a bad target ranks before ILL (R271, R293). -/
def callAct (a target : Nat) : Act Unit := do
  let s ← get
  let t := target32 s.me.pc target
  checkTarget t
  prepS 0x06 [] [a] []
  writeG a s.nextOf
  pushReturn s.nextOf
  goto t

def execCall (a target : Nat) (s : State) : Host.Outcome State Fault Refusal := runAct (callAct a target) s

/-- A register that is neither in stream mode nor pending nor poisoned can be read at once. -/
def State.plainG (s : State) (k : Nat) : Bool :=
  (s.streamOf k).isNone && !s.me.pend.getLsbD k && !s.me.poison.any (fun p => p.1 == k)

/-- CALLI; a bad target that can be read ranks before an ILL of the link register (R271, R293). -/
def calliAct (a sa : Nat) : Act Unit := do
  let s ← get
  let plain := s.plainG sa
  if plain then checkTarget (s.me.g.get sa)
  prepS 0x07 [sa] [a] []
  let t ← readG sa
  let s ← get
  if !plain then checkTarget t
  writeG a s.nextOf
  pushReturn s.nextOf
  goto t

def execCalli (a sa : Nat) (s : State) : Host.Outcome State Fault Refusal := runAct (calliAct a sa) s

def jumpReg (op sa : Nat) : Act Unit := do
  prepS op [sa] [] []
  let t ← readG sa
  checkTarget t
  goto t

/-- RET jumps and pops the return stack, which affects timing only (R328). -/
def execRet (sa : Nat) (s : State) : Host.Outcome State Fault Refusal :=
  runAct (do
    jumpReg 0x08 sa
    modify (fun x => x.modMe (fun c => { c with retStack := c.retStack.drop 1 }))) s

def execJmpi (sa : Nat) (s : State) : Host.Outcome State Fault Refusal := runAct (jumpReg 0x09 sa) s

/-- LOOP compares the decremented value, modulo 2^64 (R326). -/
def loopAct (a target : Nat) : Act Unit := do
  prepS 0x0A [] [] [a]
  let x ← readG a
  let s ← get
  if x - 1 ≠ 0 then
    checkTarget (target32 s.me.pc target)
    writeG a (x - 1)
    goto (target32 s.me.pc target)
  else
    writeG a (x - 1)
    finish

def execLoop (a target : Nat) (s : State) : Host.Outcome State Fault Refusal := runAct (loopAct a target) s

/-- END waits for pending registers and for the context's stores, traps when a poisoned register is still unread (R120, R350),
releases its streams (R387), and ends the work of its context (R329). -/
def endAct : Act Unit := do
  let s ← get
  if s.me.pend ≠ 0 || s.me.stores ≠ 0 then stall
  match s.me.poison.find? (fun p => !s.me.seen.getLsbD p.1) with
  | some (r, p) =>
    stop (.trap { cause := p.cause, epc := s.me.pc, eaddr := p.addr, einfo := p.info, pois := true, eng := false, job := 0 }
      (some r))
  | none =>
    s.me.streams.forM (fun t => releaseStream t.1)
    let s ← get
    if s.curCtx < 4 then set (s.endThread s.curCore s.curCtx)
    else
      match s.endHandler s.curCore s.curCtx with
      | some s' => set s'
      | none => stall

def execEndWork (s : State) : Host.Outcome State Fault Refusal := runAct endAct s

/-- SLEEP (R330): returns at once on a latched event or a count of 0; otherwise the context sleeps, with its deadline and
mask, until SLEEP_WAKE. A handler does not wait: ILL with EINFO 0. -/
def sleepAct (sa mask : Nat) : Act Unit := do
  let s ← get
  if 4 ≤ s.curCtx then ill 0
  if s.me.sleep.isSome then stall
  prepS 0x0B [sa] [] []
  let n ← readG sa
  let m := BitVec.ofNat 7 mask
  if s.me.latch &&& m ≠ 0 || n = 0 then
    modify (fun x => x.modMe (fun c => { c with latch := c.latch &&& ~~~m }))
    finish
  else
    modify (fun x => x.modMe (fun c => { c with sleep := some (x.coreAc x.curCore + n.toNat, m.toNat) }))

def execSleep (sa mask : Nat) (s : State) : Host.Outcome State Fault Refusal := runAct (sleepAct sa mask) s

/-- SLEEP_WAKE ends a context's SLEEP: an event of its mask is latched, or its count has passed (R330). -/
def execSleepWake (core ctx : Nat) (countExpired : Bool) (s : State) : Host.Outcome State Fault Refusal :=
  runEvent (fun s =>
    match (s.ctxAt core ctx).sleep with
    | none => s
    | some (t, m) =>
      let c := s.ctxAt core ctx
      if (countExpired && decide (t ≤ s.coreAc core)) || c.latch &&& BitVec.ofNat 7 m ≠ 0 then
        s.modCtx core ctx (fun c =>
          { c with sleep := none, latch := c.latch &&& ~~~(BitVec.ofNat 7 m), pc := nextPc c.pc c.lineN })
      else s) s

/-- An instruction that completes and then raises its trap, with EPC naming the next instruction (R332, R442). -/
def trapAfter (cause : Nat) (info : Word) : Act Unit := do
  advance
  modify (fun s =>
    s.takeTrap s.curCore s.curCtx
      { cause := cause, epc := s.me.pc, eaddr := 0, einfo := info, pois := false, eng := false, job := 0 })

/-- BRK raises cause 19 to the supervisor with EINFO bit 63 set (R332, R270). -/
def execBrk (n : Nat) (s : State) : Host.Outcome State Fault Refusal := runAct (trapAfter cSYSCALL (ofN (2 ^ 63 + n % 1024))) s

/-- TRAPI raises SOFT (R332). -/
def execTrapi (n : Nat) (s : State) : Host.Outcome State Fault Refusal := runAct (trapAfter cSOFT (ofN (n % 1024))) s

end Sys2Proof.Machine
end

