-- ==== Sys2Proof/Machine/Integer.lean ====
section
/-! DEFINITION. Integer instructions (R333 to R339). -/

namespace Sys2Proof.Machine

def ldiAct (a : Nat) (imm : Word) : Act Unit := do
  prepS 0x20 [] [a] []
  writeG a imm
  finish

def execLdi (a : Nat) (imm : Word) (s : State) : Host.Outcome State Fault Refusal := runAct (ldiAct a imm) s

/-! ## The arithmetic group (R334, R335) -/

/-- DIV and REM (R335): truncation towards zero, with the cases of Table 4. -/
def divS (w : Nat) (a b : Int) : Int := if b = 0 then -1 else if a = -(2 ^ (w - 1)) ∧ b = -1 then a else a.tdiv b
def remS (w : Nat) (a b : Int) : Int := if b = 0 then a else if a = -(2 ^ (w - 1)) ∧ b = -1 then 0 else a.tmod b
def divU (w a b : Nat) : Nat := if b = 0 then 2 ^ w - 1 else a / b
def remU (a b : Nat) : Nat := if b = 0 then a else a % b

/-- The expression of Table 3 of R334. -/
def arithX (sub w ty : Nat) (x y : Word) : Int :=
  let ua := x.toNat % 2 ^ w
  let ub := y.toNat % 2 ^ w
  let ia := signed x.toNat w
  let ib := signed y.toNat w
  let oa : Int := if ty < 4 then ia else ua
  let ob : Int := if ty < 4 then ib else ub
  match sub with
  | 0 => oa + ob
  | 1 => oa - ob
  | 2 => oa * ob
  | 3 => (ia * ib).fdiv (2 ^ w)
  | 4 => ((ua * ub / 2 ^ w : Nat) : Int)
  | 5 => divS w ia ib
  | 6 => divU w ua ub
  | 7 => remS w ia ib
  | 8 => remU ua ub
  | 9 => min ia ib
  | 10 => max ia ib
  | 11 => min ua ub
  | 12 => max ua ub
  | 13 => if ua = ub then 1 else 0
  | 14 => if ia < ib then 1 else 0
  | _ => if ua < ub then 1 else 0

/-- The result of the arithmetic group: .sat clamps (R232), SEQ to SLTN are not extended. -/
def arithResult (sub ty : Nat) (sat : Bool) (x y : Word) : Word :=
  let w := tyWidth ty
  let v := arithX sub w ty x y
  let v := if sat then clampInt (decide (ty < 4)) w v else v
  if 13 ≤ sub then ofZ v else extTy v w ty

/-- A three-register instruction on g registers: `f` of the two sources goes to the destination. -/
def binary (op a sa sb : Nat) (f : Word → Word → Word) : Act Unit := do
  prepS op [sa, sb] [a] []
  let x ← readG sa
  let y ← readG sb
  writeG a (f x y)
  finish

def execAdd (a sa sb ty : Nat) (sat : Bool) (s : State) : Host.Outcome State Fault Refusal :=
  runAct (binary 0x21 a sa sb (arithResult 0 ty sat)) s
def execSub (a sa sb ty : Nat) (sat : Bool) (s : State) : Host.Outcome State Fault Refusal :=
  runAct (binary 0x21 a sa sb (arithResult 1 ty sat)) s
def execMul (a sa sb ty : Nat) (sat : Bool) (s : State) : Host.Outcome State Fault Refusal :=
  runAct (binary 0x21 a sa sb (arithResult 2 ty sat)) s
def execMulh (a sa sb ty : Nat) (s : State) : Host.Outcome State Fault Refusal :=
  runAct (binary 0x21 a sa sb (arithResult 3 ty false)) s
def execMulhn (a sa sb ty : Nat) (s : State) : Host.Outcome State Fault Refusal :=
  runAct (binary 0x21 a sa sb (arithResult 4 ty false)) s
def execDiv (a sa sb ty : Nat) (s : State) : Host.Outcome State Fault Refusal :=
  runAct (binary 0x21 a sa sb (arithResult 5 ty false)) s
def execDivn (a sa sb ty : Nat) (s : State) : Host.Outcome State Fault Refusal :=
  runAct (binary 0x21 a sa sb (arithResult 6 ty false)) s
def execRem (a sa sb ty : Nat) (s : State) : Host.Outcome State Fault Refusal :=
  runAct (binary 0x21 a sa sb (arithResult 7 ty false)) s
def execRemn (a sa sb ty : Nat) (s : State) : Host.Outcome State Fault Refusal :=
  runAct (binary 0x21 a sa sb (arithResult 8 ty false)) s
def execMin (a sa sb ty : Nat) (s : State) : Host.Outcome State Fault Refusal :=
  runAct (binary 0x21 a sa sb (arithResult 9 ty false)) s
def execMax (a sa sb ty : Nat) (s : State) : Host.Outcome State Fault Refusal :=
  runAct (binary 0x21 a sa sb (arithResult 10 ty false)) s
def execMinn (a sa sb ty : Nat) (s : State) : Host.Outcome State Fault Refusal :=
  runAct (binary 0x21 a sa sb (arithResult 11 ty false)) s
def execMaxn (a sa sb ty : Nat) (s : State) : Host.Outcome State Fault Refusal :=
  runAct (binary 0x21 a sa sb (arithResult 12 ty false)) s
def execSeq (a sa sb ty : Nat) (s : State) : Host.Outcome State Fault Refusal :=
  runAct (binary 0x21 a sa sb (arithResult 13 ty false)) s
def execSlt (a sa sb ty : Nat) (s : State) : Host.Outcome State Fault Refusal :=
  runAct (binary 0x21 a sa sb (arithResult 14 ty false)) s
def execSltn (a sa sb ty : Nat) (s : State) : Host.Outcome State Fault Refusal :=
  runAct (binary 0x21 a sa sb (arithResult 15 ty false)) s

/-! ## Logic and shifts (R336) -/

/-- The logic and shift group over `w` bits, as a number below 2^w (or an integer for SRA). -/
def logicX (sub w : Nat) (x y : Word) : Int :=
  let ua := x.toNat % 2 ^ w
  let ub := y.toNat % 2 ^ w
  let c := ub % w
  match sub with
  | 0 => (ua &&& ub : Nat)
  | 1 => (ua ||| ub : Nat)
  | 2 => (ua ^^^ ub : Nat)
  | 3 => (ua &&& (2 ^ w - 1 - ub) : Nat)
  | 4 => (ua * 2 ^ c : Nat)
  | 5 => (ua / 2 ^ c : Nat)
  | 6 => (signed x.toNat w).fdiv (2 ^ c)
  | _ => if c = 0 then ua else ((ua * 2 ^ c + ua / 2 ^ (w - c)) % 2 ^ w : Nat)

def logicResult (sub ty : Nat) (x y : Word) : Word := extTy (logicX sub (tyWidth ty) x y) (tyWidth ty) ty

def execAnd (a sa sb ty : Nat) (s : State) : Host.Outcome State Fault Refusal :=
  runAct (binary 0x22 a sa sb (logicResult 0 ty)) s
def execOr (a sa sb ty : Nat) (s : State) : Host.Outcome State Fault Refusal :=
  runAct (binary 0x22 a sa sb (logicResult 1 ty)) s
def execXor (a sa sb ty : Nat) (s : State) : Host.Outcome State Fault Refusal :=
  runAct (binary 0x22 a sa sb (logicResult 2 ty)) s
def execAndn (a sa sb ty : Nat) (s : State) : Host.Outcome State Fault Refusal :=
  runAct (binary 0x22 a sa sb (logicResult 3 ty)) s
def execShl (a sa sb ty : Nat) (s : State) : Host.Outcome State Fault Refusal :=
  runAct (binary 0x22 a sa sb (logicResult 4 ty)) s
def execShr (a sa sb ty : Nat) (s : State) : Host.Outcome State Fault Refusal :=
  runAct (binary 0x22 a sa sb (logicResult 5 ty)) s
def execSra (a sa sb ty : Nat) (s : State) : Host.Outcome State Fault Refusal :=
  runAct (binary 0x22 a sa sb (logicResult 6 ty)) s
def execRol (a sa sb ty : Nat) (s : State) : Host.Outcome State Fault Refusal :=
  runAct (binary 0x22 a sa sb (logicResult 7 ty)) s

/-! ## The unary group (R337) -/

/-- A one-source instruction on g registers. -/
def unary (op a sa : Nat) (f : Word → Word) : Act Unit := do
  prepS op [sa] [a] []
  let x ← readG sa
  writeG a (f x)
  finish

def clzResult (ty : Nat) (x : Word) : Word := ofN (leadingZeros x.toNat (tyWidth ty))
def ctzResult (ty : Nat) (x : Word) : Word := ofN (trailingZeros x.toNat (tyWidth ty))
def popcResult (ty : Nat) (x : Word) : Word := ofN (popCount x.toNat (tyWidth ty))
def bswpResult (ty : Nat) (x : Word) : Word :=
  extTy (natOfBytes (bytesOf x.toNat (tyWidth ty / 8)).reverse) (tyWidth ty) ty

def execClz (a sa ty : Nat) (s : State) : Host.Outcome State Fault Refusal := runAct (unary 0x23 a sa (clzResult ty)) s
def execCtz (a sa ty : Nat) (s : State) : Host.Outcome State Fault Refusal := runAct (unary 0x23 a sa (ctzResult ty)) s
def execPopc (a sa ty : Nat) (s : State) : Host.Outcome State Fault Refusal := runAct (unary 0x23 a sa (popcResult ty)) s
def execBswp (a sa ty : Nat) (s : State) : Host.Outcome State Fault Refusal := runAct (unary 0x23 a sa (bswpResult ty)) s
def execSext (a sa ty : Nat) (s : State) : Host.Outcome State Fault Refusal :=
  runAct (unary 0x23 a sa (fun x => ofZ (signed x.toNat (tyWidth ty)))) s
def execZext (a sa ty : Nat) (s : State) : Host.Outcome State Fault Refusal :=
  runAct (unary 0x23 a sa (fun x => ofN (x.toNat % 2 ^ tyWidth ty))) s
def execMov (a sa ty : Nat) (s : State) : Host.Outcome State Fault Refusal :=
  runAct (unary 0x23 a sa (fun x => extTy (x.toNat % 2 ^ tyWidth ty : Nat) (tyWidth ty) ty)) s

/-! ## The immediate group (R338) and SEL (R339) -/

def execAddi (a sa imm : Nat) (s : State) : Host.Outcome State Fault Refusal :=
  runAct (unary 0x24 a sa (fun x => x + sextImm imm 16)) s
def execAndi (a sa imm : Nat) (s : State) : Host.Outcome State Fault Refusal :=
  runAct (unary 0x24 a sa (fun x => x &&& sextImm imm 16)) s
def execOri (a sa imm : Nat) (s : State) : Host.Outcome State Fault Refusal :=
  runAct (unary 0x24 a sa (fun x => x ||| sextImm imm 16)) s
def execXori (a sa imm : Nat) (s : State) : Host.Outcome State Fault Refusal :=
  runAct (unary 0x24 a sa (fun x => x ^^^ sextImm imm 16)) s
def execShli (a sa count : Nat) (s : State) : Host.Outcome State Fault Refusal :=
  runAct (unary 0x24 a sa (fun x => x <<< (count % 64))) s
def execShri (a sa count : Nat) (s : State) : Host.Outcome State Fault Refusal :=
  runAct (unary 0x24 a sa (fun x => x >>> (count % 64))) s
def execSrai (a sa count : Nat) (s : State) : Host.Outcome State Fault Refusal :=
  runAct (unary 0x24 a sa (fun x => x.sshiftRight (count % 64))) s

def selAct (a sa sb sc : Nat) : Act Unit := do
  prepS 0x25 [sa, sb, sc] [a] []
  let x ← readG sa
  let y ← readG sb
  let z ← readG sc
  writeG a (if x ≠ 0 then y else z)
  finish

def execSel (a sa sb sc : Nat) (s : State) : Host.Outcome State Fault Refusal := runAct (selAct a sa sb sc) s

end Sys2Proof.Machine
end

