-- ==== Sys2Proof/Machine/Address.lean ====
section
/-! DEFINITION. Address and bit-field instructions (R341 to R347). -/

namespace Sys2Proof.Machine

/-- LEA writes the effective address, with no access and no check (R341). -/
def leaAct (a : Nat) (m : MemOp) : Act Unit := do
  prepS 0x26 (memSrcs m) [a] []
  let x ← effAddr m
  writeG a x
  finish

def execLea (a : Nat) (m : MemOp) (s : State) : Host.Outcome State Fault Refusal := runAct (leaAct a m) s

/-- PADD carries within bits [53:0] (R342). -/
def padd (p d : Word) : Word := setBits p 53 0 (p + d).toNat

def execPadd (a sa sb : Nat) (s : State) : Host.Outcome State Fault Refusal := runAct (binary 0x27 a sa sb padd) s
def execPaddImm (a sa imm : Nat) (s : State) : Host.Outcome State Fault Refusal :=
  runAct (unary 0x27 a sa (fun p => padd p (sextImm imm 16))) s
def execPset (a sa fmt blog : Nat) (s : State) : Host.Outcome State Fault Refusal :=
  runAct (unary 0x27 a sa (fun p => setBits (setBits p 63 58 fmt) 57 54 blog)) s
def execPget (a sa : Nat) (s : State) : Host.Outcome State Fault Refusal :=
  runAct (unary 0x27 a sa (fun p => ofN (bits p 63 52))) s
def execPstrip (a sa : Nat) (s : State) : Host.Outcome State Fault Refusal :=
  runAct (unary 0x27 a sa (fun p => setBits p 63 54 0)) s

/-- The pointer that any core of the torus can use, if there is one (R343). -/
def globalPtr (dev core : Nat) (p : Word) : Option Word :=
  let join (space d rest : Nat) : Word := setBits p 53 0 (space * 2 ^ 52 + d * 2 ^ 40 + rest)
  match bits p 53 52 with
  | 0 => if 2 ^ 40 ≤ bits p 51 0 then none else some (join 2 dev (bits p 39 0))
  | 3 =>
    match bits p 51 48 with
    | 0 => some (join 1 dev (core * 2 ^ 28 + bits p 17 0))
    | 1 => some (join 1 dev ((core / 8 * 8 + bits p 20 18) * 2 ^ 28 + bits p 17 0))
    | _ => none
  | _ => some p

def pglbAct (a sa : Nat) : Act Unit := do
  prepS 0x27 [sa] [a] []
  let p ← readG sa
  let s ← get
  match globalPtr s.dev s.curCore p with
  | some q =>
    writeG a q
    finish
  | none => trapNow cXLATE p 0

def execPglb (a sa : Nat) (s : State) : Host.Outcome State Fault Refusal := runAct (pglbAct a sa) s

/-- The result word of PCHK (R344). -/
def chkWord (cause : Nat) (remote : Bool) : Word :=
  ofN ((if cause = 0 then 0 else 2 ^ 63) + remote.toNat * 2 ^ 62 + cause)

/-- The pointer names another device. -/
def namesDevice (dev : Nat) (p : Word) : Bool := (bits p 53 52 == 1 || bits p 53 52 == 2) && bits p 51 40 != dev

/-- PCHK (R344): of a pointer to another device, the checks of R129 that need no table are made here. -/
def pchkAct (a sa : Nat) (w : Bool) : Act Unit := do
  prepS 0x27 [sa] [a] []
  let p ← readG sa
  let s ← get
  let away := namesDevice s.dev p
  let v ← (do
    match ← resolveAt s.curCore s.curPart (s.sregAt s.curCore s.curCtx) p (if w then .write else .read) with
    | .error f => return chkWord f.cause away
    | .ok (.far _) =>
      return chkWord (if bits p 53 52 = 1 ∧ (1920 ≤ bits p 39 28 ∨ 2 ^ 18 ≤ bits p 27 0) then cXLATE else 0) true
    | .ok (.mem _ _) => return chkWord 0 false
    | .ok (.reg off) =>
      if off % 8 ≠ 0 then return chkWord cALIGN false
      else
        match regAt off with
        | some r => return chkWord (if s.regMay r w then 0 else cPERM) false
        | none => return chkWord cPERM false : Act Word)
  writeG a v
  finish

def execPchk (a sa : Nat) (w : Bool) (s : State) : Host.Outcome State Fault Refusal := runAct (pchkAct a sa w) s

/-! ## Bit fields (R345 to R347) -/

def binsAct (a sa sb : Nat) : Act Unit := do
  prepS 0x28 [sa, sb] [] [a]
  let x ← readG sa
  let m ← readG sb
  let old ← readG a
  writeG a ((old &&& ~~~m) ||| (x &&& m))
  finish

def execBins (a sa sb : Nat) (s : State) : Host.Outcome State Fault Refusal := runAct (binsAct a sa sb) s

def execBext (a sa lsb width : Nat) (s : State) : Host.Outcome State Fault Refusal :=
  runAct (unary 0x28 a sa (fun x => ofN (x.toNat / 2 ^ lsb % 2 ^ width))) s

/-- FFCS: the lowest clear bit, which is set; 64 when there is none (R346). -/
def ffcsAct (a sa : Nat) : Act Unit := do
  prepS 0x28 [] [a] [sa]
  let v ← readG sa
  let k := trailingZeros (~~~v).toNat 64
  if k < 64 then writeG sa (v ||| ofN (2 ^ k))
  writeG a (ofN k)
  finish

def execFfcs (a sa : Nat) (s : State) : Host.Outcome State Fault Refusal := runAct (ffcsAct a sa) s

/-- PLSET: sets bits unless the population count would pass the limit (R347). -/
def plsetAct (a sa sb limit : Nat) : Act Unit := do
  prepS 0x28 [sb] [a] [sa]
  let v ← readG sa
  let b ← readG sb
  let nw := v ||| b
  if popCount nw.toNat 64 ≤ limit then
    writeG sa nw
    writeG a (ofN stOK)
  else writeG a (ofN stFULL)
  finish

def execPlset (a sa sb limit : Nat) (s : State) : Host.Outcome State Fault Refusal := runAct (plsetAct a sa sb limit) s

end Sys2Proof.Machine
end

