-- ==== Sys2Proof/Machine/Memory.lean ====
section
/-! DEFINITION. Loads, stores, cache control, pinning, migration and device-register accesses (R121 to R123, R138 to R140,
R348 to R354, R364). -/

namespace Sys2Proof.Machine

/-! ## Migration (R122, R123) -/

/-- A cluster is reserved (R89). -/
def State.reservedCl (s : State) (cl : Nat) : Bool := s.reserved.any (fun r => r.2.2.contains cl)

/-- The conditions of R122 on the running thread. -/
def State.mayMigrate (s : State) : Bool :=
  let c := s.me
  decide (s.curCtx < 4) && c.vwin == 0 && c.streams.isEmpty && !s.spec && (s.openJobs s.curCore s.curCtx).isEmpty &&
    !(c.q.any (fun h => (s.bufOf (clusterOf s.curCore) h.2).isSome)) &&
    (match s.taskOf s.curCore s.curCtx with
     | some (_, t) => !t.gang && t.threads.length == 1
     | none => false)

/-- The thread asks to move (R123): its registers have arrived, its stores are acknowledged, and every other access of it to another core
or device is performed, since the move is a release at .sys scope; it waits for the answer. -/
def startMove (dev core : Nat) (access : Bool) (statusReg : Nat) : Act Unit := do
  let s ← get
  if s.me.pend ≠ 0 || s.me.stores ≠ 0 || !(s.outOf s.curCore s.curCtx).isEmpty then stall
  let m : Migration :=
    { srcDev := s.dev, srcCore := s.curCore, srcCtx := s.curCtx, dstDev := dev, dstCore := core, dstCtx := 0,
      part := s.curPart, access := access, statusReg := statusReg, vtime := s.me.ident.vtime, image := [] }
  modify (fun x =>
    let y := x.modMe (fun c => { c with phase := .moving, moveDev := some dev })
    if dev = x.dev then y.push (.migrationRequest m) else y.fabSend dev 0 13 x.curPart 0 0 (.migrRequest m))

/-- An access to a page marked travel whose home core is another core moves the thread when it may move; a thread that has just
been refused performs the access where it is (R122). Answers whether the thread is moving. -/
def travels (leaf : Word) : Act Bool := do
  let s ← get
  let home := bits leaf 62 52
  if bit leaf 4 && home ≠ s.curCore && s.mayMigrate && s.partOfCore home == some s.curPart &&
      !s.reservedCl (clusterOf home) then
    if s.me.stay then
      modify (fun x => x.modMe (fun c => { c with stay := false }))
      return false
    else
      startMove s.dev home true 0
      return true
  else return false

/-! ## LD and ST (R349 to R352) -/

/-- Bytes of an access of a TY code (R311). -/
def tyBytes (ty : Nat) : Nat := tyWidth ty / 8

/-- Alignment of an access (R348). -/
def aligned (p : Word) (w : Nat) : Act Unit := do
  if bits p 53 0 % w ≠ 0 then trapNow cALIGN p (ofN w)

/-- The request of the running context to the device or the core that holds the target. -/
def State.request (s : State) (reg : Nat) (q : Word) (ty : Nat) (op : RemoteOp) : RemoteAccess :=
  { src := s.dest reg, srcDev := s.dev, part := s.curPart, ptr := q, ty := ty, op := op }

/-- Sends an access of the running context to another device on channel CH, or to the scratchpad of another core of this one (R121, R127). -/
def State.sendTo (s : State) (dev ch : Nat) (acq : Bool) (r : RemoteAccess) : State :=
  if dev = s.dev then s.sendPeer acq r else s.sendAccess dev ch acq r

/-- A load or an atomic that another core or device performs: behind the thread's accesses to the same words (R254), with a long-latency slot
and the destination pending (R119, R350). -/
def awayLoad (a d : Nat) (acq : Bool) (q : Word) (n ty : Nat) (op : RemoteOp) : Act Unit := do
  sameWait d (wordsOf q n) (opLane 0 op).1
  let s ← get
  takeSlot s.curCore
  modify (fun x => (x.setPend (x.dest a)).sendTo d 0 acq (x.request a q ty op))
  advance

/-- A store, or an AUPD, that another core or device performs: it holds an entry of the store queue and a long-latency slot until it is
acknowledged (R350). -/
def awayStore (d ch : Nat) (acq : Bool) (q : Word) (n ty : Nat) (op : RemoteOp) : Act Unit := do
  sameWait d (wordsOf q n) (opLane ch op).1
  storeRoom 1
  modify (fun x => (x.sendTo d ch acq (x.request (if opStores op then 0 else 16) q ty op)).storeOut)
  advance

/-- A scalar load of the running context: the value, or none when it will arrive in register `a` (R350). One that the scratchpad of another
core serves takes a long-latency slot, like one to another device. A value that the core itself serves arrives at once, as a pending value
(R330). -/
def ldAct (a : Nat) (m : MemOp) (ty ord : Nat) : Act Unit := do
  prep 0x50 (memSrcs m) [a]
  releaseWait (if ord = 4 then 4 else 0)
  let p ← effAddr m
  let w := tyBytes ty
  aligned p w
  let s ← get
  let acq := ord == 1 || ord == 4
  match ← resolve p .read with
  | .reg off =>
    if w ≠ 8 then trapNow cALIGN p (ofN w)
    let v ← loadReg off p
    writeG a v
    advance
  | .far d => awayLoad a d acq p w ty .load
  | .mem loc leaf =>
    if ← travels leaf then return
    if s.peerLoc loc then awayLoad a s.dev acq (s.peerPtr loc) w ty .load
    else
      let bs ← readLoc s.curCore s.curCtx loc w p
      writeG a (extTy (natOfBytes bs) (8 * w) ty)
      modify (fun x => x.latch x.curCore x.curCtx 4)
      advance

def execLd (a : Nat) (m : MemOp) (ty scp ord : Nat) (s : State) : Host.Outcome State Fault Refusal :=
  let _ := scp
  runAct (ldAct a m ty ord) s

/-- ST: a store to another core or device is held in a speculative task (R97, R352); a held write in pieces writes those (R371). -/
def stAct (i : Instr) (a : Nat) (m : MemOp) (ty ord ch : Nat) : Act Unit := do
  let s ← get
  if !s.me.wout.isEmpty then
    writePieces s.me.wout
    advance
  else
    prep 0x51 (memSrcs m ++ [a]) []
    releaseWait ord
    let p ← effAddr m
    let v ← readG a
    let w := tyBytes ty
    let s ← get
    aligned p w
    let bs := bytesOf v.toNat w
    let away (d : Nat) (q : Word) : Act Unit := holding i [] none (awayStore d ch (ord == 4) q w ty (.store (ofN (natOfBytes bs))))
    match ← resolve p .write with
    | .reg off =>
      if w ≠ 8 then trapNow cALIGN p (ofN w)
      notSpec
      storeReg off p v
      advance
    | .far d => away d p
    | .mem loc leaf =>
      if ← travels leaf then return
      if s.peerLoc loc then away s.dev (s.peerPtr loc)
      else
        queueRoom
        writeLoc s.curCore s.curCtx loc bs
        advance

def execSt (a : Nat) (m : MemOp) (ty scp ord ch : Nat) (s : State) : Host.Outcome State Fault Refusal :=
  runAct (stAct (.st a m ty scp ord ch) a m ty ord ch) s

/-- STORE_ACKNOWLEDGE: a store to another device is acknowledged; its store-queue entry and its slot are free (R350). Context 8 stands for
work that has ended. -/
def execStoreAcknowledge (core ctx : Nat) (s : State) : Host.Outcome State Fault Refusal :=
  runEvent (fun s =>
    let s1 := s.modCore core (fun c => { c with storeq := c.storeq - 1, slots := c.slots - 1 })
    if 8 ≤ ctx then s1 else s1.modCtx core ctx (fun c => { c with stores := c.stores - 1 })) s

/-- PENDING_VALUE_ARRIVE: the value or the fault of a pending register (R119, R120), or of a word of another device that a vector
instruction, a stream or an engine reads (R371), or of a completion counter there (R76). A register whose work has gone (rolled back,
killed) is not written. -/
def execPendingValueArrive (dst : RegDest) (v : Reply) (s : State) : Host.Outcome State Fault Refusal :=
  runEvent (fun s =>
    if 16 < dst.reg then
      match s.counts.find? (fun c => c.id + 16 == dst.reg) with
      | some c =>
        let s1 : State := { s with counts := s.counts.filter (fun x => x.id != c.id) }
        (match v with
         | .poison p => s1.refuseCnt c.part c.cnt c.taskId { cause := p.cause, info := p.info }
         | .value _ => s1)
      | none => { s with far := s.far.map (fun f => if f.id + 16 = dst.reg then { f with reply := some v } else f) }
    else if dst.reg = 16 then s
    else
      let s0 := { s with sentTuples := s.sentTuples.filter (fun t => t.1 != dst), splits := s.splits.filter (fun h => h.src != dst) }
      let s1 := s0.modCore dst.core (fun c => { c with slots := c.slots - 1 })
      if (s1.ctxAt dst.core dst.ctx).serial ≠ dst.work then s1
      else
        let s2 := s1.modCtx dst.core dst.ctx (fun c =>
          { c with pend := c.pend &&& ~~~(BitVec.ofNat 16 (2 ^ dst.reg)),
                   blocked := c.blocked.filter (fun r => r.src != dst) })
        let s3 := match v with
          | .value w => s2.modCtx dst.core dst.ctx (fun c => c.setG dst.reg w)
          | .poison p => s2.poisonReg dst p
        s3.latch dst.core dst.ctx 4) s

/-- REMOTE_FAULT_DELIVER: the fault of a store to another device goes to the supervisor at the context's next instruction
boundary, with EPC naming the instruction not yet issued (R350). -/
def execRemoteFaultDeliver (core ctx : Nat) (p : Poison) (s : State) : Host.Outcome State Fault Refusal :=
  runEvent (fun s =>
    let c := s.ctxAt core ctx
    if c.phase = .idle || c.phase = .ended then s
    else if c.phase ≠ .running || c.heldTrap.isSome then s.push (.remoteFaultDeliver core ctx p)
    else
      let epc := c.resumePc
      s.takeTrap core ctx
        { cause := p.cause, epc := epc, eaddr := p.addr, einfo := p.info, pois := false, eng := false, job := 0 }) s

/-! ## Prefetch and cache control (R353) -/

/-- PF starts a fill; it never traps (R353). -/
def pfAct (m : MemOp) : Act Unit := do
  noStream 0x52 (memSrcs m)
  waitPend (memSrcs m)
  let p ← effAddr m
  let s ← get
  if bits p 53 52 = 0 then
    match ← resolveAt s.curCore s.curPart (s.sregAt s.curCore s.curCtx) p .read with
    | .ok (.mem loc _) =>
      modify (fun x => if x.homeCounts x.curCore x.curCtx loc then x.push (.homeRequest (loc / 64) (x.nodeOf x.curCore)) else x)
    | _ => pure ()
  advance

def execPf (m : MemOp) (s : State) : Host.Outcome State Fault Refusal := runAct (pfAct m) s

/-- CWB and CINV: checked as a load; the recall of R137 runs and an owning engine is waited for. Where copies stand is not
state of this model, so nothing else changes (R353, DESIGN CHOICE, log entry 3). -/
def cacheAct (op : Nat) (m : MemOp) : Act Unit := do
  prep op (memSrcs m) []
  let p ← effAddr m
  let s ← get
  match ← resolve p .read with
  | .mem loc _ =>
    if loc < 2 ^ 39 then
      queueRoom
      enterLine s.curCore s.curCtx (loc / 64 * 64) 64 false
  | _ => pure ()
  advance

def execCwb (m : MemOp) (s : State) : Host.Outcome State Fault Refusal := runAct (cacheAct 0x56 m) s
def execCinv (m : MemOp) (s : State) : Host.Outcome State Fault Refusal := runAct (cacheAct 0x57 m) s

/-- CZERO writes the line with zero, as one store (R353); in sub-space 2 it traps ALIGN with EINFO 64. -/
def czeroAct (i : Instr) (m : MemOp) : Act Unit := do
  prep 0x58 (memSrcs m) []
  let p ← effAddr m
  let s ← get
  let zeros : List Byte := List.replicate 64 0
  let away (d : Nat) (q : Word) : Act Unit :=
    holding i [] none (awayStore d 0 false q 64 7 (.pieces [{ ptr := q, bytes := zeros }]))
  match ← resolve p .write with
  | .reg _ => trapNow cALIGN p 64
  | .far d => away d (linePtr p)
  | .mem loc leaf =>
    if ← travels leaf then return
    if s.peerLoc loc then away s.dev (linePtr (s.peerPtr loc))
    else
      queueRoom
      writeLoc s.curCore s.curCtx (loc / 64 * 64) zeros
      advance

def execCzero (m : MemOp) (s : State) : Host.Outcome State Fault Refusal := runAct (czeroAct (.czero m) m) s

/-! ## Pinning (R138 to R140, R354) -/

/-- The home slice of a line (R130): die and node. -/
def homeSlice (pa : Nat) : Nat × Nat :=
  (pa / 2 ^ 37 % 4,
   (pa / 2 ^ 6 % 64) ^^^ (pa / 2 ^ 12 % 64) ^^^ (pa / 2 ^ 18 % 64) ^^^ (pa / 2 ^ 24 % 64) ^^^ (pa / 2 ^ 30 % 64) ^^^
     (pa / 2 ^ 36 % 2 * 32))

/-- The set of a slice in which a line stands: one of 2,048, so that a slice of 14 ways holds 28,672 lines (R125). -/
def l2SetOf (line : Nat) : Nat := Config.l2Set line % 2048

/-- The slice that holds a line: its home, unless it has moved (R131). -/
def State.holderOf (s : State) (line : Nat) : Nat :=
  let h := (s.home.get line).holder
  if h < 64 then h else (homeSlice (line * 64)).2

/-- A migrated line returns to its home slice, whose forwarding entry is freed (R131, R138). -/
def State.returnHome (s : State) (line : Nat) : State :=
  let home := homeSlice (line * 64)
  if s.holderOf line = home.2 then { s with home := s.home.modify line (fun h => { h with run := 0 }) }
  else
    { s with home := s.home.modify line (fun h => { h with holder := home.2, run := 0 }),
             forwards := s.forwards.modify (home.1 * 64 + home.2) (fun n => n - 1) }

/-- The lines pinned in the set of a line: same slice, same set. A line that two partitions have pinned is one line (R138). -/
def State.pinsInSet (s : State) (line : Nat) : Nat :=
  ((s.pins.filter (fun p => homeSlice (p.line * 64) == homeSlice (line * 64) && l2SetOf p.line == l2SetOf line)).map
    (fun p => p.line)).eraseDups.length

/-- The page is held by a near-bank unit in compute mode (R354). -/
def State.unitHolds (s : State) (pa : Nat) : Bool :=
  s.unit.cells.any (fun u => u.2.state != 0 && u.2.regions.contains (pa / 2 ^ 21 * 2 ^ 21))

/-- A line that holds the address of a pinning instruction: none for a scratchpad, a register or another device. A fault of
the translation is precise. -/
def pinLine (p : Word) : Act (Option Nat) := do
  match ← resolve p .read with
  | .mem loc _ => return if loc < 2 ^ 39 then some (loc / 64) else none
  | _ => return none

/-- The virtual address of a local pointer. -/
def State.vaOf (p : Word) : Nat := if bits p 53 52 = 0 then bits p 51 0 else bits p 39 0

/-- LOCK pins a line (R138, R354). -/
def lockAct (a : Nat) (m : MemOp) : Act Unit := do
  prep 0x53 (memSrcs m) [a]
  notSpec
  let p ← effAddr m
  let s ← get
  let own := bits p 53 52 = 0 ∨ (bits p 53 52 = 2 ∧ bits p 51 40 = s.dev)
  if own && (s.holdOn s.curPart (State.vaOf p)).isSome then
    writeG a (ofN stREFUSED)
  else
    match ← pinLine p with
    | none => writeG a (ofN stREFUSED)
    | some line =>
      let s ← get
      let mine := s.pins.filter (fun x => x.part == s.curPart)
      if s.unitHolds (line * 64) then writeG a (ofN stREFUSED)
      else if mine.any (fun x => x.line == line) then writeG a (ofN stOK)
      else if (s.part.get s.curPart).pinq ≤ mine.length then writeG a (ofN stQUOTA)
      else if 14 ≤ s.pinsInSet line then writeG a (ofN stFULL)
      else
        modify (fun x =>
          { x.returnHome line with
            pins := x.pins ++ [{ line := line, part := x.curPart, core := x.curCore, vline := State.vaOf p / 64 }] })
        writeG a (ofN stOK)
  advance

def execLock (a : Nat) (m : MemOp) (s : State) : Host.Outcome State Fault Refusal := runAct (lockAct a m) s

def unlockAct (a : Nat) (m : MemOp) : Act Unit := do
  prep 0x54 (memSrcs m) [a]
  notSpec
  let p ← effAddr m
  let line ← pinLine p
  let s ← get
  match line with
  | some l =>
    if s.pins.any (fun x => x.part == s.curPart && x.line == l) then
      modify (fun x => { x with pins := x.pins.filter (fun y => !(y.part == x.curPart && y.line == l)) })
      writeG a (ofN stOK)
    else writeG a (ofN stEMPTY)
  | none => writeG a (ofN stEMPTY)
  advance

def execUnlock (a : Nat) (m : MemOp) (s : State) : Host.Outcome State Fault Refusal := runAct (unlockAct a m) s

def lockqAct (a : Nat) (m : MemOp) : Act Unit := do
  prep 0x55 (memSrcs m) [a]
  let p ← effAddr m
  let line ← pinLine p
  let s ← get
  let used := (s.pins.filter (fun x => x.part == s.curPart)).length
  let pin := match line with
    | some l => s.pins.any (fun x => x.line == l)
    | none => false
  let lost := (s.coreAt s.curCore).plost
  modify (fun x => x.modCore x.curCore (fun c => { c with plost := false }))
  writeG a (ofN (used * 2 ^ 32 + lost.toNat * 2 + pin.toNat))
  advance

def execLockq (a : Nat) (m : MemOp) (s : State) : Host.Outcome State Fault Refusal := runAct (lockqAct a m) s

/-! ## MIGR (R364) -/

def migrAct (a sa : Nat) : Act Unit := do
  prep 0x6B [sa] [a]
  let p ← readG sa
  let s ← get
  let status (n : Nat) : Act Unit := do
    writeG a (ofN n)
    advance
  let move (dev core : Nat) (inPart : Bool) : Act Unit := do
    let s ← get
    if dev = s.dev && core == s.curCore then status stEMPTY
    else if !s.mayMigrate || !inPart then status stREFUSED
    else if s.me.stay then
      modify (fun x => x.modMe (fun c => { c with stay := false }))
      status stREFUSED
    else startMove dev core false a
  match bits p 53 52 with
  | 0 =>
    match ← resolve p .read with
    | .mem _ leaf =>
      if bit leaf 4 then
        let h := bits leaf 62 52
        move s.dev h (s.partOfCore h == some s.curPart && !s.reservedCl (clusterOf h))
      else status stEMPTY
    | _ => status stEMPTY
  | 1 =>
    let d := bits p 51 40
    let c := bits p 39 28
    if s.devices ≤ d ∨ 1920 ≤ c ∨ 2 ^ 18 ≤ bits p 27 0 then trapNow cXLATE p 0
    else move d c (d != s.dev || (s.partOfCore c == some s.curPart && !s.reservedCl (clusterOf c)))
  | _ => status stEMPTY

def execMigr (a sa : Nat) (s : State) : Host.Outcome State Fault Refusal := runAct (migrAct a sa) s

end Sys2Proof.Machine
end

