-- ==== Sys2Proof/Machine/Atomics.lean ====
section
/-! DEFINITION. Atomics, update-only reductions, fences and barriers (R136, R137, R355 to R363). -/

namespace Sys2Proof.Machine

/-- Width in bits of an atomic (R356). -/
def atWidth (ty : Nat) : Nat := if ty = 3 ∨ ty = 7 then 64 else 32

/-- What an atomic computes (R356): the value written, if it writes, and the result. `sub` is SUB; `old`, `b` are `w` bits. -/
def atomicOp (sub ty old b : Nat) (c : Word) : Option Nat × Word :=
  let w := atWidth ty
  let oldOut : Word := if ty = 10 then ofN old else extTy old w ty
  let f := ty = 10
  let s2 := fun (g : W32 → W32 → W32) => (g (BitVec.ofNat 32 old) (BitVec.ofNat 32 b)).toNat
  let sOld := signed old w
  let sB := signed b w
  match sub with
  | 0 => (some (if f then s2 fadd else (old + b) % 2 ^ w), oldOut)
  | 1 => (some (old &&& b), oldOut)
  | 2 => (some (old ||| b), oldOut)
  | 3 => (some (old ^^^ b), oldOut)
  | 4 => (some (if f then s2 fmin else if sB < sOld then b else old), oldOut)
  | 5 => (some (if f then s2 fmax else if sOld < sB then b else old), oldOut)
  | 6 => (some (min old b), oldOut)
  | 7 => (some (max old b), oldOut)
  | 8 => (some b, oldOut)
  | 9 => (if old = c.toNat % 2 ^ w then some b else none, oldOut)
  | 10 =>
    let k := trailingZeros (2 ^ w - 1 - old) w
    (if k < w then some (old ||| 2 ^ k) else none, ofN k)
  | _ =>
    let nw := old ||| b
    if popCount nw w ≤ min c.toNat w then (some nw, ofN stOK) else (none, ofN stFULL)

/-- An atomic at a local location by a context: its read, its write if it writes, and its result. -/
def atomicAt (core k loc : Nat) (p : Word) (sub ty : Nat) (b c : Word) : Act Word := do
  let n := atWidth ty / 8
  let bs ← readLoc core k loc n p
  let (nw, out) := atomicOp sub ty (natOfBytes bs) (b.toNat % 2 ^ atWidth ty) c
  match nw with
  | some v =>
    specAccess core k loc n true
    modify (fun s => (s.noteTable core k loc n).putBytes loc (bytesOf v n))
  | none => pure ()
  return out

/-- The atomic group (R355, R356), at another core or device with a pending destination and a long-latency slot (R119, R350): `srcs` are
its register sources, `hasDest` says whether field A receives the result. -/
def atomicAct (i : Instr) (sub a sa sb sc imm ty ord : Nat) (srcs : List Nat) : Act Unit := do
  prepIll 0x60 srcs [a] [sa] (fun s => isRegister (s.me.g.get sa + sextImm imm 16))
  releaseWait ord
  let base ← readG sa
  let p := base + sextImm imm 16
  let b ← readG sb
  let c ← readG sc
  let s ← get
  let n := atWidth ty / 8
  aligned p n
  let away (d : Nat) (q : Word) : Act Unit :=
    holding i [a] none (awayLoad a d (ord == 1 || decide (3 ≤ ord)) q n ty (.atomic sub b c))
  match ← resolve p .write with
  | .reg _ => ill 0
  | .far d => away d p
  | .mem loc leaf =>
    if ← travels leaf then return
    if s.peerLoc loc then away s.dev (s.peerPtr loc)
    else
      let out ← atomicAt s.curCore s.curCtx loc p sub ty b c
      writeG a out
      modify (fun x => x.latch x.curCore x.curCtx 4)
      advance

def execAadd (a sa sb imm ty scp ord : Nat) (s : State) : Host.Outcome State Fault Refusal :=
  runAct (atomicAct (.aadd a sa sb imm ty scp ord) 0 a sa sb sa imm ty ord [sa, sb]) s
def execAand (a sa sb imm ty scp ord : Nat) (s : State) : Host.Outcome State Fault Refusal :=
  runAct (atomicAct (.aand a sa sb imm ty scp ord) 1 a sa sb sa imm ty ord [sa, sb]) s
def execAor (a sa sb imm ty scp ord : Nat) (s : State) : Host.Outcome State Fault Refusal :=
  runAct (atomicAct (.aor a sa sb imm ty scp ord) 2 a sa sb sa imm ty ord [sa, sb]) s
def execAxor (a sa sb imm ty scp ord : Nat) (s : State) : Host.Outcome State Fault Refusal :=
  runAct (atomicAct (.axor a sa sb imm ty scp ord) 3 a sa sb sa imm ty ord [sa, sb]) s
def execAmin (a sa sb imm ty scp ord : Nat) (s : State) : Host.Outcome State Fault Refusal :=
  runAct (atomicAct (.amin a sa sb imm ty scp ord) 4 a sa sb sa imm ty ord [sa, sb]) s
def execAmax (a sa sb imm ty scp ord : Nat) (s : State) : Host.Outcome State Fault Refusal :=
  runAct (atomicAct (.amax a sa sb imm ty scp ord) 5 a sa sb sa imm ty ord [sa, sb]) s
def execAminn (a sa sb imm ty scp ord : Nat) (s : State) : Host.Outcome State Fault Refusal :=
  runAct (atomicAct (.aminn a sa sb imm ty scp ord) 6 a sa sb sa imm ty ord [sa, sb]) s
def execAmaxn (a sa sb imm ty scp ord : Nat) (s : State) : Host.Outcome State Fault Refusal :=
  runAct (atomicAct (.amaxn a sa sb imm ty scp ord) 7 a sa sb sa imm ty ord [sa, sb]) s
def execAswp (a sa sb imm ty scp ord : Nat) (s : State) : Host.Outcome State Fault Refusal :=
  runAct (atomicAct (.aswp a sa sb imm ty scp ord) 8 a sa sb sa imm ty ord [sa, sb]) s
def execAcas (a sa sb sc imm ty scp ord : Nat) (s : State) : Host.Outcome State Fault Refusal :=
  runAct (atomicAct (.acas a sa sb sc imm ty scp ord) 9 a sa sb sc imm ty ord [sa, sb, sc]) s
def execAffcs (a sa imm ty scp ord : Nat) (s : State) : Host.Outcome State Fault Refusal :=
  runAct (atomicAct (.affcs a sa imm ty scp ord) 10 a sa sa sa imm ty ord [sa]) s
def execAplset (a sa sb sc imm ty scp ord : Nat) (s : State) : Host.Outcome State Fault Refusal :=
  runAct (atomicAct (.aplset a sa sb sc imm ty scp ord) 11 a sa sb sc imm ty ord [sa, sb, sc]) s

/-! ## AUPD (R136, R137, R262, R357) -/

/-- SUB of the atomic of the same operation as an AUPD op (R357): min and max follow the type. -/
def updSub (op ty : Nat) : Nat :=
  match op with
  | 4 => if ty < 4 ∨ ty = 10 then 4 else 6
  | 5 => if ty < 4 ∨ ty = 10 then 5 else 7
  | n => n

/-- AUPD on a line of this device's memory: to the core's partial, entering the update-only state when the line is not in it.
Whether the core's L1 holds the line E or M, and so takes the operand in place, is not state of this model and is a free
choice (DESIGN CHOICE, log entry 18); a line that was in the update-only state before enters it afresh. -/
def State.update (s : State) (loc op ty b : Nat) : State :=
  let w := atWidth ty
  let line := loc / 64
  let idx := loc % 64 / (w / 8)
  let same (u : ULine) : Bool := u.line == line && u.op == op && u.ty == ty
  let others := s.uline.filter (fun u => u.line == line)
  let s1 := if others.all same then s else s.recall line
  match s1.uline.find? (fun u => same u && u.core == s.curCore) with
  | some _ =>
    { s1 with uline := s1.uline.map (fun v =>
        if same v && v.core == s.curCore then { v with parts := v.parts.set idx (updCombine op ty (v.parts.getD idx 0) b) } else v) }
  | none =>
    let free := Config.freeNat s1.free % 2 = 0
    let s2 := { s1 with free := s1.free + 1 }
    if free && others.isEmpty then
      (s2.noteTable s2.curCore s2.curCtx loc (w / 8)).putBytes loc
        (bytesOf (updCombine op ty (natOfBytes (s2.bytesAt loc (w / 8))) b) (w / 8))
    else
      let fresh : List Nat := List.replicate (512 / w) (updIdentity op ty)
      { s2 with uline := s2.uline ++
          [{ line := line, core := s.curCore, op := op, ty := ty, parts := fresh.set idx (updCombine op ty (updIdentity op ty) b) }] }

def aupdAct (i : Instr) (sa sb op imm ty : Nat) : Act Unit := do
  prepIll 0x60 [sa, sb] [] [sa] (fun s => isRegister (s.me.g.get sa + sextImm imm 16))
  let base ← readG sa
  let p := base + sextImm imm 16
  let b ← readG sb
  let s ← get
  let w := atWidth ty
  aligned p (w / 8)
  let away (d : Nat) (q : Word) : Act Unit := holding i [] none (awayStore d 0 false q (w / 8) ty (.atomic (updSub op ty) b 0))
  match ← resolve p .write with
  | .reg _ => ill 0
  | .far d => away d p
  | .mem loc leaf =>
    if ← travels leaf then return
    queueRoom
    let atHome : Act Unit := do
      let _ ← atomicAt s.curCore s.curCtx loc p (updSub op ty) ty b 0
      advance
    if s.peerLoc loc then away s.dev (s.peerPtr loc)
    else if decide (2 ^ 39 ≤ loc) || bit leaf 5 || s.spec || s.unitHolds loc then atHome
    else
      if s.ownedRange loc (w / 8) then stall
      specAccess s.curCore s.curCtx loc (w / 8) true
      let s ← get
      if s.badRange loc (w / 8) then trapNow cECC p 0
      modify (fun x => x.update loc op ty (b.toNat % 2 ^ w))
      advance

def execAupd (sa sb op imm ty scp : Nat) (s : State) : Host.Outcome State Fault Refusal :=
  runAct (aupdAct (.aupd sa sb op imm ty scp) sa sb op imm ty) s

/-! ## Fences (R259, R260, R359) -/

/-- FENCE completes when the accesses it orders are performed: here, the reads and stores of the context that other cores and devices
have yet to answer, and the held items of its ordered task (R97). -/
def fenceAct (ord : Nat) : Act Unit := do
  let s ← get
  let out := s.outOf s.curCore s.curCtx
  if ord = 1 then
    if out.any (fun o => !o.store) || (s.heldOf s.curCore s.curCtx).any Held.reads then stall
  else
    if !out.isEmpty then stall
    heldWait
  advance

def execFence (scp ord : Nat) (s : State) : Host.Outcome State Fault Refusal :=
  let _ := scp
  runAct (fenceAct ord) s

/-- The clusters whose walkers a scope's instance contains (R251, R260), none where it contains them all. -/
def State.walkersIn (s : State) (scp : Nat) : Option (List Nat) :=
  let cl := clusterOf s.curCore
  match scp with
  | 2 => some [cl]
  | 3 => some ((List.range 60).map (fun k => cl / 60 * 60 + k))
  | _ => none

/-- TFENCE orders the thread's stores to page tables before the walks that a scope's walkers begin afterwards (R146, R260). -/
def State.tfence (s : State) (scp : Nat) : State :=
  let mine (x : StaleWord) : Bool := x.core == s.curCore && x.serial == s.me.serial
  match s.walkersIn scp with
  | none => { s with stale := s.stale.filter (fun x => !mine x) }
  | some cls => { s with stale := s.stale.map (fun x => if mine x then { x with fenced := x.fenced ++ cls } else x) }

/-- TFENCE completes when the thread's page-table stores are performed at their home slices (R260). -/
def tfenceAct (scp : Nat) : Act Unit := do
  let s ← get
  if (s.outOf s.curCore s.curCtx).any (fun o => o.store) then stall
  heldWait
  modify (fun x => x.tfence scp)
  advance

def execTfence (scp : Nat) (s : State) : Host.Outcome State Fault Refusal := runAct (tfenceAct scp) s

/-! ## Barriers (R360 to R363) -/

/-- The barrier that a barrier instruction names in its context; ILL where it may name none (R362). -/
def barrierOf (bar : Nat) : Act BarrierId := do
  let s ← get
  if 4 ≤ s.curCtx then ill 0
  match s.taskOf s.curCore s.curCtx with
  | none => ill 0
  | some (_, t) =>
    if 16 ≤ bar then
      if t.crew then return .crew (clusterOf s.curCore / 60) t.part (bar % 16) else ill 0
    else if t.gang then return .huddle (clusterOf s.curCore) (bar % 8) else ill 0

def baraAct (a bar : Nat) : Act Unit := do
  let b ← barrierOf bar
  notSpec
  prep 0x6A [] [a]
  releaseWait 2
  let s ← get
  let x := s.barrier b
  if x.arrived.contains (s.curCore, s.curCtx) then stall
  modify (fun y => y.modBarrier b (fun z => { z with arrived := z.arrived ++ [(y.curCore, y.curCtx)] }))
  writeG a (ofN x.gen.toNat)
  modify (fun y => y.barrierCheck b)
  advance

def execBara (a bar : Nat) (s : State) : Host.Outcome State Fault Refusal := runAct (baraAct a bar) s

/-- The generation has moved on from `g`: (GEN - g) mod 2^32 lies in 1 to 2^31 (R362). -/
def passed (gen : BitVec 32) (g : Word) : Bool :=
  let d := (gen - BitVec.ofNat 32 g.toNat).toNat
  decide (1 ≤ d) && decide (d ≤ 2 ^ 31)

def barwAct (a bar sa : Nat) : Act Unit := do
  let b ← barrierOf bar
  notSpec
  prep 0x6A [sa] [a]
  let g ← readG sa
  let s ← get
  if !passed (s.barrier b).gen g then stall
  writeG a (ofN (s.barrier b).gen.toNat)
  advance

def execBarw (a bar sa : Nat) (s : State) : Host.Outcome State Fault Refusal := runAct (barwAct a bar sa) s

/-- BART and BARG read GEN without waiting (R362). -/
def barReadAct (a bar : Nat) (f : BitVec 32 → Nat) : Act Unit := do
  let b ← barrierOf bar
  notSpec
  prep 0x6A [] [a]
  let s ← get
  writeG a (ofN (f (s.barrier b).gen))
  advance

def execBart (a bar : Nat) (s : State) : Host.Outcome State Fault Refusal :=
  runAct (barReadAct a bar (fun g => g.toNat % 2)) s
def execBarg (a bar : Nat) (s : State) : Host.Outcome State Fault Refusal :=
  runAct (barReadAct a bar (fun g => g.toNat)) s

/-- BARRIER_GENERATION_COMPLETE: a generation whose arrivals are all there completes (R361). Every arrival makes the same test, so that
this event finds such a generation only in a state that no run reaches. -/
def execBarrierGenerationComplete (b : BarrierId) (s : State) : Host.Outcome State Fault Refusal :=
  runEvent (fun s => s.barrierCheck b) s

end Sys2Proof.Machine
end

