-- ==== Sys2Proof/Machine/Elements.lean ====
section
/-! DEFINITION. Elements of memory and lanes of registers: format descriptors, block scales and conversion (R141, R236 to R241,
R365, R368 to R371). -/

namespace Sys2Proof.Machine

/-! ## Descriptors and tables -/

/-- Entry `code` of decode table `t` of a core (R233, R234). -/
def Core.entry (c : Core) (t code : Nat) : W32 := (assocGet c.tables (256 * t + code)).getD (resetEntry t code)

/-- The descriptor entry of a format code (R236, R237). -/
def Core.fdtWord (c : Core) (code : Nat) : Nat := if code < 16 then fixedDesc code else (assocGet c.fdt code).getD 0

/-- The element format that a code names: none for raw bytes. -/
inductive Elem where
  | raw | desc (d : Desc)
  deriving DecidableEq, Repr

/-- The format of a code, none when it is invalid (R238). -/
def Core.elem (c : Core) (code : Nat) : Option Elem :=
  if code = 0 then some .raw
  else
    let d := descOf (c.fdtWord code)
    if d.valid then some (.desc d) else none

/-- The table that a format decodes through is being built (R248). -/
def Core.building? (c : Core) (e : Elem) : Bool :=
  match e with
  | .raw => false
  | .desc d => d.kind == 0 && c.building.contains d.tbl

/-- The valid format of a pointer's code; an invalid one, and BLOG of 1 or 2, trap ILL (R141, R238); a table that is being
built stalls (R248). -/
def formatOf (p : Word) : Act Elem := do
  let s ← get
  let c := s.coreAt s.curCore
  if bits p 57 54 = 1 ∨ bits p 57 54 = 2 then ill 0
  match c.elem (bits p 63 58) with
  | none => ill 0
  | some e =>
    if c.building? e then stall
    return e

/-- Element width in memory: raw elements take the lane's width (R368). -/
def Elem.width (e : Elem) (w : Nat) : Nat :=
  match e with
  | .raw => w
  | .desc d => d.width

/-! ## Numeric lanes (R239, R241, R365) -/

/-- Lane width of a TY code (R365). -/
def laneW (ty : Nat) : Nat :=
  match ty with
  | 0 => 8 | 4 => 8 | 12 => 8
  | 1 => 16 | 5 => 16 | 8 => 16 | 9 => 16
  | 3 => 64 | 7 => 64
  | 13 => 4
  | _ => 32

/-- Lanes of a vector register. -/
def laneN (ty : Nat) : Nat := 512 / laneW ty

/-- The exact value of a lane of a numeric type. -/
def laneNum (ty x : Nat) : Num :=
  match ty with
  | 8 => Fmt.b16.decode x
  | 9 => Fmt.bf16.decode x
  | 10 => Fmt.b32.decode x
  | 11 => if19 (BitVec.ofNat 32 x)
  | _ => if ty < 4 then Num.ofInt (signed x (laneW ty)) else Num.ofInt ((x % 2 ^ laneW ty : Nat) : Int)

/-- The lane of a numeric type for an exact value, with one rounding. -/
def laneOf (ty : Nat) (x : Num) : Nat :=
  match ty with
  | 8 => Fmt.b16.round .ne x
  | 9 => Fmt.bf16.round .ne x
  | 10 => Fmt.b32.round .ne x
  | 11 => (toIf19 .ne x).toNat
  | _ => toInt .ne (decide (ty < 4)) (laneW ty) x

/-- A value under scale exponent `q` (R240): -128 gives a NaN. -/
def scaled (x : Num) (q : Int) : Num := if q = -128 then .nan else x.scale q

/-- load_conv (R369): an element becomes a lane. -/
def loadConv (c : Core) (e : Elem) (ty : Nat) (x : Nat) (q : Int) : Nat :=
  match e with
  | .raw => x
  | .desc d => if 12 ≤ ty then x else laneOf ty (scaled (d.decode c.entry x) q)

/-- store_conv (R369): a lane becomes an element. -/
def storeConv (c : Core) (e : Elem) (ty : Nat) (x : Nat) (q : Int) : Nat :=
  match e with
  | .raw => x
  | .desc d =>
    if 12 ≤ ty then x
    else d.encode c.entry (if q = -128 then .nan else (laneNum ty x).scale (-q))

/-- A code type needs a table-decoded format of its own width, or raw bytes (R369). -/
def codesOk (e : Elem) (ty : Nat) : Bool :=
  match e with
  | .raw => true
  | .desc d => decide (ty < 12) || (d.kind == 0 && d.width == laneW ty)

/-! ## Where elements lie (R368, R370) -/

/-- A pointer's bits [63:54] with the byte address of element index `e` of `wm` bits. -/
def elemPtr (p : Word) (wm : Nat) (e : Int) : Word := setBits p 53 0 (wrap (e * wm / 8) 54)

/-- The scale byte of element index `e` (R141). -/
def State.scalePtr (s : State) (p : Word) (e : Int) : Word :=
  let k := bits p 57 54
  ofN ((s.part.get s.curPart).ssb.toNat + k * 2 ^ 45 + wrap e 64 / 2 ^ k)

/-- A scaled pointer must be local and below 2^47: else XLATE (R141). -/
def scaleCheck (p : Word) : Act Unit := do
  if 3 ≤ bits p 57 54 ∧ (bits p 53 52 ≠ 0 ∨ 2 ^ 47 ≤ bits p 51 0) then trapNow cXLATE p 0

/-- Translation and permission of every address before anything is read or written: XLATE before PERM, each at the first
address in order (R371, R271). -/
def checkPtrs (ps : List (Word × Access)) : Act Unit := do
  let one (bad : Option (Word × AccFault) × Option (Word × AccFault)) (p : Word × Access) :
      Act (Option (Word × AccFault) × Option (Word × AccFault)) := do
    let s ← get
    match ← resolveAt s.curCore s.curPart (s.sregAt s.curCore s.curCtx) p.1 p.2 with
    | .ok _ => return bad
    | .error f =>
      if f.cause = cXLATE then return (if bad.1.isSome then bad.1 else some (p.1, f), bad.2)
      else return (bad.1, if bad.2.isSome then bad.2 else some (p.1, f))
  match ← ps.foldlM one (none, none) with
  | (some (p, f), _) => trapNow f.cause p f.info
  | (none, some (p, f)) => trapNow f.cause p f.info
  | (none, none) => return

/-- The distinct values of a list, in order of first appearance. -/
def distinct {α : Type} [BEq α] (xs : List α) : List α :=
  xs.foldl (fun acc x => if acc.contains x then acc else acc ++ [x]) []

/-- A trap of `m` names address `p` (R270). -/
def atAddr {α : Type} (p : Word) (m : Act α) : Act α := fun s =>
  match m s with
  | .error (.trap t r) => .error (.trap { t with eaddr := p } r)
  | x => x

/-- The 64-byte lines that hold the addresses, each read once; a fault names the first address that lies in its line (R371). -/
def readLines (ps : List Word) : Act (List (Word × List Byte)) :=
  (distinct (ps.map (fun p => setBits (linePtr p) 63 54 0))).mapM (fun l => do
    let bs ← atAddr ((ps.find? (fun p => setBits (linePtr p) 63 54 0 == l)).getD l) (readPtr l 64)
    return (l, bs))

/-- The byte at an address among the lines read. -/
def byteIn (ls : List (Word × List Byte)) (p : Word) : Byte :=
  match ls.find? (fun l => l.1 == setBits (linePtr p) 63 54 0) with
  | some l => (l.2.getD (bits p 5 0) 0)
  | none => 0

/-- The element of `wm` bits at a pointer and index among the lines read. -/
def elemIn (ls : List (Word × List Byte)) (p : Word) (wm : Nat) (e : Int) : Nat :=
  let b := elemPtr p wm e
  if wm = 4 then (byteIn ls b).toNat / (if e % 2 = 0 then 1 else 16) % 16
  else natOfBytes ((List.range (wm / 8)).map (fun j => byteIn ls (b + BitVec.ofNat 64 j)))

/-- The scale exponents of element indices: 0 for an unscaled pointer or raw bytes. -/
def scalesOf (p : Word) (e : Elem) (codes : Bool) (es : List Int) : Act (List (Word × Int)) := do
  let s ← get
  if bits p 57 54 = 0 || e == .raw || codes then return []
  else
    let qs := distinct (es.map (s.scalePtr p))
    let ls ← readLines qs
    return qs.map (fun q => (q, signed (byteIn ls q).toNat 8))

def State.scaleIn (s : State) (p : Word) (qs : List (Word × Int)) (e : Int) : Int :=
  match qs.find? (fun q => q.1 == s.scalePtr p e) with
  | some q => q.2
  | none => 0

/-- The addresses that an access of elements touches, lane by lane: each element, then its scale byte. -/
def State.touched (s : State) (p : Word) (el : Elem) (codes : Bool) (wm : Nat) (es : List Int) (a : Access) :
    List (Word × Access) :=
  es.flatMap (fun e =>
    (elemPtr p wm e, a) :: (if bits p 57 54 = 0 || el == .raw || codes then [] else [(s.scalePtr p e, Access.read)]))

/-- A vector access or an operand of an engine must not name a device register: ALIGN with EINFO 0 (R351). -/
def noRegister (p : Word) : Act Unit := do
  if isRegister p then trapNow cALIGN p 0

/-- The format of a vector access and its width in memory (R369): an invalid one traps ILL. -/
def vecChecks (p : Word) (ty : Nat) : Act (Elem × Nat) := do
  let el ← formatOf p
  if !codesOk el ty then ill 0
  return (el, el.width (laneW ty))

/-- ALIGN at the first active element when the address is no multiple of the element, with EINFO its bytes (R371); else at the first
element that lies among the device registers, with EINFO 0 (R351). Then the space of a scaled pointer (R141). -/
def elemChecks (p : Word) (wm : Nat) (es : List Int) : Act Unit := do
  match es with
  | [] => pure ()
  | e :: _ =>
    let off := bits p 53 0 % (wm / 8)
    if 8 ≤ wm ∧ off ≠ 0 then trapNow cALIGN (setBits p 53 0 (wrap (e * wm / 8 + off) 54)) (ofN (wm / 8))
    match es.find? (fun x => bits (elemPtr p wm x) 53 48 == 0x32) with
    | some x => trapNow cALIGN (elemPtr p wm x) 0
    | none => scaleCheck p

/-- Loads the elements of `es` (lane, element index) as lanes of type `ty`. -/
def loadElems (p : Word) (ty : Nat) (el : Elem) (wm : Nat) (es : List (Nat × Int)) : Act (List (Nat × Nat)) := do
  let s ← get
  let codes := decide (12 ≤ ty)
  elemChecks p wm (es.map (fun x => x.2))
  checkPtrs (s.touched p el codes wm (es.map (fun x => x.2)) .read)
  let qs ← scalesOf p el codes (es.map (fun x => x.2))
  let ls ← readLines (es.map (fun x => elemPtr p wm x.2))
  let c := s.coreAt s.curCore
  return es.map (fun x => (x.1, loadConv c el ty (elemIn ls p wm x.2) (s.scaleIn p qs x.2)))

/-- The bytes that elements write, by byte address, each with the bits of it that stay; a later element stands over an earlier one (R370). -/
def elemBytes (p : Word) (wm : Nat) (es : List (Int × Nat)) : List (Nat × Byte × Byte) :=
  es.foldl (fun m x =>
    let b := elemPtr p wm x.1
    let k := bits b 53 0
    if wm = 4 then
      let old := (assocGet m k).getD (0, 0xFF)
      let v := if x.1 % 2 = 0 then (old.1 &&& 0xF0 ||| BitVec.ofNat 8 (x.2 % 16), old.2 &&& 0xF0)
        else (old.1 &&& 0x0F ||| BitVec.ofNat 8 (x.2 % 16 * 16), old.2 &&& 0x0F)
      assocSet m k v
    else
      ((List.range (wm / 8)).zip (bytesOf x.2 (wm / 8))).foldl (fun n y => assocSet n (k + y.1) (y.2, 0)) m) []

/-- Bytes by address as runs within one line each; bytes of one aligned 8-byte word make one run, since it is written at once (R250), with
what lies between them kept. -/
def runsOf : List (Nat × Byte × Byte) → List (Nat × List (Byte × Byte))
  | [] => []
  | (k, b) :: r =>
    match runsOf r with
    | (j, bs) :: rs =>
      if j / 64 = k / 64 ∧ (j = k + 1 ∨ j / 8 = k / 8) then (k, b :: (List.replicate (j - k - 1) (0, 0xFF) ++ bs)) :: rs
      else (k, [b]) :: (j, bs) :: rs
    | [] => [(k, [b])]

/-- The pieces in which elements are written. -/
def elemPieces (p : Word) (wm : Nat) (es : List (Int × Nat)) : List Piece :=
  (runsOf (elemBytes p wm es)).map (fun r =>
    { ptr := ofN r.1, bytes := r.2.map (fun b => b.1), keep := if r.2.all (fun b => b.2 == 0) then [] else r.2.map (fun b => b.2) })

/-- Stores lanes `xs` (element index, lane) of type `ty`, as one write (R371). -/
def storeElems (p : Word) (ty : Nat) (el : Elem) (wm : Nat) (xs : List (Int × Nat)) : Act Unit := do
  let s ← get
  let codes := decide (12 ≤ ty)
  elemChecks p wm (xs.map (fun x => x.1))
  checkPtrs (s.touched p el codes wm (xs.map (fun x => x.1)) .write)
  let qs ← scalesOf p el codes (xs.map (fun x => x.1))
  let c := s.coreAt s.curCore
  writePieces (elemPieces p wm (xs.map (fun x => (x.1, storeConv c el ty x.2 (s.scaleIn p qs x.1)))))

/-- The index of the element at a pointer (R368). -/
def elemIndex (p : Word) (wm : Nat) : Int := (bits p 53 0 * 8 / wm : Nat)

/-- The vector whose lanes of width `w` are those of `old` but for the ones listed. -/
def putLanes (old : Vec) (w : Nat) (xs : List (Nat × Nat)) : Vec :=
  ofLanes w ((List.range (512 / w)).map (fun k =>
    match xs.find? (fun x => x.1 == k) with
    | some x => x.2
    | none => lane old w k))

end Sys2Proof.Machine
end

