-- ==== Sys2Proof/Machine/Vector.lean ====
section
/-! DEFINITION. Vector memory, arithmetic, reductions, permutes and masks (R366 to R378, R381). -/

namespace Sys2Proof.Machine

/-! ## Vector memory (R368 to R371) -/

/-- VLD loads L contiguous elements (R368). -/
def vldAct (a : Nat) (m : MemOp) (ty : Nat) : Act Unit := do
  prepS 0x80 (memSrcs m) [vkey a] []
  let p ← effAddr m
  let (el, wm) ← vecChecks p ty
  let e0 := elemIndex p wm
  let xs ← loadElems p ty el wm ((List.range (laneN ty)).map (fun k => (k, e0 + k)))
  writeV a (putLanes 0 (laneW ty) xs)
  farDone
  advance

def execVld (a : Nat) (m : MemOp) (ty : Nat) (s : State) : Host.Outcome State Fault Refusal := runAct (vldAct a m ty) s

def vstAct (a : Nat) (m : MemOp) (ty : Nat) : Act Unit := do
  prepS 0x81 (memSrcs m ++ [vkey a]) [] []
  let p ← effAddr m
  let v ← readV a
  let (el, wm) ← vecChecks p ty
  let e0 := elemIndex p wm
  storeElems p ty el wm ((List.range (laneN ty)).map (fun (k : Nat) => (e0 + (k : Int), lane v (laneW ty) k)))
  farDone
  advance

def execVst (a : Nat) (m : MemOp) (ty : Nat) (s : State) : Host.Outcome State Fault Refusal := runAct (vstAct a m ty) s

/-- The active lanes of a type under a mask. -/
def activeLanes (ty mk : Nat) (mask : Word) : List Nat :=
  (List.range (laneN ty)).filter (activeLane mk mask (laneW ty))

/-- VLDS and VLDX: each active lane loads the element at an index of its own (R370). -/
def gatherAct (op a sa imm ty mk : Nat) (idx : Act (Nat → Int)) (srcs : List Nat) : Act Unit := do
  noMaskedStream op mk a
  prepS op srcs [vkey a] []
  let base ← readG sa
  let f ← idx
  let mask ← maskOf mk
  let act := activeLanes ty mk mask
  let p := base + sextImm imm 16
  let (el, wm) ← vecChecks p ty
  let e0 := elemIndex p wm
  let xs ← loadElems p ty el wm (act.map (fun k => (k, e0 + f k)))
  let old ← oldV a
  writeV a (putLanes old (laneW ty) xs)
  farDone
  advance

def execVlds (a sa sb imm ty mk : Nat) (s : State) : Host.Outcome State Fault Refusal :=
  runAct (gatherAct 0x82 a sa imm ty mk
    (do let g ← readG sb; return fun k => (k : Int) * signed g.toNat 64) [sa, sb]) s

def execVldx (a sa sb imm ty mk : Nat) (s : State) : Host.Outcome State Fault Refusal :=
  runAct (gatherAct 0x83 a sa imm ty mk
    (do let x ← readV sb; return fun k => signed (lane x (laneW ty) k) (laneW ty)) [sa, vkey sb]) s

def vstxAct (a sa sb imm ty mk : Nat) : Act Unit := do
  prepS 0x84 [sa, vkey sb, vkey a] [] []
  let base ← readG sa
  let x ← readV sb
  let v ← readV a
  let mask ← maskOf mk
  let act := activeLanes ty mk mask
  let p := base + sextImm imm 16
  let (el, wm) ← vecChecks p ty
  let e0 := elemIndex p wm
  let w := laneW ty
  storeElems p ty el wm (act.map (fun k => (e0 + signed (lane x w k) w, lane v w k)))
  farDone
  advance

def execVstx (a sa sb imm ty mk : Nat) (s : State) : Host.Outcome State Fault Refusal :=
  runAct (vstxAct a sa sb imm ty mk) s

/-! ## Lane operations (R372, R373) -/

/-- An integer lane result, modulo 2^w, or clamped under .sat (R232). -/
def intLane (ty : Nat) (sat : Bool) (z : Int) : Nat :=
  let w := laneW ty
  wrap (if sat then clampInt (decide (ty < 4)) w z else z) w

/-- A lane read as a signed integer for .i types and unsigned for .n types. -/
def laneInt (ty x : Nat) : Int := if ty < 4 then signed x (laneW ty) else ((x % 2 ^ laneW ty : Nat) : Int)

/-- Two- and three-operand lane arithmetic of group 0x88 (R372); `sub` is SUB. -/
def vecOp (sub ty : Nat) (sat : Bool) (a b c : Nat) : Nat :=
  let w := laneW ty
  if ty < 8 then
    let x := laneInt ty a
    let y := laneInt ty b
    let sh := b % w
    match sub with
    | 0 => intLane ty sat (x + y)
    | 1 => intLane ty sat (x - y)
    | 2 => intLane ty sat (x * y)
    | 3 => wrap (if ty < 4 then divS w x y else divU w a b) w
    | 4 => wrap (min x y) w
    | 5 => wrap (max x y) w
    | 6 => wrap (x * y + laneInt ty c) w
    | 7 => wrap (x * y - laneInt ty c) w
    | 8 => a &&& b
    | 9 => a ||| b
    | 10 => a ^^^ b
    | 11 => a * 2 ^ sh % 2 ^ w
    | 12 => a / 2 ^ sh
    | _ => wrap ((signed a w).fdiv (2 ^ sh)) w
  else
    let x := laneNum ty a
    let y := laneNum ty b
    laneOf ty
      (match sub with
       | 0 => x.add y
       | 1 => x.sub y
       | 2 => x.mul y
       | 3 => x.div y
       | 4 => x.minN y
       | 5 => x.maxN y
       | 6 => (x.mul y).add (laneNum ty c)
       | _ => (x.mul y).sub (laneNum ty c))

/-- A lane-by-lane instruction on vector registers: `f k` of the sources' lanes goes to each active lane `k`. -/
def lanewise (op a ty mk : Nat) (srcs : List Nat) (f : List Vec → Nat → Nat) : Act Unit := do
  noMaskedStream op mk a
  prepS op (srcs.map vkey) [vkey a] []
  let vs ← srcs.mapM readV
  let mask ← maskOf mk
  let old ← oldV a
  let w := laneW ty
  writeV a (ofLanes w ((List.range (laneN ty)).map (fun k =>
    if activeLane mk mask w k then f vs k else lane old w k)))
  finish

/-- The lane of the `j`-th source. -/
def srcLane (vs : List Vec) (w j k : Nat) : Nat := lane (vs.getD j 0) w k

/-- Group 0x88 with two sources. -/
def vec2 (sub a sa sb ty mk : Nat) (sat : Bool) : Act Unit :=
  lanewise 0x88 a ty mk [sa, sb] (fun vs k => vecOp sub ty sat (srcLane vs (laneW ty) 0 k) (srcLane vs (laneW ty) 1 k) 0)

/-- Group 0x88 with three sources. -/
def vec3 (sub a sa sb sc ty mk : Nat) : Act Unit :=
  lanewise 0x88 a ty mk [sa, sb, sc] (fun vs k =>
    vecOp sub ty false (srcLane vs (laneW ty) 0 k) (srcLane vs (laneW ty) 1 k) (srcLane vs (laneW ty) 2 k))

def execVadd (a sa sb ty mk : Nat) (sat : Bool) (s : State) : Host.Outcome State Fault Refusal :=
  runAct (vec2 0 a sa sb ty mk sat) s
def execVsub (a sa sb ty mk : Nat) (sat : Bool) (s : State) : Host.Outcome State Fault Refusal :=
  runAct (vec2 1 a sa sb ty mk sat) s
def execVmul (a sa sb ty mk : Nat) (sat : Bool) (s : State) : Host.Outcome State Fault Refusal :=
  runAct (vec2 2 a sa sb ty mk sat) s
def execVdiv (a sa sb ty mk : Nat) (s : State) : Host.Outcome State Fault Refusal := runAct (vec2 3 a sa sb ty mk false) s
def execVmin (a sa sb ty mk : Nat) (s : State) : Host.Outcome State Fault Refusal := runAct (vec2 4 a sa sb ty mk false) s
def execVmax (a sa sb ty mk : Nat) (s : State) : Host.Outcome State Fault Refusal := runAct (vec2 5 a sa sb ty mk false) s
def execVfma (a sa sb sc ty mk : Nat) (s : State) : Host.Outcome State Fault Refusal := runAct (vec3 6 a sa sb sc ty mk) s
def execVfms (a sa sb sc ty mk : Nat) (s : State) : Host.Outcome State Fault Refusal := runAct (vec3 7 a sa sb sc ty mk) s
def execVand (a sa sb ty mk : Nat) (s : State) : Host.Outcome State Fault Refusal := runAct (vec2 8 a sa sb ty mk false) s
def execVor (a sa sb ty mk : Nat) (s : State) : Host.Outcome State Fault Refusal := runAct (vec2 9 a sa sb ty mk false) s
def execVxor (a sa sb ty mk : Nat) (s : State) : Host.Outcome State Fault Refusal := runAct (vec2 10 a sa sb ty mk false) s
def execVshl (a sa sb ty mk : Nat) (s : State) : Host.Outcome State Fault Refusal := runAct (vec2 11 a sa sb ty mk false) s
def execVshr (a sa sb ty mk : Nat) (s : State) : Host.Outcome State Fault Refusal := runAct (vec2 12 a sa sb ty mk false) s
def execVsra (a sa sb ty mk : Nat) (s : State) : Host.Outcome State Fault Refusal := runAct (vec2 13 a sa sb ty mk false) s

/-- The unary group 0x89 (R373). -/
def vecUnary (sub ty a : Nat) : Nat :=
  let x := laneNum ty a
  match sub with
  | 0 => laneOf ty x.sqrt
  | 1 => laneOf ty x.rsqrt
  | 2 => laneOf ty (Num.one.div x)
  | 3 => laneOf ty x.exp2
  | 4 => laneOf ty x.log2
  | 5 => if ty < 8 then wrap |laneInt ty a| (laneW ty) else laneOf ty x.abs
  | _ => if ty < 8 then wrap (-(laneInt ty a)) (laneW ty) else laneOf ty x.neg

def vec1 (sub a sa ty mk : Nat) : Act Unit :=
  lanewise 0x89 a ty mk [sa] (fun vs k => vecUnary sub ty (srcLane vs (laneW ty) 0 k))

def execVsqrt (a sa ty mk : Nat) (s : State) : Host.Outcome State Fault Refusal := runAct (vec1 0 a sa ty mk) s
def execVrsq (a sa ty mk : Nat) (s : State) : Host.Outcome State Fault Refusal := runAct (vec1 1 a sa ty mk) s
def execVrcp (a sa ty mk : Nat) (s : State) : Host.Outcome State Fault Refusal := runAct (vec1 2 a sa ty mk) s
def execVexp2 (a sa ty mk : Nat) (s : State) : Host.Outcome State Fault Refusal := runAct (vec1 3 a sa ty mk) s
def execVlog2 (a sa ty mk : Nat) (s : State) : Host.Outcome State Fault Refusal := runAct (vec1 4 a sa ty mk) s
def execVabs (a sa ty mk : Nat) (s : State) : Host.Outcome State Fault Refusal := runAct (vec1 5 a sa ty mk) s
def execVneg (a sa ty mk : Nat) (s : State) : Host.Outcome State Fault Refusal := runAct (vec1 6 a sa ty mk) s

/-- VBC: the low bits of a g register in every active lane (R373). -/
def vbcAct (a sa ty mk : Nat) : Act Unit := do
  noMaskedStream 0x89 mk a
  prepS 0x89 [sa] [vkey a] []
  let g ← readG sa
  let mask ← maskOf mk
  let old ← oldV a
  let w := laneW ty
  writeV a (ofLanes w ((List.range (laneN ty)).map (fun k => if activeLane mk mask w k then g.toNat else lane old w k)))
  finish

def execVbc (a sa ty mk : Nat) (s : State) : Host.Outcome State Fault Refusal := runAct (vbcAct a sa ty mk) s

/-! ## Compare and select (R374, R375) -/

/-- A lane condition (R374). -/
def laneCond (cond ty a b : Nat) : Bool :=
  let w := laneW ty
  if ty < 8 then
    match cond with
    | 0 => a == b
    | 1 => a != b
    | 2 => decide (signed a w < signed b w)
    | 3 => decide (signed b w ≤ signed a w)
    | 4 => decide (a < b)
    | _ => decide (b ≤ a)
  else
    let x := laneNum ty a
    let y := laneNum ty b
    match cond with
    | 0 => x.eqv y
    | 1 => !x.eqv y
    | 2 => x.lt y
    | _ => y.le x

/-- VCMP writes a mask: bits of absent lanes 0, of inactive lanes unchanged (R374). -/
def vcmpAct (cond a sa sb ty mk : Nat) : Act Unit := do
  prepS 0x8A [vkey sa, vkey sb] [] []
  let x ← readV sa
  let y ← readV sb
  let mask ← maskOf mk
  let old ← readM a
  let w := laneW ty
  let n := laneN ty
  writeM a (ofN (packLanes 1 ((List.range 64).map (fun k =>
    if n ≤ k then 0
    else if activeLane mk mask w k then (laneCond cond ty (lane x w k) (lane y w k)).toNat
    else (bit old k).toNat))))
  finish

def execVcmp (cond a sa sb ty mk : Nat) (s : State) : Host.Outcome State Fault Refusal :=
  runAct (vcmpAct cond a sa sb ty mk) s

def vselAct (a sa sb sc ty : Nat) : Act Unit := do
  prepS 0x8B [vkey sa, vkey sb] [vkey a] []
  let x ← readV sa
  let y ← readV sb
  let m ← readM sc
  let w := laneW ty
  writeV a (ofLanes w ((List.range (laneN ty)).map (fun k => if activeLane 8 m w k then lane x w k else lane y w k)))
  finish

def execVsel (a sa sb sc ty : Nat) (s : State) : Host.Outcome State Fault Refusal := runAct (vselAct a sa sb sc ty) s

/-! ## Reductions and permutes (R376, R377) -/

/-- identity(op) of R376. -/
def redIdentity (op ty : Nat) : Nat :=
  let w := laneW ty
  let r := intRange (decide (ty < 4)) w
  if ty < 8 then
    match op with
    | 1 => wrap r.2 w
    | 2 => wrap r.1 w
    | 3 => 2 ^ w - 1
    | _ => 0
  else
    match op with
    | 0 => 2 ^ (w - 1)
    | 1 => laneOf ty (.inf false)
    | _ => laneOf ty (.inf true)

/-- comb(op, acc, a): one rounding or a wrap per step (R376). -/
def redComb (op ty acc a : Nat) : Nat :=
  match op with
  | 0 => vecOp 0 ty false acc a 0
  | 1 => vecOp 4 ty false acc a 0
  | 2 => vecOp 5 ty false acc a 0
  | 3 => vecOp 8 ty false acc a 0
  | 4 => vecOp 9 ty false acc a 0
  | _ => vecOp 10 ty false acc a 0

/-- The running results of the active lanes, ascending: the last accumulator, and each lane's (R376). -/
def scanLanes (op ty mk : Nat) (mask : Word) (v : Vec) : Nat × List (Nat × Nat) :=
  (List.range (laneN ty)).foldl (fun acc k =>
    if activeLane mk mask (laneW ty) k then
      let x := redComb op ty acc.1 (lane v (laneW ty) k)
      (x, acc.2 ++ [(k, x)])
    else acc) (redIdentity op ty, [])

def vredAct (a sa op ty mk : Nat) : Act Unit := do
  noMaskedStream 0x8C mk a
  prepS 0x8C [vkey sa] [vkey a] []
  let x ← readV sa
  let mask ← maskOf mk
  writeV a (BitVec.ofNat 512 (scanLanes op ty mk mask x).1)
  finish

def execVred (a sa op ty mk : Nat) (s : State) : Host.Outcome State Fault Refusal := runAct (vredAct a sa op ty mk) s

def vscanAct (a sa op ty mk : Nat) : Act Unit := do
  noMaskedStream 0x8C mk a
  prepS 0x8C [vkey sa] [vkey a] []
  let x ← readV sa
  let mask ← maskOf mk
  let old ← oldV a
  writeV a (putLanes old (laneW ty) (scanLanes op ty mk mask x).2)
  finish

def execVscan (a sa op ty mk : Nat) (s : State) : Host.Outcome State Fault Refusal := runAct (vscanAct a sa op ty mk) s

def execVperm (a sa sb ty mk : Nat) (s : State) : Host.Outcome State Fault Refusal :=
  runAct (lanewise 0x8C a ty mk [sa, sb] (fun vs k =>
    srcLane vs (laneW ty) 0 (srcLane vs (laneW ty) 1 k % laneN ty))) s

/-- The source lane of VSHUF among the 2L lanes of a and b (R377). -/
def shufLane (pattern n k : Nat) : Nat :=
  match pattern % 16 with
  | 0 => if k % 2 = 0 then k / 2 else n + (k - 1) / 2
  | 1 => if k % 2 = 0 then k / 2 + n / 2 else n + (k - 1) / 2 + n / 2
  | 2 => 2 * k
  | 3 => 2 * k + 1
  | 4 => k + pattern / 16 % 256
  | _ => n - 1 - k

/-- VSHUF; SLIDE by more than the lanes traps ILL (R377), with EINFO 0: DEDUCED, log entry 61. -/
def execVshuf (a sa sb pattern ty mk : Nat) (s : State) : Host.Outcome State Fault Refusal :=
  if pattern % 16 = 4 ∧ laneN ty < pattern / 16 % 256 then runAct (ill 0) s
  else runAct (lanewise 0x8C a ty mk (if pattern % 16 = 5 then [sa] else [sa, sb]) (fun vs k =>
    let j := shufLane pattern (laneN ty) k
    if j < laneN ty then srcLane vs (laneW ty) 0 j else srcLane vs (laneW ty) 1 (j - laneN ty))) s

/-- VINS writes one lane, if it is active (R377); the destination is read and written. A lane that is not there traps ILL, with
EINFO 0: DEDUCED, log entry 61. -/
def vinsAct (a sa ln ty mk : Nat) : Act Unit := do
  if laneN ty ≤ ln then ill 0
  prepS 0x8C [sa] [] [vkey a]
  let g ← readG sa
  let mask ← maskOf mk
  let old ← readV a
  writeV a (if activeLane mk mask (laneW ty) ln then setLane old (laneW ty) ln g.toNat else old)
  finish

def execVins (a sa lane ty mk : Nat) (s : State) : Host.Outcome State Fault Refusal := runAct (vinsAct a sa lane ty mk) s

/-- VEXT (R378). A lane that is not there traps ILL, with EINFO 0: DEDUCED, log entry 61. -/
def vextAct (a sa ln wsel : Nat) : Act Unit := do
  if 512 / (8 * 2 ^ wsel) ≤ ln then ill 0
  prepS 0x8D [vkey sa] [a] []
  let v ← readV sa
  writeG a (ofN (lane v (8 * 2 ^ wsel) ln))
  finish

def execVext (a sa lane wsel : Nat) (s : State) : Host.Outcome State Fault Refusal := runAct (vextAct a sa lane wsel) s

/-! ## Masks (R381) -/

def mask2 (a sa sb : Nat) (f : Word → Word → Word) : Act Unit := do
  let x ← readM sa
  let y ← readM sb
  writeM a (f x y)
  finish

def execMkand (a sa sb : Nat) (s : State) : Host.Outcome State Fault Refusal := runAct (mask2 a sa sb (fun x y => x &&& y)) s
def execMkor (a sa sb : Nat) (s : State) : Host.Outcome State Fault Refusal := runAct (mask2 a sa sb (fun x y => x ||| y)) s

def execMknot (a sa : Nat) (s : State) : Host.Outcome State Fault Refusal :=
  runAct (do
    let x ← readM sa
    writeM a (~~~x)
    finish) s

def execMkset (a sa : Nat) (s : State) : Host.Outcome State Fault Refusal :=
  runAct (do
    prepS 0x94 [sa] [] []
    let g ← readG sa
    writeM a g
    finish) s

def execMkpop (a sa : Nat) (s : State) : Host.Outcome State Fault Refusal :=
  runAct (do
    prepS 0x95 [] [a] []
    let x ← readM sa
    writeG a (ofN (popCount x.toNat 64))
    finish) s

end Sys2Proof.Machine
end

