-- ==== Sys2Proof/Machine/Convert.lean ====
section
/-! DEFINITION. Conversions (R379, R380), decode tables and descriptors (R238, R248, R382, R383), streams (R384 to R387). -/

namespace Sys2Proof.Machine

/-! ## Conversions (R379, R380) -/

/-- The format that a code names in a conversion: raw bytes of the other side's width for code 0 (R238); an invalid descriptor
traps ILL. -/
def convFormat (code : Nat) : Act Elem := do
  let s ← get
  match (s.coreAt s.curCore).elem code with
  | none => ill 0
  | some e => return e

/-- Widths of the two sides: raw bytes take the other side's width, and two raw sides 8 bits (R238). -/
def convWidths (src dst : Elem) : Nat × Nat :=
  match src, dst with
  | .raw, .raw => (8, 8)
  | .raw, .desc d => (d.width, d.width)
  | .desc a, .raw => (a.width, a.width)
  | .desc a, .desc d => (a.width, d.width)

/-- convert(x) of R379: a raw side copies the bits. -/
def convElem (c : Core) (src dst : Elem) (x : Nat) : Nat :=
  match src, dst with
  | .desc a, .desc d => d.encode c.entry (a.decode c.entry x)
  | _, _ => x

/-- A lane of width `w` is active under a mask selector (R365). -/
def convAct (op a sa dcode scode part mk : Nat) (tableSide : Option Nat) : Act Unit := do
  noMaskedStream op mk a
  let s ← get
  let same := sa == a && (s.streamOf (vkey a)).isSome
  prepS op [vkey sa] [vkey a] (if same then [vkey a] else [])
  let src ← convFormat scode
  let dst ← convFormat dcode
  match tableSide with
  | none => pure ()
  | some code =>
    match (s.coreAt s.curCore).elem code with
    | some (.desc d) => if d.kind ≠ 0 then ill 0
    | some .raw => pure ()
    | none => ill 0
  let (ws, wd) := convWidths src dst
  let l := 512 / max ws wd
  if max ws wd / min ws wd ≤ part then ill 0
  let c := s.coreAt s.curCore
  if c.building? src || c.building? dst then stall
  let v ← readV sa
  let mask ← maskOf mk
  let old ← (if wd < ws then keptV a else oldV a)
  let xs := (List.range l).filterMap (fun i =>
    let si := i + (if ws < wd then part * l else 0)
    let dj := i + (if wd < ws then part * l else 0)
    if activeLane mk mask wd dj then some (dj, convElem c src dst (lane v ws si)) else none)
  writeV a (putLanes old wd xs)
  finish

def execVcvt (a sa dcode scode part mk : Nat) (s : State) : Host.Outcome State Fault Refusal :=
  runAct (convAct 0x90 a sa dcode scode part mk none) s

/-- VENC: from FP32 into a table-decoded format (R380). The entry of code 0 has KIND 0: its raw side copies. DEDUCED, log entry 60. -/
def execVenc (a sa code part mk : Nat) (s : State) : Host.Outcome State Fault Refusal :=
  runAct (convAct 0x91 a sa code 1 part mk (some code)) s

/-- VDEC: from a table-decoded format into FP32 (R380). -/
def execVdec (a sa code part mk : Nat) (s : State) : Host.Outcome State Fault Refusal :=
  runAct (convAct 0x92 a sa 1 code part mk (some code)) s

/-! ## Tables and descriptors -/

/-- The entries of a table after a load of 256 containers, bits [12:0] ignored (R229, R382). -/
def Core.loadTable (c : Core) (t : Nat) (bs : List Byte) : Core :=
  { c with tables := (List.range 256).foldl (fun m k =>
      assocSet m (256 * t + k) (BitVec.ofNat 32 (fieldAt bs (4 * k) 4 / 2 ^ 13 * 2 ^ 13))) c.tables,
           building := if c.building.contains t then c.building else c.building ++ [t] }

/-- A job that has not completed names a format of the core's for which `p` holds; a partner's tables decode its A in an operation of a gang
(R248). -/
def State.busyFormat (s : State) (core : Nat) (p : Nat → Bool) : Bool :=
  (coresOf (clusterOf core)).any (fun k =>
    (s.coreAt k).jobs.any (fun j => j.state != 4 && j.fmts.any (fun f => f.1 == core && p f.2)))

/-- A format decodes through table `t`. -/
def Core.through (c : Core) (t f : Nat) : Bool :=
  match c.elem f with
  | some (.desc d) => d.kind == 0 && d.tbl == t
  | _ => false

/-- TBLLD loads a decode table; its sorted index is then built (R248, R382). -/
def tblldAct (t : Nat) (m : MemOp) : Act Unit := do
  if 3 < t then ill 0
  prepS 0x98 (memSrcs m) [] []
  notSpec
  let p ← effAddr m
  let s ← get
  let c := s.coreAt s.curCore
  if c.building.contains t || s.busyFormat s.curCore (c.through t) then stall
  if bits p 53 0 % 64 ≠ 0 then trapNow cALIGN p 64
  let line (k : Nat) : Word := setBits p 53 0 ((bits p 53 0 + 64 * k) % 2 ^ 54)
  checkPtrs ((List.range 16).map (fun k => (line k, Access.read)))
  let bss ← (List.range 16).mapM (fun k => readPtr (line k) 64)
  modify (fun x => (x.modCore x.curCore (fun c => c.loadTable t bss.flatten)).push (.sortedIndexBuilt x.curCore t))
  farDone
  advance

def execTblld (t : Nat) (m : MemOp) (s : State) : Host.Outcome State Fault Refusal := runAct (tblldAct t m) s

/-- SORTED_INDEX_BUILT: the table may be used (R248). -/
def execSortedIndexBuilt (core t : Nat) (s : State) : Host.Outcome State Fault Refusal :=
  runEvent (fun s => s.modCore core (fun c => { c with building := c.building.filter (fun x => x != t) })) s

def tblrdAct (a t sa : Nat) : Act Unit := do
  prepS 0x99 [sa] [a] (if a = sa then [a] else [])
  let s ← get
  let c := s.coreAt s.curCore
  if c.building.contains t then stall
  let g ← readG sa
  writeG a (ofN ((c.entry t (g.toNat % 256)).toNat / 2 ^ 13 * 2 ^ 13))
  finish

def execTblrd (a t sa : Nat) (s : State) : Host.Outcome State Fault Refusal := runAct (tblrdAct a t sa) s

/-- FDTSET writes a descriptor (R238, R383): codes 0 to 15 are fixed, and an illegal word traps ILL. -/
def fdtsetAct (code sa : Nat) : Act Unit := do
  if code < 16 then ill 0
  prepS 0x99 [sa] [] []
  notSpec
  let g ← readG sa
  if !descLegal g.toNat then ill 0
  let s ← get
  if s.busyFormat s.curCore (fun f => f == code) then stall
  modify (fun x => x.modCore x.curCore (fun c => { c with fdt := assocSet c.fdt code g.toNat }))
  finish

def execFdtset (code sa : Nat) (s : State) : Host.Outcome State Fault Refusal := runAct (fdtsetAct code sa) s

def fdtgetAct (a code : Nat) : Act Unit := do
  prepS 0x99 [] [a] []
  let s ← get
  writeG a (ofN ((s.coreAt s.curCore).fdtWord code % 2 ^ 16))
  finish

def execFdtget (a code : Nat) (s : State) : Host.Outcome State Fault Refusal := runAct (fdtgetAct a code) s

/-! ## Streams -/

/-- The stream key of a specifier: a vector register for a vector stream (R317). -/
def skey (s : Nat) (v : Bool) : Nat := if v then vkey s else s

/-- STRM binds a register to a pattern, whose block a pointer of system sub-space 0 names (R129, R384). One that names a vector register binds
a window (R108, R365). -/
def strmAct (r sa sb : Nat) (w v : Bool) : Act Unit := do
  prepS 0x9C [sa, sb] [] []
  notSpec
  let key := skey r v
  if v then
    let _ ← window
  else waitPend [key]
  let base ← readG sa
  let p ← readG sb
  let s ← get
  if bits p 53 52 ≠ 3 ∨ bits p 51 18 ≠ 0 ∨ 2 ^ 18 < bits p 17 0 + 32 then trapNow cXLATE p 0
  let b ← readLoc s.curCore s.curCtx (spadLoc s.curCore (bits p 17 0)) 32 p
  let c0 := fieldAt b 0 4
  let c1 := fieldAt b 4 4
  let c2 := fieldAt b 8 4
  if 2 ^ 24 < c0 then ill 0
  if 65535 < c1 then ill 4
  if 65535 < c2 then ill 8
  if fieldAt b 12 4 ≠ 0 then ill 12
  let s1 := signed (fieldAt b 16 8) 64
  let s2 := signed (fieldAt b 24 8) 64
  if bits base 53 0 % 8 ≠ 0 ∨ s1 % 8 ≠ 0 ∨ s2 % 8 ≠ 0 then trapNow cALIGN base 8
  releaseStream key
  modify (fun x => x.setStream key
    { write := w, vec := v, src := .pattern (setBits base 63 54 0) c0 c1 c2 s1 s2, moved := 0, ended := false, ahead := [] })
  finish

def execStrm (r sa sb : Nat) (w v : Bool) (s : State) : Host.Outcome State Fault Refusal := runAct (strmAct r sa sb w v) s

/-- A status of STRMX that binds nothing: the result register keeps its binding, and a read stream cannot be written (R367, R386). -/
def unboundStatus (sb st : Nat) : Act Unit := do
  let s ← get
  match s.streamOf sb with
  | some t => if !t.write then illReason 0x9D 6
  | none => pure ()
  writeG sb (ofN st)

/-- STRMX binds a register to a circular buffer, or to a port of a peer core (R386). Where the result register is the one it binds, the
status is written between the release of the old binding and the new one (DESIGN CHOICE, log entry 71). -/
def strmxAct (r sa sb : Nat) (w v p : Bool) : Act Unit := do
  let key := skey r v
  if p && !w then illReason 0x9D 6
  prepS 0x9D (if p then [sa] else []) (if sb = key then [] else [sb]) []
  notSpec
  waitPend [sb]
  if v then
    let _ ← window
  else waitPend [key]
  let s ← get
  if p then
    let q ← readG sa
    if bits q 53 52 ≠ 1 then ill 0
    match ← resolve q .write with
    | .mem loc _ =>
      if !s.peerLoc loc then ill 0
    | _ => pure ()
    let own := match s.streamOf key with
      | some t => (match t.src with
        | .port _ => 1
        | _ => 0)
      | none => 0
    if 8 ≤ (s.coreAt s.curCore).ports - own then unboundStatus sb stFULL
    else
      releaseStream key
      writeG sb (ofN stOK)
      modify (fun x => (x.setStream key
        { write := true, vec := v, src := .port (setBits q 63 54 0), moved := 0, ended := false, ahead := [] }).modCore x.curCore
          (fun c => { c with ports := c.ports + 1 }))
  else
    let (h, b) ← handle sa
    if (w && b.prod != 4) || (!w && b.cons != 3) then unboundStatus sb stREFUSED
    else
      releaseStream key
      writeG sb (ofN stOK)
      modify (fun x => x.setStream key { write := w, vec := v, src := .buffer h 0, moved := 0, ended := false, ahead := [] })
  finish

def execStrmx (r sa sb : Nat) (w v p : Bool) (s : State) : Host.Outcome State Fault Refusal :=
  runAct (strmxAct r sa sb w v p) s

/-- The position word of a stream (R387). -/
def Stream.position (t : Stream) : Word :=
  match t.src with
  | .pattern _ _ _ _ _ _ => ofN (t.ended.toNat * 2 ^ 63 + (t.total - t.moved) % 2 ^ 56)
  | _ => ofN (t.ended.toNat * 2 ^ 63 + 2 ^ 62 + t.moved % 2 ^ 56)

/-- The STRMQ releases the stream. -/
def Stream.done (t : Stream) : Bool :=
  match t.src with
  | .pattern _ _ _ _ _ _ => decide (t.total ≤ t.moved)
  | _ => true

/-- STRMQ reads a stream's position and may release it; the result is written after that (R367, R387; DESIGN CHOICE, log entry 71). -/
def strmqAct (a sa : Nat) (v : Bool) : Act Unit := do
  let key := skey sa v
  let s ← get
  let gone := match s.streamOf key with
    | some t => t.done
    | none => false
  prepS 0x9E [] (if a = key && gone then [] else [a]) []
  waitPend [a]
  if v then
    let _ ← window
  match s.streamOf key with
  | none => ill 0
  | some t =>
    if t.done then releaseStream key
    writeG a t.position
    farDone
    advance

def execStrmq (a sa : Nat) (v : Bool) (s : State) : Host.Outcome State Fault Refusal := runAct (strmqAct a sa v) s

/-- A target on this device that is memory or a scratchpad. -/
def isLocal (t : Target) : Bool :=
  match t with
  | .mem _ _ => true
  | _ => false

/-- STREAM_UNIT: a read stream of a pattern fetches its next unit ahead of use, up to 16 units (R385). A fault is left to the
instruction that consumes the unit. Units written are performed by the instruction that produces them. -/
def streamUnitAct (core ctx key : Nat) : Act Unit := do
  let s ← get
  match assocGet (s.ctxAt core ctx).streams key with
  | none => return
  | some t =>
    let n := t.moved + t.ahead.length
    match t.src with
    | .pattern _ _ _ _ _ _ =>
      if !t.write && t.ahead.length < 16 && n < t.total then
        let p := { t with moved := n }.unitPtr
        let ps := cutSpan 2 p t.unit
        let ts ← ps.mapM (fun x => resolve x.1 .read)
        if ts.all isLocal then
          let bs ← readSpan p t.unit
          modify (fun x => x.modCtx core ctx (fun c =>
            { c with streams := assocSet c.streams key { t with ahead := t.ahead ++ [bs] } }))
    | _ => return

def execStreamUnit (core ctx reg : Nat) (s : State) : Host.Outcome State Fault Refusal :=
  runEvent (fun s =>
    match streamUnitAct core ctx reg (s.asCtx core ctx) with
    | .ok (_, s') => s'
    | .error _ => s) s

end Sys2Proof.Machine
end

