-- ==== Sys2Proof/Machine/Engines.lean ====
section
/-! DEFINITION. What the engines share: acting for a job, job records and their completion (R190, R191, R390, R391), engine
faults (R276), owned lines (R135), operand blocks (R389), arrival entries (R118). -/

namespace Sys2Proof.Machine

/-! ## Acting as an engine -/

/-- An engine that acts for a job of a core, bound to a sealed region or not. -/
def State.asEngine (s : State) (core sreg : Nat) (job : Word) : State :=
  { s with curCore := core, curCtx := 8 + sreg, curJob := job.toNat }

/-- An engine's step: what must wait is left as it is, with its requests to other devices in flight. -/
def State.runEng (s : State) (m : Act Unit) : State :=
  match m s with
  | .ok (_, s') => s'
  | .error (.wait s') => s'
  | .error _ => s

/-- A part of an engine's step whose fault the engine answers for: the fault, with nothing done, or the result. -/
def catchFault {α : Type} (m : Act α) : Act (Except Poison α) := fun s =>
  match m s with
  | .ok (a, s') => .ok (.ok a, s')
  | .error (.trap t _) => .ok (.error { cause := t.cause, addr := t.eaddr, info := t.einfo }, s)
  | .error x => .error x

/-- A pointer moved by `d` bytes; bits [63:54] stand. -/
def ptrAdd (p : Word) (d : Int) : Word := setBits p 53 0 (wrap ((bits p 53 0 : Int) + d) 54)

/-! ## Operand blocks (R389) -/

/-- The bytes of a block of `n` bytes that a register names: alignment, then the place. A held instruction has read it at
issue. -/
def readBlock (p : Word) (align n : Nat) : Act (List Byte) := do
  let s ← get
  match s.me.blk with
  | some b => return b
  | none =>
    let off := bits p 17 0
    if off % align ≠ 0 then trapNow cALIGN p (ofN align)
    if bits p 53 52 ≠ 3 ∨ bits p 51 48 ≠ 0 ∨ 2 ^ 18 < off + n then trapNow cXLATE p 0
    if decide (0x3C000 < off + n) && s.logInUse s.curPart then trapNow cXLATE p 0
    readLoc s.curCore s.curCtx (spadLoc s.curCore off) n p

/-- The bytes of a block as they stand, where it is well placed. -/
def State.blockNow (s : State) (p : Word) (align n : Nat) : Option (List Byte) :=
  match s.me.blk with
  | some b => some b
  | none =>
    let off := bits p 17 0
    if off % align ≠ 0 || bits p 53 52 ≠ 3 || bits p 51 48 ≠ 0 || decide (2 ^ 18 < off + n) then none
    else some (s.bytesAt (spadLoc s.curCore off) n)

/-- A field of a block outside its limits: ILL with the field's byte offset (R389). -/
def fieldIll (off : Nat) (bad : Bool) : Act Unit := do
  if bad then ill off

/-- The format that a pointer of a block names for a core: an invalid code, and BLOG of 1 or 2, trap ILL with the field's byte offset
(R141, R238, R389). -/
def fieldFormat (core : Nat) (p : Word) (off : Nat) : Act Elem := do
  let s ← get
  if bits p 57 54 = 1 ∨ bits p 57 54 = 2 then ill off
  match (s.coreAt core).elem (bits p 63 58) with
  | none => ill off
  | some e => return e

/-! ## Jobs (R190, R390, R391) -/

def jobCore (id : Word) : Nat := bits id 29 19
def jobEngine (id : Word) : Nat := bits id 18 16

/-- The record of a job of this device. -/
def State.jobOf (s : State) (id : Word) : Option Job :=
  if bits id 63 42 ≠ 0 ∨ bits id 41 30 ≠ s.dev ∨ 1920 ≤ jobCore id then none
  else (s.coreAt (jobCore id)).jobs.find? (fun j => j.id == id)

/-- The record, if the job is one of the running core's cluster (R391). -/
def State.jobHere (s : State) (id : Word) : Option Job :=
  if clusterOf (jobCore id) = clusterOf s.curCore then s.jobOf id else none

def State.modJob (s : State) (id : Word) (f : Job → Job) : State :=
  s.modCore (jobCore id) (fun c => { c with jobs := c.jobs.map (fun j => if j.id = id then f j else j) })

def State.dropJob (s : State) (id : Word) : State :=
  s.modCore (jobCore id) (fun c => { c with jobs := c.jobs.filter (fun j => j.id != id) })

/-- The job word of R391. -/
def Job.word (j : Job) : Word :=
  ofN (j.state * 2 ^ 61 + j.pfail % 256 * 2 ^ 48 + (if j.state = 3 ∨ j.state = 4 then j.code % 2 ^ 16 else 0) * 2 ^ 32 +
    j.pos % 2 ^ 32)

def cplPublish (cpl : Word) : Bool := bit cpl 1
def cplHuddles (cpl : Word) : List Nat := if bit cpl 2 then (List.range 8).filter (fun n => bit cpl (8 + n)) else []

/-- The checks of a CPL field at byte offset `off` (R190): reserved bits, and bit 16 on a job that is no copy or beside bit
3. -/
def cplCheck (cpl : Word) (off : Nat) (copy : Bool) : Act Unit :=
  fieldIll off (bits cpl 63 17 != 0 || (bit cpl 16 && (!copy || bit cpl 3)))

/-- The handle of the buffer that completion form [1] publishes to; an invalid one traps ILL (R183). -/
def cplBuffer (cpl : Word) : Act (Option Nat) := do
  if cplPublish cpl then
    let (h, _) ← handle (bits cpl 7 4)
    return some h
  else return none

/-- At most 32 jobs of a core are outstanding; an issue beyond waits (R190). -/
def jobRoom : Act Unit := do
  let s ← get
  if 32 ≤ ((s.coreAt s.curCore).jobs.filter (fun j => j.state != 4)).length then stall

/-- The huddles on which a job registers: none when its context runs no gang task (R361). -/
def State.jobHuddles (s : State) (cpl : Word) : List Nat :=
  match s.taskOf s.curCore s.curCtx with
  | some (_, t) => if t.gang then cplHuddles cpl else []
  | none => []

/-- Issues a job of the running context: the issue is a release (R190, R263); its id stands in JOB.LAST, and it registers on its huddles
(R361, R390). -/
def issueJob (engine : Nat) (cpl hpc tag : Word) (buf : Option Nat) (fmts : List (Nat × Nat)) (arr : Option (Nat × Arrival)) :
    Act Word := do
  releaseWait 2
  jobRoom
  let s ← get
  let id := ofN ((s.coreAt s.curCore).jobSeq % 65536 + engine * 2 ^ 16 + s.curCore * 2 ^ 19 + s.dev * 2 ^ 30)
  let hs := s.jobHuddles cpl
  let j : Job :=
    { id := id, ctx := s.curCtx, serial := s.me.serial, engine := engine, state := 1, pfail := 0, code := 0, pos := 0,
      cpl := cpl, hpc := hpc, tag := tag, buf := buf, huddles := hs, later := 0, sreg := s.sregAt s.curCore s.curCtx,
      fmts := fmts, arr := arr.map (fun a => (a.1, { a.2 with tag := id })), after := distinct (s.owned.map (fun p => p.2)), wrote := [],
      task := s.me.ident.taskId }
  modify (fun x =>
    let y := x.modCore x.curCore (fun c => { c with jobs := c.jobs ++ [j], jobSeq := c.jobSeq + 1 })
    let z := hs.foldl (fun w n => w.modBarrier (.huddle (clusterOf x.curCore) n) (fun b => { b with engc := b.engc + 1 })) y
    z.modMe (fun c => { c with msgr := { c.msgr with jobLast := id } }))
  return id

/-! ## Owned lines (R135) -/

/-- The 64-byte lines of `n` bytes at a pointer, as bits [53:6]. -/
def lineNumbers (p : Word) (n : Nat) : List Nat :=
  if n = 0 then [] else (List.range ((bits p 53 0 + n - 1) / 64 - bits p 53 0 / 64 + 1)).map (fun k => bits p 53 0 / 64 + k)

/-- The device-memory lines of `n` bytes at a pointer that an engine would write, for the core that curCore names, each behind its number in
the pointer's space. -/
def lineMap (p : Word) (n : Nat) : Act (List (Nat × Nat)) := do
  let one (k : Nat) : Act (List (Nat × Nat)) := do
    match ← catchFault (resolve (ofN (k * 64)) .write) with
    | .ok (.mem loc _) => return if loc < 2 ^ 39 then [(k, loc / 64)] else []
    | _ => return []
  let xs ← (lineNumbers p n).mapM one
  return xs.flatten

def linesAt (p : Word) (n : Nat) : Act (List Nat) := do
  let xs ← lineMap p n
  return xs.map (fun x => x.2)

/-- The lines of ranges of bytes that an engine would write. -/
def linesOf (rs : List (Word × Nat)) : Act (List Nat) := do
  let xs ← rs.mapM (fun r => linesAt r.1 r.2)
  return xs.flatten

/-- The engine takes ownership of lines for a job. A line that another command already owns is then owned by both, each releasing its own: the
spec does not say what happens there (DESIGN CHOICE, log entry 75). -/
def State.own (s : State) (job : Word) (ls : List Nat) : State :=
  { s with owned := s.owned ++ (distinct ls).map (fun l => (l, job)) }

/-- The lines of a job are released. -/
def State.disown (s : State) (job : Word) : State := { s with owned := s.owned.filter (fun p => p.2 != job) }

/-- Commands of a cluster's engines that are queued to fill a slot of a buffer. -/
def Cluster.fills (c : Cluster) (h : Nat) : Nat :=
  (List.range 8).foldl (fun n k =>
    n + ((c.mx.queue.get k).filter (fun e => e.kind == .drain && e.bbuf == some h)).length +
      ((c.copyq.get k).filter (fun e => e.toBuf == some h)).length + ((c.gathq.get k).filter (fun e => e.buf == h)).length) 0

/-- The slot that the next command issued to fill a buffer will write, if it is free already: a command takes ownership of its lines when it
issues, and one whose slot a consumer still holds takes it when its engine finds room (R135, R184). DESIGN CHOICE, log entry 70. -/
def State.slotAhead (s : State) (cl h : Nat) : Option (Word × Nat) :=
  (s.bufOf cl h).bind (fun b =>
    let j := b.pidx + BitVec.ofNat 32 ((s.clusterAt cl).fills h)
    if (j - b.fidx).toNat < 2 ^ b.logn then some (b.slotAddr j, b.slotb) else none)

/-- The ranges of a slot at a pointer that a command writes: its rows, and the trailer. -/
def slotRanges (rows : Word → List (Word × Nat)) (p : Word) (slotb : Nat) : List (Word × Nat) := rows p ++ [(ptrAdd p slotb, 64)]

/-- The lines that a command owns from its issue: those of its destination, or of the slot that it will fill. -/
def issueLines (buf : Option Nat) (dest : Word) (rows : Word → List (Word × Nat)) : Act (List Nat) := do
  let s ← get
  match buf with
  | none => linesOf (rows dest)
  | some h =>
    match s.slotAhead (clusterOf s.curCore) h with
    | some (p, n) => linesOf (slotRanges rows p n)
    | none => return []

/-- At its first row a command that fills a slot owns that slot's lines and no others. -/
def takeSlotLines (job : Word) (buf : Option CircBuf) (rows : Word → List (Word × Nat)) : Act Unit := do
  match buf with
  | none => pure ()
  | some b =>
    let ls ← linesOf (slotRanges rows (b.slotAddr b.pidx) b.slotb)
    modify (fun x => (x.disown job).own job ls)

/-- A job has written a range of bytes. -/
def markWritten (job : Word) (r : Word × Nat) : Act Unit := do
  let xs ← lineMap r.1 r.2
  modify (fun s => s.modJob job (fun j => { j with wrote := j.wrote ++ xs.filter (fun x => !j.wrote.contains x) }))

/-- Releases in flight: each line that a job has written and that does not reach into the ranges it has still to write. -/
def State.releaseWritten (s : State) (j : Job) (rest : List (Word × Nat)) : State :=
  let ns := rest.flatMap (fun r => lineNumbers r.1 r.2)
  let ls := (j.wrote.filter (fun x => !ns.contains x.1)).map (fun x => x.2)
  s.pushAll ((s.owned.filter (fun p => p.2 == j.id && ls.contains p.1)).map (fun p => Event.engineLineRelease j.id p.1))

/-- ENGINE_LINE_RELEASE: the line is released, and held accesses proceed (R135). -/
def execEngineLineRelease (job : Word) (line : Nat) (s : State) : Host.Outcome State Fault Refusal :=
  runEvent (fun s => { s with owned := s.owned.filter (fun p => !(p.1 == line && p.2 == job)) }) s

/-! ## Engine faults (R181, R276) -/

/-- The supervisor's record of an engine fault, ENG = 1. It parks no thread; EPC and the handle are not stated and are free values (DESIGN
CHOICE, log entry 1). TASK.ID is that of the issuing work (R274). DESIGN CHOICE, log entry 43. -/
def State.engineRecord (s : State) (j : Job) (p : Poison) : State :=
  let core := jobCore j.id
  let (a, s1) := s.freeW
  let (b, s2) := s1.freeW
  s2.sendRecord ((s.partOfCore core).getD 0) core [ofN (p.cause + 2 ^ 8), a, p.addr, p.info, j.id, b, j.task, 0]

/-- The trap that an engine fault gives a thread. -/
def engineTrap (cause : Nat) (addr info job : Word) : Trap :=
  { cause := cause, epc := 0, eaddr := addr, einfo := info, pois := false, eng := true, job := job }

/-- A fault of a single-core job: the supervisor's record, and the issuer's delivery in flight. -/
def State.engineFault (s : State) (j : Job) (p : Poison) : State :=
  (s.engineRecord j p).push (.engineFaultDeliver
    { core := jobCore j.id, ctx := j.ctx, work := j.serial, trap := engineTrap p.cause p.addr p.info j.id })

/-- A job stops on a fault (R181, R192): state 3, the cause, and where it stopped; what its requests to other devices have brought back is
dropped, so that a restart makes them again. -/
def State.stopJob (s : State) (j : Job) (p : Poison) (pos : Nat) : State :=
  ((s.farClear (2 ^ 48 + j.id.toNat)).farClear (2 ^ 49 + j.id.toNat)).modJob j.id (fun x => { x with state := 3, code := p.cause, pos := pos })

/-- A fault stops an engine's command with the ranges `rest` still to write: the lines that it has written are released, and it keeps the
others (R135). -/
def State.stopKeep (s : State) (job : Word) (rest : List (Word × Nat)) (pos : Nat) (q : Poison) : State :=
  match s.jobOf job with
  | some j => ((s.releaseWritten j rest).stopJob j q pos).engineFault j q
  | none => s

/-- ENGINE_FAULT_DELIVER: the delivery to the issuing thread at its next instruction boundary, or dropped when its work has
ended (R276). -/
def execEngineFaultDeliver (f : EngineFault) (s : State) : Host.Outcome State Fault Refusal :=
  runEvent (fun s =>
    let c := s.ctxAt f.core f.ctx
    if c.serial ≠ f.work || c.phase = .idle || c.phase = .ended then s
    else if c.phase ≠ .running || c.heldTrap.isSome then s.push (.engineFaultDeliver f)
    else
      s.takeTrap f.core f.ctx { f.trap with epc := c.resumePc }) s

/-! ## Arrival entries (R118) -/

/-- An arrival entry is reserved, unless the queue of 8 is full. -/
def State.reserveArrival (s : State) (d : Arrival) : Option State :=
  if 8 ≤ (s.coreAt d.core).arrq.length then none
  else
    let (u, s1) := s.fresh
    some (s1.modCore d.core (fun c =>
      { c with arrq := c.arrq ++ [{ uid := u, arr := d, ready := false, state := 0 }] }))

/-- The oldest reserved entry of a delivery. -/
def State.arrivalOf (s : State) (d : Arrival) : Option ArrEntry :=
  (s.coreAt d.core).arrq.find? (fun e => !e.ready && e.arr.addr == d.addr && e.arr.tag == d.tag && e.arr.src == d.src)

/-- An entry becomes ready, an event for every context of the core (R118, R330). -/
def State.readyArrival (s : State) (d : Arrival) : State :=
  match s.arrivalOf d with
  | none => s
  | some e =>
    (s.modCore d.core (fun c =>
      { c with arrq := c.arrq.map (fun x => if x.uid = e.uid then { x with ready := true, arr := d } else x) })).latchCore
        d.core 3

/-- A reserved entry is freed unused (R192). -/
def State.freeArrival (s : State) (d : Arrival) : State :=
  match s.arrivalOf d with
  | none => s
  | some e => s.modCore d.core (fun c => { c with arrq := c.arrq.filter (fun x => x.uid != e.uid) })

/-- What becomes of a copy's reserved entry, here or at another device: AUX 1 ready, 2 freed. -/
def State.settleArrival (s : State) (part : Nat) (a : Nat × Arrival) (good : Bool) : State :=
  if a.1 = s.dev then (if good then s.readyArrival a.2 else s.freeArrival a.2)
  else s.fabSend a.1 0 9 part 0 (if good then 1 else 2) (.arrive a.2)

/-! ## Completion (R190, R191) -/

/-- The huddle arrivals of a job, on the generations it registered for (R361). -/
def State.jobArrivals (s : State) (j : Job) : State :=
  j.huddles.foldl (fun x n =>
    let b := BarrierId.huddle (clusterOf (jobCore j.id)) n
    (x.modBarrier b (fun y => { y with engArr := y.engArr + 1 })).barrierCheck b) s

/-- The user-level interrupt of a job waits at its context, up to 8 of them (R191). -/
def State.jobInterrupt (s : State) (j : Job) : State :=
  let core := jobCore j.id
  let c := s.ctxAt core j.ctx
  if bit j.cpl 3 && c.serial == j.serial && c.phase != .idle && c.phase != .ended && decide (c.waitIntr.length < 8) then
    s.modCtx core j.ctx (fun x => { x with waitIntr := x.waitIntr ++ [{ job := j.id, hpc := j.hpc }] })
  else s

/-- A completed job ages the others that completed before it; one that 32 have followed is dropped (R391). -/
def State.ageJobs (s : State) (id : Word) : State :=
  let age (j : Job) : Job := if j.state = 4 ∧ j.id ≠ id then { j with later := j.later + 1 } else j
  s.modCore (jobCore id) (fun c => { c with jobs := (c.jobs.map age).filter (fun j => decide (j.later < 32)) })

/-- A job whose work is done completes: every form of it takes effect at once, and its lines are released; one whose publish finds no room
waits for it (R190, R408). -/
def State.completeJob (s : State) (job : Word) : State :=
  match s.jobOf job with
  | none => s
  | some j =>
    let core := jobCore job
    let cl := clusterOf core
    let full := match j.buf.bind (s.bufOf cl) with
      | some b => !b.room
      | none => false
    if j.state = 4 then s
    else if full then (s.disown job).push (.jobComplete job)
    else
      let s1 := match j.buf with
        | some h => s.bufPublish cl h
        | none => s
      let s2 := (s1.jobArrivals j).jobInterrupt j
      let s3 := if (s2.ctxAt core j.ctx).serial = j.serial then s2.latch core j.ctx 0 else s2
      let s4 := match j.arr with
        | some a => s3.settleArrival ((s.partOfCore core).getD 0) a (j.code == 0)
        | none => s3
      ((s4.disown job).modJob job (fun x => { x with state := 4 })).ageJobs job

/-- A job's work is done with a status: it completes in this ac, unless it must wait for room (R408). -/
def State.finishJob (s : State) (id : Word) (status pfail : Nat) : State :=
  (((s.farClear (2 ^ 48 + id.toNat)).farClear (2 ^ 49 + id.toNat)).modJob id
    (fun j => { j with state := 2, code := status, pfail := pfail })).completeJob id

/-- JOB_COMPLETE: a job that waits for room completes when there is some (R190). -/
def execJobComplete (job : Word) (s : State) : Host.Outcome State Fault Refusal := runEvent (fun s => s.completeJob job) s

/-- USER_INTERRUPT: the context saves its PC, clears UIE, writes the job id into XFER.ID and jumps to HPC; a SLEEP ends, and the
saved PC is then that of the instruction after it (R191, R331). -/
def execUserInterrupt (core ctx : Nat) (s : State) : Host.Outcome State Fault Refusal :=
  runEvent (fun s =>
    let c := s.ctxAt core ctx
    match c.waitIntr with
    | [] => s
    | u :: rest =>
      if c.takesIntr then
        s.modCtx core ctx (fun x =>
          { x with waitIntr := rest, uiSaved := some x.resumePc, uie := false, pc := u.hpc, sleep := none, xread := none,
                   msgr := { x.msgr with xferId := u.job } })
      else s) s

/-- UIRET returns from a user-level interrupt (R404); a saved PC that is no target traps ILLTGT at the UIRET (R293). -/
def uiretAct : Act Unit := do
  let s ← get
  match s.me.uiSaved with
  | none => ill 0
  | some pc =>
    if ← badTarget pc then trapNow cILLTGT pc 0
    modify (fun x => x.modMe (fun c => { c with pc := pc, uie := true, uiSaved := none }))

def execUiret (s : State) : Host.Outcome State Fault Refusal := runAct uiretAct s

end Sys2Proof.Machine
end

