-- ==== Sys2Proof/Machine/Matrix.lean ====
section
/-! DEFINITION. The matrix unit: its instructions (R392 to R398) and its events (R173 to R182, R187 to R189, R243 to R245). -/

namespace Sys2Proof.Machine

/-! ## The command block (R178) -/

def mAptr (b : List Byte) : Word := wordAt b 0
def mBptr (b : List Byte) : Word := wordAt b 8
def mM (b : List Byte) : Nat := fieldAt b 16 2
def mN (b : List Byte) : Nat := fieldAt b 18 2
def mK (b : List Byte) : Nat := fieldAt b 20 2
def mFlags (b : List Byte) : Nat := fieldAt b 22 2
def mAcc (b : List Byte) : Bool := mFlags b % 2 == 1
def mAq (b : List Byte) : Bool := mFlags b / 2 % 2 == 1
def mBq (b : List Byte) : Bool := mFlags b / 4 % 2 == 1
def mGathA (b : List Byte) : Bool := mFlags b / 8 % 2 == 1
def mSkip (b : List Byte) : Bool := mFlags b / 16 % 2 == 1
def mStrict (b : List Byte) : Bool := mFlags b / 32 % 2 == 1
def mAstr (b : List Byte) : Nat := fieldAt b 24 4
def mBstr (b : List Byte) : Nat := fieldAt b 28 4

/-- The K-steps of an operation. -/
def mSteps (b : List Byte) : Nat := (mK b + 15) / 16

/-- The element class of an operand format (R243): 0 IF19, 1 INT8, 2 FP32. -/
def classOf (e : Elem) (scaled : Bool) : Option Nat :=
  match e with
  | .raw => none
  | .desc d =>
    match d.kind with
    | 0 => some 0
    | 1 => some 0
    | 2 => some 0
    | 3 => some 2
    | _ => if d.width ≤ 8 then some (if scaled then 0 else 1) else none

/-- The class of an operation (R178, R243). -/
def pairClass (a b : Nat) : Option Nat :=
  if a = b then some a else if a ≤ 1 ∧ b ≤ 1 then some 0 else none

/-- The format of an operand pointer and its class; an invalid or unfit one traps ILL naming its field, and one whose table is being
built waits (R248). -/
def operandFormat (core : Nat) (p : Word) (off : Nat) : Act (Elem × Nat) := do
  let s ← get
  let e ← fieldFormat core p off
  if (s.coreAt core).building? e then stall
  match classOf e (bits p 57 54 != 0) with
  | none => ill off
  | some c => return (e, c)

/-- A slot's pointer carries the buffer's format and no scale (R400). -/
def fmtPtr (f : Nat) : Word := ofN (f % 64 * 2 ^ 58)

/-- The checks of a block's fields (R176, R178, R389). -/
def mChecks (b : List Byte) : Act Unit := do
  fieldIll 16 (decide (64 < mM b))
  fieldIll 18 (decide (384 < mN b))
  fieldIll 22 (decide (64 ≤ mFlags b))
  cplCheck (wordAt b 32) 32 false
  fieldIll 56 (fieldAt b 56 8 != 0)

/-- A partner of an operation with no buffer. -/
def plainPartner (core cidx serial : Nat) (p : Word) : Partner :=
  { core := core, cidx := cidx, serial := serial, handle := none, fmt := setBits p 53 0 0, slot := p, invalid := 0,
    failed := 0 }

/-- The buffer of a matrix operand whose field stands at byte `off`: the issuer's handle must be valid and its buffer have CONS = 1 (R389,
R393; DEDUCED, log entry 72). -/
def operandBuffer (q off : Nat) : Act (Nat × CircBuf) := do
  let x ← handle q
  fieldIll off (x.2.cons != 1)
  return x

/-- The partner of thread `cidx` of core `core`, which in a gang resolves A in its own context (R394). -/
def partnerOf (b : List Byte) (gang : Bool) (g : Option GatherList) (core cidx : Nat) : Act Partner := do
  let s ← get
  let ser := (s.ctxAt core cidx).serial
  let p := mAptr b
  let slot := if mAq b then (s.handleAt core cidx (bits p 3 0)).filter (fun x => x.2.cons == 1) else none
  if mAq b && slot.isNone then
    if gang then return { plainPartner core cidx ser 0 with failed := stREFUSED } else ill 0
  else
    match g, slot with
    | some l, _ => return plainPartner core cidx ser l.src
    | none, some (h, c) => return { plainPartner core cidx ser (fmtPtr c.fmtc) with handle := some h }
    | none, none =>
      if bits p 53 52 ≠ 3 ∨ 1 < bits p 51 48 ∨ (gang && bits p 51 48 == 1) then ill 0
      return plainPartner core cidx ser p

/-- What issue takes from the block: the command, its formats, and its completion buffer (R178, R393). -/
def buildOp (b : List Byte) (threads : List (Nat × Nat)) (gang : Bool) : Act (MatCmd × List (Nat × Nat) × Option Nat) := do
  mChecks b
  let s ← get
  let mx := (s.clusterAt (clusterOf s.curCore)).mx
  let g := if mGathA b then assocGet mx.gather s.curCore else none
  let k := if mSkip b then assocGet mx.skip s.curCore else none
  if (mGathA b && g.isNone) || (mSkip b && k.isNone) then ill 22
  let g := g.map (fun l => { l with strict := mStrict b })
  let parts ← threads.mapM (fun t => partnerOf b gang g t.1 t.2)
  let (bh, bp) ← (do
    if mBq b then
      let (h, c) ← operandBuffer (bits (mBptr b) 3 0) 8
      return (some h, fmtPtr c.fmtc)
    else return (none, mBptr b) : Act (Option Nat × Word))
  let (be, bc) ← operandFormat s.curCore bp 8
  let live := parts.filter (fun p => p.failed == 0)
  let fs ← live.mapM (fun p => operandFormat p.core p.fmt 0)
  let cls ← (do
    match fs.foldl (fun c f => c.bind (fun x => pairClass f.2 x)) (some bc) with
    | some c => return c
    | none => ill 0 : Act Nat)
  if g.isNone && fs.any (fun f => mAstr b * 8 % f.1.width 8 != 0) then ill 24
  let _ := be
  let cb ← cplBuffer (wordAt b 32)
  if !mBq b then noRegister bp
  match g with
  | some l => scaleCheck l.src
  | none => if !mAq b then scaleCheck (mAptr b)
  if !mBq b then scaleCheck bp
  let c : MatCmd :=
    { job := 0, core := s.curCore, kind := .op, block := b, parts := parts, bbuf := bh, bslot := bp, binvalid := 0,
      gather := g, skip := k, cls := cls, dest := 0, stride := 0, started := false, stopped := false, step := 0, blk := 0,
      row := 0, avals := [], bvals := [] }
  return (c, (s.curCore, bits bp 63 58) :: live.map (fun p => (p.core, bits p.fmt 63 58)), cb)

def State.modMx (s : State) (cl : Nat) (f : MatrixUnit → MatrixUnit) : State :=
  s.modCluster cl (fun c => { c with mx := f c.mx })

/-- The queue of a core in its cluster's matrix unit. -/
def State.mqueue (s : State) (core : Nat) : List MatCmd := (s.clusterAt (clusterOf core)).mx.queue.get (core % 8)

def State.modMq (s : State) (core : Nat) (f : List MatCmd → List MatCmd) : State :=
  s.modMx (clusterOf core) (fun m => { m with queue := m.queue.modify (core % 8) f })

/-- A command enters the queues of its partners: itself in the issuer's, a placeholder in the others' (R177). A bound list and
bitmap are consumed (R393). -/
def State.queueOp (s : State) (c : MatCmd) : State :=
  let s1 := c.parts.foldl (fun x p =>
    let e := if p.core = c.core then c else { c with core := p.core, kind := .placeholder c.job }
    (x.modMq p.core (fun q => q ++ [e])).modMx (clusterOf p.core) (fun m =>
      { m with issued := m.issued.set (p.core % 8) (mM c.block, mN c.block) })) s
  s1.modMx (clusterOf c.core) (fun m =>
    { m with gather := if c.gather.isSome then assocErase m.gather c.core else m.gather,
             skip := if c.skip.isSome then assocErase m.skip c.core else m.skip })

/-! ## Instructions -/

/-- MCFG 0 sets the weights of a cluster of the partition (R392). -/
def mcfgWeightsAct (sa : Nat) : Act Unit := do
  let s ← get
  prepPriv 0xB0 s.privS [sa] []
  let g ← readG sa
  if bits g 39 32 ≠ 0 ∨ bits g 63 48 ≠ 0 then ill 0
  let cl := bits g 47 40
  if 240 ≤ cl || s.partOfCluster cl != s.partOfCore s.curCore then ill 1
  modify (fun x => x.modMx cl (fun m =>
    { m with weight := (List.range 8).foldl (fun w c => w.set c (g.toNat / 16 ^ c % 16)) m.weight }))
  advance

def execMcfgWeights (sa : Nat) (s : State) : Host.Outcome State Fault Refusal := runAct (mcfgWeightsAct sa) s

/-- MCFG 1 discards a bound list and bitmap (R392). -/
def mcfgDiscardAct : Act Unit :=
  holding .mcfgDiscard [] none (do
    modify (fun x => x.modMx (clusterOf x.curCore) (fun m =>
      { m with gather := assocErase m.gather x.curCore, skip := assocErase m.skip x.curCore }))
    advance)

def execMcfgDiscard (s : State) : Host.Outcome State Fault Refusal := runAct mcfgDiscardAct s

/-- MMA queues the operation of a block; a full queue stalls (R173, R393). -/
def mmaAct (sa : Nat) : Act Unit := do
  prep 0xB1 [sa] []
  let g ← readG sa
  let b ← readBlock g 64 64
  holding (.mma sa) [] (some b) (do
    let s ← get
    let (c, fmts, cb) ← buildOp b [(s.curCore, s.curCtx)] false
    if 8 ≤ (s.mqueue s.curCore).length then stall
    let id ← issueJob 0 (wordAt b 32) (wordAt b 40) (wordAt b 48) cb fmts none
    modify (fun x => x.queueOp { c with job := id })
    advance)

def execMma (sa : Nat) (s : State) : Host.Outcome State Fault Refusal := runAct (mmaAct sa) s

/-- The thread of a gang task on core `n` of the cluster. -/
def gangThread (t : Task) (core n : Nat) : Option (Nat × Nat) := t.threads.find? (fun q => q.1 == core / 8 * 8 + n)

/-- The partners that MMAG's mask names: the issuing core and one or two others, each with a thread of the issuer's gang (R394). -/
def State.gangOf (s : State) (mask : Word) : Option (List (Nat × Nat)) :=
  match s.taskOf s.curCore s.curCtx with
  | none => none
  | some (_, t) =>
    let ns := (List.range 8).filter (fun n => bit mask n)
    let ths := ns.filterMap (gangThread t s.curCore)
    if !t.gang || bits mask 63 8 != 0 || decide (ns.length < 2) || decide (3 < ns.length) ||
        !ns.contains (s.curCore % 8) || ths.length != ns.length then none
    else some ths

/-- MMAG queues one operation for two or three partners of the squad; a full queue gives FULL (R177, R394). A crew's squads are squads too:
DEDUCED, log entry 72. -/
def mmagAct (a sa sb : Nat) : Act Unit := do
  let s ← get
  if (s.taskOf s.curCore s.curCtx).all (fun p => !p.2.gang) then ill 0
  prepIll 0xB2 [sa, sb] [a] [sb] (fun s => (s.gangOf (s.me.g.get sb)).isNone)
  let g ← readG sa
  let mask ← readG sb
  let b ← readBlock g 64 64
  holding (.mmag a sa sb) [a] (some b) (do
    let s ← get
    let ths := (s.gangOf mask).getD []
    let (c, fmts, cb) ← buildOp b ths true
    if ths.any (fun q => decide (8 ≤ (s.mqueue q.1).length)) then
      writeG a (ofN stFULL)
    else
      let id ← issueJob 0 (wordAt b 32) (wordAt b 40) (wordAt b 48) cb fmts none
      modify (fun x => x.queueOp { c with job := id })
      writeG a (ofN stOK)
    advance)

def execMmag (a sa sb : Nat) (s : State) : Host.Outcome State Fault Refusal := runAct (mmagAct a sa sb) s

/-- The format of a copy's or a drain's side; an invalid one traps ILL (R141, R238), and one whose table is being built waits (R248). -/
def sideFormat (p : Word) (off : Nat) : Act Elem := do
  let s ← get
  let e ← fieldFormat s.curCore p off
  if (s.coreAt s.curCore).building? e then stall
  return e

/-- A command that is no operation. -/
def otherCmd (core : Nat) (kind : MatKind) (dest : Word) (stride : Nat) (buf : Option Nat) : MatCmd :=
  { job := 0, core := core, kind := kind, block := [], parts := [], bbuf := buf, bslot := 0, binvalid := 0, gather := none,
    skip := none, cls := 0, dest := dest, stride := stride, started := false, stopped := false, step := 0, blk := 0, row := 0,
    avals := [], bvals := [] }

/-- The ranges that rows `rs` of a drain fill: `n` elements of `w` bits each. -/
def drainRows (stride w n : Nat) (rs : List Nat) (base : Word) : List (Word × Nat) :=
  rs.map (fun r => (ptrAdd base ((r * stride : Nat) : Int), (n * w + 7) / 8))

/-- MDRAIN queues a drain to a pointer, or to a slot (R179, R395). A readable operand that makes it ILL does so before a poisoned one is
raised (R271). -/
def mdrainAct (sa sb : Nat) (q : Bool) : Act Unit := do
  orHeld (prepEarly 0xB3 (if q then [sb] else [sa, sb]) [] (if q then [] else [sa]) (do
    let s ← get
    let f ← (do
      if q then
        let (_, b) ← handle sa
        if b.prod ≠ 1 then ill 2
        return fmtPtr b.fmtc
      else return s.me.g.get sa : Act Word)
    let _ ← sideFormat f 0))
  let stride ← readG sb
  holding (.mdrain sa sb q) [] none (do
    let s ← get
    let iss := (s.clusterAt (clusterOf s.curCore)).mx.issued.get (s.curCore % 8)
    let (buf, dest) ← (do
      if q then
        let (h, b) ← handle sa
        if b.prod ≠ 1 ∨ b.slotb < iss.1 * stride.toNat then ill 2
        return (some h, fmtPtr b.fmtc)
      else
        let p ← readG sa
        return (none, p) : Act (Option Nat × Word))
    let e ← sideFormat dest 0
    let w := e.width 32
    if !q then
      noRegister dest
      if 8 ≤ w ∧ bits dest 53 0 % (w / 8) ≠ 0 then trapNow cALIGN dest (ofN (w / 8))
      scaleCheck dest
    if 8 ≤ (s.mqueue s.curCore).length then stall
    let ls ← issueLines buf dest (drainRows stride.toNat w iss.2 (List.range iss.1))
    let id ← issueJob 0 1 0 0 none [(s.curCore, bits dest 63 58)] none
    let c := otherCmd s.curCore .drain dest stride.toNat buf
    modify (fun x => (x.own id ls).modMq x.curCore (fun r => r ++ [{ c with job := id }]))
    advance)

def execMdrain (sa sb : Nat) (q : Bool) (s : State) : Host.Outcome State Fault Refusal := runAct (mdrainAct sa sb q) s

/-- MZERO queues the clearing of the accumulator (R395). -/
def mzeroAct : Act Unit :=
  holding .mzero [] none (do
    let s ← get
    if 8 ≤ (s.mqueue s.curCore).length then stall
    let id ← issueJob 0 1 0 0 none [] none
    let c := otherCmd s.curCore .zero 0 0 none
    modify (fun x => (x.modMq x.curCore (fun r => r ++ [{ c with job := id }])).modMx (clusterOf x.curCore) (fun m =>
      { m with issued := m.issued.set (x.curCore % 8) (64, 384) }))
    advance)

def execMzero (s : State) : Host.Outcome State Fault Refusal := runAct mzeroAct s

/-- MRESUME sends its request to the job's unit; the status arrives in the register (R396). -/
def mresumeAct (a sa : Nat) : Act Unit := do
  prep 0xB5 [sa] [a]
  let g ← readG sa
  holding (.mresume a sa) [a] none (do
    let s ← get
    takeSlot s.curCore
    modify (fun x => (x.setPend (x.dest a)).push (.mresumeAtUnit { dest := x.dest a, job := g }))
    advance)

def execMresume (a sa : Nat) (s : State) : Host.Outcome State Fault Refusal := runAct (mresumeAct a sa) s

/-- MSTAT reads the job word of a matrix job (R396). A complete job is dropped when it is read (R391). -/
def mstatAct (a sa : Nat) : Act Unit := do
  prep 0xB6 [sa] [a]
  let id ← readG sa
  let s ← get
  match s.jobHere id with
  | some j =>
    if j.engine = 0 then
      if j.state = 4 then modify (fun x => x.dropJob id)
      writeG a j.word
    else writeG a 0
  | none => writeG a 0
  advance

def execMstat (a sa : Nat) (s : State) : Host.Outcome State Fault Refusal := runAct (mstatAct a sa) s

/-- SKIPB binds a skip bitmap (R398). -/
def skipbAct (sa sb : Nat) : Act Unit := do
  prepIll 0xB8 [sa, sb] [] [sb] (fun s => decide (4096 < (s.me.g.get sb).toNat))
  let g ← readG sa
  let n ← readG sb
  let bytes := (n.toNat + 63) / 64 * 8
  let b ← readBlock g 8 bytes
  holding (.skipb sa sb) [] (some b) (do
    let ws := (List.range (bytes / 8)).map (fun k => wordAt b (8 * k))
    modify (fun x => x.modMx (clusterOf x.curCore) (fun m => { m with skip := assocSet m.skip x.curCore (n.toNat, ws) }))
    advance)

def execSkipb (sa sb : Nat) (s : State) : Host.Outcome State Fault Refusal := runAct (skipbAct sa sb) s

/-! ## Running an operation -/

/-- The raw elements `first` to `first + n - 1` of a row, with their scale exponents. -/
def rowElems (p : Word) (e : Elem) (wm first n : Nat) : Act (List (Nat × Int)) := do
  let s ← get
  scaleCheck p
  let es := (List.range n).map (fun (k : Nat) => elemIndex p wm + ((first + k : Nat) : Int))
  checkPtrs (s.touched p e false wm es .read)
  let qs ← scalesOf p e false es
  let ls ← readLines (es.map (elemPtr p wm))
  return es.map (fun i => (elemIn ls p wm i, s.scaleIn p qs i))

/-- An operand element as the unit holds it: an integer, an IF19 pattern, or a binary32 pattern; an element of a scaled operand is rounded
once to IF19, whose container is a binary32 pattern (R243). -/
def operandValue (c : Core) (cls : Nat) (d : Desc) (sc : Bool) (x : Nat) (q : Int) : Int :=
  match cls with
  | 1 => if d.kind = 4 then signed x d.width else (x % 2 ^ d.width : Nat)
  | 0 => (Fmt.if19.round .ne (scaled (d.decode c.entry x) q) : Nat)
  | _ => if sc then ((toIf19 .ne (scaled (d.decode c.entry x) q)).toNat : Int) else (x : Int)

/-- Operand elements of a row. -/
def rowValues (cls : Nat) (p : Word) (first n : Nat) : Act (List Int) := do
  let s ← get
  let c := s.coreAt s.curCore
  match c.elem (bits p 63 58) with
  | some (.desc d) =>
    let xs ← rowElems p (.desc d) d.width first n
    return xs.map (fun x => operandValue c cls d (bits p 57 54 != 0) x.1 x.2)
  | _ => return List.replicate n 0

/-- One K-step of one element (R174, R243, R244). -/
def kstep (cls : Nat) (acc : W32) (a b : List Int) : W32 :=
  let ab := a.zip b
  match cls with
  | 1 => acc + BitVec.ofInt 32 ((ab.map (fun p => p.1 * p.2)).foldl (· + ·) 0)
  | 0 => kstepAdd acc (ab.map (fun p => (Fmt.if19.decode p.1.toNat, Fmt.if19.decode p.2.toNat)))
  | _ => kstepAdd acc (splitTerms (ab.map (fun p => (BitVec.ofInt 32 p.1, BitVec.ofInt 32 p.2))))

/-- The index of an accumulator word. -/
def accAt (core row col : Nat) : Nat := 24576 * (core % 8) + 384 * row + col

/-- The K-step is not skipped (R189). -/
def stepRuns (k : Option (Nat × List Word)) (t : Nat) : Bool :=
  match k with
  | none => true
  | some (n, ws) => decide (n ≤ t) || bit (ws.getD (t / 64) 0) (t % 64)

/-- The first K-step at or after `t` that runs; the number of steps when none does. -/
def nextStep (c : MatCmd) (t : Nat) : Nat :=
  ((List.range (mSteps c.block)).find? (fun x => decide (t ≤ x) && stepRuns c.skip x)).getD (mSteps c.block)

/-- A command at the head of a queue is replaced. -/
def State.setHead (s : State) (c : MatCmd) : State := s.modMq c.core (fun q => match q with
  | [] => []
  | _ :: r => c :: r)

/-- The command and every placeholder stand at the head of their queues (R177). -/
def State.gangReady (s : State) (c : MatCmd) : Bool :=
  c.parts.all (fun p =>
    match s.mqueue p.core with
    | [] => false
    | x :: _ => x.job == c.job)

/-- The handles of the slots an operation still waits to consume. -/
def MatCmd.needs (c : MatCmd) : List Nat :=
  (c.parts.filter (fun p => p.failed == 0)).filterMap (fun p => p.handle) ++ c.bbuf.toList

/-- The operands of an operation are available: a slot for each use of a buffer (R183); a freed buffer does not keep it
waiting. -/
def State.operandsReady (s : State) (c : MatCmd) : Bool :=
  c.needs.all (fun h =>
    match s.bufOf (clusterOf c.core) h with
    | some b => decide ((c.needs.filter (fun x => x == h)).length ≤ (b.pidx - b.cidx).toNat)
    | none => true)

/-- The operation reads nothing (R180). -/
def MatCmd.zeroDim (c : MatCmd) : Bool := mM c.block == 0 || mN c.block == 0 || mK c.block == 0

/-- The head of a core's queue may be granted a grain (R175). -/
def State.eligible (s : State) (cl n : Nat) : Bool :=
  match s.mqueue (8 * cl + n) with
  | [] => false
  | c :: _ => c.kind == .op && !c.stopped && (c.started || (s.gangReady c && s.operandsReady c))

/-- Ends a command of the unit: it leaves its queues, its slots are freed, its lines released (R135, R182, R184). -/
def State.endCmd (s : State) (c : MatCmd) (status pfail : Nat) : State :=
  let cl := clusterOf c.core
  let held := if c.kind = .op ∧ c.started then c.parts.filterMap (fun p => p.handle) ++ c.bbuf.toList else []
  let cores := if c.kind = .op then c.parts.map (fun p => p.core) else [c.core]
  let s1 := held.foldl (fun x h => x.bufFree cl h) s
  let s2 := cores.foldl (fun x k => x.modMq k (fun q => q.filter (fun e => e.job != c.job))) s1
  s2.finishJob c.job status pfail

/-- The operation is done: OK when a partner completed, else the status of the lowest one; bit p of the mask marks partner p, in ascending
core index, that did not complete (R177, R182). -/
def State.endOp (s : State) (c : MatCmd) : State :=
  let pf := ((List.range c.parts.length).zip c.parts).foldl (fun m p => if p.2.failed = 0 then m else m + 2 ^ p.1) 0
  let gang := decide (1 < c.parts.length)
  let status := if c.parts.any (fun p => p.failed == 0) then stOK
    else match c.parts with
      | p :: _ => p.failed
      | [] => stOK
  s.endCmd c status (if gang then pf else 0)

/-- The partners of an operation that a fault has not ended. -/
def MatCmd.live (c : MatCmd) : List Partner := c.parts.filter (fun p => p.failed == 0)

def MatCmd.modPart (c : MatCmd) (core : Nat) (f : Partner → Partner) : MatCmd :=
  { c with parts := c.parts.map (fun p => if p.core = core then f p else p) }

/-- Every partner ends with a status. -/
def MatCmd.failAll (c : MatCmd) (st : Nat) : MatCmd :=
  { c with parts := c.parts.map (fun p => if p.failed = 0 then { p with failed := st } else p) }

/-- A cancelled operation: every partner ends with REFUSED (R403). -/
def MatCmd.cancel (c : MatCmd) : MatCmd := { c with parts := c.parts.map (fun p => { p with failed := stREFUSED }) }

/-- A slot is consumed: the address of slot CIDX, its status and its mask of invalid rows below 256, with CIDX advanced. A freed buffer
and a trailer that cannot be read are local faults (R182, R184, R187). -/
def takeSlotOf (h : Nat) : Act (Except Nat (Word × Nat × Nat)) := do
  let s ← get
  let cl := clusterOf s.curCore
  match s.bufOf cl h with
  | none => return .error stREFUSED
  | some b =>
    let p := b.slotAddr b.cidx
    let r ← catchFault (readPtr (ptrAdd p b.slotb) 64)
    modify (fun x => x.bufAdvance cl h)
    match r with
    | .error _ => return .error stREFUSED
    | .ok t =>
      let rows := fieldAt t 32 2
      let mask := fieldAt t 0 32 % 2 ^ rows
      return .ok (p, fieldAt t 34 2, 2 ^ 256 - 1 - mask % 2 ^ 256)

/-- Acting for the job of a command, at one of its cores. -/
def actFor (c : MatCmd) (core : Nat) : Act Unit := modify (fun s =>
  s.asEngine core (match s.jobOf c.job with
    | some j => j.sreg
    | none => 0) c.job)

/-- A partner consumes its A slot, or takes the rows that its gather list leaves invalid. -/
def startPartner (c : MatCmd) (i : Nat) (p : Partner) : Act Partner := do
  if p.failed ≠ 0 then return p
  else
    match p.handle with
    | none =>
      match c.gather with
      | none => return p
      | some l =>
        let base := if 1 < c.parts.length then 64 * i else 0
        let bad := (List.range 64).foldl (fun m r =>
          match l.idx[base + r]? with
          | some x => if x = 0xFFFF ∨ (l.rows ≤ x ∧ !l.strict) then m + 2 ^ r else m
          | none => m + 2 ^ r) 0
        return { p with invalid := bad }
    | some h =>
      actFor c p.core
      match ← takeSlotOf h with
      | .error st => return { p with failed := st }
      | .ok (q, st, inv) => return if st = 0 then { p with slot := q, invalid := inv } else { p with failed := st }

/-- The tile of a partner is cleared, invalid rows apart (R180, R187). -/
def State.clearTile (s : State) (c : MatCmd) (p : Partner) : State :=
  s.modMx (clusterOf c.core) (fun m =>
    { m with acc := ((List.range (mM c.block)).filter (fun r => p.invalid / 2 ^ r % 2 == 0)).foldl (fun t r =>
        (List.range (mN c.block)).foldl (fun u j => u.set (accAt p.core r j) 0) t) m.acc })

/-- The accumulator's shape is that of the operation (R395). -/
def State.setShape (s : State) (c : MatCmd) (p : Partner) : State :=
  let b := c.block
  let sh : AccShape := { m := mM b, n := mN b, valid := 2 ^ mM b - 1 - p.invalid % 2 ^ mM b, int := c.cls == 1 }
  s.modMx (clusterOf c.core) (fun m => { m with shape := m.shape.set (p.core % 8) sh })

/-- An operation starts: slots are consumed, tiles cleared in overwrite mode, shapes taken. -/
def startOp (c : MatCmd) : Act MatCmd := do
  let ps ← ((List.range c.parts.length).zip c.parts).mapM (fun x => startPartner c x.1 x.2)
  let c1 := { c with parts := ps, started := true, step := nextStep c 0 }
  let c2 ← (do
    match c.bbuf with
    | none => return c1
    | some h =>
      actFor c c.core
      match ← takeSlotOf h with
      | .error st => return c1.failAll st
      | .ok (q, st, inv) => return if st = 0 then { c1 with bslot := q, binvalid := inv } else c1.failAll st : Act MatCmd)
  modify (fun s =>
    let s1 := c2.live.foldl (fun x p =>
      let y := if mAcc c.block then x else x.clearTile c2 p
      y.setShape c2 p) s
    (s1.setHead c2).modJob c.job (fun j => { j with state := 2 }))
  return c2

/-- The row pointer of row `r` of a partner's A (R178, R188, R394). -/
def aRow (c : MatCmd) (i : Nat) (p : Partner) (r : Nat) : Word :=
  match c.gather with
  | some l => ptrAdd l.src (((l.idx.getD ((if 1 < c.parts.length then 64 * i else 0) + r) 0) * l.stride : Nat) : Int)
  | none => ptrAdd p.slot ((r * mAstr c.block : Nat) : Int)

/-- The valid rows of a partner's A. -/
def validRows (c : MatCmd) (p : Partner) : List Nat := (List.range (mM c.block)).filter (fun r => p.invalid / 2 ^ r % 2 == 0)

/-- A strict gather list's first entry out of range for a partner (R188). -/
def strictBad (c : MatCmd) (i : Nat) (p : Partner) : Option Nat :=
  match c.gather with
  | some l =>
    if l.strict then
      let base := if 1 < c.parts.length then 64 * i else 0
      ((validRows c p).find? (fun r => decide (l.rows ≤ l.idx.getD (base + r) 0))).map (fun r => base + r)
    else none
  | none => none

/-- The A elements of a K-step for one partner, or its local fault (R182). -/
def fetchA (c : MatCmd) (i : Nat) (p : Partner) : Act (Except Nat (List (Nat × List Int))) := do
  let k0 := 16 * c.step
  let n := min 16 (mK c.block - k0)
  let s ← get
  if (match p.handle with
      | some h => (s.bufOf (clusterOf c.core) h).isNone
      | none => false) then return .error stREFUSED
  else
    actFor c p.core
    match ← catchFault ((validRows c p).mapM (fun r => do
      let xs ← rowValues c.cls (aRow c i p r) k0 n
      return (r, xs))) with
    | .ok xs => return .ok xs
    | .error _ => return .error stREFUSED

/-- Row `r` of a B slot is invalid: its mask bit is clear, or it lies at or beyond the row count, which is at most 256 (R186, R187). -/
def MatCmd.badRow (c : MatCmd) (r : Nat) : Bool := c.bbuf.isSome && (decide (256 ≤ r) || c.binvalid / 2 ^ r % 2 == 1)

/-- The B elements of a K-step: rows 16s to 16s+15, an invalid row of a slot as zeros (R174, R187). -/
def fetchB (c : MatCmd) : Act (Except Poison (List (List Int))) := do
  let k0 := 16 * c.step
  let n := min 16 (mK c.block - k0)
  actFor c c.core
  catchFault ((List.range n).mapM (fun k => do
    if c.badRow (k0 + k) then return List.replicate (mN c.block) 0
    else rowValues c.cls (ptrAdd c.bslot (((k0 + k) * mBstr c.block : Nat) : Int)) 0 (mN c.block)))

/-- One grain's arithmetic: every element of a 64-column block for every live partner (R174). -/
def State.grain (s : State) (c : MatCmd) : State :=
  let cols := (List.range (min 64 (mN c.block - 64 * c.blk))).map (fun j => 64 * c.blk + j)
  let col (j : Nat) : List Int := c.bvals.map (fun r => r.getD j 0)
  s.modMx (clusterOf c.core) (fun m =>
    { m with acc := c.live.foldl (fun t p =>
        ((c.avals.find? (fun v => v.1 == p.core)).getD (p.core, [])).2.foldl (fun u r =>
          cols.foldl (fun w j => w.modify (accAt p.core r.1 j) (fun x => kstep c.cls x r.2 (col j))) u) t) m.acc })

/-- A fault on B, or a strict gather index, stops the operation before step s (R181): its lines are released, and there are the record and
each partner's delivery. -/
def State.stopOp (s : State) (c : MatCmd) (p : Poison) : State :=
  match s.jobOf c.job with
  | none => s
  | some j =>
    let s1 := ((s.setHead { c with stopped := true }).disown c.job).stopJob j p c.step
    if c.parts.length = 1 then s1.engineFault j p
    else
      let mask := c.parts.foldl (fun m x => m + 2 ^ (x.core % 8)) 0
      c.parts.foldl (fun x q => x.push (.engineFaultDeliver
        { core := q.core, ctx := q.cidx, work := q.serial,
          trap := engineTrap cGANGSTOP p.addr (ofN (c.step % 2 ^ 16 + mask * 2 ^ 16)) j.id })) (s1.engineRecord j p)

/-- After a grain: the next block, the next K-step that runs, or the end. -/
def State.afterGrain (s : State) (c : MatCmd) : State :=
  if (c.blk + 1) * 64 < mN c.block then s.setHead { c with blk := c.blk + 1 }
  else
    let t := nextStep c (c.step + 1)
    let c' := { c with blk := 0, step := t, avals := [], bvals := [] }
    let s1 := (s.setHead c').modJob c.job (fun j => { j with pos := t })
    if mSteps c.block ≤ t then s1.endOp c' else s1

/-- One granted grain of a started operation. At the first block of a step the operands are fetched. -/
def grainAct (c : MatCmd) : Act Unit := do
  let s ← get
  if c.live.isEmpty || decide (mSteps c.block ≤ c.step) then set (s.endOp c)
  else if c.blk ≠ 0 then set ((s.grain c).afterGrain c)
  else if (match c.bbuf with
      | some h => (s.bufOf (clusterOf c.core) h).isNone
      | none => false) then
    let c' := c.failAll stREFUSED
    set ((s.setHead c').endOp c')
  else
    let idx := (List.range c.parts.length).zip c.parts
    match idx.findSome? (fun x => if x.2.failed = 0 then strictBad c x.1 x.2 else none) with
    | some e => modify (fun x => x.stopOp c { cause := cXLATE, addr := 0, info := ofN e })
    | none =>
      match ← fetchB c with
      | .error q => modify (fun x => x.stopOp c q)
      | .ok bv =>
        let rs ← (idx.filter (fun x => x.2.failed == 0)).mapM (fun x => do
          let r ← fetchA c x.1 x.2
          return (x.2.core, r))
        let c1 := rs.foldl (fun d r => match r.2 with
          | .error st => d.modPart r.1 (fun p => { p with failed := st })
          | .ok xs => { d with avals := d.avals ++ [(r.1, xs)] }) { c with avals := [], bvals := bv }
        modify (fun x =>
          let y := x.farClear (2 ^ 48 + c.job.toNat)
          if c1.live.isEmpty then (y.setHead c1).endOp c1
          else ((y.setHead c1).grain c1).afterGrain c1)

/-- The core of the last grain keeps its turn (R175). -/
def State.keepsTurn (s : State) (cl : Nat) : Bool :=
  let m := (s.clusterAt cl).mx
  s.eligible cl m.cur && decide (m.used < max 1 (m.weight.get m.cur))

/-- The core that the next grain goes to (R175). -/
def State.nextCore (s : State) (cl : Nat) : Option Nat :=
  let m := (s.clusterAt cl).mx
  if s.keepsTurn cl then some m.cur
  else ((List.range 8).map (fun k => (m.cur + 1 + k) % 8)).find? (s.eligible cl)

/-- The unit grants a grain to a core; a new turn counts its grains from 0, also that of the core whose turn has just ended (R175). -/
def State.grant (s : State) (cl n : Nat) (again : Bool) : State :=
  s.modMx cl (fun m => { m with cur := n, used := if again then m.used + 1 else 1 })

/-- A head that needs no grain: a clearing, or an operation with a zero dimension (R180, R395). -/
def State.idleHead (s : State) (cl : Nat) : Option MatCmd :=
  ((List.range 8).filterMap (fun n =>
    match s.mqueue (8 * cl + n) with
    | c :: _ => if c.kind = .zero ∨ (c.kind = .op ∧ c.zeroDim ∧ s.gangReady c) then some c else none
    | [] => none)).head?

/-- What such a head does: +0 everywhere with the shape 64×384, or +0 to an M×N tile in overwrite mode. -/
def State.runIdleHead (s : State) (cl : Nat) (c : MatCmd) : State :=
  if c.kind = .zero then
    let sh : AccShape := { m := 64, n := 384, valid := 2 ^ 64 - 1, int := false }
    (s.modMx cl (fun m =>
      { m with acc := { m.acc with cells := m.acc.cells.filter (fun p => p.1 / 24576 != c.core % 8) },
               shape := m.shape.set (c.core % 8) sh })).endCmd c stOK 0
  else
    let s1 := c.parts.foldl (fun x p =>
      let q := { p with invalid := 0 }
      (if mAcc c.block then x else x.clearTile c q).setShape c q) s
    s1.endCmd c stOK 0

/-- MATRIX_GRAIN: the unit of a cluster grants one grain, or ends a head that needs none (R174, R175). DEDUCED, log entry 44. -/
def execMatrixGrain (cluster : Nat) (s : State) : Host.Outcome State Fault Refusal :=
  runEvent (fun s =>
    match s.idleHead cluster with
    | some c => s.runIdleHead cluster c
    | none =>
      match s.nextCore cluster with
      | none => s
      | some n =>
        match s.mqueue (8 * cluster + n) with
        | [] => s
        | c :: _ =>
          let go : Act Unit := do
            let d ← (if c.started then return c else startOp c)
            grainAct d
          match go s with
          | .ok (_, s') => s'.grant cluster n (s.keepsTurn cluster)
          | .error (.wait s') =>
            (s'.modMx cluster (fun _ => (s.clusterAt cluster).mx)).modCluster cluster (fun k =>
              { k with bufs := (s.clusterAt cluster).bufs, mx := { k.mx with cur := n, used := 16 } })
          | .error _ => s) s

/-! ## Drains (R179, R245, R395) -/

/-- An accumulator element narrowed to an element of `e` with scale exponent `q` (R240, R245). -/
def drainElem (c : Core) (e : Elem) (int : Bool) (x : W32) (q : Int) : Nat :=
  match e with
  | .raw => x.toNat
  | .desc d =>
    let v := if int then Num.ofInt x.toInt else f32 x
    d.drain c.entry (if q = -128 then .nan else v.scale (-q))

/-- Writes elements (index, bits) of a row at a pointer, a nibble's neighbour kept. -/
def writeElems (p : Word) (e : Elem) (wm : Nat) (xs : List (Int × Nat)) : Act Unit := do
  let s ← get
  checkPtrs (s.touched p e false wm (xs.map (fun x => x.1)) .write)
  writePieces (elemPieces p wm xs)

/-- The scale exponents of a row's element indices. -/
def rowScales (p : Word) (e : Elem) (es : List Int) : Act (List Int) := do
  let s ← get
  scaleCheck p
  checkPtrs (es.flatMap (fun i => if bits p 57 54 = 0 || e == .raw then [] else [(s.scalePtr p i, Access.read)]))
  let qs ← scalesOf p e false es
  return es.map (s.scaleIn p qs)

/-- Writes row `r` of the accumulator of `core` at a pointer. -/
def drainRowTo (core r : Nat) (p : Word) (e : Elem) : Act Unit := do
  let s ← get
  let m := (s.clusterAt (clusterOf core)).mx
  let sh := m.shape.get (core % 8)
  let wm := e.width 32
  let es := (List.range sh.n).map (fun (k : Nat) => elemIndex p wm + (k : Int))
  let qs ← rowScales p e es
  let c := s.coreAt core
  writeElems p e wm ((es.zip qs).zip (List.range sh.n) |>.map (fun x =>
    (x.1.1, drainElem c e sh.int (m.acc.get (accAt core r x.2)) x.1.2)))

/-- DRAIN_ROW: the drain at the head of a core's queue writes its next valid row; after the last, a slot drain writes the
trailer and publishes, and the job completes (R395). A fault stops it at the row: the lines written are released, the rest are kept (R135,
R181). -/
def drainAct (core : Nat) : Act Unit := do
  let s ← get
  match s.mqueue core with
  | [] => return
  | c :: _ =>
    if c.kind ≠ .drain || c.stopped then return
    else
      let cl := clusterOf core
      let sh := (s.clusterAt cl).mx.shape.get (core % 8)
      let buf := c.bbuf.map (fun h => (h, s.bufOf cl h))
      match buf with
      | some (_, none) => set (s.endCmd c stREFUSED 0)
      | _ =>
        let b := buf.bind (fun x => x.2)
        if (match b with
            | some x => !x.room
            | none => false) then return
        actFor c core
        let base := match b with
          | some x => x.slotAddr x.pidx
          | none => c.dest
        match (s.coreAt core).elem (bits base 63 58) with
        | none => set (s.endCmd c stREFUSED 0)
        | some e =>
          let valid := (List.range sh.m).filter (fun r => sh.valid / 2 ^ r % 2 == 1)
          let rows (k : Nat) := drainRows c.stride (e.width 32) sh.n (valid.filter (fun r => decide (k ≤ r)))
          let rest (k : Nat) : List (Word × Nat) := match b with
            | some x => slotRanges (rows k) base x.slotb
            | none => rows k base
          if !c.started then takeSlotLines c.job b (rows 0)
          match valid.find? (fun r => decide (c.row ≤ r)) with
          | some r =>
            modify (fun x => x.modJob c.job (fun j => { j with state := 2 }))
            let row := ptrAdd base ((r * c.stride : Nat) : Int)
            match ← catchFault (drainRowTo core r row e) with
            | .ok _ =>
              markWritten c.job (row, (sh.n * e.width 32 + 7) / 8)
              modify (fun x => (x.farClear (2 ^ 49 + c.job.toNat)).setHead { c with row := r + 1, started := true })
            | .error q => modify (fun x => (x.setHead { c with row := r, stopped := true }).stopKeep c.job (rest r) 0 q)
          | none =>
            match c.bbuf, b with
            | some h, some x =>
              match ← catchFault (writePtr (ptrAdd base x.slotb) (trailerBytes sh.valid sh.m 0)) with
              | .ok _ => modify (fun y => (y.bufPublish cl h).endCmd c stOK 0)
              | .error q => modify (fun y => (y.setHead { c with row := 64, stopped := true }).stopKeep c.job (rest 64) 0 q)
            | _, _ => modify (fun y => y.endCmd c stOK 0)

def execDrainRow (cluster core : Nat) (s : State) : Host.Outcome State Fault Refusal :=
  runEvent (fun s => s.runEng (drainAct (8 * cluster + core % 8))) s

end Sys2Proof.Machine
end

