-- ==== Sys2Proof/Machine/Copy.lean ====
section
/-! DEFINITION. The copy and gather units, circular-buffer instructions and job instructions (R183 to R188, R192, R396, R397,
R399 to R403). -/

namespace Sys2Proof.Machine

/-! ## Circular buffers (R399 to R401) -/

/-- The slots of a descriptor lie in the space of its BASE (R183). The space of sub-space 1 is taken whole, all eight scratchpads of the
cluster: DEDUCED, log entry 73. -/
def slotsFit (b : CircBuf) : Bool :=
  let total := 2 ^ b.logn * (b.slotb + 64)
  match bits b.base 53 52 with
  | 0 => decide (bits b.base 51 0 + total ≤ 2 ^ 52)
  | _ =>
    if bits b.base 51 48 = 0 then bits b.base 47 18 == 0 && decide (bits b.base 17 0 + total ≤ 2 ^ 18)
    else bits b.base 47 21 == 0 && decide (bits b.base 20 0 + total ≤ 2 ^ 21)

/-- CBDEF defines a buffer, or attaches to an identical one (R183, R399). That LOGN is 0 to 3 is DEDUCED from "Slot count 2^LOGN, from 1
to 8" (log entry 73). -/
def cbdefAct (a sa sb : Nat) : Act Unit := do
  prep 0xBA [sa] [a]
  let g ← readG sa
  let d ← readBlock g 32 32
  holding (.cbdef a sa sb) [a] (some d) (do
    let s ← get
    let owner := s.me.workId
    let b : CircBuf := { desc := d, owner := owner, core := s.curCore, pidx := 0, cidx := 0, fidx := 0 }
    let sp := bits b.base 53 52
    fieldIll 0 (bits b.base 5 0 != 0 || !(sp == 0 || (sp == 3 && decide (bits b.base 51 48 ≤ 1))) ||
      ((s.coreAt s.curCore).elem (bits b.base 63 58)).isNone)
    fieldIll 8 (b.slotb % 64 != 0 || decide (b.slotb < 64) || decide (262144 < b.slotb))
    fieldIll 12 (decide (3 < b.logn) || fieldAt d 12 1 / 16 != 0)
    let num := fieldAt d 13 1
    fieldIll 13 (decide (64 ≤ num))
    fieldIll 14 (decide (4 < b.prod) || decide (3 < b.cons))
    fieldIll 15 (decide (64 ≤ b.fmtc) || ((s.coreAt s.curCore).elem b.fmtc).isNone)
    fieldIll 16 (fieldAt d 16 16 != 0)
    if !slotsFit b then trapNow cXLATE b.base 0
    let cl := clusterOf s.curCore
    let attach (o : Nat) : Act Unit := do
      modify (fun x => x.modMe (fun c => { c with q := assocSet c.q sb (mkHandle num o) }))
      writeG a (ofN stOK)
    if b.cons = 2 then writeG a (ofN stREFUSED)
    else
      match assocGet (s.clusterAt cl).bufs num with
      | some o => if o.desc = d then attach o.owner else writeG a (ofN stREFUSED)
      | none =>
        modify (fun x => x.modCluster cl (fun c => { c with bufs := assocSet c.bufs num b }))
        attach owner
    advance)

def execCbdef (a sa sb : Nat) (s : State) : Host.Outcome State Fault Refusal := runAct (cbdefAct a sa sb) s

/-- CBWAIT.p waits for room and gives slot PIDX; CBWAIT.c waits for a slot and gives slot CIDX (R184, R400). -/
def cbwaitAct (i : Instr) (a q : Nat) (producer : Bool) : Act Unit := do
  prep 0xBB [] [a]
  holding i [a] none (do
    let (_, b) ← handle q
    if (if producer then b.prod else b.cons) ≠ 0 then ill 2
    if !(if producer then b.room else b.ready) then stall
    writeG a (b.slotAddr (if producer then b.pidx else b.cidx))
    advance)

def execCbwaitP (a sa : Nat) (s : State) : Host.Outcome State Fault Refusal := runAct (cbwaitAct (.cbwaitP a sa) a sa true) s
def execCbwaitC (a sa : Nat) (s : State) : Host.Outcome State Fault Refusal := runAct (cbwaitAct (.cbwaitC a sa) a sa false) s

/-- CBPUB, CBADV and CBFREE: the role, what bars the operation, its status then, and its effect (R184, R401). -/
def cbMove (i : Instr) (a q : Nat) (producer : Bool) (can : CircBuf → Bool) (status : Nat)
    (f : State → Nat → Nat → State) : Act Unit := do
  prep 0xBC [] [a]
  holding i [a] none (do
    let (h, b) ← handle q
    if (if producer then b.prod else b.cons) ≠ 0 then ill 2
    if can b then
      if producer then releaseWait 2
      modify (fun s => f s (clusterOf s.curCore) h)
      writeG a (ofN stOK)
    else writeG a (ofN status)
    advance)

def execCbpub (a sa : Nat) (s : State) : Host.Outcome State Fault Refusal :=
  runAct (cbMove (.cbpub a sa) a sa true CircBuf.room stFULL State.bufPublish) s
def execCbadv (a sa : Nat) (s : State) : Host.Outcome State Fault Refusal :=
  runAct (cbMove (.cbadv a sa) a sa false CircBuf.ready stEMPTY State.bufAdvance) s
def execCbfree (a sa : Nat) (s : State) : Host.Outcome State Fault Refusal :=
  runAct (cbMove (.cbfree a sa) a sa false (fun b => b.fidx != b.cidx) stEMPTY State.bufFree) s

/-- CBQ reads the counters (R401). -/
def cbqAct (a q : Nat) : Act Unit := do
  prep 0xBC [] [a]
  holding (.cbq a q) [a] none (do
    let (_, b) ← handle q
    writeG a (ofN (b.pidx.toNat + b.fidx.toNat * 2 ^ 32))
    advance)

def execCbq (a sa : Nat) (s : State) : Host.Outcome State Fault Refusal := runAct (cbqAct a sa) s

/-! ## XCOPY (R192, R402) -/

def xFrom (b : List Byte) : Word := wordAt b 0
def xTo (b : List Byte) : Word := wordAt b 8
def xC0 (b : List Byte) : Nat := fieldAt b 16 4
def xC1 (b : List Byte) : Nat := fieldAt b 20 4
def xC2 (b : List Byte) : Nat := fieldAt b 24 4
def xFlags (b : List Byte) : Nat := fieldAt b 28 4
def xToq (b : List Byte) : Bool := xFlags b % 2 == 1
def xNomr (b : List Byte) : Nat := if xFlags b / 2 % 256 = 0 then 256 else xFlags b / 2 % 256
def xFs1 (b : List Byte) : Int := signed (fieldAt b 32 4) 32
def xFs2 (b : List Byte) : Int := signed (fieldAt b 36 4) 32
def xTs1 (b : List Byte) : Int := signed (fieldAt b 40 4) 32
def xTs2 (b : List Byte) : Int := signed (fieldAt b 44 4) 32
/-- Rows of a copy: none when a count is 0. -/
def xRows (b : List Byte) : Nat := if xC0 b = 0 then 0 else xC1 b * xC2 b

/-- The ranges that the rows from `k` on of a copy fill, at a destination pointer. -/
def copyRows (b : List Byte) (wt k : Nat) (p : Word) : List (Word × Nat) :=
  ((List.range (xRows b)).filter (fun r => decide (k ≤ r))).map (fun (r : Nat) =>
    (ptrAdd p (((r / xC1 b : Nat) : Int) * xTs2 b + ((r % xC1 b : Nat) : Int) * xTs1 b), (xC0 b * wt + 7) / 8))

/-- The arrival that a copy with CPL bit 16 ends with (R118, R192): its core must be one, and HPC a target. Its g8 is TO as R192 says, also
where TO is no pointer in sub-space 0, as R118 has it (DESIGN CHOICE, log entry 75). -/
def copyArrival (b : List Byte) (wt : Nat) : Act (Option (Nat × Arrival)) := do
  if !(bit (wordAt b 48) 16) then return none
  else
    let s ← get
    let p := xTo b
    let hpc := wordAt b 56
    if xToq b || bit hpc 5 || bits hpc 63 52 != 0 then ill 48
    let rowBytes := (xC0 b * wt + 7) / 8
    let place (q : Word) : Option (Nat × Nat × Nat) :=
      match bits q 53 52 with
      | 1 => if s.devices ≤ bits q 51 40 ∨ 1920 ≤ bits q 39 28 then none else some (bits q 51 40, bits q 39 28, bits q 27 0)
      | 3 =>
        if bits q 51 48 = 0 then some (s.dev, s.curCore, bits q 47 0)
        else if bits q 51 48 = 1 ∧ bits q 47 21 = 0 then some (s.dev, clusterOf s.curCore * 8 + bits q 20 18, bits q 17 0)
        else none
      | _ => none
    match place p with
    | none => ill 48
    | some (d, c, _) =>
      let rows := (List.range (xC2 b)).flatMap (fun (i : Nat) => (List.range (xC1 b)).map (fun (j : Nat) =>
        ptrAdd p ((i : Int) * xTs2 b + (j : Int) * xTs1 b)))
      if rows.any (fun q =>
          match place q with
          | some (d', c', off) => d' != d || c' != c || decide (2 ^ 18 < off + rowBytes)
          | none => true) then ill 48
      return some (d, { core := c, addr := p, len := ofN (xC0 b * xC1 b * xC2 b * wt / 8), tag := 0, extra := 0,
                        src := ofN (s.dev * 2 ^ 11 + s.curCore), hpc := hpc, bytes := [] })

/-- The core that issued a copy. -/
def CopyCmd.core (c : CopyCmd) : Nat := jobCore c.job

def State.copyQueue (s : State) (core : Nat) : List CopyCmd := (s.clusterAt (clusterOf core)).copyq.get (core % 8)

def State.modCq (s : State) (core : Nat) (f : List CopyCmd → List CopyCmd) : State :=
  s.modCluster (clusterOf core) (fun c => { c with copyq := c.copyq.modify (core % 8) f })

/-- The widths of a copy's elements. -/
def copyWidths (f t : Elem) : Nat × Nat := convWidths f t

def xcopyAct (sa : Nat) : Act Unit := do
  prep 0xC0 [sa] []
  let g ← readG sa
  let b ← readBlock g 64 64
  holding (.xcopy sa) [] (some b) (do
    let s ← get
    fieldIll 16 (decide (2 ^ 24 < xC0 b))
    fieldIll 20 (decide (65535 < xC1 b))
    fieldIll 24 (decide (65535 < xC2 b))
    fieldIll 28 (xFlags b / 2 ^ 9 != 0)
    cplCheck (wordAt b 48) 48 true
    let fe ← sideFormat (xFrom b) 0
    let (buf, tp) ← (do
      if xToq b then
        let (h, c) ← handle (bits (xTo b) 3 0)
        if c.prod ≠ 2 ∨ xC2 b ≠ 1 ∨ xNomr b < xC1 b ∨ (c.slotb : Int) < xC1 b * xTs1 b then ill 2
        return (some h, fmtPtr c.fmtc)
      else return (none, xTo b) : Act (Option Nat × Word))
    let te ← sideFormat tp 8
    let (_, wt) := copyWidths fe te
    let arr ← copyArrival b wt
    let cb ← cplBuffer (wordAt b 48)
    noRegister (xFrom b)
    if !xToq b then noRegister (xTo b)
    scaleCheck (xFrom b)
    if !xToq b then scaleCheck (xTo b)
    if 8 ≤ (s.copyQueue s.curCore).length then stall
    let none0 := xRows b == 0
    let ls ← (if none0 then return [] else issueLines buf tp (copyRows b wt 0) : Act (List Nat))
    let id ← issueJob 1 (wordAt b 48) (wordAt b 56) 0 cb [(s.curCore, bits (xFrom b) 63 58), (s.curCore, bits tp 63 58)] (if none0 then none else arr)
    let c : CopyCmd :=
      { job := id, block := b, toBuf := buf, row := 0, stopped := false, reserved := false }
    modify (fun x => (x.own id ls).modCq x.curCore (fun q => q ++ [c]))
    advance)

def execXcopy (sa : Nat) (s : State) : Host.Outcome State Fault Refusal := runAct (xcopyAct sa) s

/-! ## GATH (R188, R397) -/

def State.gatherQueue (s : State) (core : Nat) : List GathCmd := (s.clusterAt (clusterOf core)).gathq.get (core % 8)

def State.modGq (s : State) (core : Nat) (f : List GathCmd → List GathCmd) : State :=
  s.modCluster (clusterOf core) (fun c => { c with gathq := c.gathq.modify (core % 8) f })

/-- The ranges that the rows from `k` on of a gather of `n` rows fill, at a slot. -/
def gatherRows (rowb n k : Nat) (p : Word) : List (Word × Nat) :=
  ((List.range n).filter (fun r => decide (k ≤ r))).map (fun r => (ptrAdd p ((r * rowb : Nat) : Int), rowb))

/-- GATH binds a list to the next command, or issues a gather job into a slot (R397). -/
def gathAct (sa : Nat) : Act Unit := do
  prep 0xB7 [sa] []
  let g ← readG sa
  let hd ← readBlock g 64 32
  let n := fieldAt hd 16 2
  fieldIll 16 (decide (192 < n))
  let b ← readBlock g 64 (32 + 2 * n)
  holding (.gath sa) [] (some b) (do
    let fl := fieldAt b 18 1
    let outq := fl % 2 == 1
    let rowb := fieldAt b 20 4
    fieldIll 18 (decide (64 ≤ fl))
    fieldIll 19 (fieldAt b 19 1 != 0)
    fieldIll 20 (if outq then rowb % 64 != 0 else rowb != 0)
    fieldIll 24 (fieldAt b 24 8 != 0)
    let s ← get
    let _ ← fieldFormat s.curCore (wordAt b 0) 0
    let l : GatherList :=
      { src := wordAt b 0, stride := fieldAt b 8 4, rows := fieldAt b 12 4,
        idx := (List.range n).map (fun k => fieldAt b (32 + 2 * k) 2), strict := fl / 32 % 2 == 1 }
    if outq then
      let (h, c) ← handle (fl / 2 % 16)
      if c.prod ≠ 3 ∨ c.slotb < n * rowb then ill 2
      noRegister (wordAt b 0)
      scaleCheck (wordAt b 0)
      let ls ← issueLines (some h) 0 (gatherRows rowb n 0)
      let id ← issueJob 2 1 0 0 none [(s.curCore, bits (wordAt b 0) 63 58), (s.curCore, c.fmtc)] none
      let e : GathCmd := { job := id, list := l, rowb := rowb, buf := h, row := 0, stopped := false }
      modify (fun x => (x.own id ls).modGq x.curCore (fun q => q ++ [e]))
    else
      noRegister (wordAt b 0)
      scaleCheck (wordAt b 0)
      modify (fun x => x.modMx (clusterOf x.curCore) (fun m => { m with gather := assocSet m.gather x.curCore l }))
    advance)

def execGath (sa : Nat) (s : State) : Host.Outcome State Fault Refusal := runAct (gathAct sa) s

/-! ## The copy unit at work (R192, R402) -/

/-- One element of a copy: exact, scaled on both sides, one rounding; a raw side copies bits (R238 to R240). -/
def copyElem (c : Core) (f t : Elem) (x : Nat) (qf qt : Int) : Nat :=
  match f, t with
  | .desc a, .desc d => d.encode c.entry (if qt = -128 then .nan else (scaled (a.decode c.entry x) qf).scale (-qt))
  | _, _ => x

/-- Moves a row of `n` elements. -/
def copyRowAct (core n : Nat) (src dst : Word) (f t : Elem) : Act Unit := do
  let (wf, wt) := copyWidths f t
  let s ← get
  let xs ← rowElems src f wf 0 n
  let es := (List.range n).map (fun (k : Nat) => elemIndex dst wt + (k : Int))
  let qs ← rowScales dst t es
  let c := s.coreAt core
  writeElems dst t wt ((es.zip qs).zip xs |>.map (fun x => (x.1.1, copyElem c f t x.2.1 x.2.2 x.1.2)))

/-- A copy leaves its queue with a status; its lines are released. -/
def State.endCopy (s : State) (c : CopyCmd) (status : Nat) : State :=
  let s1 := s.modCq c.core (fun q => q.filter (fun e => e.job != c.job))
  let s2 := if c.reserved then s1 else s1.modJob c.job (fun j => { j with arr := none })
  s2.finishJob c.job status 0

def State.setCopy (s : State) (c : CopyCmd) : State :=
  s.modCq c.core (fun q => q.map (fun e => if e.job = c.job then c else e))

/-- A fault stops a copy at its row, with the ranges `rest` still to write (R135, R192). -/
def stopCopy (c : CopyCmd) (q : Poison) (rest : List (Word × Nat)) : Act Unit :=
  modify (fun x => (x.setCopy { c with stopped := true }).stopKeep c.job rest c.row q)

/-- Acting for a copy or gather job of a core. -/
def actJob (core : Nat) (job : Word) : Act Unit := modify (fun s =>
  s.asEngine core (match s.jobOf job with
    | some j => j.sreg
    | none => 0) job)

/-- The head of a core's copy queue moves its next row, or ends (R192). -/
def copyHeadAct (c : CopyCmd) : Act Unit := do
  let s ← get
  let b := c.block
  let cl := clusterOf c.core
  let arr := (s.jobOf c.job).bind (fun j => j.arr)
  if c.stopped || (arr.isSome && !c.reserved) then return
  else
    let buf := c.toBuf.map (s.bufOf cl)
    match buf with
    | some none => set (s.endCopy c stREFUSED)
    | _ =>
      let sb := buf.bind id
      if xRows b = 0 then set (s.endCopy c stOK)
      else if (match sb with
          | some x => !x.room
          | none => false) then return
      else
        actJob c.core c.job
        let base := match sb with
          | some x => x.slotAddr x.pidx
          | none => xTo b
        let co := s.coreAt c.core
        match co.elem (bits (xFrom b) 63 58), co.elem (bits base 63 58) with
        | some f, some t =>
          let wt := (copyWidths f t).2
          let rest : List (Word × Nat) := match sb with
            | some x => slotRanges (copyRows b wt c.row) base x.slotb
            | none => copyRows b wt c.row base
          if c.row = 0 then takeSlotLines c.job sb (copyRows b wt 0)
          if c.row < xRows b then
            let i : Int := ((c.row / xC1 b : Nat) : Int)
            let j : Int := ((c.row % xC1 b : Nat) : Int)
            modify (fun x => x.modJob c.job (fun q => { q with state := 2 }))
            let row := ptrAdd base (i * xTs2 b + j * xTs1 b)
            match ← catchFault (copyRowAct c.core (xC0 b) (ptrAdd (xFrom b) (i * xFs2 b + j * xFs1 b)) row f t) with
            | .error q => stopCopy c q rest
            | .ok _ =>
              markWritten c.job (row, (xC0 b * wt + 7) / 8)
              modify (fun x =>
                (((x.farClear (2 ^ 48 + c.job.toNat)).farClear (2 ^ 49 + c.job.toNat)).setCopy { c with row := c.row + 1 }).modJob
                  c.job (fun q => { q with pos := c.row + 1 }))
          else
            match c.toBuf, sb with
            | some h, some x =>
              match ← catchFault (writePtr (ptrAdd base x.slotb) (trailerBytes (rowMask (xC1 b)) (xNomr b) 0)) with
              | .error q => stopCopy c q rest
              | .ok _ => modify (fun y => (y.bufPublish cl h).endCopy c stOK)
            | _, _ => modify (fun y => y.endCopy c stOK)
        | _, _ => set (s.endCopy c stREFUSED)

/-- The core whose head command moves a row next: each non-empty queue in turn, in ascending core index (R402). -/
def State.copyTurn (s : State) (cl : Nat) : Option Nat :=
  let start := (s.clusterAt cl).copyNext
  ((List.range 8).map (fun k => (start + k) % 8)).find? (fun n =>
    match s.copyQueue (8 * cl + n) with
    | c :: _ => !c.stopped && !(((s.jobOf c.job).bind (fun j => j.arr)).isSome && !c.reserved)
    | [] => false)

/-- COPY_ROW: the copy unit moves one row of the head command of a core's queue, or ends the command. -/
def execCopyRow (cluster core : Nat) (s : State) : Host.Outcome State Fault Refusal :=
  runEvent (fun s =>
    match s.copyQueue (8 * cluster + core % 8) with
    | [] => s
    | c :: _ => (s.runEng (copyHeadAct c)).modCluster cluster (fun k => { k with copyNext := (core % 8 + 1) % 8 })) s

/-- COPY_ARRIVAL_WAIT: a copy that ends with an arrival reserves its entry, or waits with nothing written (R192). A copy to
another device sends the reservation ahead of its stores, on their channel. -/
def execCopyArrivalWait (cluster core : Nat) (s : State) : Host.Outcome State Fault Refusal :=
  runEvent (fun s =>
    match s.copyQueue (8 * cluster + core % 8) with
    | [] => s
    | c :: _ =>
      match (s.jobOf c.job).bind (fun j => j.arr) with
      | none => s
      | some (d, a) =>
        if c.reserved then s
        else if d ≠ s.dev then
          (s.fabSend d 0 9 ((s.partOfCluster cluster).getD 0) 0 0 (.arrive a)).setCopy { c with reserved := true }
        else
          match s.reserveArrival a with
          | none => s
          | some s1 => s1.setCopy { c with reserved := true }) s

/-! ## The gather unit at work (R188, R397) -/

def State.endGather (s : State) (core : Nat) (c : GathCmd) (status : Nat) : State :=
  (s.modGq core (fun q => q.filter (fun e => e.job != c.job))).finishJob c.job status 0

def State.setGather (s : State) (core : Nat) (c : GathCmd) : State :=
  s.modGq core (fun q => q.map (fun e => if e.job = c.job then c else e))

/-- A fault stops a gather at its row (R135, R188). -/
def stopGather (core : Nat) (c : GathCmd) (q : Poison) : Act Unit := do
  let s ← get
  let rest := match s.bufOf (clusterOf core) c.buf with
    | some b => slotRanges (gatherRows c.rowb c.list.idx.length c.row) (b.slotAddr b.pidx) b.slotb
    | none => []
  modify (fun x => (x.setGather core { c with stopped := true }).stopKeep c.job rest 0 q)

/-- The valid rows of a gather list. -/
def gatherMask (l : GatherList) : Nat :=
  ((List.range l.idx.length).zip l.idx).foldl (fun m x => if x.2 ≠ 0xFFFF ∧ x.2 < l.rows then m + 2 ^ x.1 else m) 0

/-- The gather unit fetches the next row of a job into its slot, or zeros, or faults (R188). -/
def gatherAct' (core : Nat) (c : GathCmd) : Act Unit := do
  let s ← get
  let cl := clusterOf core
  if c.stopped then return
  else
    match s.bufOf cl c.buf with
    | none => set (s.endGather core c stREFUSED)
    | some b =>
      if !b.room then return
      actJob core c.job
      let base := setBits (b.slotAddr b.pidx) 63 54 0
      if c.row = 0 then takeSlotLines c.job (some b) (gatherRows c.rowb c.list.idx.length 0)
      match c.list.idx[c.row]? with
      | some x =>
        let good := decide (x ≠ 0xFFFF) && decide (x < c.list.rows)
        if decide (x ≠ 0xFFFF) && !good && c.list.strict then
          stopGather core c { cause := cXLATE, addr := 0, info := ofN c.row }
        else
          modify (fun y => y.modJob c.job (fun q => { q with state := 2 }))
          match ← catchFault (do
              let bs ← (if good then readSpan (setBits (ptrAdd c.list.src ((x * c.list.stride : Nat) : Int)) 63 54 0) c.rowb
                else return List.replicate c.rowb 0)
              writePtr (ptrAdd base ((c.row * c.rowb : Nat) : Int)) bs) with
          | .error q => stopGather core c q
          | .ok _ =>
            markWritten c.job (ptrAdd base ((c.row * c.rowb : Nat) : Int), c.rowb)
            modify (fun y => ((y.farClear (2 ^ 48 + c.job.toNat)).farClear (2 ^ 49 + c.job.toNat)).setGather core { c with row := c.row + 1 })
      | none =>
        match ← catchFault (writePtr (ptrAdd base b.slotb)
            (trailerBytes (gatherMask c.list) c.list.idx.length 0)) with
        | .error q => stopGather core c q
        | .ok _ => modify (fun y => (y.bufPublish cl c.buf).endGather core c stOK)

/-- GATHER_ROW: the gather job at the head of a core's queue fetches one row. -/
def execGatherRow (cluster core : Nat) (s : State) : Host.Outcome State Fault Refusal :=
  runEvent (fun s =>
    match s.gatherQueue (8 * cluster + core % 8) with
    | [] => s
    | c :: _ => s.runEng (gatherAct' (8 * cluster + core % 8) c)) s

/-! ## Job instructions (R396, R403) -/

/-- Restarts a stopped command of a job (R396). -/
def State.restartJob (s : State) (j : Job) : State :=
  let core := jobCore j.id
  let s1 := s.modJob j.id (fun x => { x with state := 2, code := 0 })
  match j.engine with
  | 0 => s1.modMq core (fun q => q.map (fun c => if c.job = j.id then { c with stopped := false } else c))
  | 1 => s1.modCq core (fun q => q.map (fun c => if c.job = j.id then { c with stopped := false } else c))
  | _ => s1.modGq core (fun q => q.map (fun c => if c.job = j.id then { c with stopped := false } else c))

/-- The cores that may resume a job: its issuer and its gang partners. -/
def State.resumers (s : State) (j : Job) : List Nat :=
  let core := jobCore j.id
  core :: (match (s.mqueue core).find? (fun c => c.job == j.id && c.kind == .op) with
    | some c => c.parts.map (fun p => p.core)
    | none => [])

/-- MRESUME_AT_UNIT: the request restarts a stopped job, or answers EMPTY or REFUSED (R396). -/
def execMresumeAtUnit (r : ResumeReq) (s : State) : Host.Outcome State Fault Refusal :=
  runEvent (fun s =>
    let reply (x : State) (st : Nat) : State := x.push (.pendingValueArrive r.dest (.value (ofN st)))
    match (if clusterOf (jobCore r.job) = clusterOf r.dest.core then s.jobOf r.job else none) with
    | none => reply s stEMPTY
    | some j =>
      if j.state ≠ 3 ∨ 2 < j.engine then reply s stEMPTY
      else if !(s.resumers j).contains r.dest.core then reply s stREFUSED
      else reply (s.restartJob j) stOK) s

/-- A job whose engine is one of 1 to 4. -/
def State.otherJob (s : State) (id : Word) : Option Job :=
  (s.jobHere id).bind (fun j => if j.engine = 0 then none else some j)

/-- The word of a job, dropped when it is complete and read (R391). -/
def readJob (a : Nat) (id : Word) (j : Option Job) : Act Unit := do
  match j with
  | none => writeG a 0
  | some j =>
    if j.state = 4 then modify (fun x => x.dropJob id)
    writeG a j.word

def xpollAct (a sa : Nat) : Act Unit := do
  prep 0xC1 [sa] [a]
  let id ← readG sa
  let s ← get
  readJob a id (s.otherJob id)
  advance

def execXpoll (a sa : Nat) (s : State) : Host.Outcome State Fault Refusal := runAct (xpollAct a sa) s

/-- XWAIT waits for a stop or the completion (R403). -/
def xwaitAct (a sa : Nat) : Act Unit := do
  prep 0xC1 [sa] [a]
  let id ← readG sa
  let s ← get
  match s.otherJob id with
  | some j => if j.state < 3 then stall
  | none => pure ()
  readJob a id (s.otherJob id)
  advance

def execXwait (a sa : Nat) (s : State) : Host.Outcome State Fault Refusal := runAct (xwaitAct a sa) s

/-- XCANCEL's effect on a job: none when it may not be cancelled (R403). A copy or gather whose work is done and whose completion waits for
room has not completed: it is ended with REFUSED, once. -/
def State.cancelJob (s : State) (j : Job) : Option State :=
  let core := jobCore j.id
  if j.state = 4 then none
  else
    match j.engine with
    | 0 =>
      if j.state ≠ 3 then none
      else
        ((s.mqueue core).find? (fun c => c.job == j.id)).map (fun c =>
          if c.kind = .op then
            (s.setHead c.cancel).endOp c.cancel
          else s.endCmd c stREFUSED 0)
    | 1 =>
      match (s.copyQueue core).find? (fun c => c.job == j.id) with
      | some c => some (s.endCopy c stREFUSED)
      | none => if j.code = stREFUSED then none else some (s.modJob j.id (fun x => { x with code := stREFUSED }))
    | 2 =>
      match (s.gatherQueue core).find? (fun c => c.job == j.id) with
      | some c => some (s.endGather core c stREFUSED)
      | none => if j.code = stREFUSED then none else some (s.modJob j.id (fun x => { x with code := stREFUSED }))
    | _ => none

def xcancelAct (a sa : Nat) : Act Unit := do
  prep 0xC1 [sa] [a]
  let id ← readG sa
  holding (.xcancel a sa) [a] none (do
    let s ← get
    match (s.jobHere id).bind (fun j => s.cancelJob j) with
    | some s' =>
      set s'
      writeG a (ofN stOK)
    | none => writeG a (ofN stEMPTY)
    advance)

def execXcancel (a sa : Nat) (s : State) : Host.Outcome State Fault Refusal := runAct (xcancelAct a sa) s

/-- The completion status of a job, and its record dropped. -/
def readCode (a : Nat) (id : Word) (j : Job) : Act Unit := do
  modify (fun x => x.dropJob id)
  writeG a (ofN j.code)

/-- JWAIT waits for completion; an unknown job gives EMPTY (R403). -/
def jwaitAct (a sa : Nat) : Act Unit := do
  prep 0xC1 [sa] [a]
  let id ← readG sa
  let s ← get
  match s.jobHere id with
  | none => writeG a (ofN stEMPTY)
  | some j =>
    if j.state ≠ 4 then stall
    readCode a id j
  advance

def execJwait (a sa : Nat) (s : State) : Host.Outcome State Fault Refusal := runAct (jwaitAct a sa) s

def jpollAct (a sa : Nat) : Act Unit := do
  prep 0xC1 [sa] [a]
  let id ← readG sa
  let s ← get
  match s.jobHere id with
  | none => writeG a (ofN stEMPTY)
  | some j => if j.state = 4 then readCode a id j else writeG a (ofN stPENDING)
  advance

def execJpoll (a sa : Nat) (s : State) : Host.Outcome State Fault Refusal := runAct (jpollAct a sa) s

end Sys2Proof.Machine
end

