-- ==== Sys2Proof/Machine/Tuples.lean ====
section
/-! DEFINITION. The tuple space: the instructions of R410 to R415 and what the homes do (R151 to R172). -/

namespace Sys2Proof.Machine

/-! ## Keys and homes (R151, R154, R155) -/

def f0Of (k : Key) : Nat := k.toNat % 2 ^ 32

/-- A template matches a key (R151). -/
def tplMatches (r : TupleReq) (t : Tuple) : Bool :=
  r.part == t.part && ((t.key ^^^ r.key) &&& r.mask) == 0

/-- The home slice of f0 on its device (R155). -/
def sliceOf (f : Nat) : Nat :=
  (f % 32) ^^^ (f / 2 ^ 5 % 32) ^^^ (f / 2 ^ 10 % 32) ^^^ (f / 2 ^ 15 % 32) ^^^ (f / 2 ^ 20 % 32) ^^^ (f / 2 ^ 25 % 32) ^^^
    (f / 2 ^ 30 % 4)

/-- The range table entry of a partition that covers f0 (R154). -/
def State.rangeOf (s : State) (part f : Nat) : Option RangeEntry :=
  (s.range.get part).entries.find? (fun e => decide (e.lo ≤ f) && decide (f ≤ e.last))

/-- The partition's entry is built on this device: not FREE, BUILDING or KILLING (R154). -/
def State.built (s : State) (part : Nat) : Bool := [2, 3, 4].contains (s.part.get part).state

/-- The answer to a request goes to its pending destination. -/
def State.tupleReply (s : State) (r : TupleReq) (v : Reply) : State :=
  if r.srcDev = s.dev then s.push (.pendingValueArrive r.src v) else s.fabSend r.srcDev 3 7 r.part 0 0 (.reply r.src v)

def State.tupleStatus (s : State) (r : TupleReq) (st : Nat) : State := s.tupleReply r (.value (ofN st))

/-! ## Issue (R409 to R413) -/

/-- Sends a request to the home of its f0; its destination is pending. A request for a span waits for the core's earlier
requests that were sent to another device for that span (R171). -/
def sendTuple (a : Nat) (r : TupleReq) : Act Unit := do
  let s ← get
  let f := f0Of r.key
  match s.rangeOf r.part f with
  | none => writeG a (ofN stREFUSED)
  | some e =>
    if s.sentTuples.any (fun t => t.1.core == s.curCore && decide (e.lo ≤ t.2.1) && decide (t.2.1 ≤ e.last) &&
        t.2.2 != e.dev) then stall
    takeSlot s.curCore
    modify (fun x =>
      ({ x with sentTuples := x.sentTuples ++ [(r.src, f, e.dev)] }.setPend r.src).tupleTo e.dev r)

/-- The key in an even pair of registers (R410). -/
def keyPair (k : Nat) : Act Key := do
  let lo ← readG k
  let hi ← readG (k + 1)
  return BitVec.ofNat 128 (lo.toNat + hi.toNat * 2 ^ 64)

/-- The payload reference in its space-10 form (R153, R410). -/
def payloadRef (p : Word) : Act Word := do
  let s ← get
  if bits p 5 0 ≠ 0 then trapNow cALIGN p 64
  match bits p 53 52 with
  | 0 =>
    if bits p 51 40 ≠ 0 then trapNow cXLATE p 0
    return ofN (bits p 63 54 * 2 ^ 54 + 2 * 2 ^ 52 + s.dev * 2 ^ 40 + bits p 39 0)
  | 2 => return p
  | _ => trapNow cXLATE p 0

/-- A request of the running context with nothing but its issuer. -/
def State.bareReq (s : State) (a : Nat) (kind : TupleKind) (key : Key) : TupleReq :=
  { kind := kind, mode := 0, key := key, mask := BitVec.allOnes 128, ref := 0, len := 0, doff := 0, cap := 0, tcore := 0,
    tag := 0, hpc := 0, src := s.dest a, srcDev := s.dev, part := s.curPart }

def putkAct (a k r l : Nat) : Act Unit := do
  prep 0xD0 [k, k + 1, r, l] [a]
  holding (.putk a k r l) [a] none (do
    let key ← keyPair k
    let p ← readG r
    let len ← readG l
    if 262144 < len.toNat then writeG a (ofN stREFUSED)
    else
      let ref ← (if len = 0 then return 0 else payloadRef p)
      releaseWait 2
      let s ← get
      sendTuple a { s.bareReq a .put key with ref := ref, len := len.toNat }
    advance)

def execPutk (a sa sb sc : Nat) (s : State) : Host.Outcome State Fault Refusal := runAct (putkAct a sa sb sc) s

/-- RDK and TAKK (R411, R412). -/
def rdkAct (i : Instr) (op a sa : Nat) (take : Bool) (mode : Nat) : Act Unit := do
  let s ← get
  if mode = 0 && decide (4 ≤ s.curCtx) then ill 0
  prep op [sa] [a]
  let g ← readG sa
  let b ← readBlock g 64 64
  holding i [a] (some b) (do
    let doff := fieldAt b 32 4
    let cap := fieldAt b 36 4
    let tcore := fieldAt b 40 2
    let tag := wordAt b 48
    let hpc := wordAt b 56
    fieldIll 32 (doff % 32 != 0)
    fieldIll 36 (decide (262144 < cap))
    fieldIll 40 (decide (2 ^ 11 ≤ tcore) || (mode != 2 && tcore != 0))
    fieldIll 42 (fieldAt b 42 6 != 0)
    fieldIll 48 (mode != 2 && tag != 0)
    fieldIll 56 (if mode = 2 then hpc == 0 || bit hpc 5 || bits hpc 63 52 != 0 else hpc != 0)
    let ptr : Word := if mode = 2 then ofN (2 ^ 52 + s.dev * 2 ^ 40 + tcore * 2 ^ 28 + doff)
      else ofN (3 * 2 ^ 52 + doff)
    if mode = 2 then
      if 1920 ≤ tcore then trapNow cXLATE ptr 0
      if s.partOfCore tcore ≠ s.partOfCore s.curCore then trapNow cPERM ptr 0
    if 2 ^ 18 < doff + 32 + cap || (decide (0x3C000 < doff + 32 + cap) && s.logInUse s.curPart) then
      trapNow cXLATE ptr 0
    if fieldAt b 16 4 ≠ 0xFFFFFFFF then
      writeG a (ofN stREFUSED)
    else
      let r : TupleReq :=
        { kind := if take then .take else .read, mode := mode, key := BitVec.ofNat 128 (fieldAt b 0 16),
          mask := BitVec.ofNat 128 (fieldAt b 16 16), ref := 0, len := 0, doff := doff, cap := cap, tcore := tcore,
          tag := tag, hpc := if mode = 0 then s.me.pc else hpc, src := s.dest a, srcDev := s.dev, part := s.curPart }
      sendTuple a r
      if mode = 0 then
        modify (fun x => x.modMe (fun c => if c.pend.getLsbD a then { c with blocked := c.blocked ++ [r] } else c))
    advance)

def execRdkB (a sa : Nat) (s : State) : Host.Outcome State Fault Refusal := runAct (rdkAct (.rdkB a sa) 0xD1 a sa false 0) s
def execRdkP (a sa : Nat) (s : State) : Host.Outcome State Fault Refusal := runAct (rdkAct (.rdkP a sa) 0xD1 a sa false 1) s
def execRdkC (a sa : Nat) (s : State) : Host.Outcome State Fault Refusal := runAct (rdkAct (.rdkC a sa) 0xD1 a sa false 2) s
def execTakkB (a sa : Nat) (s : State) : Host.Outcome State Fault Refusal := runAct (rdkAct (.takkB a sa) 0xD2 a sa true 0) s
def execTakkP (a sa : Nat) (s : State) : Host.Outcome State Fault Refusal := runAct (rdkAct (.takkP a sa) 0xD2 a sa true 1) s
def execTakkC (a sa : Nat) (s : State) : Host.Outcome State Fault Refusal := runAct (rdkAct (.takkC a sa) 0xD2 a sa true 2) s

/-- KCANCEL (R413). -/
def kcancelAct (a sa sb : Nat) : Act Unit := do
  prep 0xD3 [sa, sb] [a]
  holding (.kcancel a sa sb) [a] none (do
    let f ← readG sa
    let t ← readG sb
    let s ← get
    sendTuple a { s.bareReq a .cancel (BitVec.ofNat 128 (bits f 31 0)) with tag := t }
    advance)

def execKcancel (a sa sb : Nat) (s : State) : Host.Outcome State Fault Refusal := runAct (kcancelAct a sa sb) s

/-- A range table entry as 16 bytes (R154, Table 1). -/
def RangeEntry.bytes (e : RangeEntry) : List Byte :=
  bytesOf (e.lo * 2 ^ 96 + e.last * 2 ^ 64 + e.dev * 2 ^ 52 + e.moving.toNat * 2 + 1) 16

/-- A block in the own scratchpad that an instruction writes; the checks of R389. -/
def blockLoc (p : Word) (align n : Nat) : Act Nat := do
  let s ← get
  let off := bits p 17 0
  if off % align ≠ 0 then trapNow cALIGN p (ofN align)
  if bits p 53 52 ≠ 3 ∨ bits p 51 48 ≠ 0 ∨ 2 ^ 18 < off + n then trapNow cXLATE p 0
  if decide (0x3C000 < off + n) && s.logInUse s.curPart then trapNow cXLATE p 0
  return spadLoc s.curCore off

/-- KRANGE reads the device's own table (R414). -/
def krangeAct (a sa sb : Nat) : Act Unit := do
  prep 0xD4 [sa, sb] [a]
  let f ← readG sa
  let g ← readG sb
  let loc ← blockLoc g 32 32
  let s ← get
  let t := s.range.get s.curPart
  let (bs, mv) := match s.rangeOf s.curPart (bits f 31 0) with
    | some e => (e.bytes, e.moving)
    | none => (List.replicate 16 0, false)
  writeLoc s.curCore s.curCtx loc (bs ++ bytesOf t.tver.toNat 4 ++ List.replicate 12 0)
  writeG a (ofN (if mv then stMOVED else stOK))
  advance

def execKrange (a sa sb : Nat) (s : State) : Host.Outcome State Fault Refusal := runAct (krangeAct a sa sb) s

/-- KSPLIT (R415): refused at once, or sent to A. -/
def ksplitAct (a sa : Nat) : Act Unit := do
  let s ← get
  prepPriv 0xD5 s.privS [sa] [a]
  let g ← readG sa
  let b ← readBlock g 32 32
  holding (.ksplit a sa) [a] (some b) (do
    let lo := fieldAt b 0 4
    let last := fieldAt b 4 4
    let ad := fieldAt b 8 2
    let bd := fieldAt b 10 2
    fieldIll 8 (decide (2 ^ 12 ≤ ad))
    fieldIll 10 (decide (2 ^ 12 ≤ bd))
    fieldIll 12 (decide (16 ≤ fieldAt b 12 1))
    fieldIll 13 (fieldAt b 13 19 != 0)
    let part := fieldAt b 12 1
    if decide (last < lo) || (!s.privM && part != s.curPart) || decide (s.devices ≤ ad) || decide (s.devices ≤ bd) then
      writeG a (ofN stREFUSED)
    else
      takeSlot s.curCore
      let h : Handoff := { part := part, lo := lo, last := last, a := ad, b := bd, src := s.dest a, srcDev := s.dev }
      modify (fun x =>
        let y : State := { x.setPend (x.dest a) with splits := x.splits ++ [h] }
        if ad = x.dev then y.push (.handoffSplit h) else y.fabSend ad 3 7 part 0 0 (.ksplit h))
    advance)

def execKsplit (a sa : Nat) (s : State) : Host.Outcome State Fault Refusal := runAct (ksplitAct a sa) s

/-! ## At a home -/

def State.modSlice (s : State) (k : Nat) (f : Slice → Slice) : State := { s with slice := s.slice.modify k f }

/-- The handoff of a partition at this device whose span holds f0. -/
def State.handoffOf (s : State) (part f : Nat) : Option HandoffState :=
  s.handoffs.find? (fun h => h.h.part == part && decide (h.h.lo ≤ f) && decide (f ≤ h.h.last))

def sameHandoff (h g : Handoff) : Bool := h.part == g.part && h.lo == g.lo && h.last == g.last && h.a == g.a && h.b == g.b

def State.modHandoff (s : State) (h : Handoff) (f : HandoffState → HandoffState) : State :=
  { s with handoffs := s.handoffs.map (fun x => if sameHandoff x.h h then f x else x) }

/-- An item of a handoff's stream, to its other end. -/
def State.handoffSend (s : State) (h : Handoff) (i : HandoffItem) : State :=
  s.fabSend (if h.a = s.dev then h.b else h.a) 3 7 h.part 0 0 (.handoff h i)

/-- A request at the device it has reached (R154, R169, R171): refused when the partition is not built here, forwarded with a
MOVED notice when the table names another device, queued while its span is frozen, else served. -/
def State.atHome (s : State) (r : TupleReq) (serve : State → State) : State :=
  let f := f0Of r.key
  if !s.built r.part then s.tupleStatus r stREFUSED
  else
    match s.rangeOf r.part f with
    | none => s.tupleStatus r stREFUSED
    | some e =>
      if e.dev ≠ s.dev then
        let s1 := s.tupleTo e.dev r
        if r.srcDev = s.dev then s1
        else s1.fabSend r.srcDev 3 7 r.part 0 0 (.moved r.part e.lo e.last e.dev (s.range.get r.part).tver)
      else
        match s.handoffOf r.part f with
        | some h =>
          if h.source && decide (3 ≤ h.step) then s.modHandoff h.h (fun x => { x with queued := x.queued ++ [r] })
          else serve s
        | none => serve s

/-- A tuple is handed to a request (R162). -/
def State.deliver (s : State) (t : Tuple) (r : TupleReq) (isTake : Bool) : State :=
  s.push (.tupleDeliveryComplete { req := r, tuple := t, isTake := isTake, home := s.dev, source := .memory })

/-- An item that mirrors a change of a span being copied (R170, step 2). -/
def State.mirror (s : State) (part f : Nat) (i : HandoffItem) : State :=
  match s.handoffOf part f with
  | some h => if h.source && h.step == 2 then s.handoffSend h.h i else s
  | none => s

/-- The slice's index is full (R157, R169). -/
def Slice.indexFull (k : Slice) : Bool := decide (16384 ≤ k.tuples.length + k.shadow.length + k.resIndex)
def Slice.waitFull (k : Slice) : Bool := decide (4096 ≤ k.waiters.length + k.resWait)
def Slice.contFull (k : Slice) : Bool := decide (4096 ≤ k.conts.length + k.resCont)

/-- Waiters and continuations in one arrival order (R160). -/
def Slice.parked (k : Slice) : List Waiter := (k.waiters ++ k.conts).mergeSort (fun a b => decide (a.arrival ≤ b.arrival))

/-- A waiter or continuation leaves its table. -/
def Slice.drop (k : Slice) (w : Waiter) : Slice :=
  { k with waiters := k.waiters.filter (fun x => x.arrival != w.arrival),
           conts := k.conts.filter (fun x => x.arrival != w.arrival) }

/-- A put at its home (R160). -/
def State.servePut (s : State) (r : TupleReq) : State :=
  let f := f0Of r.key
  let n := sliceOf f
  let k := s.slice.get n
  let t : Tuple :=
    { key := r.key, part := r.part, ref := r.ref, len := r.len, arrival := k.next,
      putter := ofN (r.srcDev * 2 ^ 11 + r.src.core) }
  let fits := k.parked.filter (fun w => tplMatches w.req t)
  let tk := fits.find? (fun w => w.req.kind == .take)
  let rd := fits.filter (fun w => w.req.kind == .read && (match tk with
    | some x => decide (w.arrival < x.arrival)
    | none => true))
  if tk.isNone && k.indexFull then s.tupleStatus r stFULL
  else
    let s1 := rd.foldl (fun x w => (x.deliver t w.req false).modSlice n (fun y => y.drop w)) s
    let s2 := match tk with
      | some w => (s1.deliver t w.req true).modSlice n (fun y => y.drop w)
      | none =>
        (s1.modSlice n (fun y => { y with tuples := y.tuples ++ [t], next := y.next + 1 })).mirror r.part f (.copy t)
    s2.tupleStatus r stOK

/-- TUPLE_PUT (R160). DEDUCED, log entry 50. -/
def execTuplePut (r : TupleReq) (s : State) : Host.Outcome State Fault Refusal :=
  runEvent (fun s => s.atHome r (fun x => x.servePut r)) s

/-- The oldest stored tuple that a template matches (R161). -/
def Slice.oldest (k : Slice) (r : TupleReq) : Option Tuple :=
  (k.tuples.filter (tplMatches r)).foldl (fun m t => match m with
    | none => some t
    | some x => if t.arrival < x.arrival then some t else some x) none

/-- A read or take at its home (R161). -/
def State.serveRead (s : State) (r : TupleReq) : State :=
  let f := f0Of r.key
  let n := sliceOf f
  let k := s.slice.get n
  match k.oldest r with
  | some t =>
    let s1 := s.deliver t r (r.kind == .take)
    let s2 := if r.kind == .take then
        (s1.modSlice n (fun y => { y with tuples := y.tuples.filter (fun x => x.arrival != t.arrival) })).mirror r.part f
          (.delete t.key t.arrival)
      else s1
    if r.mode = 2 then s2.tupleStatus r stOK else s2
  | none =>
    let w : Waiter := { req := r, arrival := k.next }
    match r.mode with
    | 1 => s.tupleStatus r stEMPTY
    | 0 =>
      if k.waitFull then s.tupleStatus r stFULL
      else s.modSlice n (fun y => { y with waiters := y.waiters ++ [w], next := y.next + 1 })
    | _ =>
      if k.contFull then s.tupleStatus r stFULL
      else (s.modSlice n (fun y => { y with conts := y.conts ++ [w], next := y.next + 1 })).tupleStatus r stOK

/-- TUPLE_READ_TAKE (R161). -/
def execTupleReadTake (r : TupleReq) (s : State) : Host.Outcome State Fault Refusal :=
  runEvent (fun s => s.atHome r (fun x => x.serveRead r)) s

/-- KCANCEL at its home (R164): the oldest continuation of the issuing core with that f0 and tag. -/
def State.serveCancel (s : State) (r : TupleReq) : State :=
  let f := f0Of r.key
  let n := sliceOf f
  match ((s.slice.get n).conts.filter (fun w => w.req.part == r.part && f0Of w.req.key == f && w.req.tag == r.tag &&
      w.req.srcDev == r.srcDev && w.req.src.core == r.src.core)).head? with
  | some w => (s.modSlice n (fun y => y.drop w)).tupleStatus r stOK
  | none => s.tupleStatus r stEMPTY

/-- TUPLE_CANCEL (R164). -/
def execTupleCancel (r : TupleReq) (s : State) : Host.Outcome State Fault Refusal :=
  runEvent (fun s => s.atHome r (fun x => x.serveCancel r)) s

/-! ## Withdrawal (R165) -/

/-- The answer to a withdrawal that found its waiter: the destination is no longer pending, and the trap that waits names the
read or take, so that a resume issues it again. -/
def State.withdrawn (s : State) (r : TupleReq) : State :=
  let c := s.ctxAt r.src.core r.src.ctx
  if !(c.blocked.any (fun b => b.src == r.src)) then s
  else
    let marked := c.blocked.map (fun b => if b.src = r.src then { b with kind := .withdraw } else b)
    let pc := match marked.find? (fun b => b.kind == .withdraw) with
      | some b => b.hpc
      | none => c.pc
    let s1 := { s with sentTuples := s.sentTuples.filter (fun t => t.1 != r.src) }
    (s1.modCore r.src.core (fun x => { x with slots := x.slots - 1 })).modCtx r.src.core r.src.ctx (fun x =>
      { x with blocked := marked, pend := x.pend &&& ~~~(BitVec.ofNat 16 (2 ^ r.src.reg)),
               heldTrap := x.heldTrap.map (fun t => { t with epc := pc }) })

/-- The withdrawal of a blocked waiter at its home: removed and answered, or already satisfied (R165). -/
def State.serveWithdraw (s : State) (r : TupleReq) : State :=
  let n := sliceOf (f0Of r.key)
  match ((s.slice.get n).waiters.filter (fun w => w.req.src == r.src && w.req.srcDev == r.srcDev &&
      w.req.key == r.key)).head? with
  | none => s
  | some w =>
    let s1 := s.modSlice n (fun y => y.drop w)
    if r.srcDev = s.dev then s1.withdrawn r else s1.fabSend r.srcDev 3 7 r.part 0 0 (.tuple { r with mode := 3 })

/-- A withdrawal at the device it has reached; mode 3 is the answer on its way back (R165). -/
def State.withdrawAt (s : State) (r : TupleReq) : State :=
  if r.mode = 3 then s.withdrawn r
  else if !s.built r.part then s
  else
    match s.rangeOf r.part (f0Of r.key) with
    | none => s
    | some e =>
      if e.dev ≠ s.dev then s.tupleTo e.dev r
      else
        match s.handoffOf r.part (f0Of r.key) with
        | some h =>
          if h.source && decide (3 ≤ h.step) then s.modHandoff h.h (fun x => { x with queued := x.queued ++ [r] })
          else s.serveWithdraw r
        | none => s.serveWithdraw r

/-- TUPLE_WITHDRAW (R165). -/
def execTupleWithdraw (r : TupleReq) (s : State) : Host.Outcome State Fault Refusal := runEvent (fun s => s.withdrawAt r) s

/-- A request that the device queued is served now. -/
def State.serveReq (s : State) (r : TupleReq) : State :=
  match r.kind with
  | .put => s.atHome r (fun x => x.servePut r)
  | .read => s.atHome r (fun x => x.serveRead r)
  | .take => s.atHome r (fun x => x.serveRead r)
  | .cancel => s.atHome r (fun x => x.serveCancel r)
  | .withdraw => s.withdrawAt r

/-! ## Delivery (R153, R162) -/

/-- The delivery record (R162, Table 2). -/
def deliveryRecord (d : Delivery) (fault : Nat) : List Byte :=
  bytesOf d.tuple.key.toNat 16 ++ bytesOf d.tuple.ref.toNat 8 ++ bytesOf d.tuple.len 4 ++
    bytesOf ((decide (d.req.cap < d.tuple.len)).toNat + d.isTake.toNat * 2 + (fault != 0).toNat * 4 + fault % 256 * 8) 2 ++
    bytesOf d.home 2

/-- Delivered bytes. -/
def deliveryCount (d : Delivery) : Nat := min d.tuple.len d.req.cap

/-- The first of `n` bytes at `pa` that stands in a line with an uncorrectable error (R23). -/
def State.badOffset (s : State) (pa n : Nat) : Nat :=
  ((List.range ((pa + n - 1) / 64 - pa / 64 + 1)).find? (fun j => s.badLines.contains (pa / 64 + j))).elim 0
    (fun j => if j = 0 then 0 else 64 * (pa / 64 + j) - pa)

/-- A read by the tuple homes of `n` bytes at a virtual address of a partition, page by page; a fault names the first faulting payload
address (R153, R162). A partition that is FREE, BUILDING or KILLING here has no tables to walk: PERM (R129). It waits at a held page, and at
a line that an engine owns (R264). -/
def homeRead (part : Nat) (ref : Word) : Nat → Nat → Nat → Act (Except Poison (List Byte))
  | 0, _, _ => return .ok []
  | fuel + 1, off, n => do
    if n = 0 then return .ok []
    else
      let s ← get
      let p := ref + BitVec.ofNat 64 off
      let va := bits p 39 0
      let len := min n (4096 - va % 4096)
      if [0, 1, 5].contains (s.part.get part).state then return .error { cause := cPERM, addr := p, info := 0 }
      if (s.holdOn part va).isSome then stall
      let (w, s1) := s.walk devWalker part va
      set s1
      match w with
      | .error .busy => stall
      | .error (.fault f) => return .error { cause := f.cause, addr := p, info := f.info }
      | .ok l =>
        let pa := l.phys va
        if !s1.allows part 0 l.entry pa .read then return .error { cause := cPERM, addr := p, info := 0 }
        else if s1.badRange pa len then
          return .error { cause := cECC, addr := p + BitVec.ofNat 64 (s1.badOffset pa len), info := 0 }
        else
          if s1.ownedRange pa len then stall
          modify (fun x => x.recallRange pa len)
          specAccess (8 * (s.clustersOf part).headD 240) 8 pa len false
          let s ← get
          match ← homeRead part ref fuel (off + len) (n - len) with
          | .error q => return .error q
          | .ok bs => return .ok (s.bytesAt pa len ++ bs)

/-- The delivery at the requester's device: a continuation goes to an arrival entry; a block or poll request writes the payload,
then the record, and its destination becomes available, or poisoned. A delivery to work that has gone writes nothing (R165). -/
def deliverAct (d : Delivery) (bs : Except Poison (List Byte)) : Act Unit := do
  let s ← get
  let r := d.req
  if r.mode = 2 then
    let (fault, pay) := match bs with
      | .ok x => (none, x)
      | .error q => (some q, [])
    let a : Arrival :=
      { core := r.tcore, addr := ofN (3 * 2 ^ 52 + r.doff), len := ofN (32 + pay.length), tag := r.tag,
        extra := match fault with
          | some q => q.addr
          | none => 0,
        src := d.tuple.putter, hpc := r.hpc,
        bytes := deliveryRecord d (match fault with
          | some q => q.cause
          | none => 0) ++ pay }
    set (s.push (.arrivalEntryReserve a))
  else if (s.ctxAt r.src.core r.src.ctx).serial != r.src.work then set (s.push (.pendingValueArrive r.src (.value (ofN stOK))))
  else if !((s.ctxAt r.src.core r.src.ctx).pend.getLsbD r.src.reg) then return
  else
    match bs with
    | .error q => set (s.push (.pendingValueArrive r.src (.poison q)))
    | .ok x =>
      let loc := spadLoc r.src.core r.doff
      if !x.isEmpty then writeLoc r.src.core 8 (loc + 32) x
      writeLoc r.src.core 8 loc (deliveryRecord d 0)
      modify (fun y => y.push (.pendingValueArrive r.src (.value (ofN stOK))))

/-- TUPLE_DELIVERY_COMPLETE: the payload is read at the device that holds it, and the record and payload are written at the
requester's (R162). -/
def deliveryAct (d : Delivery) : Act Unit := do
  let s ← get
  let arrived (x : PayloadSource) : Act Unit := do
    let s ← get
    if d.req.srcDev ≠ s.dev then
      set (s.fabSend d.req.srcDev 3 7 d.req.part 0 0 (.delivery { d with source := x }))
    else
      match x with
      | .memory => deliverAct d (.ok [])
      | .bytes bs => deliverAct d (.ok bs)
      | .fault q => deliverAct d (.error q)
  match d.source with
  | .memory =>
    let at_ := bits d.tuple.ref 51 40
    if deliveryCount d = 0 then arrived (.bytes [])
    else if at_ ≠ s.dev then
      if s.devices ≤ at_ then arrived (.fault { cause := cXLATE, addr := d.tuple.ref, info := 0 })
      else set (s.fabSend at_ 3 7 d.req.part 0 0 (.delivery d))
    else
      match ← homeRead d.req.part d.tuple.ref 66 0 (deliveryCount d) with
      | .ok bs => arrived (.bytes bs)
      | .error q => arrived (.fault q)
  | x => arrived x

def execTupleDeliveryComplete (d : Delivery) (s : State) : Host.Outcome State Fault Refusal :=
  runEvent (fun s => s.runEvAct (.tupleDeliveryComplete d) (deliveryAct d)) s

/-! ## The range table -/

def State.modRange (s : State) (part : Nat) (f : RangeTable → RangeTable) : State :=
  { s with range := s.range.modify part f }

/-- The pieces of an entry outside a span, and the span itself out of it. -/
def RangeEntry.outside (e : RangeEntry) (lo last : Nat) : List RangeEntry :=
  if e.last < lo ∨ last < e.lo then [e]
  else
    (if e.lo < lo then [{ e with last := lo - 1 }] else []) ++ (if last < e.last then [{ e with lo := last + 1 }] else [])

/-- The entries with a span made to name `dev`. -/
def splitSpan (es : List RangeEntry) (lo last dev : Nat) (moving : Bool) : List RangeEntry :=
  let mid : RangeEntry := { lo := lo, last := last, dev := dev, moving := moving }
  (es.flatMap (fun (e : RangeEntry) => e.outside lo last) ++ [mid]).mergeSort (fun a b => decide (a.lo ≤ b.lo))

/-- Entries of equal device that are adjacent are merged (R169, step 6). -/
def mergeSpans : List RangeEntry → List RangeEntry
  | [] => []
  | e :: r =>
    match mergeSpans r with
    | f :: fs => if e.dev = f.dev ∧ !e.moving ∧ !f.moving ∧ e.last + 1 = f.lo then { e with last := f.last } :: fs else e :: f :: fs
    | [] => [e]

def RangeTable.to (t : RangeTable) (es : List RangeEntry) : RangeTable := { entries := es, tver := t.tver + 1 }

/-- MOVED: the requester's device makes the span name B, whole or not at all (R171). -/
def execMoved (part lo last dev : Nat) (s : State) : Host.Outcome State Fault Refusal :=
  runEvent (fun s =>
    let t := s.range.get part
    let es := splitSpan t.entries lo last dev false
    if 32 < es.length then s else s.modRange part (fun x => x.to es)) s

/-! ## The handoff (R168 to R172) -/

/-- KSPLIT's status. -/
def State.handoffStatus (s : State) (h : Handoff) (w : Word) : State :=
  if h.srcDev = s.dev then s.push (.pendingValueArrive h.src (.value w))
  else s.fabSend h.srcDev 3 7 h.part 0 0 (.reply h.src (.value w))

/-- The tuples of a span at this device, oldest first within each slice. -/
def State.spanTuples (s : State) (h : Handoff) : List Tuple :=
  (List.range 32).flatMap (fun n => (s.slice.get n).tuples.filter (fun t =>
    t.part == h.part && decide (h.lo ≤ f0Of t.key) && decide (f0Of t.key ≤ h.last)))

def inSpan (h : Handoff) (r : TupleReq) : Bool := r.part == h.part && decide (h.lo ≤ f0Of r.key) && decide (f0Of r.key ≤ h.last)

/-- HANDOFF_SPLIT: steps 1 and 2 at A. The entry is split and MOVING set; every tuple of the span is sent to B. A device knows the handoffs
of a partition in which it takes part, and refuses another (R168; DESIGN CHOICE, log entry 66). -/
def execHandoffSplit (h : Handoff) (s : State) : Host.Outcome State Fault Refusal :=
  runEvent (fun s =>
    let t := s.range.get h.part
    let inside := t.entries.any (fun e => e.dev == s.dev && decide (e.lo ≤ h.lo) && decide (h.last ≤ e.last))
    if !s.built h.part || !inside || h.b == s.dev || decide (s.devices ≤ h.b) || s.handoffs.any (fun x => x.h.part == h.part && x.step != 9)
    then s.handoffStatus h (ofN stREFUSED)
    else
      let es := splitSpan t.entries h.lo h.last s.dev true
      if 32 < es.length then s.handoffStatus h (ofN stFULL)
      else
        let hs : HandoffState := { h := h, step := 2, queued := [], reserved := [], source := true }
        let s1 : State := { s.modRange h.part (fun x => x.to es) with handoffs := s.handoffs ++ [hs] }
        ((s.spanTuples h).foldl (fun x y => x.handoffSend h (.copy y)) (s1.handoffSend h .start)).push (.handoffFreeze h)) s

/-- The waiters and continuations of a span in a slice. -/
def Slice.spanParked (k : Slice) (h : Handoff) : List Waiter := k.parked.filter (fun w => inSpan h w.req)

/-- HANDOFF_FREEZE: A stops serving the span, and asks B to reserve entries (R169, step 3). -/
def execHandoffFreeze (h : Handoff) (s : State) : Host.Outcome State Fault Refusal :=
  runEvent (fun s =>
    if !(s.handoffs.any (fun x => sameHandoff x.h h && x.source && x.step == 2)) then s
    else
      let counts := (List.range 32).map (fun n =>
        let ws := (s.slice.get n).spanParked h
        (n, (ws.filter (fun w => w.req.mode != 2)).length, (ws.filter (fun w => w.req.mode == 2)).length))
      ((s.modHandoff h (fun x => { x with step := 3 })).handoffSend h (.reserve counts))) s

/-- What a device holds for a span is removed: tuples, shadow entries, waiters and continuations. -/
def State.clearSpan (s : State) (h : Handoff) : State :=
  let out (t : Tuple) : Bool := !(t.part == h.part && decide (h.lo ≤ f0Of t.key) && decide (f0Of t.key ≤ h.last))
  (List.range 32).foldl (fun x n => x.modSlice n (fun k =>
    { k with tuples := k.tuples.filter out, shadow := k.shadow.filter out,
             waiters := k.waiters.filter (fun w => !inSpan h w.req), conts := k.conts.filter (fun w => !inSpan h w.req) })) s

/-- HANDOFF_CUTOVER: A sends the cut marker, and its waiters and continuations in arrival order (R169, step 4). What they leave at A
stands, unserved, until the switch, since an abandoned handoff restores it (R168). -/
def execHandoffCutover (h : Handoff) (s : State) : Host.Outcome State Fault Refusal :=
  runEvent (fun s =>
    if !(s.handoffs.any (fun x => sameHandoff x.h h && x.source && x.step == 3)) then s
    else
      let ws := (List.range 32).flatMap (fun n => (s.slice.get n).spanParked h)
      let s1 := ws.foldl (fun x w => x.handoffSend h (.waiter w)) (s.handoffSend h .marker)
      (s1.modHandoff h (fun x => { x with step := 4 })).push (.handoffSwitch h)) s

/-- HANDOFF_SWITCH: the span names B here; A forwards its queued requests, KSPLIT completes, and A merges its entries (R169, steps 5
and 6). -/
def execHandoffSwitch (h : Handoff) (s : State) : Host.Outcome State Fault Refusal :=
  runEvent (fun s =>
    match s.handoffs.find? (fun x => sameHandoff x.h h && x.step != 9) with
    | none => s
    | some x =>
      let es := splitSpan (s.range.get h.part).entries h.lo h.last h.b false
      let s1 : State := { s.modRange h.part (fun y => y.to (if x.source then mergeSpans es else es)) with
        handoffs := s.handoffs.filter (fun y => !sameHandoff y.h h) }
      if x.source then
        let s2 := x.queued.foldl (fun y r =>
          let z := y.tupleTo h.b r
          if r.srcDev = y.dev then z
          else z.fabSend r.srcDev 3 7 r.part 0 0 (.moved r.part h.lo h.last h.b (s1.range.get h.part).tver))
          ((s1.clearSpan h).handoffSend h .switch)
        s2.handoffStatus h (ofN stOK)
      else s1) s

/-- B discards what it holds for a span, and releases what this handoff still reserves (R168, R169). -/
def State.dropTarget (s : State) (h : Handoff) : State :=
  let mine := (s.handoffs.filter (fun x => sameHandoff x.h h && !x.source)).flatMap (fun x => x.reserved)
  let s1 := mine.foldl (fun (x : State) c => x.modSlice c.1 (fun k =>
    { k with resIndex := k.resIndex - (c.2.1 + c.2.2), resWait := k.resWait - c.2.1, resCont := k.resCont - c.2.2 })) (s.clearSpan h)
  { s1 with handoffs := s1.handoffs.filter (fun x => !(sameHandoff x.h h && !x.source)) }

/-- A puts the entry of step 1 back, and the queued requests are served here in their order (R168). -/
def State.unsplit (s : State) (x : HandoffState) : State :=
  let es := splitSpan (s.range.get x.h.part).entries x.h.lo x.h.last s.dev false
  let s1 : State := { s.modRange x.h.part (fun y => y.to (mergeSpans es)) with
    handoffs := s.handoffs.filter (fun y => !sameHandoff y.h x.h) }
  x.queued.foldl (fun y r => y.serveReq r) s1

/-- HANDOFF_ABANDON: A restores the state of step 1, tells B, and KSPLIT completes with `status`; B drops what it holds (R168, R172).
DESIGN CHOICE, log entry 66. -/
def execHandoffAbandon (h : Handoff) (status : Word) (s : State) : Host.Outcome State Fault Refusal :=
  runEvent (fun s =>
    match s.handoffs.find? (fun x => sameHandoff x.h h) with
    | none => s
    | some x =>
      if !x.source then s.dropTarget h
      else
        let s1 := s.unsplit x
        let s2 := if s1.fab.lost.contains h.b then s1 else s1.handoffSend h (.abandon status)
        s2.handoffStatus h status) s

/-- What the loss of a device, or an UNREACH stream to it, does to handoffs before step 5: A abandons the one to B; B asks A to, and drops
it at once where A is lost; and a KSPLIT whose A it is completes (R168, R172). DESIGN CHOICE, log entry 66. -/
def State.handoffsLose (s : State) (dev : Nat) (lost : Bool) : State :=
  let st := st63 stREFUSED
  let src := s.handoffs.filter (fun x => x.source && x.h.b == dev)
  let dst := s.handoffs.filter (fun x => !x.source && x.h.a == dev)
  let s1 := s.pushAll (src.map (fun x => Event.handoffAbandon x.h st))
  let s2 := dst.foldl (fun (x : State) d => if lost then x.dropTarget d.h else x.handoffSend d.h (.abandon st)) s1
  s2.pushAll ((s.splits.filter (fun h => h.a == dev)).map (fun h => Event.pendingValueArrive h.src (.value st)))

/-- PKILL abandons a partition's handoffs, and the span is removed at both homes (R172); a KSPLIT completes with REFUSED. DESIGN CHOICE,
log entry 66. -/
def State.handoffsKill (s : State) (part : Nat) : State :=
  (s.handoffs.filter (fun x => x.h.part == part)).foldl (fun (y : State) x =>
    let z := if x.step = 9 then y else y.handoffSend x.h .killed
    if x.source then ((z.unsplit x).clearSpan x.h).handoffStatus x.h (ofN stREFUSED) else z.dropTarget x.h) s

/-- B has room for what a freeze asks of it: tables, and its own range table (R168, R169). -/
def State.handoffRoom (s : State) (h : Handoff) (counts : List (Nat × Nat × Nat)) : Bool :=
  counts.all (fun c =>
    let k := s.slice.get c.1
    decide (k.tuples.length + k.shadow.length + k.resIndex + (c.2.1 + c.2.2) ≤ 16384) &&
      decide (k.waiters.length + k.resWait + c.2.1 ≤ 4096) && decide (k.conts.length + k.resCont + c.2.2 ≤ 4096)) &&
    decide ((splitSpan (s.range.get h.part).entries h.lo h.last s.dev false).length ≤ 32)

/-- B gives up: it discards what it holds, and ignores the stream until A's word. -/
def State.giveUp (s : State) (h : Handoff) (status : Nat) : State :=
  let s1 := s.dropTarget h
  ({ s1 with handoffs := s1.handoffs ++ [{ h := h, step := 9, queued := [], reserved := [], source := false }] } : State).handoffSend h
    (.abandon (ofN status))

/-- The target's record of a handoff, made at its first item. -/
def State.asTarget (s : State) (h : Handoff) : State :=
  if s.handoffs.any (fun x => sameHandoff x.h h) then s
  else { s with handoffs := s.handoffs ++ [{ h := h, step := 2, queued := [], reserved := [], source := false }] }

/-- One reserved entry of a slice is filled. -/
def fillOne (n w c : Nat) (l : List (Nat × Nat × Nat)) : List (Nat × Nat × Nat) :=
  l.map (fun x => if x.1 = n then (n, x.2.1 - w, x.2.2 - c) else x)

/-- What B, or A, does with an item of a handoff (R169, R170). -/
def State.handoffItem (s : State) (h : Handoff) (i : HandoffItem) : State :=
  let gone := s.handoffs.any (fun x => sameHandoff x.h h && x.step == 9)
  match i with
  | .start =>
    if gone then s
    else if !s.built h.part || s.handoffs.any (fun x => x.h.part == h.part && x.step != 9 && !sameHandoff x.h h) then s.giveUp h stREFUSED
    else s.asTarget h
  | .copy t =>
    if gone then s
    else if !s.built h.part then s.giveUp h stREFUSED
    else
      let n := sliceOf (f0Of t.key)
      if (s.slice.get n).indexFull then s.giveUp h stFULL
      else (s.asTarget h).modSlice n (fun k => { k with shadow := k.shadow ++ [t] })
  | .delete key arrival =>
    s.modSlice (sliceOf (f0Of key)) (fun k =>
      { k with shadow := k.shadow.filter (fun t => !(t.key == key && t.arrival == arrival && t.part == h.part)) })
  | .reserve counts =>
    if gone then s
    else if !s.built h.part then s.giveUp h stREFUSED
    else if !s.handoffRoom h counts then s.giveUp h stFULL
    else
      (counts.foldl (fun (x : State) c => x.modSlice c.1 (fun k =>
        { k with resIndex := k.resIndex + (c.2.1 + c.2.2), resWait := k.resWait + c.2.1, resCont := k.resCont + c.2.2 }))
        ((s.asTarget h).modHandoff h (fun x => { x with step := 3, reserved := counts }))).handoffSend h .accept
  | .accept => s.push (.handoffCutover h)
  | .marker =>
    if gone then s
    else
      (List.range 32).foldl (fun x n => x.modSlice n (fun k =>
        let mine := (k.shadow.filter (fun t => t.part == h.part)).mergeSort (fun a b => decide (a.arrival ≤ b.arrival))
        { k with tuples := k.tuples ++ ((List.range mine.length).zip mine).map (fun y => { y.2 with arrival := k.next + y.1 }),
                 next := k.next + mine.length, shadow := k.shadow.filter (fun t => t.part != h.part) })) s
  | .waiter w =>
    if gone then s
    else
      let n := sliceOf (f0Of w.req.key)
      let cont := decide (w.req.mode = 2)
      (s.modHandoff h (fun x => { x with reserved := fillOne n (!cont).toNat cont.toNat x.reserved })).modSlice n (fun k =>
        let v : Waiter := { w with arrival := k.next }
        if cont then { k with conts := k.conts ++ [v], resIndex := k.resIndex - 1, resCont := k.resCont - 1, next := k.next + 1 }
        else { k with waiters := k.waiters ++ [v], resIndex := k.resIndex - 1, resWait := k.resWait - 1, next := k.next + 1 })
  | .abandon st => s.push (.handoffAbandon h st)
  | .killed =>
    match s.handoffs.find? (fun x => sameHandoff x.h h) with
    | none => s
    | some x =>
      if x.source then ((s.unsplit x).clearSpan h).handoffStatus h (ofN stREFUSED) else s.dropTarget h
  | .switch => s.push (.handoffSwitch h)

/-- HANDOFF_COPY_RECEIVE: an item of the handoff stream arrives. -/
def execHandoffCopyReceive (h : Handoff) (i : HandoffItem) (s : State) : Host.Outcome State Fault Refusal :=
  runEvent (fun s => s.handoffItem h i) s

end Sys2Proof.Machine
end

