-- ==== Sys2Proof/Machine/Tasks.lean ====
section
/-! DEFINITION. Messages (R111 to R118, R416 to R420), task instructions (R421 to R426) and scorebooks (R281). -/

namespace Sys2Proof.Machine

/-! ## Forming messages (R416) -/

/-- MSG.SRC of a core of this device, bits [22:0] of header word 1. -/
def State.srcWord (s : State) (core : Nat) : Word := ofN (s.dev * 2 ^ 11 + core)

/-- The checks of step 1 of R416: the handler PC. -/
def hpcCheck (h : Word) : Act Unit := do
  if bits h 63 52 ≠ 0 || bit h 5 then ill 2

/-- The checks of step 2 of R416: a space-01 pointer to a core of a device of the torus. -/
def destCheck (p : Word) : Act Unit := do
  let s ← get
  if bits p 53 52 ≠ 1 || decide (s.devices ≤ bits p 51 40) || decide (1920 ≤ bits p 39 28) then trapNow cXLATE p 0

/-- The message payload, read at issue. -/
def payloadAt (p : Word) (len : Nat) : Act (List Byte) := do
  if len = 0 then return [] else readBlock p 8 len

/-- A message of the running context (R111, R416). -/
def formMsg (kind : Nat) (ackreq hi : Bool) (len : Nat) (h : Word) (bs : List Byte) : Act Msg := do
  let s ← get
  let ordered := kind == 0 && (s.ordOf s.curCore s.curCtx).isSome
  return { kind := kind, ackreq := ackreq, timed := ordered, hi := hi, len := len, hpc := bits h 51 0, seqn := 0,
           part := s.curPart, sdev := s.dev, score := s.curCore, ts := if ordered then s.me.ident.vtime else 0, payload := bs }

/-- A ninth message in the context's send buffer traps ILL, before its pointers are looked at (R115, R271, R417). -/
def sendRoom : Act Unit := do
  let s ← get
  if 8 ≤ s.me.sendBuf.length then ill 1

/-- A message joins the context's send buffer (R115, R417). -/
def bufferSend (dest : Word) (ch : Nat) (m : Msg) : Act Unit := do
  let o : OutMsg := { dest := setBits dest 27 0 0, ch := ch, msg := m, sent := false, backoff := 64, notBefore := 0 }
  modify (fun x => x.modMe (fun c => { c with sendBuf := c.sendBuf ++ [o] }))

/-- The operand checks of MSEND and MSENDA: SC names no register in stream mode even where there is no payload (R409), and a bad handler PC
is ILL before the cause of a poisoned register is raised (R271). -/
def sendPrep (op sa sb sc len : Nat) (dsts : List Nat) : Act Unit := do
  noStream op [sc]
  prepEarly op ([sa, sb] ++ (if len = 0 then [] else [sc])) dsts [sb] (do
    let s ← get
    hpcCheck (s.me.g.get sb))

/-- The operands of MSEND and MSENDA in the order of R416. -/
def sendOperands (sa sb sc len : Nat) : Act (Word × Word × List Byte) := do
  let d ← readG sa
  let h ← readG sb
  hpcCheck h
  destCheck d
  let p ← (if len = 0 then return 0 else readG sc)
  let bs ← payloadAt p len
  return (d, h, bs)

def msendAct (sa sb sc len : Nat) (hi : Bool) (ch : Nat) : Act Unit := do
  sendRoom
  sendPrep 0xD8 sa sb sc len []
  let (d, h, bs) ← sendOperands sa sb sc len
  let m ← formMsg 0 false hi len h bs
  bufferSend d ch m
  advance

def execMsend (sa sb sc len : Nat) (hi : Bool) (ch : Nat) (s : State) : Host.Outcome State Fault Refusal :=
  runAct (msendAct sa sb sc len hi ch) s

/-- The channel of a message to another device (R416). -/
def msgVc (ch : Nat) : Nat := if ch = 1 then 6 else if ch = 2 then 7 else 0

/-- A message leaves its core towards its destination. -/
def State.dispatchMsg (s : State) (dest : Word) (ch : Nat) (m : Msg) : State :=
  let d := bits dest 51 40
  let c := bits dest 39 28
  if d = s.dev then s.push (.messageArrive c m) else s.fabSend d (msgVc ch) 8 m.part 0 0 (.msg c m)

/-- MSENDA leaves when it executes; its destination awaits the acknowledgement (R116, R418). -/
def msendaAct (a sa sb sc len : Nat) (hi : Bool) (ch : Nat) : Act Unit := do
  let s ← get
  if 4 ≤ s.curCtx then ill 0
  sendPrep 0xD9 sa sb sc len [a]
  let (d, h, bs) ← sendOperands sa sb sc len
  holding (.msenda a sa sb sc len hi ch) [a] (some bs) (do
    let m ← formMsg 0 true hi len h bs
    releaseWait 2
    takeSlot s.curCore
    modify (fun x =>
      let q := (x.coreAt x.curCore).seqn
      let y := x.modCore x.curCore (fun c => { c with seqn := c.seqn + 1, sendaPend := c.sendaPend ++ [(q, x.dest a, d)] })
      (y.setPend (y.dest a)).dispatchMsg d ch { m with seqn := q })
    advance)

def execMsenda (a sa sb sc len : Nat) (hi : Bool) (ch : Nat) (s : State) : Host.Outcome State Fault Refusal :=
  runAct (msendaAct a sa sb sc len hi ch) s

/-- MREPLY answers the message being handled (R419). -/
def mreplyAct (sa len : Nat) : Act Unit := do
  let s ← get
  if s.curCtx < 6 then ill 0
  if len < 8 ∨ 64 < len then ill 3
  sendRoom
  prep 0xDA [sa] []
  let p ← readG sa
  let bs ← payloadAt p len
  let h := wordAt bs 0
  hpcCheck h
  let hi := match s.me.work with
    | .message u => (match s.msgEntry s.curCore u with
      | some e => e.msg.hi
      | none => s.curCtx == 7)
    | _ => s.curCtx == 7
  let m ← formMsg 1 false hi len h bs
  let src := s.me.msgr.src
  bufferSend (ofN (2 ^ 52 + bits src 22 11 * 2 ^ 40 + bits src 10 0 * 2 ^ 28)) 0 m
  advance

def execMreply (sa len : Nat) (s : State) : Host.Outcome State Fault Refusal := runAct (mreplyAct sa len) s

/-- MDEFER (R420). -/
def mdeferAct : Act Unit := do
  let s ← get
  if s.curCtx < 6 then ill 0
  modify (fun x => x.modMe (fun c => { c with deferred := true }))
  advance

def execMdefer (s : State) : Host.Outcome State Fault Refusal := runAct mdeferAct s

/-! ## Scorebooks (R281) -/

/-- The write pointer of a swapped partition's scorebook. -/
def State.swapOf (s : State) (part : Nat) : Option Swap := assocGet s.swaps part

/-- A record is appended to a swapped partition's scorebook, if it fits before the limit. -/
def State.appendScore (s : State) (part kind core : Nat) (tag : Word) (bs : List Byte) : Option State :=
  match s.swapOf part with
  | none => none
  | some w =>
    let e := s.part.get part
    let size := 16 + (bs.length + 15) / 16 * 16
    if e.sbbase = 0 ∨ e.sblim.toNat < w.sbptr + size then none
    else
      let rec0 := bytesOf (kind + core * 2 ^ 16 + bs.length * 2 ^ 32) 8 ++ bytesOf tag.toNat 8 ++ bs ++
        List.replicate ((16 - bs.length % 16) % 16) 0
      some { (s.putBytes w.sbptr rec0).putBytes (w.image + 152) (bytesOf (w.sbptr + size) 8) with
        swaps := assocSet s.swaps part { w with sbptr := w.sbptr + size } }

/-- A record of a scorebook: a message, or an arrival (R281). -/
inductive Scored where
  | msg (core : Nat) (m : Msg)
  | arr (d : Arrival)
  deriving DecidableEq, Repr

/-- A record that does not fit is logged (R281). -/
def State.logFull (s : State) (part : Nat) : State := { s with mgmtLog := s.mgmtLog ++ [.scorebookFull part] }

/-- The header of a message as 24 bytes (R111). -/
def msgHeader (m : Msg) : List Byte :=
  bytesOf (m.kind * 2 ^ 62 + m.ackreq.toNat * 2 ^ 61 + m.timed.toNat * 2 ^ 60 + m.hi.toNat * 2 ^ 59 + m.len % 128 * 2 ^ 52 +
    m.hpc % 2 ^ 52) 8 ++ bytesOf (m.seqn.toNat * 2 ^ 32 + m.part % 16 * 2 ^ 23 + m.sdev % 2 ^ 12 * 2 ^ 11 + m.score % 2 ^ 11) 8 ++
    bytesOf m.ts.toNat 8

/-- A message from its header and payload. -/
def msgOfBytes (bs : List Byte) : Msg :=
  let w0 := wordAt bs 0
  let w1 := wordAt bs 8
  { kind := bits w0 63 62, ackreq := bit w0 61, timed := bit w0 60, hi := bit w0 59, len := bits w0 58 52, hpc := bits w0 51 0,
    seqn := BitVec.ofNat 32 (bits w1 63 32), part := bits w1 26 23, sdev := bits w1 22 11, score := bits w1 10 0,
    ts := wordAt bs 16, payload := (bs.drop 24).take (bits w0 58 52) }

/-- The core onto which a restore maps a saved core: the i-th saved cluster onto the i-th cluster of CLMASK (R282). -/
def State.mappedCore (s : State) (part : Nat) (w : Swap) (core : Nat) : Nat :=
  let i := w.clusters.findIdx (fun c => c == clusterOf core)
  ((s.clustersOf part)[i]?).elim core (fun c => 8 * c + core % 8)

/-- The next record of a scorebook that CTXLD replays, and its size (R282). -/
def State.nextScore (s : State) (part : Nat) : Option (Scored × Nat) :=
  match s.swapOf part with
  | none => none
  | some w =>
    if !w.loaded || decide (w.sbptr ≤ w.rdptr) then none
    else
      let h := s.bytesAt w.rdptr 16
      let len := fieldAt h 4 4
      let raw := fieldAt h 2 2 % 2 ^ 11
      let core := if w.rdptr < w.mapEnd then s.mappedCore part w raw else raw
      let b := s.bytesAt (w.rdptr + 16) len
      let item : Scored :=
        if fieldAt h 0 1 = 1 then .msg core (msgOfBytes b)
        else .arr { core := core, addr := wordAt b 0, len := wordAt b 8, tag := wordAt h 8, extra := wordAt b 16, src := wordAt b 24,
                    hpc := wordAt b 32, bytes := b.drop 40 }
      some (item, 16 + (len + 15) / 16 * 16)

/-- MEASi is extended by an item (R70). -/
def State.extendMeas (s : State) (i : Nat) (d : List Byte) : State :=
  let old := (s.sec.meas[i]?).getD []
  { s with sec := { s.sec with meas := s.sec.meas.set i (Config.sha3 (old ++ Config.sha3 d)) } }

/-! ## The partition entry (R64, Table 6) -/

/-- The 16 words of a partition entry. -/
def partWords (e : PartEntry) : List Word :=
  let cl (j : Nat) : Word := ofN (e.clmask.toNat / 2 ^ (64 * j) % 2 ^ 64)
  [ofN (e.supv % 2 ^ 11 * 2 ^ 8 + e.noneok.toNat * 2 ^ 3 + e.state % 8), cl 0, cl 1, cl 2, cl 3, e.qmask,
   ofN (bits e.ptroot 51 12 * 2 ^ 12), ofN (e.pinq % 2 ^ 16), ofN e.prot.toNat, ofN (e.key % 16), e.ssb, ofN e.sealMask.toNat,
   ofN (e.tanch % 2 ^ 12), e.sbbase, e.sblim, 0]

/-- A restored partition whose scorebook is empty becomes RUNNING, its entry is measured into MEAS3 as every entry is that enters RUNNING
(R69, Table 8), and its CTXLD is answered (R282). -/
def State.endReplay (s : State) (part : Nat) : State :=
  match s.swapOf part with
  | none => s
  | some w =>
    if !w.loaded || decide (w.rdptr < w.sbptr) then s
    else
      let s0 : State :=
        { s with swaps := assocErase s.swaps part, part := s.part.modify part (fun e => { e with state := 2 }) }
      let s1 := s0.extendMeas 3 (bytesOfWords (partWords (s0.part.get part)))
      match w.dest with
      | some d => s1.push (.pendingValueArrive d (.value (ofN stOK)))
      | none => s1

/-- The record has been replayed (R282). -/
def State.takeScore (s : State) (part n : Nat) : State :=
  match s.swapOf part with
  | none => s
  | some w => ({ s with swaps := assocSet s.swaps part { w with rdptr := w.rdptr + n } } : State).endReplay part

/-- The record is the next one to replay: its size. -/
def State.replays (s : State) (part : Nat) (x : Scored) : Option Nat :=
  match s.nextScore part with
  | some (y, n) => if x = y then some n else none
  | none => none

/-- MSG.ID: header word 1 (R114). DEDUCED, log entry 54. -/
def msgId (m : Msg) : Word := wordAt (msgHeader m) 8

/-! ## Arrival of messages (R111 to R113) -/

/-- The acknowledgement of a message goes back to its sender. -/
def State.acknowledge (s : State) (core : Nat) (m : Msg) (outcome : Nat) : State :=
  let a : Ack := { outcome := outcome, seqn := m.seqn, sdev := s.dev, score := core }
  if m.sdev = s.dev then s.push (.acknowledgementArrive m.score a) else s.fabSend m.sdev 0 8 m.part 0 0 (.msgAck m.score a)

/-- A malformed message, or one of a wrong partition, is counted (R111, R112). -/
def State.countMerr (s : State) (core : Nat) : State :=
  s.modCore core (fun c => { c with merr := min 65535 (c.merr + 1) })

def malformedMsg (m : Msg) : Bool :=
  m.kind == 3 || decide (64 < m.len) || (decide (m.kind < 2) && m.hpc / 32 % 2 == 1) ||
    (m.kind == 2 && (m.hpc % 4 == 3 || m.len != 0 || decide (4 ≤ m.hpc % 2 ^ 52)))

/-- Entries that a core's queues may hold (R112, R457). -/
def Core.lowCap (c : Core) : Nat := if bits c.mqcap 3 0 = 0 then 16 else bits c.mqcap 3 0
def Core.highCap (c : Core) : Nat := if bits c.mqcap 6 4 = 0 then 8 else bits c.mqcap 6 4

/-- A message enters its queue if there is room: an event for every context of the core (R112, R330). -/
def State.enqueueMsg (s : State) (core : Nat) (m : Msg) : Option State :=
  let c := s.coreAt core
  if (if m.hi then decide (c.highCap ≤ c.highq.length) else decide (c.lowCap ≤ c.lowq.length)) then none
  else
    let (u, s1) := s.fresh
    let e : MsgEntry := { uid := u, msg := m, state := 0, deferred := false }
    some ((s1.modCore core (fun c =>
      if m.hi then { c with highq := insertMsg c.highq e } else { c with lowq := insertMsg c.lowq e })).latchCore core 2)

/-- The place of a message among those that arrive at a core in one ac: mesh arrivals in ascending source core, then fabric arrivals in
ascending source device (R113). -/
def State.arrivalKey (s : State) (m : Msg) : Nat := if m.sdev = s.dev then m.score else 2 ^ 12 + m.sdev

/-- A message of a later place has arrived in this ac: this one arrives no more in it (R113). -/
def State.overtakenMsg (s : State) (core : Nat) (m : Msg) : Bool :=
  match (s.coreAt core).arrAc with
  | some (t, k) => t == s.coreAc core && decide (s.arrivalKey m < k)
  | none => false

/-- A message has been considered in this ac (R113). -/
def State.noteArrival (s : State) (core : Nat) (m : Msg) : State :=
  s.modCore core (fun c => { c with arrAc := some (s.coreAc core, s.arrivalKey m) })

/-- MESSAGE_ARRIVE (R112): accepted, refused with FULL or PART, or appended to a scorebook; a record that is replayed waits for
room (R281, R282). -/
def execMessageArrive (core : Nat) (m : Msg) (s : State) : Host.Outcome State Fault Refusal :=
  runEvent (fun s =>
    if malformedMsg m then s.countMerr core
    else if m.kind = 2 then
      s.push (.acknowledgementArrive core { outcome := m.hpc % 4, seqn := m.seqn, sdev := m.sdev, score := m.score })
    else
      match s.partOfCore core with
      | none => (s.countMerr core).acknowledge core m 2
      | some p =>
        if m.part ≠ p then (s.countMerr core).acknowledge core m 2
        else if (s.part.get p).state = 5 then s
        else if (s.part.get p).state = 4 then
          match s.replays p (.msg core m) with
          | some n =>
            (match s.enqueueMsg core m with
             | some s1 => s1.takeScore p n
             | none => s)
          | none =>
            match s.appendScore p 1 core 0 (msgHeader m ++ m.payload) with
            | some s1 => s1.acknowledge core m 0
            | none => (s.logFull p).acknowledge core m 1
        else
          match s.enqueueMsg core m with
          | some s1 => (s1.noteArrival core m).acknowledge core m 0
          | none => (s.noteArrival core m).acknowledge core m 1) s

/-- ACKNOWLEDGEMENT_ARRIVE (R111, R115, R116): a pending MSENDA destination or an outgoing entry is answered; one that matches
nothing is discarded, and one with outcome 3 is malformed. -/
def execAcknowledgementArrive (core : Nat) (a : Ack) (s : State) : Host.Outcome State Fault Refusal :=
  runEvent (fun s =>
    if a.outcome = 3 then s.countMerr core
    else
    let c := s.coreAt core
    let waits (p : BitVec 32 × RegDest × Word) : Bool :=
      p.1 == a.seqn && bits p.2.2 51 40 == a.sdev && bits p.2.2 39 28 == a.score
    match c.sendaPend.find? waits with
    | some (_, d, _) =>
      let v : Word := match a.outcome with
        | 0 => ofN stOK
        | 1 => ofN stREFUSED
        | _ => st63 stREFUSED
      (s.modCore core (fun x => { x with sendaPend := x.sendaPend.filter (fun p => !waits p) })).push
        (.pendingValueArrive d (.value v))
    | none =>
      let mine (o : OutMsg) : Bool :=
        o.sent && o.msg.seqn == a.seqn && bits o.dest 51 40 == a.sdev && bits o.dest 39 28 == a.score
      if a.outcome = 1 then
        s.modCore core (fun x => { x with outq := x.outq.map (fun o =>
          if mine o then { o with sent := false, notBefore := s.coreAc core + o.backoff, backoff := min 8192 (2 * o.backoff) } else o) })
      else s.modCore core (fun x => { x with outq := x.outq.filter (fun o => !mine o) })) s

/-- The position of the first message that may leave the outgoing queue: no earlier one goes to the same core (R115). `again`
picks the ones whose back-off has expired. -/
def State.sendable (s : State) (core : Nat) (again : Bool) : Option OutMsg :=
  let q := (s.coreAt core).outq
  let at_ (n : Nat) (o : OutMsg) : Bool :=
    !o.sent && (if again then decide (64 < o.backoff) && decide (o.notBefore ≤ s.coreAc core) else o.backoff == 64) &&
      !((q.take n).any (fun x => bits x.dest 51 28 == bits o.dest 51 28))
  (((List.range q.length).zip q).find? (fun p => at_ p.1 p.2)).map (fun p => p.2)

/-- The queue with the first entry equal to `o` replaced: two messages of one queue may be equal until they are sent. -/
def replaceFirst (o o' : OutMsg) : List OutMsg → List OutMsg
  | [] => []
  | x :: r => if x = o then o' :: r else x :: replaceFirst o o' r

/-- OUTGOING_SEND: the message leaves the core with its sequence count (R111, R115). -/
def execOutgoingSend (core : Nat) (s : State) : Host.Outcome State Fault Refusal :=
  runEvent (fun s =>
    match s.sendable core false with
    | none => s
    | some o =>
      let q := (s.coreAt core).seqn
      let o' := { o with sent := true, msg := { o.msg with seqn := q } }
      (s.modCore core (fun c => { c with seqn := c.seqn + 1, outq := replaceFirst o o' c.outq })).dispatchMsg o.dest o.ch o'.msg) s

/-- OUTGOING_RESEND: the back-off after a FULL refusal has expired (R115). -/
def execOutgoingResend (core : Nat) (seqn : BitVec 32) (s : State) : Host.Outcome State Fault Refusal :=
  runEvent (fun s =>
    match (s.coreAt core).outq.find? (fun o => o.msg.seqn == seqn && !o.sent && decide (o.notBefore ≤ s.coreAc core) &&
        decide (64 < o.backoff)) with
    | none => s
    | some o =>
      (s.modCore core (fun c => { c with outq := replaceFirst o { o with sent := true } c.outq })).dispatchMsg
        o.dest o.ch o.msg) s

/-- HANDLER_START: an idle handler context takes the first entry of its queue that has not started (R114). -/
def execHandlerStart (core ctx : Nat) (s : State) : Host.Outcome State Fault Refusal :=
  runEvent (fun s =>
    let c := s.coreAt core
    let q := if ctx = 7 then c.highq else c.lowq
    if (s.ctxAt core ctx).phase ≠ .idle || q.any (fun e => e.state == 2) then s
    else
      match q.find? (fun e => e.state == 0) with
      | none => s
      | some e =>
        let m := e.msg
        let pay := m.payload ++ List.replicate (64 - m.payload.length) 0
        let mark (l : List MsgEntry) : List MsgEntry := l.map (fun x => if x.uid = e.uid then { x with state := 1 } else x)
        let s1 := s.modCore core (fun x => { x with lowq := mark x.lowq, highq := mark x.highq })
        s1.startCtx core ctx (.message e.uid) (ofN m.hpc) (fun k =>
          { k with g := (List.range 8).foldl (fun g j => g.set (8 + j) (wordAt pay (8 * j)))
                     (k.g.set 7 (if m.timed then m.ts else BitVec.allOnes 64)),
                   msgr := { k.msgr with id := msgId m, src := ofN (m.sdev * 2 ^ 11 + m.score), len := ofN m.len },
                   shotEnd := some (s.coreAc core + 2 ^ 16) })) s

/-! ## Arrivals (R118) -/

/-- The partition of an arrival's core is swapped out (R281). -/
def State.swappedCore (s : State) (core : Nat) : Option Nat :=
  match s.partOfCore core with
  | some p => if (s.part.get p).state = 4 then some p else none
  | none => none

/-- ARRIVAL_ENTRY_RESERVE: the entry is reserved, then the payload is written; while the queue is full the delivery waits. A
delivery to a swapped-out partition goes to its scorebook, and one that does not fit there is logged once and held (R281). -/
def arrivalAct (d : Arrival) : Act Unit := do
  let s ← get
  match s.partOfCore d.core with
  | none => return
  | some p =>
    if (s.part.get p).state = 5 then return
    else
      let take : Act Unit := do
        let s ← get
        match s.reserveArrival d with
        | none => stall
        | some s1 =>
          set s1
          if !d.bytes.isEmpty then writeLoc d.core 8 (spadLoc d.core (bits d.addr 17 0)) d.bytes
          modify (fun x => x.push (.arrivalReady d))
      if (s.part.get p).state = 4 then
        match s.replays p (.arr d) with
        | some n =>
          if (s.coreAt d.core).arrq.length < 8 then
            take
            modify (fun x => x.takeScore p n)
        | none =>
          match s.appendScore p 2 d.core d.tag
              (bytesOfWords [d.addr, d.len, d.extra, d.src, d.hpc] ++ d.bytes) with
          | some s1 => set s1
          | none =>
            if d.noted then stall
            set (s.logFull p)
            waitHere
      else take

def execArrivalEntryReserve (d : Arrival) (s : State) : Host.Outcome State Fault Refusal :=
  runEvent (fun s => s.runEvKept (.arrivalEntryReserve d) (.arrivalEntryReserve { d with noted := true }) (arrivalAct d)) s

/-- ARRIVAL_READY (R118). -/
def execArrivalReady (d : Arrival) (s : State) : Host.Outcome State Fault Refusal := runEvent (fun s => s.readyArrival d) s

/-- ARRIVAL_HANDLER_START: an idle arrival context takes the oldest ready entry (R118, R162). -/
def execArrivalHandlerStart (core ctx : Nat) (s : State) : Host.Outcome State Fault Refusal :=
  runEvent (fun s =>
    if (s.ctxAt core ctx).phase ≠ .idle || (s.coreAt core).arrq.any (fun e => e.state == 2) then s
    else
      match (s.coreAt core).arrq.find? (fun e => e.ready && e.state == 0) with
      | none => s
      | some e =>
        let d := e.arr
        let s1 := s.modCore core (fun c =>
          { c with arrq := c.arrq.map (fun x => if x.uid = e.uid then { x with state := 1 } else x) })
        s1.startCtx core ctx (.arrival e.uid) d.hpc (fun k =>
          { k with g := ((((k.g.set 7 (BitVec.allOnes 64)).set 8 d.addr).set 9 d.len).set 10 d.tag).set 11 d.extra,
                   msgr := { k.msgr with src := d.src }, shotEnd := some (s.coreAc core + 2 ^ 16) })) s

/-! ## Task instructions (R421 to R426) -/

/-- The checks of a task entry block (R421). -/
def entryChecks (b : List Byte) : Act Unit := do
  let e := wordAt b 0
  let cnt := wordAt b 16
  let shot := fieldAt b 24 1 % 32
  fieldIll 0 (bit e 5 || bits e 63 52 != 0)
  fieldIll 16 (bits cnt 2 0 != 0)
  fieldIll 24 ((decide (1 ≤ shot) && decide (shot ≤ 9)) || shot == 31)
  fieldIll 24 (fieldAt b 24 2 / 32 % 32 != 0)
  fieldIll 26 (fieldAt b 26 2 != 0)

/-- The origin queue that a spawned entry carries (R421). -/
def State.originQueue (s : State) : Nat :=
  match s.taskOf s.curCore s.curCtx with
  | some (_, t) => t.origq
  | none => ((List.range 64).find? (fun q => bit (s.part.get s.curPart).qmask q)).getD 0

/-- The entry of a block. -/
def State.entryOf (s : State) (b : List Byte) : TaskEntry :=
  { entry := wordAt b 0, arg := wordAt b 8, cnt := wordAt b 16, shot := fieldAt b 24 1 % 32, origq := s.originQueue,
    idx := fieldAt b 28 4, record := none, ident := none, sreg := 0, spawned := true }

/-- SPAWN (R421). -/
def spawnAct (a sa : Nat) : Act Unit := do
  prep 0xE0 [sa] [a]
  let g ← readG sa
  let b ← readBlock g 32 32
  holding (.spawn a sa) [a] (some b) (do
    entryChecks b
    let s ← get
    if 128 ≤ (s.coreAt s.curCore).taskq.length then writeG a (ofN stFULL)
    else
      modify (fun x => x.modCore x.curCore (fun c => { c with taskq := c.taskq ++ [s.entryOf b] }))
      writeG a (ofN stOK)
    advance)

def execSpawn (a sa : Nat) (s : State) : Host.Outcome State Fault Refusal := runAct (spawnAct a sa) s

/-- The clusters that a SPAWNT tries: the spawner's, then the partition's in ascending order, wrapping (R96). -/
def State.spawnOrder (s : State) : List Nat :=
  let own := clusterOf s.curCore
  let cls := s.clustersOf s.curPart
  own :: (cls.filter (fun c => decide (own < c)) ++ cls.filter (fun c => decide (c < own)))

/-- SPAWNT places an ordered task (R95, R96, R422). -/
def spawntAct (a sa sb : Nat) : Act Unit := do
  prepEarly 0xE1 [sa, sb] [a] [sa] (do
    let s ← get
    match s.blockNow (s.me.g.get sa) 32 32 with
    | some b => entryChecks b
    | none => pure ())
  let g ← readG sa
  let ts ← readG sb
  let b ← readBlock g 32 32
  holding (.spawnt a sa sb) [a] (some b) (do
    entryChecks b
    let s ← get
    let vt := s.me.ident.vtime
    if (vt != BitVec.allOnes 64 && ts.ult vt) || ts.ult (s.umpire.get s.curPart).gvt then writeG a (ofN stREFUSED)
    else
      takeSlot s.curCore
      let reply (st : Nat) : Act Unit :=
        modify (fun x => (x.setPend (x.dest a)).push (.pendingValueArrive (x.dest a) (.value (ofN st))))
      match s.spawnOrder.find? (fun cl => decide ((s.clusterAt cl).ord.length < 64)) with
      | none => reply stFULL
      | some cl =>
        modify (fun x =>
          let (u, y) := x.fresh
          let o : OrdTask :=
            { uid := u, ts := ts, spCore := x.curCore, spCount := (x.coreAt x.curCore).spawnCount, entry := x.entryOf b,
              state := .queued, irrevocable := false, aborted := false, core := 8 * cl, ctx := 0, serial := 0, slot := none, log := [], reads := [],
              writes := [], held := [], sends := [] }
          (y.modCluster cl (fun c => { c with ord := c.ord ++ [o] })).modCore x.curCore
            (fun c => { c with spawnCount := (c.spawnCount + 1) % 2 ^ 32 }))
        reply stOK
    advance)

def execSpawnt (a sa sb : Nat) (s : State) : Host.Outcome State Fault Refusal := runAct (spawntAct a sa sb) s

/-- A task-queue entry as 32 bytes (R92). -/
def TaskEntry.bytes (e : TaskEntry) : List Byte :=
  bytesOf e.entry.toNat 8 ++ bytesOf e.arg.toNat 8 ++ bytesOf e.cnt.toNat 8 ++
    bytesOf (e.shot % 32 + e.origq % 64 * 2 ^ 10 + e.idx % 2 ^ 32 * 2 ^ 32) 8

/-- POPT takes the tail of the own queue; the entry no longer counts as bound to its sealed region (R67, R423). -/
def poptAct (a sa : Nat) : Act Unit := do
  prep 0xE2 [sa] [a]
  let g ← readG sa
  let loc ← blockLoc g 32 32
  holding (.popt a sa) [a] none (do
    let s ← get
    match (s.coreAt s.curCore).taskq.getLast? with
    | none => writeG a (ofN stEMPTY)
    | some e =>
      writeLoc s.curCore s.curCtx loc e.bytes
      modify (fun x => (x.modCore x.curCore (fun c => { c with taskq := c.taskq.dropLast })).unbind e.sreg 1)
      writeG a (ofN stOK)
    advance)

def execPopt (a sa : Nat) (s : State) : Host.Outcome State Fault Refusal := runAct (poptAct a sa) s

/-- STEAL asks for the head of another core's queue (R424). -/
def stealAct (a sa sb : Nat) : Act Unit := do
  prepIll 0xE3 [sa, sb] [a] [sa] (fun s => bits (s.me.g.get sa) 63 11 != 0)
  let v ← readG sa
  let g ← readG sb
  if bits g 17 0 % 32 ≠ 0 then trapNow cALIGN g 32
  if 1920 ≤ bits v 10 0 then trapNow cXLATE v 0
  let _ ← blockLoc g 32 32
  holding (.steal a sa sb) [a] none (do
    let s ← get
    if s.partOfCore (bits v 10 0) ≠ s.partOfCore s.curCore then writeG a (ofN stREFUSED)
    else
      takeSlot s.curCore
      modify (fun x =>
        (x.setPend (x.dest a)).push (.victimQueueSteal { dest := x.dest a, victim := bits v 10 0, block := bits g 17 0 }))
    advance)

def execSteal (a sa sb : Nat) (s : State) : Host.Outcome State Fault Refusal := runAct (stealAct a sa sb) s

/-- VICTIM_QUEUE_STEAL: the head entry goes to the thief's block, and no longer counts as bound to its sealed region (R67, R94, R424). -/
def stealServeAct (q : StealReq) : Act Unit := do
  let s ← get
  let reply (st : Nat) : Act Unit := modify (fun x => x.push (.pendingValueArrive q.dest (.value (ofN st))))
  match (s.coreAt q.victim).taskq with
  | [] => reply stEMPTY
  | e :: r =>
    writeLoc q.dest.core 8 (spadLoc q.dest.core q.block) e.bytes
    modify (fun x => (x.modCore q.victim (fun c => { c with taskq := r })).unbind e.sreg 1)
    reply stOK

def execVictimQueueSteal (q : StealReq) (s : State) : Host.Outcome State Fault Refusal :=
  runEvent (fun s => s.runEvAct (.victimQueueSteal q) (stealServeAct q)) s

/-- TABORT ends the task (R102, R425): a speculative ordered task finishes with the abort mark; any other task's threads stop,
its blocked requests are withdrawn and its sends discarded. -/
def tabortAct : Act Unit := do
  let s ← get
  if 4 ≤ s.curCtx then ill 0
  match s.taskOf s.curCore s.curCtx with
  | none => ill 0
  | some (id, t) =>
    match s.ordOf s.curCore s.curCtx with
    | some (cl, o) =>
      if o.irrevocable then set (s.abortTask id t)
      else
        if s.me.pend ≠ 0 && o.held.isEmpty then stall
        set (s.abortSpec cl o id t)
    | none => set (s.abortTask id t)

def execTabort (s : State) : Host.Outcome State Fault Refusal := runAct tabortAct s

/-- LNCH submits a launch record after every earlier access of the thread (R426). -/
def lnchAct (a sa sb : Nat) : Act Unit := do
  prep 0xE5 [sa, sb] [a]
  let g ← readG sa
  let q ← readG sb
  let b ← readBlock g 64 64
  holding (.lnch a sa sb) [a] (some b) (do
    let s ← get
    if 63 < q.toNat || !(bit (s.part.get s.curPart).qmask q.toNat) then writeG a (ofN stREFUSED)
    else
      releaseWait 2
      takeSlot s.curCore
      modify (fun x => (x.setPend (x.dest a)).push
        (.launchSubmit { q := q.toNat, part := x.curPart, record := b, reply := some (x.dest a), host := none }))
    advance)

def execLnch (a sa sb : Nat) (s : State) : Host.Outcome State Fault Refusal := runAct (lnchAct a sa sb) s

end Sys2Proof.Machine
end

