-- ==== Sys2Proof/Machine/Router.lean ====
section
/-! DEFINITION. The fabric interface and router: arbitration, injection, links, streams, acknowledgement and replay (R25 to
R45, R52). -/

namespace Sys2Proof.Machine

/-! ## The torus (R25, R31) -/

/-- Extent of a dimension, 0 to 2. -/
def State.extent (s : State) (d : Nat) : Nat := bits s.fab.dim (4 * d + 3) (4 * d) + 1

/-- Coordinate of a device in a dimension. -/
def State.coord (s : State) (dev d : Nat) : Nat :=
  match d with
  | 0 => dev % s.extent 0
  | 1 => dev / s.extent 0 % s.extent 1
  | _ => dev / (s.extent 0 * s.extent 1)

/-- The productive ports of a dimension towards a device. -/
def State.productiveIn (s : State) (dst d : Nat) : List Nat :=
  let e := s.extent d
  let a := s.coord s.dev d
  let b := s.coord dst d
  let fwd := (b + e - a % e) % e
  if a = b then []
  else if 2 * fwd < e then [2 * d]
  else if 2 * fwd = e then [2 * d, 2 * d + 1]
  else [2 * d + 1]

/-- The productive ports of a flit, in order. -/
def State.productive (s : State) (dst : Nat) : List Nat := s.productiveIn dst 0 ++ s.productiveIn dst 1 ++ s.productiveIn dst 2

/-- A port is live for this ac: UP, and the device has not stopped transmitting (R31, R74). -/
def State.live (s : State) (p : Nat) : Bool := (s.fab.port.get p).state == 2 && !s.sec.silent

/-! ## Counters of FAB.ERR (R52) -/

def sat16 (n : Nat) : Nat := min 0xFFFF n

def State.countBadf (s : State) : State := { s with fab := { s.fab with badf := sat16 (s.fab.badf + 1) } }
def State.countAgesat (s : State) : State := { s with fab := { s.fab with agesat := sat16 (s.fab.agesat + 1) } }
def State.countIntfail (s : State) : State := { s with fab := { s.fab with intfail := sat16 (s.fab.intfail + 1) } }
def State.countPooldrop (s : State) : State := { s with fab := { s.fab with pooldrop := sat16 (s.fab.pooldrop + 1) } }

/-! ## Links (R34, R35) -/

/-- Times within the last 2^20 ac, and now. -/
def recent (now : Nat) (ts : List Nat) : List Nat := ts.filter (fun t => decide (now < t + 2 ^ 20)) ++ [now]

/-- A CRC failure on a port: counted; the eighth in 2^20 ac makes the port DEAD (R34). -/
def State.crcFail (s : State) (p : Nat) : State :=
  s.modPort p (fun x =>
    let ts := recent s.time x.crcTimes
    { x with crccnt := sat16 (x.crccnt + 1), crcTimes := ts, state := if 8 ≤ ts.length && x.state == 2 then 3 else x.state })

/-- A port loses training (R34). -/
def State.portDead (s : State) (p : Nat) : State := s.modPort p (fun x => { x with state := if x.state = 2 then 3 else x.state })

def execLaneLockLoss (port : Nat) (s : State) : Host.Outcome State Fault Refusal := runEvent (fun s => s.portDead port) s
def execControlWordTimeout (port : Nat) (s : State) : Host.Outcome State Fault Refusal := runEvent (fun s => s.portDead port) s

/-- LINK_TRAINING_WORDS: a major version other than 1 keeps the port in TRAINING with VMISMATCH; otherwise it is UP at the
lower minor version with the common features (R35). -/
def execLinkTrainingWords (port : Nat) (version : BitVec 32) (features : Word) (s : State) : Host.Outcome State Fault Refusal :=
  runEvent (fun s =>
    if (s.fab.port.get port).state ≠ 1 then s
    else if version.toNat / 2 ^ 24 ≠ 1 then s.modPort port (fun x => { x with vmismatch := true })
    else s.modPort port (fun x => { x with state := 2, ver := 0, pfeat := features &&& fabFeat })) s

/-! ## Sending (R32, R38) -/

/-- Whether stream state `st` may send its entry `e` now: a replay, or a new flit within 512 of the oldest held one while the
backstop has room, and whose AEAD group, if it has one, is sealed (R36). -/
def TxStream.maySend (s : State) (st : TxStream) (room : Bool) (e : Flit × Nat) : Bool :=
  e.2 == 2 || (e.2 == 0 && room && !(s.flitMode e.1 == 2 && e.1.seq.toNat / 4 == st.next.toNat / 4) &&
    (match st.held with
     | [] => true
     | o :: _ => decide ((e.1.seq - o.1.seq).toNat < 512)))

/-- The flit that a stream would send next. -/
def TxStream.head (s : State) (st : TxStream) (room : Bool) : Option (Flit × Nat) :=
  match st.held.find? (fun e => e.2 != 1) with
  | some e => if st.maySend s room e then some e else none
  | none => none

/-- Flits in the backstop buffer of 190,650 (R38). -/
def State.backstop (s : State) : Nat :=
  s.fab.tx.cells.foldl (fun n c => n + (c.2.held.filter (fun e => e.2 != 0)).length) 0

/-- What channel `v` may send, each with its stream, or none for a flit of no stream. -/
def State.channelHeads (s : State) (v : Nat) : List (Option Nat × (Flit × Nat)) :=
  let room := decide (s.backstop < 190650)
  (s.fab.sentAcks.filter (fun f => f.vc == v)).map (fun f => (none, (f, 0))) ++
    (s.fab.tx.cells.filter (fun c => c.1 % 8 == v)).filterMap (fun c => (c.2.head s room).map (fun e => (some c.1, e)))

/-- The flit that channel `v` sends next: replays first, and then ascending SEQ (R32). Of equal SEQ, a flit of no stream goes first, and
then the lowest device number: the rule does not order them (DESIGN CHOICE, log entry 64). -/
def State.channelHead (s : State) (v : Nat) : Option (Option Nat × Flit) :=
  let before (a b : Option Nat × (Flit × Nat)) : Bool :=
    if (a.2.2 == 2) != (b.2.2 == 2) then a.2.2 == 2 else decide (a.2.1.seq.toNat < b.2.1.seq.toNat)
  let best := (s.channelHeads v).foldl (fun (m : Option (Option Nat × (Flit × Nat))) h =>
    match m with
    | none => some h
    | some b => if before h b then some h else some b) none
  best.map (fun b => (b.1, b.2.1))

/-- The next flit to inject, round robin over the channels (R32). -/
def State.nextInject (s : State) : Option (Nat × Option Nat × Flit) :=
  (List.range 8).findSome? (fun j =>
    let v := (s.fab.rr + j) % 8
    (s.channelHead v).map (fun h => (v, h.1, h.2)))

/-- The timeout of a stream (R41). -/
def State.timeoutOf (s : State) (st : TxStream) : Nat := if st.timeout = 0 then bits s.fab.rto 19 0 else st.timeout

/-- A held flit has been sent: the timer starts when it is the oldest (R41). -/
def State.markSent (s : State) (k : Nat) (f : Flit) : State :=
  let mark (st : TxStream) : TxStream :=
    let first := match st.held with
      | o :: _ => o.1 == f
      | [] => false
    { st with held := st.held.map (fun e => if e.1 == f then (e.1, 1) else e),
              deadline := if first then some (s.time + s.timeoutOf st) else st.deadline }
  { s with fab := { s.fab with tx := s.fab.tx.modify k mark } }

/-- Takes the next flit out of the send queues. -/
def State.takeInject (s : State) : Option (Flit × State) :=
  match s.nextInject with
  | none => none
  | some (v, k, f) =>
    let s1 := { s with fab := { s.fab with rr := (v + 1) % 8, headWait := 0 } }
    match k with
    | some k => some ({ f with age := 0 }, s1.markSent k f)
    | none => some ({ f with age := 0 }, { s1 with fab := { s1.fab with sentAcks := s1.fab.sentAcks.erase f } })

/-! ## One ac of the router (R31 to R33) -/

/-- The port a flit takes, given the free slots of each: the first productive one, else the first live one. -/
def State.portFor (s : State) (free : List Nat) (f : Flit) : Option Nat :=
  let ok (p : Nat) : Bool := decide (0 < free.getD p 0)
  match (s.productive f.dst).find? ok with
  | some p => some p
  | none => (List.range 6).find? ok

/-- The order of arbitration (R31). -/
def arbBefore (a b : ArrivingFlit) : Bool :=
  let x := a.flit
  let y := b.flit
  if x.age != y.age then decide (y.age < x.age)
  else if x.src != y.src then decide (x.src < y.src)
  else if x.vc != y.vc then decide (x.vc < y.vc)
  else if a.port != b.port then decide (a.port < b.port)
  else decide (a.slot ≤ b.slot)

/-- A flit that is malformed (R29): its type, its length, its group, its channel (Table 3). -/
def malformedFlit (f : Flit) : Bool :=
  let vcs : List Nat := match f.type with
    | 0 => List.range 8
    | 1 => [0]
    | 2 => [0, 6, 7]
    | 3 => [2]
    | 4 => [1]
    | 5 => [2]
    | 6 => [5]
    | 7 => [3]
    | 8 => [0, 6, 7]
    | 9 => [0, 6, 7]
    | 10 => [4]
    | 11 => [4]
    | 12 => [4]
    | 13 => [0]
    | 14 => [5]
    | _ => []
  decide (15 ≤ f.type) || decide (64 < f.len) || f.grp != f.seq.toNat % 4 || !vcs.contains f.vc

/-- A flit leaves at an ejection slot: acknowledgements and atomic responses have no SEQ window; every other one goes to its
stream (R39, R40, R42). A bad tag of a flit of no stream counts in INTFAIL, and toward no stream's threshold, which R37 counts by stream
(DESIGN CHOICE, log entry 64). -/
def State.eject (s : State) (f : Flit) : State :=
  if f.type = 5 ∨ f.type = 6 then
    if !s.tagOk f then s.countIntfail
    else if malformedFlit f then s.countBadf
    else
      match f.type, f.body with
      | 6, .ackPairs ps true => (ps.foldl (fun (x : State) p => x.push (.responseAck f.src p.1 p.2)) s)
      | 6, .ackPairs ps false => s.push (.ack f.src ps)
      | 5, _ => s.push (.aresp f)
      | _, _ => s
  else s.push (.flitDeliver f)

/-- What the router holds while it works through one ac: free slots of each port, flits sent, how many of them arrived in this ac,
the ejections, and whether the head of the send queues has been injected. -/
structure RouterAc where
  free : List Nat
  sent : List (Nat × Flit)
  passing : Nat
  ej : Nat
  taken : Bool

/-- One flit in sorted order. -/
def routeOne (a : State × RouterAc) (f : Flit) : State × RouterAc :=
  let (s, r) := a
  if f.dst = s.dev ∧ r.ej < 4 then (s.eject f, { r with ej := r.ej + 1 })
  else
    match s.portFor r.free f with
    | none => (s, r)
    | some p =>
      (s, { r with free := r.free.set p (r.free.getD p 0 - 1), sent := r.sent ++ [(p, f)], passing := r.passing + 1 })

/-- Injection: the swap register first, then the send queues (R32). -/
def injectLoop : Nat → State × RouterAc → State × RouterAc
  | 0, a => a
  | n + 1, (s, r) =>
    if r.free.all (fun k => k == 0) then (s, r)
    else
      let next : Option (Flit × State) := match s.fab.swap with
        | some f => some (f, { s with fab := { s.fab with swap := none } })
        | none => s.takeInject
      match next with
      | none => (s, r)
      | some (f, s1) =>
        match s1.portFor r.free f with
        | none => (s, r)
        | some p =>
          injectLoop n (s1, { r with free := r.free.set p (r.free.getD p 0 - 1), sent := r.sent ++ [(p, f)],
                                     taken := r.taken || s.fab.swap.isNone })

/-- After 64 ac of waiting the last flit, in the sorted order of the arrivals, that is not ejected moves into the swap register and the
waiting one takes its slot (R32). -/
def swapStep (a : State × RouterAc) : State × RouterAc :=
  let (s, r) := a
  if 64 ≤ s.fab.headWait ∧ s.fab.swap = none then
    match (r.sent.take r.passing).getLast? with
    | none => a
    | some (p, f) =>
      match s.takeInject with
      | none => a
      | some (g, s1) =>
        ({ s1 with fab := { s1.fab with swap := some f } }, { r with sent := r.sent.set (r.passing - 1) (p, g), taken := true })
  else a

/-- One ac of the router: arrivals on live ports are checked and aged, sorted and placed; free slots are filled; the flits sent
stand on the wires (R31 to R34). The head of the send queues has waited one ac more if none of them was injected (R32). -/
def State.routerAc (s : State) (fs : List ArrivingFlit) : State :=
  let up := fs.filter (fun f => s.live f.port)
  let good := up.filter (fun f => f.crcOk)
  let old := good.filter (fun f => decide (1023 ≤ f.flit.age))
  let inn := (good.filter (fun f => decide (f.flit.age < 1023))).map
    (fun (f : ArrivingFlit) => { f with flit := { f.flit with age := f.flit.age + 1 } })
  let sorted := (inn.mergeSort arbBefore).map (fun f => f.flit)
  let free := (List.range 6).map (fun p => if s.live p then 2 else 0)
  let s1 := old.foldl (fun (x : State) _ => x.countAgesat) s
  let a := sorted.foldl routeOne (s1, { free := free, sent := [], passing := 0, ej := 0, taken := false })
  let waits := s1.nextInject.isSome
  let (s2, r) := swapStep (injectLoop 13 a)
  let still := waits && !r.taken && s2.nextInject.isSome
  let s3 : State := { s2 with fab := { s2.fab with wire := r.sent, headWait := if still then s1.fab.headWait + 1 else 0 } }
  (up.filter (fun f => !f.crcOk)).foldl (fun (x : State) f => x.crcFail f.port) s3

/-- FLIT_ARRIVE: the flits of one ac (R31). -/
def execFlitArrive (fs : List ArrivingFlit) (s : State) : Host.Outcome State Fault Refusal := runEvent (fun s => s.routerAc fs) s

/-- SWAP_INJECT: an ac in which the head of the send queues has waited 64 ac (R32). -/
def execSwapInject (passing : List ArrivingFlit) (s : State) : Host.Outcome State Fault Refusal :=
  runEvent (fun s =>
    if s.nextInject.isNone then s.routerAc passing
    else ({ s with fab := { s.fab with headWait := max 64 s.fab.headWait } } : State).routerAc passing) s

/-! ## Acknowledgements and replay (R38, R40 to R42) -/

/-- A flit of no stream with its tag (R36). -/
def State.looseFlit (s : State) (dst vc type part xid aux : Nat) (seq : BitVec 32) (len : Nat) (body : FlitBody) : Flit :=
  let f : Flit :=
    { dst := dst, src := s.dev, age := 0, seq := seq, vc := vc, type := type, part := part, grp := seq.toNat % 4, len := len,
      first := true, last := true, xid := xid, aux := aux, payload := payloadOf body 0, body := body }
  { f with tag := s.tagFor f }

/-- A flit of no stream waits for injection. -/
def State.sendLoose (s : State) (dst vc type xid aux : Nat) (seq : BitVec 32) (len : Nat) (body : FlitBody) : State :=
  { s with fab := { s.fab with sentAcks := s.fab.sentAcks ++ [s.looseFlit dst vc type 0 xid aux seq len body] } }

/-- An ACK to a source: every channel with deliveries since the last one, and channel `vc` (R40). Its LEN, 5 bytes for each pair, and its
PART, 0, are the model's: the rule gives neither (DESIGN CHOICE, log entry 64). -/
def State.sendAck (s : State) (src vc : Nat) : State :=
  let vs := (List.range 8).filter (fun v => v == vc || (s.fab.rx.get (streamNo src v)).since != 0)
  let pairs := vs.map (fun v => (v, (s.fab.rx.get (streamNo src v)).b - 1))
  let s1 := s.sendLoose src 5 6 0 0 0 (5 * pairs.length) (.ackPairs pairs false)
  { s1 with fab := { s1.fab with rx := vs.foldl (fun (t : Tab RxStream) v =>
      t.modify (streamNo src v) (fun x => { x with since := 0, first := none })) s1.fab.rx } }

/-- ACK_TIMER: 64 ac after the first unacknowledged delivery (R40). -/
def execAckTimer (src vc : Nat) (s : State) : Host.Outcome State Fault Refusal :=
  runEvent (fun s =>
    match (s.fab.rx.get (streamNo src vc)).first with
    | some t => if t + 64 ≤ s.time then s.sendAck src vc else s
    | none => s) s

/-- `x` is at or before `y` modulo 2^32. -/
def seqLe (x y : BitVec 32) : Bool := decide ((y - x).toNat < 2 ^ 31)

/-- A stream frees the flits that `done` says; the first advance restores the timeout, and the timer restarts
when the oldest held flit has changed (R41). It also clears UNREACH: the rule does not say how a stream leaves it (DESIGN CHOICE, log
entry 64). -/
def State.freeHeld (s : State) (k : Nat) (done : Flit × Nat → Bool) : State :=
  let st := s.fab.tx.get k
  let held := st.held.filter (fun e => !done e)
  if held.length = st.held.length then s
  else
    let moved := (held.head?.map (fun e => e.1)) != (st.held.head?.map (fun e => e.1))
    let deadline := match held with
      | [] => none
      | o :: _ => if !moved then st.deadline else if o.2 = 1 then some (s.time + bits s.fab.rto 19 0) else none
    let st' : TxStream := { st with held := held, timeout := 0, expiries := 0, unreach := false, deadline := deadline }
    { s with fab := { s.fab with tx := s.fab.tx.set k st' } }

/-- ACK frees what it covers, but for ATOMIC requests (R38, R40). -/
def execAck (src : Nat) (pairs : List (Nat × BitVec 32)) (s : State) : Host.Outcome State Fault Refusal :=
  runEvent (fun s =>
    pairs.foldl (fun (x : State) p =>
      x.freeHeld (streamNo src p.1) (fun e => e.2 != 0 && e.1.type != 3 && seqLe e.1.seq p.2)) s) s

/-- RESPONSE_ACK frees the cached responses it covers (R42). -/
def execResponseAck (src vc : Nat) (upTo : BitVec 32) (s : State) : Host.Outcome State Fault Refusal :=
  runEvent (fun s =>
    if vc ≠ 2 then s
    else { s with fab := { s.fab with cache := s.fab.cache.filter (fun c => !(c.src == src && seqLe c.seq upTo)) } }) s

/-- The highest S up to which every response has arrived, from the sequence numbers seen. -/
def advanceSeen (seen : List (BitVec 32)) : Nat → BitVec 32 → BitVec 32
  | 0, b => b
  | n + 1, b => if seen.contains (b + 1) then advanceSeen seen n (b + 1) else b

/-- A response for a SEQ of the device's atomic stream has arrived; an advance is acknowledged (R42). -/
def State.seeResponse (s : State) (dev : Nat) (seq : BitVec 32) : State :=
  let mine := seq :: (s.fab.seen.filter (fun p => p.1 == dev)).map (fun p => p.2)
  let old := s.fab.acked.get dev
  let top := advanceSeen mine mine.length old
  let keep := (mine.filter (fun q => !seqLe q top)).map (fun q => (dev, q))
  let s1 : State := { s with fab := { s.fab with seen := s.fab.seen.filter (fun p => p.1 != dev) ++ keep,
                                                 acked := s.fab.acked.set dev top } }
  if top = old then s1 else s1.sendLoose dev 5 6 0 1 0 5 (.ackPairs [(2, top)] true)

/-- The answer of another device to an access of this one (R119, R350): a value or fault for a register or a word, or a store's
acknowledgement. -/
def State.answered (s : State) (o : Outstanding) (v : Reply) : State :=
  if !o.store || decide (16 < o.dest.reg) then s.push (.pendingValueArrive o.dest v)
  else
    let s1 := s.push (.storeAcknowledge o.dest.core o.dest.ctx)
    match v with
    | .poison p => s1.push (.remoteFaultDeliver o.dest.core o.dest.ctx p)
    | .value _ => s1

def State.dropOut (s : State) (o : Outstanding) : State := { s with fab := { s.fab with out := s.fab.out.erase o } }

/-- ARESP: the pending atomic that it matches receives its result and the request is freed; one that matches nothing is
discarded (R42). -/
def execAresp (f : Flit) (s : State) : Host.Outcome State Fault Refusal :=
  runEvent (fun s =>
    match s.fab.out.find? (fun o => o.dev == f.src && o.vc == 2 && o.seq == f.seq && o.xid == f.xid), f.body with
    | some o, .reply _ v =>
      let s1 := (s.dropOut o).freeHeld (streamNo f.src 2) (fun e => e.1.type == 3 && e.1.seq == f.seq)
      (s1.seeResponse f.src f.seq).answered o v
    | _, _ => s) s

/-- A flit in mode AEAD of a stream's open group (R36). -/
def State.openAead (s : State) (k : Nat) : Option Flit :=
  let st := s.fab.tx.get k
  (st.held.find? (fun e => e.1.seq.toNat / 4 == st.next.toNat / 4 && s.flitMode e.1 == 2)).map (fun e => e.1)

/-- A stream has an open group with a flit in mode AEAD, and 32 ac without further traffic behind it (R37). -/
def State.padDue (s : State) (k : Nat) : Bool :=
  let st := s.fab.tx.get k
  (s.openAead k).isSome && st.next.toNat % 4 != 0 && decide (st.last + 32 ≤ s.time)

/-- AEAD_PAD: after 32 ac without further traffic, the open group of an AEAD stream is completed with PAD flits (R37). A PAD awaits no
response. -/
def execAeadPad (dst vc : Nat) (s : State) : Host.Outcome State Fault Refusal :=
  runEvent (fun s =>
    let st := s.fab.tx.get (streamNo dst vc)
    match s.openAead (streamNo dst vc) with
    | none => s
    | some f =>
      if !s.padDue (streamNo dst vc) then s
      else
        (List.range (4 - st.next.toNat % 4)).foldl (fun (x : State) _ =>
          let q := (x.fab.tx.get (streamNo dst vc)).next
          let y := x.fabSend dst vc 0 f.part 0 0 .pad
          if vc = 2 then y.seeResponse dst q else y) s) s

/-! ## Reduction and multicast members that fall out (R46, R51) -/

/-- Devices of a reduction's tree neighbours: the parent and the children of index `i` among `parts` (R47). -/
def parentOf (parts : List Nat) (i : Nat) : List Nat := if i = 0 then [] else (parts[(i - 1) / 2]?).toList
def childrenOf (parts : List Nat) (i : Nat) : List Nat := (parts[2 * i + 1]?).toList ++ (parts[2 * i + 2]?).toList
def Reduction.near (r : Reduction) : List Nat := parentOf r.parts r.index ++ childrenOf r.parts r.index

/-- A mark of failure. -/
def failMark (group rid dev status : Nat) : RedMsg :=
  { group := group, rid := rid, sender := dev, op := 0, n := 0, status := status, elems := [] }

/-- How many reductions of an identifier have been opened here with a device. -/
def State.redUse (s : State) (group rid dev : Nat) : Nat :=
  ((s.net.uses.find? (fun u => u.1 == (group, rid, dev))).map (fun u => u.2)).getD 0

/-- A reduction opens here with its participants. -/
def State.redOpened (s : State) (group rid : Nat) (parts : List Nat) : State :=
  parts.foldl (fun (x : State) d =>
    { x with net := { x.net with uses := x.net.uses.filter (fun u => u.1 != (group, rid, d)) ++ [((group, rid, d), x.redUse group rid d + 1)] } }) s

/-- The word of a failure goes to another participant: to the parent as REDC, to the rest as REDR (R51). -/
def State.sendFail (s : State) (r : Reduction) (dev : Nat) : State :=
  let m : RedMsg := { failMark r.group r.rid s.dev stMEMBERLOSS with use := s.redUse r.group r.rid dev, parts := r.parts }
  if (parentOf r.parts r.index).contains dev then s.fabSend dev 4 10 r.part 0 r.rid (.red m)
  else s.fabSend dev 4 11 r.part 0 r.rid (.redResult m)

/-- An open reduction ends in MEMBERLOSS: its destination is not written, and every remaining participant is told (R51). -/
def State.loseReduction (s : State) (r : Reduction) : State :=
  let rest := r.parts.filter (fun d => d != s.dev && !s.fab.lost.contains d)
  let s1 := rest.foldl (fun (x : State) d => x.sendFail r d) s
  let s2 : State := { s1 with net := { s1.net with
    open_ := s1.net.open_.filter (fun x => !(x.group == r.group && x.rid == r.rid)) } }
  s2.finishJob r.job stMEMBERLOSS 0

/-- A device says that a reduction has failed. A word about a reduction that has completed here says nothing; one about a reduction still
to be opened here is kept (R51). -/
def State.redFailed (s : State) (m : RedMsg) : State :=
  if s.redUse m.group m.rid m.sender < m.use then { s with net := { s.net with failed := s.net.failed ++ [m] } }
  else if m.use < s.redUse m.group m.rid m.sender then s
  else
    match s.net.open_.find? (fun r => r.group == m.group && r.rid == m.rid) with
    | some r => s.loseReduction r
    | none => s

/-- A step that makes the multicast unit look at a job again: a status whose member is this device. -/
def State.kickMcast (s : State) (job : Word) : State := s.push (.mcastStatus job s.dev 0)

/-- A device no longer answers multicast copies: it is a failed member of every job that waits for it (R46). -/
def State.mcastFails (s : State) (dev : Nat) : State :=
  let hit := s.net.mcasts.filter (fun m => m.waiting.contains dev)
  let drop (m : McastJob) : McastJob :=
    if m.waiting.contains dev then { m with waiting := m.waiting.filter (fun d => d != dev), failed := m.failed ++ [dev] } else m
  hit.foldl (fun (x : State) m => x.kickMcast m.job) { s with net := { s.net with mcasts := s.net.mcasts.map drop } }

/-- Reductions whose tree neighbour, or any participant, is `dev` end in MEMBERLOSS (R51). -/
def State.reductionsLose (s : State) (dev : Nat) (anyMember : Bool) : State :=
  let hit := s.net.open_.filter (fun r => (if anyMember then r.parts else r.near).contains dev)
  hit.foldl (fun (x : State) r => x.loseReduction r) s

/-- What an UNREACH stream ends (R46, R51, R172). -/
def State.unreached (s : State) (dst vc : Nat) : State :=
  if vc = 4 then (s.mcastFails dst).reductionsLose dst false
  else if vc = 3 then
    s.handoffsLose dst false
  else s

/-- REPLAY_TIMER_EXPIRY: every held flit is to be sent again, the timeout doubles, and after LIMIT expiries the stream is
UNREACH, and replays at the longest timeout (R41). -/
def execReplayTimerExpiry (dst vc : Nat) (s : State) : Host.Outcome State Fault Refusal :=
  runEvent (fun s =>
    let k := streamNo dst vc
    let st := s.fab.tx.get k
    match st.deadline with
    | none => s
    | some t =>
      if s.time < t ∨ st.held = [] then s
      else
        let limit := if bits s.fab.rto 23 20 = 0 then 16 else bits s.fab.rto 23 20
        let base := bits s.fab.rto 19 0
        let gone := decide (limit ≤ st.expiries + 1) && !st.unreach
        let st' : TxStream :=
          { st with held := st.held.map (fun e => if e.2 = 1 then (e.1, 2) else e),
                    timeout := if st.unreach || gone then base * 2 ^ bits s.fab.rto 27 24
                      else min (2 * s.timeoutOf st) (base * 2 ^ bits s.fab.rto 27 24),
                    expiries := st.expiries + 1, deadline := none, unreach := st.unreach || gone }
        let s1 : State := { s with fab := { s.fab with tx := s.fab.tx.set k st' } }
        if gone then ({ s1 with mgmtLog := s1.mgmtLog ++ [.memberLoss dst] } : State).unreached dst vc else s1) s

/-! ## Delivery (R36, R37, R39, R42, R43) -/

/-- INTEGRITY: a stream has reached FAB.INTTHR tag failures within 2^20 ac (R37). The count then starts anew: the rule does not say
(DESIGN CHOICE, log entry 64). -/
def State.tagFailure (s : State) (src vc : Nat) : State :=
  let k := streamNo src vc
  let ts := recent s.time (s.fab.rx.get k).failTimes
  let s1 := s.countIntfail
  let reach := decide (s.fab.intthr ≤ ts.length)
  let s2 : State := { s1 with fab := { s1.fab with rx := s1.fab.rx.modify k (fun x => { x with failTimes := if reach then [] else ts }) } }
  if reach then ({ s2 with mgmtLog := s2.mgmtLog ++ [.integrity src vc] } : State).push (.alarmRaise .integrity 3) else s2

/-- Where the scratchpad of a core of a partition stands: in the save image while the partition is swapped out (R280, R281). -/
def State.spadOf (s : State) (core off : Nat) : Nat :=
  match s.swappedCore core with
  | none => spadLoc core off
  | some p =>
    match s.swapOf p with
    | none => spadLoc core off
    | some w =>
      if w.loaded then spadLoc core off
      else w.blocks + 0x229000 * w.clusters.findIdx (fun c => c == clusterOf core) + 0x45000 * (core % 8) + off

/-- The location of a virtual address of a partition on this device, for an access from the fabric (R127, R142). A partition that is FREE,
BUILDING or KILLING here has no tables to walk: PERM (R129). -/
def vaLoc (part va : Nat) (p : Word) (a : Access) : Act (Except Poison Nat) := do
  let s ← get
  let fault (c : Nat) (i : Word) : Except Poison Nat := .error { cause := c, addr := p, info := i }
  if [0, 1, 5].contains (s.part.get part).state then return fault cPERM a.permInfo
  if (s.holdOn part va).isSome then stall
  let (w, s1) := s.walk devWalker part va
  set s1
  match w with
  | .error .busy => stall
  | .error (.fault f) => return fault f.cause f.info
  | .ok l => if s1.allows part 0 l.entry (l.phys va) a then return .ok (l.phys va) else return fault cPERM a.permInfo

/-- The location that an access of a partition, from the fabric, reaches on this device (R121, R127). -/
def remoteLoc (part : Nat) (p : Word) (a : Access) : Act (Except Poison Nat) := do
  let s ← get
  let fault (c : Nat) (i : Word) : Except Poison Nat := .error { cause := c, addr := p, info := i }
  match bits p 53 52 with
  | 1 =>
    let c := bits p 39 28
    let off := bits p 27 0
    if 1920 ≤ c ∨ 2 ^ 18 ≤ off then return fault cXLATE 0
    else if s.partOfCore c ≠ some part then return fault cPERM a.permInfo
    else return .ok (s.spadOf c off)
  | 2 => vaLoc part (bits p 39 0) p a
  | _ => return fault cXLATE 0

/-- An access from the fabric enters a line: it waits for an owning engine (R135), rolls back speculative tasks in its way
(R99) and recalls update-only holders (R137). -/
def remoteEnter (part loc n : Nat) (write : Bool) : Act Unit := do
  let s ← get
  if s.ownedRange loc n then stall
  modify (fun x => x.recallRange loc n)
  specAccess (8 * (s.clustersOf part).headD 240) 8 loc n write

/-- Where the pieces of a write from the fabric lie on this device, or the fault of the first that lies nowhere. -/
def pieceLocs (part : Nat) : List Piece → Act (Except Poison (List (Piece × Nat)))
  | [] => return .ok []
  | p :: r => do
    match ← remoteLoc part p.ptr .write with
    | .error q => return .error q
    | .ok loc =>
      match ← pieceLocs part r with
      | .error q => return .error q
      | .ok ls => return .ok ((p, loc) :: ls)

/-- Bytes that an access from the fabric reads; a log area in use reads as free bytes (R98). -/
def remoteBytes (loc n : Nat) : Act (List Byte) := do
  let s ← get
  if s.inLog loc n then
    let (bs, s1) := s.freeBytes n
    set s1
    return bs
  else return s.bytesAt loc n

/-- A remote access performed at its target, with its answer (R121, R127, R358). A store in pieces is checked whole before any piece of it is
written (R350). -/
def serveAct (r : RemoteAccess) : Act Reply := do
  match r.op with
  | .pieces ps =>
    match ← pieceLocs r.part ps with
    | .error q => return .poison q
    | .ok ls =>
      ls.forM (fun x => do
        remoteEnter r.part x.2 x.1.bytes.length true
        modify (fun s => s.putBytes x.2 (overOld x.1 (s.bytesAt x.2 x.1.bytes.length))))
      return .value 0
  | .store d =>
    match ← remoteLoc r.part r.ptr .write with
    | .error q => return .poison q
    | .ok loc =>
      remoteEnter r.part loc (tyBytes r.ty) true
      modify (fun s => s.putBytes loc (bytesOf d.toNat (tyBytes r.ty)))
      return .value 0
  | .load =>
    match ← remoteLoc r.part r.ptr .read with
    | .error q => return .poison q
    | .ok loc =>
      let w := tyBytes r.ty
      remoteEnter r.part loc w false
      let s ← get
      if s.badRange loc w then return .poison { cause := cECC, addr := r.ptr, info := 0 }
      else return .value (extTy (natOfBytes (← remoteBytes loc w)) (8 * w) r.ty)
  | .atomic sub b c =>
    match ← remoteLoc r.part r.ptr .write with
    | .error q => return .poison q
    | .ok loc =>
      let w := atWidth r.ty / 8
      remoteEnter r.part loc w true
      let s ← get
      if s.badRange loc w then return .poison { cause := cECC, addr := r.ptr, info := 0 }
      else
        let (nw, out) := atomicOp sub r.ty (natOfBytes (← remoteBytes loc w)) (b.toNat % 2 ^ atWidth r.ty) c
        match nw with
        | some v => modify (fun x => x.putBytes loc (bytesOf v w))
        | none => pure ()
        return .value out

/-- The answer to a remote access goes back (R30, R119, R350); one of this device's own cores is answered here. DEDUCED, log entry 45. -/
def State.answer (s : State) (r : RemoteAccess) (v : Reply) : State :=
  let body : FlitBody :=
    if accessAcked r then .storeDone r.src (match v with
      | .poison q => some q
      | .value _ => none)
    else .reply r.src v
  if r.srcDev = s.dev then
    match s.fab.out.find? (fun o => o.dev == s.dev && o.xid == r.xid) with
    | some o => (s.dropOut o).answered o v
    | none => s
  else s.fabSend r.srcDev 1 4 r.part r.xid 0 body

/-- PEER_ACCESS_SERVE: a remote access is performed at its owning core, or at its home, and answered (R121). -/
def execPeerAccessServe (r : RemoteAccess) (s : State) : Host.Outcome State Fault Refusal :=
  runEvent (fun s => s.runEvAct (.peerAccessServe r) (do
    let v ← serveAct r
    modify (fun x => x.answer r v))) s

/-- A delivered ATOMIC is executed, its response cached and sent; none while it must wait (R42). One that finds the 512 entries of its
stream taken waits until an entry is freed: the rule does not say (DESIGN CHOICE, log entry 64). -/
def State.atomicExecute (s : State) (f : Flit) (r : RemoteAccess) : Option State :=
  if 512 ≤ (s.fab.cache.filter (fun c => c.src == f.src)).length then none
  else
    match (serveAct r) s with
    | .ok (v, s1) =>
      let resp := s.looseFlit f.src 2 5 f.part f.xid 0 f.seq 8 (.reply r.src v)
      some { s1 with fab := { s1.fab with cache := s1.fab.cache ++ [{ src := f.src, seq := f.seq, resp := resp }],
                                          sentAcks := s1.fab.sentAcks ++ [resp] } }
    | .error _ => none

/-- The arrival queue of a core has room, counting the deliveries on their way to it (R118). -/
def State.arrivalRoom (s : State) (core : Nat) : Bool :=
  decide ((s.coreAt core).arrq.length + (s.agenda.filter (fun e =>
    match e with
    | .arrivalEntryReserve d => d.core == core
    | .mcastCopy c => c.ahpc != 0 && c.tcore == core
    | _ => false)).length < 8) || (s.swappedCore core).isSome

/-- Items of a handoff of a partition are on their way through this device's steps: the requests behind them in the stream wait, so
that they meet the span as the items leave it (R169). -/
def State.handoffInFlight (s : State) (part : Nat) : Bool :=
  s.agenda.any (fun e =>
    match e with
    | .handoffCopyReceive h _ => h.part == part
    | .handoffSwitch h => h.part == part
    | _ => false)

/-- The response of an access has arrived from a device. -/
def State.responded (s : State) (f : Flit) (v : Reply) : State :=
  match s.fab.out.find? (fun o => o.dev == f.src && o.vc != 2 && o.xid == f.xid) with
  | some o => (s.dropOut o).answered o v
  | none => s

/-- A delivered flit's effect; none while its stream must stop delivering (R39, R118). -/
def State.deliverBody (s : State) (f : Flit) : Option State :=
  match f.body with
  | .pad => some s
  | .access r =>
    match r.op with
    | .atomic _ _ _ => s.atomicExecute f r
    | _ => some (s.push (.peerAccessServe r))
  | .reply d v =>
    if f.vc = 1 then some (s.responded f v)
    else if s.sentTuples.any (fun t => t.1 == d) || s.splits.any (fun h => h.src == d) then some (s.push (.pendingValueArrive d v))
    else some s
  | .storeDone _ q =>
    some (s.responded f (match q with
      | some p => .poison p
      | none => .value 0))
  | .tuple r => if s.handoffInFlight r.part then none else some (s.push (reqEvent r))
  | .delivery d =>
    if d.req.mode = 2 ∧ d.req.srcDev = s.dev ∧ !s.arrivalRoom d.req.tcore then none
    else some (s.push (.tupleDeliveryComplete d))
  | .handoff h i => some (s.push (.handoffCopyReceive h i))
  | .ksplit h => some (s.push (.handoffSplit h))
  | .moved p lo last d _ => some (s.push (.moved p lo last d))
  | .msg c m => some (s.push (.messageArrive c m))
  | .msgAck c a => some (s.push (.acknowledgementArrive c a))
  | .arrive d =>
    match f.aux with
    | 0 => if (s.swappedCore d.core).isSome then some s else s.reserveArrival d
    | 1 => if (s.swappedCore d.core).isSome then some (s.push (.arrivalEntryReserve d)) else some (s.push (.arrivalReady d))
    | _ => some (s.freeArrival d)
  | .red m => some (s.push (.redc m))
  | .redResult m => some (s.push (.redr m))
  | .mcast c => if c.ahpc ≠ 0 ∧ !s.arrivalRoom c.tcore then none else some (s.push (.mcastCopy c))
  | .mcastStatus j m st => some (s.push (.mcastStatus j m st))
  | .migrRequest m => some (s.push (.migrationRequest m))
  | .migrReply m ok => some (s.push (.migrationReply m ok))
  | .migrImage m => some (s.push (.migrationImage m))
  | .migrAck m => some (s.push (.migrationImageAck m))
  | .ackPairs _ _ => some s
  | .mgmt w => some { s with mgmtLog := s.mgmtLog ++ [.fabric w] }

def State.modRx (s : State) (k : Nat) (g : RxStream → RxStream) : State :=
  { s with fab := { s.fab with rx := s.fab.rx.modify k g } }

/-- B advances past a flit; 32 deliveries since the last ACK send one (R39, R40). -/
def State.consume (s : State) (src vc : Nat) : State :=
  let k := streamNo src vc
  let s1 := s.modRx k (fun x =>
    { x with pool := x.pool.filter (fun g => g.seq != x.b), b := x.b + 1, since := x.since + 1,
             epoch := if x.b = BitVec.allOnes 32 then x.epoch + 1 else x.epoch, first := some (x.first.getD s.time) })
  if 32 ≤ (s1.fab.rx.get k).since then s1.sendAck src vc else s1

/-- The flits of the group that holds `f` which are in the pool, in order (R36). -/
def groupOf (pool : List Flit) (f : Flit) : List Flit :=
  (pool.filter (fun g => g.seq.toNat / 4 == f.seq.toNat / 4)).mergeSort (fun a b => decide (a.seq.toNat ≤ b.seq.toNat))

/-- Delivers a stream's flits in order from B on, as far as they have come. -/
def State.drain (src vc : Nat) : Nat → State → State
  | 0, s => s
  | n + 1, s =>
    let k := streamNo src vc
    let x := s.fab.rx.get k
    match x.pool.find? (fun g => g.seq == x.b) with
    | none => s
    | some f =>
      let aead := s.flitMode f == 2 && x.verified != some (f.seq.toNat / 4)
      let group := groupOf x.pool f
      if aead && group.length != 4 - x.b.toNat % 4 then s
      else if aead && !groupOk (s.linkKey f.part) x.epoch (group.filter (fun g => s.flitMode g == 2)) then
        (s.modRx k (fun y => { y with pool := y.pool.filter (fun g => !group.contains g) })).tagFailure src vc
      else if aead then State.drain src vc n (s.modRx k (fun y => { y with verified := some (f.seq.toNat / 4) }))
      else if malformedFlit f then State.drain src vc n (s.countBadf.consume src vc)
      else
        match s.deliverBody f with
        | some s1 => State.drain src vc n (s1.consume src vc)
        | none => (s.modRx k (fun y => { y with pool := y.pool.filter (fun g => g != f) })).push (.flitDeliver f)

/-- Flits in the reorder pool, of 47,662 (R39). -/
def State.pooled (s : State) : Nat := s.fab.rx.cells.foldl (fun n c => n + c.2.pool.length) 0

/-- FLIT_DELIVER: a sequenced flit is delivered, held, discarded as a duplicate or dropped; a wrong tag or mode discards it
without acknowledgement (R36, R37, R39). -/
def execFlitDeliver (f : Flit) (s : State) : Host.Outcome State Fault Refusal :=
  runEvent (fun s =>
    let k := streamNo f.src f.vc
    let x := s.fab.rx.get k
    let d := (f.seq - x.b).toNat
    if !s.tagOk f && s.flitMode f != 2 then s.tagFailure f.src f.vc
    else if d < 512 then
      if x.pool.any (fun g => g.seq == f.seq) then s.sendAck f.src f.vc
      else if d ≠ 0 ∧ 47662 ≤ s.pooled then s.countPooldrop
      else State.drain f.src f.vc 640 (s.modRx k (fun y => { y with pool := y.pool ++ [f] }))
    else if 2 ^ 31 ≤ d then
      let s1 := match s.fab.cache.find? (fun c => c.src == f.src && c.seq == f.seq) with
        | some c => if f.type = 3 ∧ f.vc = 2 then { s with fab := { s.fab with sentAcks := s.fab.sentAcks ++ [c.resp] } } else s
        | none => s
      s1.sendAck f.src f.vc
    else s) s

/-! ## A device declared lost (R43) -/

/-- The fault of an operation held for a lost device. -/
def lostPoison (dev : Nat) (p : Word) : Poison := { cause := cMEMBERLOSS, addr := p, info := ofN dev }

/-- Tuple requests sent to a lost device: their destinations are poisoned. The remote address is not stated and is a free
value. -/
def State.loseTuples (s : State) (dev : Nat) : State :=
  (s.sentTuples.filter (fun t => t.2.2 == dev)).foldl (fun (x : State) t =>
    let (a, y) := x.freeW
    y.push (.pendingValueArrive t.1 (.poison (lostPoison dev a)))) s

/-- Messages to a lost device: pending MSENDA destinations are poisoned, outgoing entries end. -/
def State.loseMessages (s : State) (dev : Nat) : State :=
  s.core.cells.foldl (fun (x : State) c =>
    let gone := c.2.sendaPend.filter (fun p => bits p.2.2 51 40 == dev)
    let y := x.pushAll (gone.map (fun p => Event.pendingValueArrive p.2.1 (.poison (lostPoison dev p.2.2))))
    if gone.isEmpty && c.2.outq.all (fun o => bits o.dest 51 40 != dev) then y
    else y.modCore c.1 (fun z =>
      { z with sendaPend := z.sendaPend.filter (fun p => bits p.2.2 51 40 != dev),
               outq := z.outq.filter (fun o => bits o.dest 51 40 != dev) })) s

/-- Threads that have asked a lost device to take them stay where they are. -/
def State.loseMoves (s : State) (dev : Nat) : State :=
  s.core.cells.foldl (fun (x : State) c =>
    c.2.ctx.cells.foldl (fun (y : State) k =>
      if k.2.phase == .moving && k.2.moveDev == some dev then
        y.modCtx c.1 k.1 (fun z => { z with phase := .running, stay := true, moveDev := none })
      else y) x) s

/-- DEVICE_LOST_DECLARE: every operation held for the device completes with MEMBERLOSS (R43, R46, R51, R172). DEDUCED, log entry 46. -/
def execDeviceLostDeclare (dev : Nat) (s : State) : Host.Outcome State Fault Refusal :=
  runEvent (fun s =>
    if dev = s.dev ∨ s.fab.lost.contains dev then s
    else
      let outs := s.fab.out.filter (fun o => o.dev == dev)
      let s1 : State := { s with fab := { s.fab with
        lost := s.fab.lost ++ [dev], out := s.fab.out.filter (fun o => o.dev != dev),
        cache := s.fab.cache.filter (fun c => c.src != dev),
        sentAcks := s.fab.sentAcks.filter (fun f => f.dst != dev),
        tx := (List.range 8).foldl (fun (t : Tab TxStream) v =>
          t.modify (streamNo dev v) (fun x => { x with held := [], deadline := none })) s.fab.tx } }
      let s2 := outs.foldl (fun (x : State) o => x.answered o (.poison (lostPoison dev o.ptr))) s1
      let s3 := ((s2.loseTuples dev).loseMessages dev).loseMoves dev
      let s4 := (s3.mcastFails dev).reductionsLose dev true
      s4.handoffsLose dev true) s

/-! ## Register writes (R34, R52) -/

def execFabDimWrite (v : Word) (s : State) : Host.Outcome State Fault Refusal := runEvent (fun s => s.writeFabDim v) s
def execFabRtoWrite (v : Word) (s : State) : Host.Outcome State Fault Refusal := runEvent (fun s => s.writeFabRto v) s
def execFabErrWrite (v : Word) (s : State) : Host.Outcome State Fault Refusal :=
  let _ := v
  runEvent (fun s => s.writeFabErr) s
def execRetrain (port : Nat) (s : State) : Host.Outcome State Fault Refusal :=
  runEvent (fun s => if port = 6 then s.retrainLink else s.retrainPort port) s
def execDisable (port : Nat) (hold : Bool) (s : State) : Host.Outcome State Fault Refusal :=
  runEvent (fun s => if port = 6 then (if hold then s.disableLink else s) else s.disablePort port hold) s
def execVmismatchClear (port : Nat) (s : State) : Host.Outcome State Fault Refusal := runEvent (fun s => s.clearVmismatch port) s

end Sys2Proof.Machine
end

