-- ==== Sys2Proof/Machine/Net.lean ====
section
/-! DEFINITION. Network reductions and multicast (R46 to R51, R405 to R407), and migrating threads at their target (R123). -/

namespace Sys2Proof.Machine

/-! ## Bytes through a pointer, line by line -/

/-- The pieces of `n` bytes at a pointer, cut at lines of 64 bytes. -/
def chunksOf : Nat → Word → Nat → List (Word × Nat)
  | 0, _, _ => []
  | fuel + 1, p, n =>
    if n = 0 then []
    else
      let k := min n (64 - bits p 5 0)
      (p, k) :: chunksOf fuel (ptrAdd p k) (n - k)

def chunks (p : Word) (n : Nat) : List (Word × Nat) := chunksOf (n / 64 + 2) p n

/-- Reads `n` bytes for an engine. -/
def readBytes (p : Word) (n : Nat) : Act (List Byte) := do
  let xs ← (chunks p n).mapM (fun c => readPtr c.1 c.2)
  return xs.flatten

/-- Writes bytes for an engine; a fault leaves what came before it written (R405, R407). -/
def writeChunks : List (Word × Nat) → List Byte → Act (Option Poison)
  | [], _ => return none
  | (p, n) :: r, bs => do
    match ← catchFault (writePtr p (bs.take n)) with
    | .error q => return some q
    | .ok _ => writeChunks r (bs.drop n)

def writeBytes (p : Word) (bs : List Byte) : Act (Option Poison) := writeChunks (chunks p bs.length) bs

/-- An action of the engine of a job, as its agent; what must wait answers none, with its requests in flight. -/
def State.inEngine {α : Type} (s : State) (core sreg : Nat) (job : Word) (m : Act α) : Option α × State :=
  let back (x : State) : State := { x with curCore := s.curCore, curCtx := s.curCtx, curJob := s.curJob }
  match m (s.asEngine core sreg job) with
  | .ok (a, x) => (some a, back x)
  | .error (.wait x) => (none, back x)
  | .error _ => (none, s)

/-! ## Operations of a reduction (R48, R49) -/

/-- Words of an element. -/
def redWords (op : Nat) : Nat := if op = 7 then 18 else 1

/-- Bytes of a word of an element. -/
def redWidth (op : Nat) : Nat := if op < 3 ∨ op = 7 then 4 else 8

/-- The greatest N of an operation (R48). -/
def redLimit (op : Nat) : Nat := if op < 3 then 1024 else if op = 7 then 56 else 512

/-- RESCALE of two triples (R49). -/
def rescale (a b : List W32) : List W32 :=
  let ma := a.headD 0
  let mb := b.headD 0
  if (f32 ma).isNan || (f32 mb).isNan then List.replicate 18 f32nan
  else
    let m := fmax ma mb
    let ninf : W32 := 0xFF800000#32
    let e (x : W32) : Num := if x = ninf then Num.zero else f32 (toF32 (f32 (toF32 ((f32 x).sub (f32 m)))).exp2)
    let ea := e ma
    let eb := e mb
    m :: (a.tail.zip b.tail).map (fun p => toF32 (((f32 p.1).mul ea).add ((f32 p.2).mul eb)))

/-- One combination of elements of one word. -/
def redCombine (op : Nat) (a b : Word) : Word :=
  let f (g : W32 → W32 → W32) : Word := ofN (g (BitVec.ofNat 32 a.toNat) (BitVec.ofNat 32 b.toNat)).toNat
  match op with
  | 0 => f fadd
  | 1 => f fmin
  | 2 => f fmax
  | 3 => if b.slt a then b else a
  | 4 => if a.slt b then b else a
  | 5 => if b.ult a then b else a
  | _ => if a.ult b then b else a

/-- Lists cut into groups of `n`. -/
def groupsOf {α : Type} (n : Nat) : Nat → List α → List (List α)
  | 0, _ => []
  | k + 1, xs => xs.take n :: groupsOf n k (xs.drop n)

/-- combine(op, acc, partial) over `n` elements (R47). -/
def redElems (op n : Nat) (a b : List Word) : List Word :=
  if op = 7 then
    let w (x : List Word) : List W32 := x.map (fun v => BitVec.ofNat 32 v.toNat)
    ((groupsOf 18 n a).zip (groupsOf 18 n b)).flatMap (fun p => (rescale (w p.1) (w p.2)).map (fun v => ofN v.toNat))
  else (a.zip b).map (fun p => redCombine op p.1 p.2)

/-- The identity of an operation (R50). -/
def netIdentity (op : Nat) : List Word :=
  match op with
  | 0 => [0]
  | 1 => [0x7F800000]
  | 2 => [0xFF800000]
  | 3 => [0x7FFFFFFFFFFFFFFF]
  | 4 => [0x8000000000000000]
  | 5 => [BitVec.allOnes 64]
  | 6 => [0]
  | _ => 0xFF800000 :: List.replicate 17 0

/-- Elements as bytes, and bytes as elements. -/
def redToBytes (op : Nat) (xs : List Word) : List Byte := xs.flatMap (fun x => bytesOf x.toNat (redWidth op))
def redOfBytes (op n : Nat) (bs : List Byte) : List Word :=
  (List.range (n * redWords op)).map (fun k => ofN (fieldAt bs (k * redWidth op) (redWidth op)))

/-! ## NRED (R405) -/

/-- The members of a group that are not marked lost, in ascending order (R47). -/
def State.liveMembers (s : State) (g : Nat) : List Nat :=
  (List.range s.devices).filter (fun d => (s.net.groups.get g).members.getLsbD d && !s.fab.lost.contains d)

/-- A space 00 or sub-space 0 pointer. -/
def localPtr (p : Word) : Bool := bits p 53 52 == 0 || (bits p 53 52 == 3 && bits p 51 48 == 0)

/-- The fields of NRED's block. -/
structure NredBlock where
  src : Word
  dst : Word
  grp : Nat
  rid : Nat
  op : Nat
  n : Nat
  c : Nat
  cpl : Word
  hpc : Word

def nredBlock (b : List Byte) : NredBlock :=
  { src := wordAt b 0, dst := wordAt b 8, grp := fieldAt b 16 2 % 64, rid := fieldAt b 18 4 % 2 ^ 23,
    op := fieldAt b 22 1 % 16, n := fieldAt b 24 4, c := fieldAt b 28 4, cpl := wordAt b 32, hpc := wordAt b 40 }

/-- The word of a failure that came before this NRED: the next reduction of the identifier that is opened here with its sender (R51). -/
def State.redHeard (s : State) (b : NredBlock) : Option RedMsg :=
  s.net.failed.find? (fun m => m.group == b.grp && m.rid == b.rid && m.use == s.redUse b.grp b.rid m.sender + 1)

/-- A partial that came before this NRED, for the use of the identifier that it opens (R47, R51). -/
def State.earlyFor (s : State) (b : NredBlock) (m : RedMsg) : Bool :=
  m.group == b.grp && m.rid == b.rid && m.use == s.redUse b.grp b.rid m.sender + 1

/-- The status of NRED, by the checks of R405 in order; an identifier that has failed is not refused with COUNT, since its NRED ends in
MEMBERLOSS (R51). -/
def State.nredStatus (s : State) (b : NredBlock) : Nat :=
  let g := s.net.groups.get b.grp
  if 8 ≤ b.op ∨ b.n = 0 ∨ redLimit b.op < b.n ∨ !localPtr b.src ∨ !localPtr b.dst ∨ g.part ≠ some s.curPart ∨
      !g.members.getLsbD s.dev ∨ s.net.open_.any (fun r => r.rid == b.rid) ∨ (b.op = 7 ∧ !bit fabFeat 3) then stREFUSED
  else if (s.redHeard b).isSome then stOK
  else if (s.liveMembers b.grp).length < b.c ∨ (b.c ≠ 0 ∧ !((s.liveMembers b.grp).take b.c).contains s.dev) then stCOUNT
  else stOK

/-- A step that makes the reduction engine look at a reduction again: a partial whose sender is this device. -/
def State.kickRed (s : State) (group rid : Nat) : State := s.push (.redc (failMark group rid s.dev 0))

def nredAct (a sa : Nat) : Act Unit := do
  prep 0xC8 [sa] [a]
  let g ← readG sa
  let b ← readBlock g 64 64
  holding (.nred a sa) [a] (some b) (do
    fieldIll 16 (fieldAt b 16 2 / 64 != 0)
    fieldIll 18 (fieldAt b 18 4 / 2 ^ 23 % 2 ^ 9 != 0)
    fieldIll 22 (fieldAt b 22 1 / 16 != 0)
    fieldIll 23 (fieldAt b 23 1 != 0)
    cplCheck (wordAt b 32) 32 false
    fieldIll 48 (fieldAt b 48 16 != 0)
    let s ← get
    let k := nredBlock b
    noRegister k.src
    noRegister k.dst
    let cb ← cplBuffer k.cpl
    let st := s.nredStatus k
    if st ≠ stOK then writeG a (ofN st)
    else
      let ls ← linesAt k.dst (redBytes k.op k.n)
      let id ← issueJob 3 k.cpl k.hpc 0 cb [] none
      let heard := s.redHeard k
      let parts := match heard with
        | some m => m.parts
        | none => (s.liveMembers k.grp).take k.c
      let r : Reduction :=
        { group := k.grp, rid := k.rid, part := s.curPart, job := id, core := s.curCore, dst := k.dst, op := k.op, n := k.n,
          c := k.c, index := parts.findIdx (fun d => d == s.dev), parts := parts, src := k.src,
          partials := s.net.early.filter (s.earlyFor k), sent := false }
      modify (fun x =>
        let y := (x.own id ls).redOpened k.grp k.rid (parts.filter (fun d => d != s.dev))
        let z : State := { y with net := { y.net with
          open_ := y.net.open_ ++ [r], early := y.net.early.filter (fun m => !s.earlyFor k m),
          failed := y.net.failed.filter (fun f => !(f.group == k.grp && f.rid == k.rid && decide (f.use ≤ y.redUse k.grp k.rid f.sender))) } }
        if heard.isSome then z.loseReduction r else z.kickRed k.grp k.rid)
      writeG a (ofN stOK)
    advance)

def execNred (a sa : Nat) (s : State) : Host.Outcome State Fault Refusal := runAct (nredAct a sa) s

/-- NRWAIT waits for a job of engine 3 or 4 (R406). -/
def nrwaitAct (a sa : Nat) : Act Unit := do
  prep 0xC9 [sa] [a]
  let id ← readG sa
  let s ← get
  match s.jobHere id with
  | none => writeG a (ofN stEMPTY)
  | some j =>
    if j.engine < 3 then writeG a (ofN stREFUSED)
    else
      if j.state ≠ 4 then stall
      readCode a id j
  advance

def execNrwait (a sa : Nat) (s : State) : Host.Outcome State Fault Refusal := runAct (nrwaitAct a sa) s

/-! ## The reduction engine (R47, R48) -/

/-- The record of a job, for its SREG. -/
def State.jobSreg (s : State) (job : Word) : Nat :=
  match s.jobOf job with
  | some j => j.sreg
  | none => 0

/-- An engine fault of a network job: its deliveries of R276. -/
def State.netFault (s : State) (job : Word) (q : Poison) : State :=
  match s.jobOf job with
  | some j => s.engineFault j q
  | none => s

/-- A participant ends with the root's result: it writes its destination, forwards the result to its children, and completes
(R47, R48, R405). A write that must wait is tried again. -/
def State.redFinish (s : State) (r : Reduction) (m : RedMsg) : State :=
  let done (x : State) (status : Nat) : State :=
    let y := (childrenOf r.parts r.index).foldl (fun (z : State) d =>
      z.fabSend d 4 11 r.part 0 r.rid (.redResult { m with sender := z.dev, use := z.redUse r.group r.rid d })) x
    let z : State := { y with net := { y.net with open_ := y.net.open_.filter (fun q => !(q.group == r.group && q.rid == r.rid)) } }
    z.finishJob r.job status 0
  if m.status ≠ 0 then done s m.status
  else
    match s.inEngine r.core (s.jobSreg r.job) r.job (writeBytes r.dst (redToBytes r.op m.elems)) with
    | (none, x) => x.push (.redr { m with sender := x.dev })
    | (some none, x) => done x stOK
    | (some (some q), x) => done (x.netFault r.job q) stREFUSED

/-- A participant's own contribution combined with its children's partials (R47, R48): a status that stands in place of a
result goes on in its place, this participant's own first. -/
def Reduction.combine (r : Reduction) (own : Except Poison (List Byte)) (kids : List RedMsg) (dev : Nat) : RedMsg :=
  let base : RedMsg :=
    { group := r.group, rid := r.rid, sender := dev, op := r.op, n := r.n, status := 0, elems := [] }
  match own with
  | .error _ => { base with status := stREFUSED }
  | .ok bs =>
    kids.foldl (fun (acc : RedMsg) k =>
      if acc.status ≠ 0 then acc
      else if k.status ≠ 0 then { acc with status := k.status, elems := [] }
      else if k.op ≠ r.op ∨ k.n ≠ r.n then { acc with status := stNOMATCH, elems := [] }
      else { acc with elems := redElems r.op r.n acc.elems k.elems }) { base with elems := redOfBytes r.op r.n bs }

/-- The engine works on an open reduction: with no participant declared it writes the identity (R50); once every child's
partial is here it combines them and sends its own, or, at the root, the result (R47). -/
def State.redTry (s : State) (r : Reduction) : State :=
  if r.c = 0 then
    s.redFinish r { failMark r.group r.rid s.dev 0 with
      op := r.op, n := r.n, elems := (List.replicate r.n (netIdentity r.op)).flatten }
  else
    let kids := (childrenOf r.parts r.index).map (fun d => r.partials.find? (fun m => m.sender == d))
    if r.sent ∨ kids.any (fun k => k.isNone) then s
    else
      match s.inEngine r.core (s.jobSreg r.job) r.job (catchFault (readBytes r.src (redBytes r.op r.n))) with
      | (none, x) => x.kickRed r.group r.rid
      | (some own, x) =>
        let x1 := match own with
          | .error q => x.netFault r.job q
          | .ok _ => x
        let m := r.combine own (kids.filterMap id) s.dev
        let r1 : Reduction := { r with sent := true }
        let x2 : State := { x1 with net := { x1.net with
          open_ := x1.net.open_.map (fun q => if q.group = r.group ∧ q.rid = r.rid then r1 else q) } }
        match parentOf r.parts r.index with
        | [] => x2.redFinish r1 m
        | d :: _ => x2.fabSend d 4 10 r.part 0 r.rid (.red { m with use := x2.redUse r.group r.rid d })

/-- REDC: a child's partial arrives (R47), or the word of a failure (R51). One for a use of the identifier that is still to be opened here is
kept; one for a use that has ended is discarded. -/
def execRedc (m : RedMsg) (s : State) : Host.Outcome State Fault Refusal :=
  runEvent (fun s =>
    let here := s.net.open_.find? (fun r => r.group == m.group && r.rid == m.rid)
    if m.status = stMEMBERLOSS then s.redFailed m
    else if m.sender = s.dev then
      match here with
      | none => s
      | some r => s.redTry r
    else if s.redUse m.group m.rid m.sender < m.use then { s with net := { s.net with early := s.net.early ++ [m] } }
    else if m.use < s.redUse m.group m.rid m.sender then s
    else
      match here with
      | none => s
      | some r =>
        let r1 : Reduction := { r with partials := r.partials ++ [m] }
        let s1 : State := { s with net := { s.net with
          open_ := s.net.open_.map (fun q => if q.group = r.group ∧ q.rid = r.rid then r1 else q) } }
        s1.redTry r1) s

/-- REDR: the root's result arrives (R47), or the word of a failure (R51). One for a use of the identifier that has ended is discarded. -/
def execRedr (m : RedMsg) (s : State) : Host.Outcome State Fault Refusal :=
  runEvent (fun s =>
    if m.status = stMEMBERLOSS then s.redFailed m
    else if m.sender ≠ s.dev ∧ m.use ≠ s.redUse m.group m.rid m.sender then s
    else
      match s.net.open_.find? (fun r => r.group == m.group && r.rid == m.rid) with
      | none => s
      | some r => s.redFinish r m) s

/-! ## Multicast (R46, R407) -/

/-- The status of NMCAST (R407). -/
def State.nmcastStatus (s : State) (b : List Byte) : Nat :=
  let dst := wordAt b 8
  let ahpc := wordAt b 48
  if !localPtr (wordAt b 0) || !localPtr dst || (s.net.groups.get (fieldAt b 16 2 % 64)).part != some s.curPart ||
      decide (4096 < fieldAt b 20 4) || (ahpc != 0 && bits dst 53 52 == 0) || bit ahpc 5 ||
      bits (wordAt b 56) 2 0 != 0 || !bit fabFeat 2 then stREFUSED
  else stOK

def nmcastAct (a sa : Nat) : Act Unit := do
  prep 0xCA [sa] [a]
  let g ← readG sa
  let b ← readBlock g 64 64
  holding (.nmcast a sa) [a] (some b) (do
    fieldIll 16 (fieldAt b 16 2 / 64 != 0)
    fieldIll 18 (fieldAt b 18 2 / 2 ^ 11 != 0)
    cplCheck (wordAt b 32) 32 false
    let s ← get
    let _ ← fieldFormat s.curCore (wordAt b 0) 0
    let _ ← fieldFormat s.curCore (wordAt b 8) 8
    let _ ← fieldFormat s.curCore (wordAt b 56) 56
    noRegister (wordAt b 0)
    noRegister (wordAt b 8)
    noRegister (wordAt b 56)
    let cb ← cplBuffer (wordAt b 32)
    if s.nmcastStatus b ≠ stOK then writeG a (ofN stREFUSED)
    else
      let id ← issueJob 4 (wordAt b 32) (wordAt b 40) 0 cb
        ((s.curCore, bits (wordAt b 0) 63 58) :: (s.curCore, bits (wordAt b 8) 63 58) ::
          (if wordAt b 56 = 0 then [] else [(s.curCore, bits (wordAt b 56) 63 58)])) none
      let m : McastJob :=
        { job := id, core := s.curCore, part := s.curPart, group := fieldAt b 16 2 % 64, src := wordAt b 0, dst := wordAt b 8,
          len := fieldAt b 20 4, tcore := fieldAt b 18 2 % 2 ^ 11, tag := wordAt b 24, ahpc := wordAt b 48,
          maskp := wordAt b 56, started := false, waiting := [], failed := [] }
      modify (fun x => ({ x with net := { x.net with mcasts := x.net.mcasts ++ [m] } } : State).kickMcast id)
      writeG a (ofN stOK)
    advance)

def execNmcast (a sa : Nat) (s : State) : Host.Outcome State Fault Refusal := runAct (nmcastAct a sa) s

def State.setMcast (s : State) (m : McastJob) : State :=
  { s with net := { s.net with mcasts := s.net.mcasts.map (fun x => if x.job = m.job then m else x) } }

def State.endMcast (s : State) (m : McastJob) (status : Nat) : State :=
  ({ s with net := { s.net with mcasts := s.net.mcasts.filter (fun x => x.job != m.job) } } : State).finishJob m.job status 0

/-- The per-member mask of a MEMBERLOSS completion: 512 bytes. -/
def memberMask (failed : List Nat) : List Byte :=
  (List.range 512).map (fun k => BitVec.ofNat 8 ((List.range 8).foldl (fun n j =>
    n + (if failed.contains (8 * k + j) then 2 ^ j else 0)) 0))

/-- A job whose members have all answered or become UNREACH completes (R46). -/
def State.mcastCheck (s : State) (m : McastJob) : State :=
  if !m.started ∨ !m.waiting.isEmpty then s
  else if m.failed.isEmpty then s.endMcast m stOK
  else if m.maskp = 0 then s.endMcast m stMEMBERLOSS
  else
    match s.inEngine m.core (s.jobSreg m.job) m.job (writeBytes m.maskp (memberMask m.failed)) with
    | (none, x) => x.kickMcast m.job
    | (some none, x) => x.endMcast m stMEMBERLOSS
    | (some (some q), x) => (x.netFault m.job q).endMcast m stMEMBERLOSS

/-- The payload is read and a copy goes to every member but the sender, in ascending order (R46, R407). -/
def State.mcastStart (s : State) (m : McastJob) : State :=
  match s.inEngine m.core (s.jobSreg m.job) m.job (catchFault (readBytes m.src m.len)) with
  | (none, x) => x.kickMcast m.job
  | (some (.error q), x) => (x.netFault m.job q).endMcast m stREFUSED
  | (some (.ok bs), x) =>
    let members := (List.range x.devices).filter (fun d => d != x.dev && (x.net.groups.get m.group).members.getLsbD d)
    let gone (d : Nat) : Bool := x.fab.lost.contains d || (x.fab.tx.get (streamNo d 4)).unreach
    let live := members.filter (fun d => !x.fab.lost.contains d)
    let c : McastCopy :=
      { srcDev := x.dev, srcCore := m.core, group := m.group, part := m.part, dst := m.dst, tcore := m.tcore, tag := m.tag,
        ahpc := m.ahpc, job := m.job, bytes := bs }
    let y := live.foldl (fun (z : State) d => z.fabSend d 4 12 m.part 0 m.group (.mcast c)) x
    let m1 : McastJob := { m with started := true, waiting := members.filter (fun d => !gone d), failed := members.filter gone }
    (y.setMcast m1).mcastCheck m1

/-- MCAST_STATUS: a member's answer; the last one completes the job (R46). A status of this device itself makes the unit start or
look again. -/
def execMcastStatus (job : Word) (member : Nat) (status : Word) (s : State) : Host.Outcome State Fault Refusal :=
  runEvent (fun s =>
    match s.net.mcasts.find? (fun m => m.job == job) with
    | none => s
    | some m =>
      if member = s.dev then (if m.started then s.mcastCheck m else s.mcastStart m)
      else if !m.waiting.contains member then s
      else
        let m1 : McastJob := { m with waiting := m.waiting.filter (fun d => d != member),
                                      failed := if status = 0 then m.failed else m.failed ++ [member] }
        (s.setMcast m1).mcastCheck m1) s

/-- Where byte `off` of a copy is written at a member: a virtual address of 52 bits, or a byte of the named core's scratchpad (R46,
R129, R407). -/
def mcastLoc (c : McastCopy) (off : Nat) : Act (Except Poison Nat) :=
  if bits c.dst 53 52 = 0 then
    let va := (bits c.dst 51 0 + off) % 2 ^ 52
    vaLoc c.part va (ofN va) .write
  else
    let o := bits c.dst 47 0 + off
    if 2 ^ 18 ≤ o then return .error { cause := cXLATE, addr := ofN (bits c.dst 53 0 + off), info := 0 }
    else remoteLoc c.part (ofN (2 ^ 52 + c.tcore * 2 ^ 28 + o)) .write

/-- The bytes of a copy written at a member, line by line, with the first fault (R46). -/
def mcastWrite (c : McastCopy) : Nat → Nat → Act (Option Poison)
  | 0, _ => return none
  | fuel + 1, off => do
    let n := c.bytes.length
    if n ≤ off then return none
    else
      let k := min (n - off) (64 - (bits c.dst 27 0 + off) % 64)
      match ← mcastLoc c off with
      | .error q => return some q
      | .ok loc =>
        remoteEnter c.part loc k true
        modify (fun x => x.putBytes loc ((c.bytes.drop off).take k))
        mcastWrite c fuel (off + k)

/-- A multicast copy at a member: its status (R46, R407). -/
def mcastCopyAct (c : McastCopy) : Act Word := do
  let s ← get
  if (s.net.groups.get c.group).part ≠ some c.part then return ofN stREFUSED
  else if c.ahpc = 0 then
    match ← mcastWrite c (c.bytes.length / 64 + 2) 0 with
    | some q => return st63 q.cause
    | none => return ofN stOK
  else if 2 ^ 18 ≤ bits c.dst 47 0 ∨ 2 ^ 18 < bits c.dst 47 0 + c.bytes.length then return st63 cXLATE
  else
    match ← remoteLoc c.part (ofN (2 ^ 52 + c.tcore * 2 ^ 28 + bits c.dst 17 0)) .write with
    | .error q => return st63 q.cause
    | .ok _ =>
      arrivalAct { core := c.tcore, addr := ofN (3 * 2 ^ 52 + bits c.dst 17 0), len := ofN c.bytes.length, tag := c.tag,
                   extra := 0, src := ofN (c.srcDev * 2 ^ 11 + c.srcCore), hpc := c.ahpc, bytes := c.bytes, noted := c.noted }
      return ofN stOK

/-- MCAST_COPY: the copy is written or refused, and a status flit goes back (R46). -/
def execMcastCopy (c : McastCopy) (s : State) : Host.Outcome State Fault Refusal :=
  runEvent (fun s => s.runEvKept (.mcastCopy c) (.mcastCopy { c with noted := true }) (do
    let st ← mcastCopyAct c
    modify (fun x => x.fabSend c.srcDev 4 12 c.part 0 (2 ^ 22) (.mcastStatus c.job x.dev st)))) s

/-! ## Migrating threads (R123, R364) -/

/-- The answer to a migration goes to its source. -/
def State.migReply (s : State) (m : Migration) (ok : Bool) : State :=
  if m.srcDev = s.dev then s.push (.migrationReply m ok) else s.fabSend m.srcDev 0 13 m.part 0 0 (.migrReply m ok)

/-- MIGRATION_REQUEST: the target reserves its lowest free task context, or refuses if none is free; a core that is no core of the
partition here, or stands on a reserved cluster, has none for it (R122, R123). DESIGN CHOICE, log entry 58. -/
def execMigrationRequest (m : Migration) (s : State) : Host.Outcome State Fault Refusal :=
  runEvent (fun s =>
    let fits := s.partOfCore m.dstCore == some m.part && [2, 3].contains (s.part.get m.part).state && !s.reservedCl (clusterOf m.dstCore)
    match s.freeTaskCtx m.dstCore with
    | k :: _ =>
      if fits then
        (s.modCtx m.dstCore k (fun c => { c with phase := .moving })).migReply { m with dstDev := s.dev, dstCtx := k } true
      else s.migReply m false
    | [] => s.migReply m false) s

/-- The image of Table 4 of R123. -/
def State.migImage (s : State) (core k : Nat) (access : Bool) : List Byte :=
  let c := s.ctxAt core k
  let i := c.ident
  let csw := setBits (setBits (setBits ((s.asCtx core k).csw) 47 32 0) 18 16 0) 3 3 0
  let pc := if access then c.pc else nextPc c.pc c.lineN
  let pair (a b : Nat) : List Byte := bytesOf a 4 ++ bytesOf b 4
  let (cnt, left, origq, sreg, dev, home) := match s.taskOf core k with
    | some (_, t) => (t.cnt, (t.clockEnd.getD (s.taskAc t)) - s.taskAc t, t.origq, t.sreg, t.homeDev, t.homeCore)
    | none => (0, 0, 0, 0, 0, 0)
  (List.range 16).flatMap (fun r => bytesOf (c.g.get r).toNat 8) ++ bytesOf pc.toNat 8 ++ bytesOf csw.toNat 8 ++
    bytesOf i.taskId.toNat 8 ++ bytesOf cnt.toNat 8 ++ pair i.org0 i.org1 ++ pair i.ext0 i.ext1 ++ pair i.nom0 i.nom1 ++
    pair i.gext0 i.gext1 ++ bytesOf (left % 2 ^ 32 + origq * 2 ^ 32 + sreg * 2 ^ 38) 8 ++ bytesOf (dev + home * 2 ^ 12) 8 ++
    bytesOf 0 48

/-- MIGRATION_REPLY: on acceptance the source sends the image; on refusal the thread stays (R122, R123). -/
def execMigrationReply (m : Migration) (accepted : Bool) (s : State) : Host.Outcome State Fault Refusal :=
  runEvent (fun s =>
    if (s.ctxAt m.srcCore m.srcCtx).phase ≠ .moving then s
    else if accepted then
      let m1 : Migration := { m with image := s.migImage m.srcCore m.srcCtx m.access }
      if m.dstDev = s.dev then s.push (.migrationImage m1) else s.fabSend m.dstDev 0 13 m.part 0 0 (.migrImage m1)
    else s.modCtx m.srcCore m.srcCtx (fun c => { c with phase := .running, stay := true, moveDev := none })) s

/-- Whether every reserved byte of an image is zero (R123). -/
def imageClean (b : List Byte) : Bool :=
  fieldAt b 192 8 / 2 ^ 42 == 0 && fieldAt b 200 8 / 2 ^ 23 == 0 && fieldAt b 208 48 == 0

/-- The registers of a context from an image (R123). -/
def Ctx.ofImage (c : Ctx) (b : List Byte) : Ctx :=
  let f (k : Nat) : Nat := fieldAt b k 4
  let c1 := c.setCsw (wordAt b 136)
  { c1 with
    g := (List.range 16).foldl (fun (t : Tab Word) r => t.set r (wordAt b (8 * r))) c1.g, pc := wordAt b 128,
    ident := { c1.ident with taskId := wordAt b 144, org0 := f 160, org1 := f 164, ext0 := f 168, ext1 := f 172,
                             nom0 := f 176, nom1 := f 180, gext0 := f 184, gext1 := f 188 } }

/-- The task of an image that comes from another device. -/
def State.foreignTask (s : State) (m : Migration) : Task :=
  let b := m.image
  { part := m.part, width := 1, clusters := [], gang := false, crew := false, threads := [(m.dstCore, m.dstCtx)], ended := [],
    cnt := wordAt b 152, shot := 0, clockEnd := some (s.coreAc m.dstCore + fieldAt b 192 4), origq := fieldAt b 196 1 % 64,
    sreg := fieldAt b 192 8 / 2 ^ 38 % 16, record := none, ordered := none, start := s.time,
    homeDev := fieldAt b 200 8 % 2 ^ 12, homeCore := fieldAt b 200 8 / 2 ^ 12 % 2 ^ 11 }

/-- A task bound to a sealed region comes to this device (R67, R123). -/
def State.bindSealed (s : State) (sreg n : Nat) : State :=
  if sreg = 0 then s else { s with sealed_ := s.sealed_.modify (sreg - 1) (fun r => { r with count := r.count + n }) }

/-- MIGRATION_IMAGE: the thread resumes at the target; an image with a non-zero reserved byte is refused (R123). MIGR's
destination is written with OK before the next instruction issues (R364). -/
def execMigrationImage (m : Migration) (s : State) : Host.Outcome State Fault Refusal :=
  runEvent (fun s =>
    if (s.ctxAt m.dstCore m.dstCtx).phase ≠ .moving then s.migReply m false
    else if !imageClean m.image then
      (s.modCtx m.dstCore m.dstCtx (fun c => { c with phase := .idle })).migReply m false
    else
      let (id, s1) : Nat × State :=
        if m.srcDev = s.dev then
          match (s.ctxAt m.srcCore m.srcCtx).work with
          | .task id =>
            (id, s.modTask id (fun t =>
              { t with threads := [(m.dstCore, m.dstCtx)],
                       clockEnd := t.clockEnd.map (fun e => s.coreAc m.dstCore + (e - s.coreAc m.srcCore)) }))
          | _ => s.fresh
        else
          let (u, x) := s.fresh
          let t := x.foreignTask m
          (u, ({ x with tasks := assocSet x.tasks u t } : State).bindSealed t.sreg 1)
      let s2 := s1.startCtx m.dstCore m.dstCtx (.task id) 0 (fun c =>
        let b := c.ofImage m.image
        let d := { b with ident := { b.ident with vtime := m.vtime } }
        if m.access then d else d.setG m.statusReg (ofN stOK))
      let src := s.ctxAt m.srcCore m.srcCtx
      let move (h : Hold) : Hold :=
        if m.srcDev = s.dev ∧ h.core = m.srcCore ∧ h.ctx = m.srcCtx ∧ h.serial = src.serial then
          { h with core := m.dstCore, ctx := m.dstCtx, serial := (s2.ctxAt m.dstCore m.dstCtx).serial }
        else h
      let word (x : StaleWord) : StaleWord :=
        if m.srcDev = s.dev ∧ x.core = m.srcCore ∧ x.serial = src.serial then
          { x with core := m.dstCore, serial := (s2.ctxAt m.dstCore m.dstCtx).serial }
        else x
      let s3 : State := { s2 with holds := s2.holds.map move, stale := s2.stale.map word }
      if m.srcDev = s.dev then s3.push (.migrationImageAck m)
      else s3.fabSend m.srcDev 0 13 m.part 0 0 (.migrAck m)) s

/-- MIGRATION_IMAGE_ACK: the source frees its context (R123); a task that has left the device is no longer counted here, and the entry of an
irrevocable ordered task, which runs on as ordinary work (R97), leaves its table (DESIGN CHOICE, log entry 58). -/
def execMigrationImageAck (m : Migration) (s : State) : Host.Outcome State Fault Refusal :=
  runEvent (fun s =>
    let c := s.ctxAt m.srcCore m.srcCtx
    if c.phase ≠ .moving then s
    else
      let s1 := match c.work with
        | .task id =>
          (match assocGet s.tasks id with
           | some t =>
             if m.dstDev = s.dev then s
             else
               let x := s.charge.unbind t.sreg 1
               let y : State := { x with tasks := assocErase x.tasks id }
               match y.entryOfTask t with
               | some (cl, o) => y.modCluster cl (fun k => { k with ord := k.ord.filter (fun q => q.uid != o.uid) })
               | none => y
           | none => s)
        | _ => s
      (s1.freeHolds m.srcCore m.srcCtx).freeCtx m.srcCore m.srcCtx) s

end Sys2Proof.Machine
end

