-- ==== Sys2Proof/Machine/Gauss.lean ====
section
/-! DEFINITION. Gaussian messages: GLD, GST, GADD, GDAMP, GELIM, GRES, GPOST (R205 to R216, R430 to R432). -/

namespace Sys2Proof.Machine

/-- Lane `k` of a vector register as binary32. -/
def lane32 (v : Vec) (k : Nat) : W32 := BitVec.ofNat 32 (lane v 32 k)

/-- A vector register from its sixteen binary32 lanes. -/
def vecOf (f : Nat → W32) : Vec := ofLanes 32 ((List.range 16).map (fun k => (f k).toNat))

/-! ## The mailbox slot (R206, R207, R430) -/

/-- The slot that a pointer names: bits [47:18] of a sub-space 0 pointer are zero within the scratchpad (R129, R430). -/
def slotLoc (p : Word) : Act Nat := do
  let loc ← blockLoc p 128 128
  if bits p 47 18 ≠ 0 then trapNow cXLATE p 0
  return loc

/-- GLD reads a whole slot. -/
def gldAct (a sa sb sd : Nat) : Act Unit := do
  prep 0xE8 [sa, vkey a, vkey sb] [sd, sd + 1]
  let p ← readG sa
  let loc ← slotLoc p
  let s ← get
  let b ← readLoc s.curCore s.curCtx loc 128 p
  let w12 := fieldAt b 12 4
  let valid := w12 / 2 ^ 24 % 2 == 1
  let d := w12 / 2 ^ 25 % 4 + 1
  let keep (ln : Nat) : Bool := !valid || (decide (ln / 4 < d) && decide (ln % 4 < d))
  let keepE (ln : Nat) : Bool := decide (ln < 4) && (!valid || decide (ln < d))
  writeG sd (wordAt b 0)
  writeG (sd + 1) (wordAt b 8)
  writeV a (vecOf (fun ln => if keep ln then BitVec.ofNat 32 (fieldAt b (32 + 4 * ln) 4) else 0))
  writeV sb (vecOf (fun ln => if keepE ln then BitVec.ofNat 32 (fieldAt b (16 + 4 * ln) 4) else 0))
  advance

def execGld (a sa sb sd : Nat) (s : State) : Host.Outcome State Fault Refusal := runAct (gldAct a sa sb sd) s

/-- The slot that GST forms (R430). -/
def slotBytes (k0 k1 : Word) (lam eta : Vec) : List Byte :=
  bytesOf k0.toNat 8 ++ bytesOf (bits k1 31 0) 4 ++ bytesOf (bits k1 55 32 + 2 ^ 24 + bits k1 58 57 * 2 ^ 25) 4 ++
    (List.range 4).flatMap (fun k => bytesOf (lane eta 32 k) 4) ++
    (List.range 16).flatMap (fun k => bytesOf (lane lam 32 k) 4) ++ bytesOf 0 32

/-- The sequence test of R207. -/
def slotFresh (old : List Byte) (k0 : Word) : Bool :=
  let diff := (BitVec.ofNat 32 (bits k0 31 0) - BitVec.ofNat 32 (fieldAt old 0 4)).toNat
  fieldAt old 12 4 / 2 ^ 24 % 2 == 0 || (decide (1 ≤ diff) && decide (diff < 2 ^ 31))

/-- GST writes a whole slot, unless it is stale. It is a release (R207, R263). -/
def gstAct (a sa sb sc sd : Nat) : Act Unit := do
  prep 0xE9 [sa, sd, sd + 1, vkey sb, vkey sc] [a]
  let p ← readG sa
  let loc ← slotLoc p
  let k0 ← readG sd
  let k1 ← readG (sd + 1)
  let lam ← readV sb
  let eta ← readV sc
  releaseWait 2
  let s ← get
  let old ← readLoc s.curCore s.curCtx loc 128 p
  if slotFresh old k0 then
    writeLoc s.curCore s.curCtx loc (slotBytes k0 k1 lam eta)
    writeG a (ofN stOK)
  else writeG a (ofN stREFUSED)
  advance

def execGst (a sa sb sc sd : Nat) (s : State) : Host.Outcome State Fault Refusal := runAct (gstAct a sa sb sc sd) s

/-! ## Addition, damping and residual (R208, R209) -/

def gaddAct (a sa sb : Nat) : Act Unit := do
  prep 0xEA [vkey sa, vkey sb, vkey a] []
  let x ← readV sa
  let y ← readV sb
  writeV a (vecOf (fun k => fadd (lane32 x k) (lane32 y k)))
  advance

def execGadd (a sa sb : Nat) (s : State) : Host.Outcome State Fault Refusal := runAct (gaddAct a sa sb) s

def gdampAct (a sa sb sc : Nat) : Act Unit := do
  prep 0xEA [sc, vkey sa, vkey sb, vkey a] []
  let g ← readG sc
  let al : W32 := BitVec.ofNat 32 (bits g 31 0)
  if !((f32 0).le (f32 al) && (f32 al).le (f32 f32one)) then ill 0
  let x ← readV sa
  let y ← readV sb
  let be := fsub f32one al
  writeV a (vecOf (fun k => ffma al (lane32 x k) (fmul be (lane32 y k))))
  advance

def execGdamp (a sa sb sc : Nat) (s : State) : Host.Outcome State Fault Refusal := runAct (gdampAct a sa sb sc) s

/-- The residual of R209 over the differences of a message of dimension `d`. -/
def residual (d : Nat) (lnew lold enew eold : Vec) : W32 :=
  let es := (List.range d).map (fun i => fsub (lane32 enew i) (lane32 eold i))
  let ls := (List.range d).flatMap (fun i => ((List.range d).filter (fun j => decide (i ≤ j))).map (fun j =>
    fsub (lane32 lnew (4 * i + j)) (lane32 lold (4 * i + j))))
  let xs := es ++ ls
  if xs.any (fun x => (f32 x).isNan) then f32pinf else xs.foldl (fun r x => fmax r (fabs x)) 0

def gresAct (a sa sb sc sd d : Nat) : Act Unit := do
  prep 0xEB [vkey sa, vkey sb, vkey sc, vkey sd] [a]
  let ln ← readV sa
  let lo ← readV sb
  let en ← readV sc
  let eo ← readV sd
  writeG a (ofN (residual d ln lo en eo).toNat)
  advance

def execGres (a sa sb sc sd d : Nat) (s : State) : Host.Outcome State Fault Refusal := runAct (gresAct a sa sb sc sd d) s

/-! ## Elimination (R210 to R212) -/

/-- A matrix of binary32 as a sparse map at 8·row + column. -/
abbrev Mat := Tab W32
def Mat.at (m : Mat) (i j : Nat) : W32 := Tab.get m (8 * i + j)
def Mat.put (m : Mat) (i j : Nat) (x : W32) : Mat := Tab.set m (8 * i + j) x
def Mat.zero : Mat := Tab.const 0

/-- t := fma(-x m, y m, t) for m from 0 to `n` - 1, in ascending order. -/
def downFma (t : W32) (n : Nat) (x y : Nat → W32) : W32 :=
  (List.range n).foldl (fun t m => ffma (fneg (x m)) (y m) t) t

/-- One column of the Cholesky factor: its pivot, or the pivot that is not above the threshold (R211). -/
def cholColumn (lam : Nat → Nat → W32) (db : Nat) (thr : W32) (k : Nat) (l : Mat) : Except (Nat × W32) Mat :=
  let p := downFma (lam k k) k (fun m => l.at k m) (fun m => l.at k m)
  if !((f32 thr).lt (f32 p)) || p == f32pinf then .error (k, p)
  else
    let root := fsqrt p
    .ok (((List.range db).filter (fun i => decide (k < i))).foldl (fun (x : Mat) i =>
      x.put i k (fdiv (downFma (lam i k) k (fun m => x.at i m) (fun m => x.at k m)) root)) (l.put k k root))

/-- The Cholesky factor of a block of dimension `db` (R211). -/
def cholesky (lam : Nat → Nat → W32) (db : Nat) (thr : W32) : Except (Nat × W32) Mat :=
  (List.range db).foldl (fun (r : Except (Nat × W32) Mat) k => r.bind (cholColumn lam db thr k)) (.ok Mat.zero)

/-- L⁻¹ applied to a column of `db` elements. -/
def forwardSolve (l : Mat) (db : Nat) (f : Nat → W32) : Tab W32 :=
  (List.range db).foldl (fun (x : Tab W32) k =>
    x.set k (fdiv (downFma (f k) k (fun m => l.at k m) (fun m => x.get m)) (l.at k k))) (Tab.const 0)

/-- GELIM's results Λ' and η', or the pivot that raises SINGULAR (R210, R211). `j` reads the joint Λ, `e` the joint η. -/
def eliminate (j : Nat → Nat → W32) (e : Nat → W32) (da db : Nat) (tau : W32) : Except (Nat × W32) (Mat × Tab W32) :=
  let sym (r c : Nat) : W32 := if r ≤ c then j r c else j c r
  let bb (r c : Nat) : W32 := sym (da + r) (da + c)
  let dmax := (List.range db).foldl (fun m k => fmax m (fabs (bb k k))) 0
  let thr := fmul tau dmax
  match cholesky bb db thr with
  | .error x => .error x
  | .ok l =>
    let w := (List.range da).map (fun c => forwardSolve l db (fun k => sym (da + k) c))
    let wAt (k c : Nat) : W32 := (w.getD c (Tab.const 0)).get k
    let z := forwardSolve l db (fun k => e (da + k))
    let lam := (List.range da).foldl (fun (m : Mat) i =>
      ((List.range da).filter (fun c => decide (i ≤ c))).foldl (fun (m : Mat) c =>
        let t := downFma (sym i c) db (fun k => wAt k i) (fun k => wAt k c)
        (m.put i c t).put c i t) m) Mat.zero
    let eta := (List.range da).foldl (fun (x : Tab W32) i =>
      x.set i (downFma (e i) db (fun k => wAt k i) (fun k => z.get k))) (Tab.const 0)
    .ok (lam, eta)

/-- GELIM; `da` and `db` are the fields, one less than the dimensions (R431). -/
def gelimAct (a sa sb sc da db : Nat) : Act Unit := do
  prep 0xEA [vkey sa, vkey (sa + 1), vkey (sa + 2), vkey (sa + 3), vkey sb, vkey a, vkey sc] []
  let v0 ← readV sa
  let v1 ← readV (sa + 1)
  let v2 ← readV (sa + 2)
  let v3 ← readV (sa + 3)
  let h ← readV sb
  let s ← get
  let joint (r c : Nat) : W32 :=
    lane32 (match r / 2 with
      | 0 => v0
      | 1 => v1
      | 2 => v2
      | _ => v3) (8 * (r % 2) + c)
  let tau : W32 := BitVec.ofNat 32 (bits (s.coreAt s.curCore).gcfg 31 0)
  match eliminate joint (lane32 h) (da + 1) (db + 1) tau with
  | .error (k, p) => trapNow cSINGULAR 0 (ofN (k % 8 + db % 8 * 8 + da % 4 * 64 + p.toNat * 2 ^ 32))
  | .ok (lam, eta) =>
    writeV a (vecOf (fun ln => if ln / 4 ≤ da ∧ ln % 4 ≤ da then lam.at (ln / 4) (ln % 4) else 0))
    writeV sc (vecOf (fun ln => if ln ≤ da then eta.get ln else 0))
    advance

def execGelim (a sa sb sc da db : Nat) (s : State) : Host.Outcome State Fault Refusal :=
  runAct (gelimAct a sa sb sc da db) s

/-! ## The residual queue (R215) -/

/-- The queue after a post, and its status. `thr` is RTHR. -/
def postResidual (q : List ResidEntry) (thr : W32) (node : Nat) (r : W32) (entry arg : Word) (origq seqn : Nat) :
    List ResidEntry × Nat :=
  let r' := if (f32 r).isNan then f32pinf else r
  if (f32 r').le (f32 thr) then (q, stEMPTY)
  else if q.any (fun e => e.node == node) then
    (q.map (fun e => if e.node = node then { e with resid := fmax e.resid r', entry := entry, arg := arg, origq := origq } else e),
      stOK)
  else if 64 ≤ q.length then (q, stFULL)
  else (q ++ [{ node := node, resid := r', entry := entry, arg := arg, seqn := seqn, origq := origq }], stOK)

def gpostAct (a sa sb sc sd : Nat) : Act Unit := do
  prepIll 0xEC [sa, sb, sc, sd] [a] [sc] (fun s => bit (s.me.g.get sc) 5 || bits (s.me.g.get sc) 63 52 != 0)
  let n ← readG sa
  let r ← readG sb
  let e ← readG sc
  let x ← readG sd
  holding (.gpost a sa sb sc sd) [a] none (do
    let s ← get
    let c := s.coreAt s.curCore
    let (q, st) := postResidual c.residq (BitVec.ofNat 32 (bits c.gcfg 63 32)) (bits n 23 0) (BitVec.ofNat 32 (bits r 31 0)) e x
      s.originQueue c.residSeq
    modify (fun y => y.modCore y.curCore (fun k => { k with residq := q, residSeq := k.residSeq + 1 }))
    writeG a (ofN st)
    advance)

def execGpost (a sa sb sc sd : Nat) (s : State) : Host.Outcome State Fault Refusal := runAct (gpostAct a sa sb sc sd) s

end Sys2Proof.Machine
end

