-- ==== Sys2Proof/Machine/NearBank.lean ====
section
/-! DEFINITION. Near-bank units: claims and commands (R217 to R222, R437 to R439), the micro-instructions (R223 to R226), the
unit's status (R227) and ordinary traffic (R228). A unit's instruction is one step, so that what reaches its channel is served
between micro-instructions. -/

namespace Sys2Proof.Machine

/-! ## Units -/

def State.unitAt (s : State) (u : Nat) : NbUnit := s.unit.get u
def State.modUnit (s : State) (u : Nat) (f : NbUnit → NbUnit) : State := { s with unit := s.unit.modify u f }

/-- The answer to a request, if one waits for it. -/
def State.nbAnswer (s : State) (d : Option RegDest) (r : Reply) : State :=
  match d with
  | some x => s.push (.pendingValueArrive x r)
  | none => s

/-- One ordinary access: a read returns what the array holds. The row that the unit had open stays open for it. -/
def State.ordinary (s : State) (a : OrdinaryAccess) : State :=
  match a with
  | .read pa n d =>
    let s1 := s.recallRange pa n
    if s1.badRange pa n then s1.push (.pendingValueArrive d (.poison { cause := cECC, addr := ofN pa, info := 0 }))
    else s1.push (.pendingValueArrive d (.value (ofN (natOfBytes (s1.bytesAt pa n)))))
  | .write pa bs => (s.recallRange pa bs.length).putBytes pa bs

/-- The accesses that wait at a unit are served in arrival order. -/
def State.serveWaiting (s : State) (u : Nat) : State :=
  let ws := (s.unitAt u).waiting
  ws.foldl State.ordinary (s.modUnit u (fun x => { x with waiting := [] }))

/-- Entering NORMAL: banks precharged, the accesses that wait are served (R228), regions released; a running command gets REFUSED with bit
62, and the waiting NBMODE NORMAL gets OK (R219, R220, R439). -/
def State.nbNormal (s : State) (u : Nat) : State :=
  let x := s.unitAt u
  let s1 := (s.serveWaiting u).nbAnswer x.dest (.value (ofN (2 ^ 62 + stREFUSED)))
  let s2 := x.normals.foldl (fun y d => y.nbAnswer (some d) (.value (ofN stOK))) s1
  s2.modUnit u (fun y =>
    { y with state := 0, owner := 0, fmode := false, pending := false, regions := [], rows := Tab.const none, dest := none,
             normals := [] })

/-- The end of a command with OK: banks precharged, and the word of R221. -/
def State.nbEnd (s : State) (u : Nat) : State :=
  let x := s.unitAt u
  (s.nbAnswer x.dest (.value (ofN (x.report.toNat * 2 ^ 32 + stOK)))).modUnit u (fun y =>
    { y with state := 1, rows := Tab.const none, dest := none })

/-- NORMAL forced by CTXSV and PKILL (R220). -/
def State.nbForce (s : State) (u : Nat) : State := if (s.unitAt u).state = 0 then s else s.nbNormal u

/-! ## Faults (R226, Table 3) -/

/-- A unit fault: its code, bank and column. -/
structure NbFault where
  code : Nat
  bank : Nat
  col : Nat
  deriving DecidableEq, Repr

/-- ECC.UNC of a die counts an uncorrectable error (R23). -/
def State.countUnc (s : State) (die : Nat) : State :=
  { s with ecc := s.ecc.modify die (fun e => { e with unc := e.unc + 1 }) }

/-- The fault fields of the unit's status (R227). -/
def NbUnit.record (x : NbUnit) (f : NbFault) : NbUnit :=
  { x with spc := x.pc, sbank := f.bank, scol := f.col % 32, scause := f.code }

/-- A fault that ends or stops the command: with FMODE = 0 the unit stops and the destination is poisoned; in sticky mode
summary bit 16 is set and the command ends with OK. -/
def State.nbFault (s : State) (u : Nat) (f : NbFault) : State :=
  let x := s.unitAt u
  let s1 := if f.code = 8 then s.countUnc (u / 64) else s
  if x.fmode then (s1.modUnit u (fun y => { y.record f with summary := y.summary ||| 2 ^ 16 })).nbEnd u
  else
    (s1.nbAnswer x.dest (.poison { cause := cNBFAULT, addr := 0, info := ofN (u + f.code * 2 ^ 8) })).modUnit u (fun y =>
      { y.record f with state := 3, dest := none })

/-! ## Banks (R217, R224) -/

/-- The location of column `col` of the open row of bank `b` on a unit's channel (R217). -/
def groupLoc (u : Nat) (r : OpenRow) (b col : Nat) : Nat :=
  r.base + (r.row * 32 + col) * 0x4000 + u % 32 * 0x200 + b * 0x20

/-- The fault of an access to one bank, if any: COL, NOROW, RDONLY, ECC. DEDUCED, log entry 47. -/
def State.bankFault (s : State) (u b col lim : Nat) (write : Bool) : Option Nat :=
  if lim < col then some 4
  else
    match (s.unitAt u).rows.get b with
    | none => some 3
    | some r =>
      if write then (if r.writable then none else some 5)
      else if s.badRange (groupLoc u r b col) 32 then some 8
      else none

/-- Stores made before a command are in the banks before it reads or writes them: update-only partials of the groups are recalled
(R137, R222). -/
def State.recallBanks (s : State) (u col : Nat) (bs : List Nat) : State :=
  bs.foldl (fun x b => match (x.unitAt u).rows.get b with
    | some r => x.recallRange (groupLoc u r b col) 64
    | none => x) s

/-- The banks of `bs` that an access acts on. With FMODE = 0 the lowest fault stops the instruction; in sticky mode each faulting
bank sets its summary bit and is left out (R226). -/
def State.banksOf (s : State) (u : Nat) (bs : List Nat) (col lim : Nat) (write : Bool) : Except NbFault (List Nat × State) :=
  let bad := bs.filterMap (fun b => (s.bankFault u b col lim write).map (fun c => (b, c)))
  match bad with
  | [] =>
    if bs.isEmpty && decide (lim < col) && !(s.unitAt u).fmode then .error { code := 4, bank := 0, col := col }
    else .ok (bs, s.recallBanks u col bs)
  | (b, c) :: _ =>
    let f : NbFault := { code := c, bank := b, col := col }
    if !(s.unitAt u).fmode then .error f
    else
      let s1 := bad.foldl (fun x p => if p.2 = 8 then x.countUnc (u / 64) else x) s
      let good := bs.filter (fun k => !bad.any (fun p => p.1 == k))
      .ok (good, (s1.recallBanks u col good).modUnit u (fun y => { y.record f with summary := bad.foldl (fun m p => m ||| 2 ^ p.1) y.summary }))

/-- The selected banks, ascending (R224). -/
def NbUnit.selected (x : NbUnit) : List Nat := (List.range 16).filter (fun b => x.bm.getLsbD b)

/-- The sixteen BF16 elements of column `col` of an open bank. -/
def State.group (s : State) (u b col : Nat) : List (BitVec 16) :=
  match (s.unitAt u).rows.get b with
  | none => []
  | some r =>
    let bs := s.bytesAt (groupLoc u r b col) 32
    (List.range 16).map (fun e => BitVec.ofNat 16 (fieldAt bs (2 * e) 2))

/-- Writes bytes at column `col` of an open bank. -/
def State.putGroup (s : State) (u b col : Nat) (bs : List Byte) : State :=
  match (s.unitAt u).rows.get b with
  | none => s
  | some r => s.putBytes (groupLoc u r b col) bs

/-- The binary32 value of a BF16 element. -/
def bf32 (x : BitVec 16) : W32 := BitVec.ofNat 32 (x.toNat * 2 ^ 16)

/-! ## Running one micro-instruction -/

/-- The effect of a micro-instruction at a unit: a fault, or the new state with its next PC to be set. -/
abbrev MicroEffect := Nat → NbUnit → State → Except NbFault State

/-- Runs one micro-instruction at the unit that acts: the limit of 2^24, falling through from PC 1,023, the effect, and a switch
to NORMAL that is latched (R219, R223, R225). `falls` says that the next PC is PC + 1. -/
def microRun (falls : Bool) (f : MicroEffect) (s : State) : State :=
  let u := s.curUnit
  let x := s.unitAt u
  if x.state ≠ 2 then s
  else
    let s1 :=
      if x.steps + 1 = 2 ^ 24 then s.nbFault u { code := 7, bank := 0, col := 0 }
      else if falls && x.pc == 1023 then s.nbFault u { code := 6, bank := 0, col := 0 }
      else
        match f u x s with
        | .error e => s.nbFault u e
        | .ok s' => s'.modUnit u (fun y => { y with steps := y.steps + 1, pc := if falls then y.pc + 1 else y.pc })
    if (s1.unitAt u).pending then s1.nbNormal u else s1

/-- Effects on a unit's registers alone. -/
def microReg (f : NbUnit → NbUnit) : State → State := microRun true (fun u _ s => .ok (s.modUnit u f))

def microHalt : State → State := microRun false (fun u _ s => .ok (s.nbEnd u))

/-- OPEN: any other open row of each selected bank is precharged, and the window's row opens. -/
def microOpen (w k : Nat) : State → State :=
  microRun true (fun u x s =>
    match x.win[w]? with
    | some (some g) =>
      let r := (x.n.get k).toNat
      if 3 < r then .error { code := 2, bank := 0, col := 0 }
      else
        let o : OpenRow := { base := g.base, row := r, writable := g.writable }
        .ok (s.modUnit u (fun y => { y with rows := x.selected.foldl (fun t b => t.set b (some o)) y.rows }))
    | _ => .error { code := 2, bank := 0, col := 0 })

def microClose : State → State :=
  microReg (fun y => { y with rows := y.selected.foldl (fun t b => t.set b none) y.rows })

def microSetbMask (m : Nat) : State → State := microReg (fun y => { y with bm := BitVec.ofNat 16 m })
def microSetbReg (k : Nat) : State → State := microReg (fun y => { y with bm := (y.n.get k).setWidth 16 })

/-- The column that n[t] and the immediate name (R224). -/
def NbUnit.col (x : NbUnit) (t c : Nat) : Nat := (x.n.get t).toNat + c

def microRdcol (k t c : Nat) : State → State :=
  microRun true (fun u x s => do
    let b := (x.n.get k).toNat % 16
    let (bs, s1) ← s.banksOf u [b] (x.col t c) 31 false
    if bs.isEmpty then .ok s1
    else
      let g := s1.group u b (x.col t c)
      .ok (s1.modUnit u (fun y => { y with x := (List.range 16).foldl (fun m e => m.set e (g.getD e 0)) y.x })))

def microWrcol (t c : Nat) : State → State :=
  microRun true (fun u x s => do
    let (bs, s1) ← s.banksOf u x.selected (x.col t c) 31 true
    let data := (List.range 16).flatMap (fun e => bytesOf (x.x.get e).toNat 2)
    .ok (bs.foldl (fun y b => y.putGroup u b (x.col t c) data) s1))

/-- MACB: lane b of the accumulator takes the sixteen products of bank b, one rounding for each (R224). -/
def microMacb (ones : Bool) (d t c : Nat) : State → State :=
  microRun true (fun u x s => do
    let (bs, s1) ← s.banksOf u x.selected (x.col t c) 31 false
    let y (e : Nat) : W32 := if ones then f32one else bf32 (x.x.get e)
    let sum (b : Nat) : W32 :=
      ((List.range 16).zip (s1.group u b (x.col t c))).foldl (fun a p => ffma (bf32 p.2) (y p.1) a) (x.a.get (16 * d + b))
    .ok (s1.modUnit u (fun z => { z with a := bs.foldl (fun m b => m.set (16 * d + b) (sum b)) z.a })))

/-- Every lane of an accumulator. -/
def NbUnit.lanesOf (y : NbUnit) (d : Nat) (f : Nat → W32) : NbUnit :=
  { y with a := (List.range 16).foldl (fun m e => m.set (16 * d + e) (f e)) y.a }

def microClra (d : Nat) : State → State := microReg (fun y => y.lanesOf d (fun _ => 0))
def microAdda (d k : Nat) : State → State :=
  microReg (fun y => y.lanesOf d (fun e => fadd (y.a.get (16 * d + e)) (y.a.get (16 * k + e))))
def microMaxa (d k : Nat) : State → State :=
  microReg (fun y => y.lanesOf d (fun e => fmax (y.a.get (16 * d + e)) (y.a.get (16 * k + e))))
/-- SCALA: n[s] is a signed integer, converted as R231 says. -/
def microScala (d k : Nat) : State → State :=
  microReg (fun y =>
    let f := toF32 (Num.ofInt (y.n.get k).toInt)
    y.lanesOf d (fun e => fmul (y.a.get (16 * d + e)) f))

def microWbacc (bf : Bool) (k b t c : Nat) : State → State :=
  microRun true (fun u x s => do
    let bank := (x.n.get b).toNat % 16
    let col := x.col t c
    let (bs, s1) ← s.banksOf u [bank] col (if bf then 31 else 30) true
    let acc (e : Nat) : W32 := x.a.get (16 * k + e)
    if bs.isEmpty then .ok s1
    else if bf then
      .ok (s1.putGroup u bank col ((List.range 16).flatMap (fun e => bytesOf (Fmt.bf16.round .ne (f32 (acc e))) 2)))
    else
      let half (j : Nat) : List Byte := (List.range 8).flatMap (fun e => bytesOf (acc (8 * j + e)).toNat 4)
      .ok ((s1.putGroup u bank col (half 0)).putGroup u bank (col + 1) (half 1)))

/-- Integer results wrap modulo 2^32 (R223). -/
def microSet (d : Nat) (f : NbUnit → W32) : State → State := microReg (fun y => { y with n := y.n.set d (f y) })

def microLdi (d k : Nat) : State → State := microSet d (fun _ => BitVec.ofInt 32 (signed k 23))
def microAddi (d a k : Nat) : State → State := microSet d (fun y => y.n.get a + BitVec.ofInt 32 (signed k 15))
def microAdd (d a b : Nat) : State → State := microSet d (fun y => y.n.get a + y.n.get b)
def microSub (d a b : Nat) : State → State := microSet d (fun y => y.n.get a - y.n.get b)
def microAnd (d a b : Nat) : State → State := microSet d (fun y => y.n.get a &&& y.n.get b)
def microShl (d a b : Nat) : State → State := microSet d (fun y => y.n.get a <<< ((y.n.get b).toNat % 32))

/-- A branch: a taken one whose target is outside 0 to 1,023, or one that falls through from 1,023, is fault PCRANGE and has no
effect (R225). -/
def microBranch (taken : NbUnit → Bool) (off : Int) (f : NbUnit → NbUnit) : State → State :=
  microRun false (fun u x s =>
    let next : Int := (x.pc : Int) + 1 + (if taken x then off else 0)
    if next < 0 ∨ 1023 < next then .error { code := 6, bank := 0, col := 0 }
    else .ok (s.modUnit u (fun y => { f y with pc := next.toNat })))

def microBeq (a b off : Nat) : State → State := microBranch (fun y => y.n.get a == y.n.get b) (signed off 15) id
def microBne (a b off : Nat) : State → State := microBranch (fun y => y.n.get a != y.n.get b) (signed off 15) id
def microBlt (a b off : Nat) : State → State := microBranch (fun y => (y.n.get a).slt (y.n.get b)) (signed off 15) id
def microLoop (a off : Nat) : State → State :=
  microBranch (fun y => y.n.get a - 1 != 0) (signed off 15) (fun y => { y with n := y.n.set a (y.n.get a - 1) })
def microJmp (off : Nat) : State → State := microBranch (fun _ => true) (signed off 23) id
def microReport (k : Nat) : State → State := microReg (fun y => { y with report := y.n.get k })

/-- The effect of each micro-instruction (R224, Table 2). -/
def microAct : Micro → State → State
  | .halt => microHalt
  | .close => microClose
  | .open_ w k => microOpen w k
  | .setbMask m => microSetbMask m
  | .setbReg k => microSetbReg k
  | .rdcol k t c => microRdcol k t c
  | .wrcol t c => microWrcol t c
  | .macb d t c => microMacb false d t c
  | .macbOnes d t c => microMacb true d t c
  | .clra d => microClra d
  | .adda d k => microAdda d k
  | .maxa d k => microMaxa d k
  | .scala d k => microScala d k
  | .wbacc k b t c => microWbacc false k b t c
  | .wbaccBf k b t c => microWbacc true k b t c
  | .ldi d k => microLdi d k
  | .addi d a k => microAddi d a k
  | .add d a b => microAdd d a b
  | .sub d a b => microSub d a b
  | .and_ d a b => microAnd d a b
  | .shl d a b => microShl d a b
  | .beq a b f => microBeq a b f
  | .bne a b f => microBne a b f
  | .blt a b f => microBlt a b f
  | .loop a f => microLoop a f
  | .jmp f => microJmp f
  | .report k => microReport k

def execNbuHalt (s : State) : Host.Outcome State Fault Refusal := runEvent microHalt s
def execNbuOpen (w k : Nat) (s : State) : Host.Outcome State Fault Refusal := runEvent (microOpen w k) s
def execNbuClose (s : State) : Host.Outcome State Fault Refusal := runEvent microClose s
def execNbuSetbMask (m : Nat) (s : State) : Host.Outcome State Fault Refusal := runEvent (microSetbMask m) s
def execNbuSetbReg (k : Nat) (s : State) : Host.Outcome State Fault Refusal := runEvent (microSetbReg k) s
def execNbuRdcol (k t c : Nat) (s : State) : Host.Outcome State Fault Refusal := runEvent (microRdcol k t c) s
def execNbuWrcol (t c : Nat) (s : State) : Host.Outcome State Fault Refusal := runEvent (microWrcol t c) s
def execNbuMacb (d t c : Nat) (s : State) : Host.Outcome State Fault Refusal := runEvent (microMacb false d t c) s
def execNbuMacbOnes (d t c : Nat) (s : State) : Host.Outcome State Fault Refusal := runEvent (microMacb true d t c) s
def execNbuClra (d : Nat) (s : State) : Host.Outcome State Fault Refusal := runEvent (microClra d) s
def execNbuAdda (d k : Nat) (s : State) : Host.Outcome State Fault Refusal := runEvent (microAdda d k) s
def execNbuMaxa (d k : Nat) (s : State) : Host.Outcome State Fault Refusal := runEvent (microMaxa d k) s
def execNbuScala (d k : Nat) (s : State) : Host.Outcome State Fault Refusal := runEvent (microScala d k) s
def execNbuWbacc (k b t c : Nat) (s : State) : Host.Outcome State Fault Refusal := runEvent (microWbacc false k b t c) s
def execNbuWbaccBf (k b t c : Nat) (s : State) : Host.Outcome State Fault Refusal := runEvent (microWbacc true k b t c) s
def execNbuLdi (d k : Nat) (s : State) : Host.Outcome State Fault Refusal := runEvent (microLdi d k) s
def execNbuAddi (d a k : Nat) (s : State) : Host.Outcome State Fault Refusal := runEvent (microAddi d a k) s
def execNbuAdd (d a b : Nat) (s : State) : Host.Outcome State Fault Refusal := runEvent (microAdd d a b) s
def execNbuSub (d a b : Nat) (s : State) : Host.Outcome State Fault Refusal := runEvent (microSub d a b) s
def execNbuAnd (d a b : Nat) (s : State) : Host.Outcome State Fault Refusal := runEvent (microAnd d a b) s
def execNbuShl (d a b : Nat) (s : State) : Host.Outcome State Fault Refusal := runEvent (microShl d a b) s
def execNbuBeq (a b f : Nat) (s : State) : Host.Outcome State Fault Refusal := runEvent (microBeq a b f) s
def execNbuBne (a b f : Nat) (s : State) : Host.Outcome State Fault Refusal := runEvent (microBne a b f) s
def execNbuBlt (a b f : Nat) (s : State) : Host.Outcome State Fault Refusal := runEvent (microBlt a b f) s
def execNbuLoop (a f : Nat) (s : State) : Host.Outcome State Fault Refusal := runEvent (microLoop a f) s
def execNbuJmp (f : Nat) (s : State) : Host.Outcome State Fault Refusal := runEvent (microJmp f) s
def execNbuReport (k : Nat) (s : State) : Host.Outcome State Fault Refusal := runEvent (microReport k) s

/-- A word that is no micro-instruction is fault ILLOP (R223). -/
def State.nbIllop (s : State) (u : Nat) : State :=
  microRun false (fun _ _ _ => .error { code := 1, bank := 0, col := 0 }) { s with curUnit := u }

/-- The micro-instruction at a unit's PC. -/
def State.nbRunNext (s : State) (u : Nat) : State :=
  match decodeMicroOp ((s.unitAt u).overlay.get (s.unitAt u).pc) with
  | some m => microAct m { s with curUnit := u }
  | none => s.nbIllop u

/-! ## Ordinary traffic (R228) -/

/-- NBU_ORDINARY_ACCESS: while a micro-instruction runs the access waits for its end, else it is served at once (R228). -/
def execNbuOrdinaryAccess (u : Nat) (a : OrdinaryAccess) (s : State) : Host.Outcome State Fault Refusal :=
  runEvent (fun s =>
    if (s.unitAt u).state = 2 then s.modUnit u (fun x => { x with waiting := x.waiting ++ [a] }) else s.ordinary a) s

/-- NBU_STEP: every access that waits at the end of a micro-instruction is served, and the next one runs (R223, R228). -/
def execNbuStep (u : Nat) (s : State) : Host.Outcome State Fault Refusal :=
  runEvent (fun s => (s.serveWaiting u).nbRunNext u) s

/-! ## Requests at the unit (R219, R221, R227, R437, R439) -/

/-- A claim may be granted: some region is named, and each lies in the unit's stack and has no pinned line (R219). -/
def State.nbClaimable (s : State) (u : Nat) (regions : List Nat) : Bool :=
  !regions.isEmpty && regions.all (fun r => r / 2 ^ 36 == u / 32 && !s.pins.any (fun p => p.line * 64 / 2 ^ 21 == r / 2 ^ 21))

/-- An accepted claim: every cached copy of the regions is written back, and the unit is cleared (R219). -/
def State.nbClaim (s : State) (u part : Nat) (sticky : Bool) (regions : List Nat) : State :=
  let lines := (s.uline.filter (fun l => regions.any (fun r => l.line * 64 / 2 ^ 21 == r / 2 ^ 21))).map (fun l => l.line)
  (lines.foldl State.recall s).modUnit u (fun x =>
    { x with state := 1, owner := part, fmode := sticky, regions := distinct regions, overlay := Tab.const 0, n := Tab.const 0,
             a := Tab.const 0, x := Tab.const 0, bm := 0xFFFF#16 })

/-- NBMODE at the unit (R219, Table 1). -/
def State.nbMode (s : State) (u : Nat) (e : NbEnvelope) (op : NbRequest) : State :=
  let x := s.unitAt u
  let ans (n : Nat) (y : State) : State := y.nbAnswer (some e.dest) (.value (ofN n))
  if x.state ≠ 0 ∧ x.owner ≠ e.part then ans stREFUSED s
  else
    match op with
    | .compute sticky regions =>
      if x.state = 0 && s.nbClaimable u regions then ans stOK (s.nbClaim u e.part sticky regions) else ans stREFUSED s
    | .normal =>
      if x.state = 0 then ans stEMPTY s
      else
        let s1 := s.modUnit u (fun y => { y with normals := y.normals ++ [e.dest], pending := true })
        if x.state = 2 then s1 else s1.nbNormal u
    | _ => if x.state = 3 then s.modUnit u (fun y => { y with state := 2, dest := some e.dest }) else ans stEMPTY s

/-- NBC at the unit: checks 2 to 4 of R221. A unit that another partition holds is taken as not holding the command's regions, and refuses a
command without windows that finds it in COMPUTE (DEDUCED, log entry 53). -/
def State.nbCommand (s : State) (u : Nat) (e : NbEnvelope) (pc : Nat) (args : List W32) (ws : List (Option NbWindow))
    (span : Bool) : State :=
  let x := s.unitAt u
  let ans (n : Nat) : State := s.nbAnswer (some e.dest) (.value (ofN n))
  let held (w : Option NbWindow) : Bool := match w with
    | some g => x.state != 0 && x.owner == e.part && x.regions.contains g.base
    | none => true
  if span then ans stSPAN
  else if !ws.all held then ans stREFUSED
  else if x.state ≠ 1 then ans stFULL
  else if x.owner ≠ e.part then ans stREFUSED
  else
    let (r, s1) := s.freeW
    s1.modUnit u (fun y =>
      { y with state := 2, pc := pc, steps := 0, x := Tab.const 0, bm := 0xFFFF#16, win := ws, dest := some e.dest,
               report := r.setWidth 32,
               n := ((List.range 4).zip args).foldl (fun t p => t.set p.1 p.2) (Tab.const 0) })

/-- The words of R227. -/
def NbUnit.status (x : NbUnit) (part : Nat) : Word :=
  let own := x.state != 0 && x.owner == part
  ofN (x.state + x.owner * 2 ^ 24 +
    (if own then x.spc % 1024 * 2 ^ 54 + x.sbank % 16 * 2 ^ 50 + x.scol % 32 * 2 ^ 45 + x.scause % 16 * 2 ^ 41 +
      x.pending.toNat * 2 ^ 7 + x.fmode.toNat * 2 ^ 6 else 0))

/-- NBU_REQUEST: a request reaches its unit (R437). NBSTAT answers any partition; only the owner's clears the summary (R227, R439). -/
def execNbuRequest (u : Nat) (e : NbEnvelope) (s : State) : Host.Outcome State Fault Refusal :=
  runEvent (fun s =>
    let x := s.unitAt u
    match e.req with
    | .overlay off ws =>
      if x.state = 1 ∧ x.owner = e.part then
        (s.modUnit u (fun y =>
          { y with overlay := ((List.range ws.length).zip ws).foldl (fun t p => t.set (off + p.1) p.2) y.overlay })).nbAnswer
            (some e.dest) (.value (ofN stOK))
      else s.nbAnswer (some e.dest) (.value (ofN stREFUSED))
    | .command pc args ws span => s.nbCommand u e pc args ws span
    | .status sel =>
      let s1 := s.nbAnswer (some e.dest) (.value (if sel = 0 then x.status e.part else ofN (x.summary % 2 ^ 17)))
      if sel = 1 && x.state != 0 && x.owner == e.part then s1.modUnit u (fun y => { y with summary := 0 }) else s1
    | op => s.nbMode u e op) s

/-! ## The instructions of the cores (R437 to R439) -/

/-- The unit that a register names; bits above [7:0] trap ILL (R437). -/
def nbUnitOf (sa : Nat) : Act Nat := do
  let v ← readG sa
  if bits v 63 8 ≠ 0 then ill 0
  return bits v 7 0

/-- The operand checks of an instruction of this group: g[SA] that names no unit, and a field of the block outside its limits, are ILL before
the cause of the other register's poison is raised (R271, R389). -/
def nbPrep (op a sa sb align n : Nat) (limits : List Byte → Act Unit) : Act Unit :=
  prepEarly op [sa, sb] [a] [] (do
    let s ← get
    if s.readable sa && bits (s.me.g.get sa) 63 8 != 0 then ill 0
    if s.readable sb then
      match s.blockNow (s.me.g.get sb) align n with
      | some b => limits b
      | none => pure ())

/-- A request leaves for its unit; the destination is pending until the unit answers (R437). -/
def nbSend (a u : Nat) (req : NbRequest) : Act Unit := do
  let s ← get
  takeSlot s.curCore
  modify (fun x =>
    (x.setPend (x.dest a)).push (.nbuRequest u { part := x.curPart, dest := x.dest a, req := req }))
  advance

/-- Every page from a pointer on, `n` of them, is translated: the first whose translation faults traps. -/
def nbTouch : Nat → Word → Act Unit
  | 0, _ => pure ()
  | n + 1, p => do
    let _ ← resolve p .read
    nbTouch n (ofN ((bits p 51 0 / 4096 + 1) * 4096))

/-- A window of NBC: none when its length is 0. Every page that it touches is translated at issue, and one that runs past the end of the
virtual addresses touches a page that does not exist (R221, R438, R476). -/
def nbWindow (va len : Word) : Act (Option NbWindow × Bool) := do
  if len = 0 then return (none, false)
  else
    let top := bits va 51 0 + len.toNat
    match ← resolve va .read with
    | .mem loc leaf =>
      nbTouch ((min top (2 ^ 52) - 1) / 4096 - bits va 51 0 / 4096) (ofN ((bits va 51 0 / 4096 + 1) * 4096))
      if 2 ^ 52 < top then trapNow cXLATE va 0
      return (some { base := loc / 2 ^ 21 * 2 ^ 21, writable := bit leaf 2 }, decide (2 ^ 21 < bits va 20 0 + len.toNat))
    | _ => trapNow cXLATE va 0

/-- A granted window's SPACE must be 00 (R438). -/
def nbSpace (va len : Word) : Act Unit := do
  if len ≠ 0 ∧ bits va 53 52 ≠ 0 then trapNow cXLATE va 0

/-- NBC: the spaces of both windows are checked before the windows are translated (R438). -/
def nbcAct (a sa sb : Nat) : Act Unit := do
  nbPrep 0xF1 a sa sb 64 64 (fun b => do
    fieldIll 0 (fieldAt b 0 2 / 2 ^ 10 != 0)
    fieldIll 2 (fieldAt b 2 6 != 0)
    fieldIll 56 (fieldAt b 56 8 != 0))
  let u ← nbUnitOf sa
  let g ← readG sb
  let b ← readBlock g 64 64
  holding (.nbc a sa sb) [a] (some b) (do
    nbSpace (wordAt b 24) (wordAt b 32)
    nbSpace (wordAt b 40) (wordAt b 48)
    let (w0, x0) ← nbWindow (wordAt b 24) (wordAt b 32)
    let (w1, x1) ← nbWindow (wordAt b 40) (wordAt b 48)
    releaseWait 2
    nbSend a u (.command (fieldAt b 0 2) ((List.range 4).map (fun j => BitVec.ofNat 32 (fieldAt b (8 + 4 * j) 4))) [w0, w1]
      (x0 || x1)))

def execNbc (a sa sb : Nat) (s : State) : Host.Outcome State Fault Refusal := runAct (nbcAct a sa sb) s

/-- The limits of NBOV's block (R439). -/
def nbovLimits (b : List Byte) : Act Unit := do
  let off := fieldAt b 0 2
  let cnt := fieldAt b 2 2
  let src := wordAt b 8
  fieldIll 0 (decide (1024 ≤ off))
  fieldIll 2 (decide (1024 < off + cnt))
  fieldIll 4 (fieldAt b 4 4 != 0)
  fieldIll 8 (bits src 53 52 != 3 || bits src 51 18 != 0 || bits src 17 0 % 4 != 0 || decide (2 ^ 18 < bits src 17 0 + 4 * cnt))

/-- NBOV: its words are read at issue (R439). -/
def nbovAct (a sa sb : Nat) : Act Unit := do
  nbPrep 0xF2 a sa sb 16 16 nbovLimits
  let u ← nbUnitOf sa
  let g ← readG sb
  let b ← readBlock g 16 16
  let off := fieldAt b 0 2
  let cnt := fieldAt b 2 2
  let src := wordAt b 8
  let s ← get
  let all ← (if cnt = 0 || decide (16 < b.length) then return b
    else return b ++ (← readLoc s.curCore s.curCtx (spadLoc s.curCore (bits src 17 0)) (4 * cnt) src) : Act (List Byte))
  holding (.nbov a sa sb) [a] (some all)
    (nbSend a u (.overlay off ((List.range cnt).map (fun j => BitVec.ofNat 32 (fieldAt all (16 + 4 * j) 4)))))

def execNbov (a sa sb : Nat) (s : State) : Host.Outcome State Fault Refusal := runAct (nbovAct a sa sb) s

/-- A region that NBMODE names, translated at issue; none when its leaf lacks CCAP (R143, R219, R439). -/
def nbRegion (p : Word) : Act (Option Nat) := do
  if bits p 53 52 ≠ 0 then trapNow cXLATE p 0
  match ← resolve p .read with
  | .mem loc leaf => return if bit leaf 6 then some (loc / 2 ^ 21 * 2 ^ 21) else none
  | _ => trapNow cXLATE p 0

/-- The limits of NBMODE's block (R439). -/
def nbmodeLimits (b : List Byte) : Act Unit := do
  let op := fieldAt b 0 1
  let fl := fieldAt b 1 1
  fieldIll 0 (decide (2 < op))
  fieldIll 1 (decide (4 ≤ fl) || (op != 1 && fl != 0))
  fieldIll 2 (fieldAt b 2 6 != 0)
  fieldIll 16 (fl / 2 % 2 != 1 && fieldAt b 16 8 != 0)
  fieldIll 24 (fieldAt b 24 8 != 0)

/-- NBMODE: the operation stands in the block. A claim one of whose leaves lacks CCAP names no region, and the unit refuses it.
DEDUCED, log entry 53. -/
def nbmodeAct (i : Instr) (a sa sb : Nat) : Act Unit := do
  nbPrep 0xF2 a sa sb 32 32 nbmodeLimits
  let u ← nbUnitOf sa
  let g ← readG sb
  let b ← readBlock g 32 32
  let op := fieldAt b 0 1
  let fl := fieldAt b 1 1
  let two := decide (fl / 2 % 2 = 1)
  holding i [a] (some b) (do
    if op = 1 then
      let r0 ← nbRegion (wordAt b 8)
      let r1 ← (if two then nbRegion (wordAt b 16) else return r0 : Act (Option Nat))
      let rs := match r0, r1 with
        | some x, some y => if two then [x, y] else [x]
        | _, _ => []
      nbSend a u (.compute (fl % 2 == 1) rs)
    else if op = 0 then nbSend a u .normal
    else nbSend a u .resume)

def execNbmodeNormal (a sa sb : Nat) (s : State) : Host.Outcome State Fault Refusal :=
  runAct (nbmodeAct (.nbmodeNormal a sa sb) a sa sb) s
def execNbmodeCompute (a sa sb : Nat) (s : State) : Host.Outcome State Fault Refusal :=
  runAct (nbmodeAct (.nbmodeNormal a sa sb) a sa sb) s
def execNbmodeResume (a sa sb : Nat) (s : State) : Host.Outcome State Fault Refusal :=
  runAct (nbmodeAct (.nbmodeNormal a sa sb) a sa sb) s

/-- NBSTAT: selectors 2 to 15 trap ILL (R227, R439). -/
def nbstatAct (a sa sel : Nat) : Act Unit := do
  if 2 ≤ sel then ill 0
  prep 0xF2 [sa] [a]
  let u ← nbUnitOf sa
  nbSend a u (.status sel)

def execNbstat (a sa sel : Nat) (s : State) : Host.Outcome State Fault Refusal := runAct (nbstatAct a sa sel) s

end Sys2Proof.Machine
end

