-- ==== Sys2Proof/Machine/Sched.lean ====
section
/-! DEFINITION. Launches, queues and the scheduler (R62, R63, R78, R81 to R104): records at submission, dependences, placement,
starts, the shot clock, quiescing and the umpire tree. -/

namespace Sys2Proof.Machine

/-! ## Records (R62, R63) -/

/-- A record is refused at submission (R63). -/
def State.recordBad (s : State) (part : Nat) (b : List Byte) : Bool :=
  let w := fieldAt b 0 4
  let kind := w % 4
  let sqw := w / 4 % 8
  let crewn := w / 32 % 64
  let shot := w / 2 ^ 11 % 32
  let sreg := w / 2 ^ 16 % 16
  kind == 3 || decide (2 ^ 20 ≤ w) || (kind == 0 && sqw != 0) || (decide (kind < 2) && crewn != 0) || decide (59 < crewn) ||
    (decide (1 ≤ shot) && decide (shot ≤ 9)) || shot == 31 || decide (8 < sreg) ||
    (sreg != 0 && !(s.part.get part).sealMask.getLsbD (sreg - 1)) || fieldAt b 32 4 == 0 || fieldAt b 36 4 == 0 ||
    bit (wordAt b 8) 5 || fieldAt b 40 1 % 8 != 0

/-- The status of a submission, and the queue after it. -/
def State.submit (s : State) (r : Submission) : Nat × State :=
  if s.recordBad r.part r.record then (stREFUSED, s)
  else if 256 ≤ (s.launch.get r.q).recs.length then (stFULL, s)
  else
    let (u, s1) := s.fresh
    let x : LaunchRec :=
      { uid := u, bytes := r.record, placed := 0, dep0 := wordAt r.record 48 == 0, dep1 := wordAt r.record 56 == 0 }
    (stOK, { s1 with launch := s1.launch.modify r.q (fun l => { l with recs := l.recs ++ [x] }),
                     records := assocSet s1.records u x.tasks })

/-- LAUNCH_SUBMIT: a record reaches its queue, and its submitter is answered (R60, R81, R426). One of a partition that PKILL has ended
meanwhile is dropped with its work (R283). -/
def execLaunchSubmit (r : Submission) (s : State) : Host.Outcome State Fault Refusal :=
  runEvent (fun s =>
    let (st, s1) := if [0, 5].contains (s.part.get r.part).state then (stREFUSED, s) else s.submit r
    let s2 := match r.reply with
      | some d => s1.push (.pendingValueArrive d (.value (ofN st)))
      | none => s1
    match r.host with
    | some c => s2.push (.hostCmdComplete { c with status := st })
    | none => s2) s

/-- LAUNCH_QUEUE_CFG_WRITE (R82). -/
def execLaunchQueueCfgWrite (q : Nat) (v : Word) (s : State) : Host.Outcome State Fault Refusal :=
  runEvent (fun s => s.writeLqCfg q v) s

/-- CORE_MQCAP_WRITE (R457). -/
def execCoreMqcapWrite (core : Nat) (v : Word) (s : State) : Host.Outcome State Fault Refusal :=
  runEvent (fun s => s.regWrite (.mqcap core) v) s

/-- PERIOD_START: an enabled queue with a period starts the next one at the end of the last, its old DL; the first starts now (R84). -/
def execPeriodStart (q : Nat) (s : State) : Host.Outcome State Fault Refusal :=
  runEvent (fun s => if (s.launch.get q).en && (s.launch.get q).period != 0 then
    s.startPeriod q (if (s.launch.get q).dl = BitVec.allOnes 64 then s.time else (s.launch.get q).dl.toNat) else s) s

/-! ## The head of a queue: dependences and shape (R85, R90) -/

/-- The head record leaves its queue. -/
def State.popHead (s : State) (q : Nat) : State :=
  { s with launch := s.launch.modify q (fun l => { l with recs := l.recs.drop 1 }) }

/-- A record that is removed and runs no task. -/
def State.removeHead (s : State) (q uid : Nat) : State :=
  { s.popHead q with records := assocErase s.records uid }

/-- The most clusters that a partition holds on one die. -/
def State.widestDie (s : State) (part : Nat) : Nat :=
  (List.range 4).foldl (fun m d => max m ((s.clustersOf part).filter (fun c => c / 60 == d)).length) 0

/-- A crew that fits no die of its partition (R90). -/
def State.shapeBad (s : State) (part : Nat) (r : LaunchRec) : Bool := r.kind == 2 && decide (s.widestDie part < r.crewn)

/-- The supervisor's record of a device action, DEVA = 1: g8, g11 and the six words of the launch record from byte `off`
(R274). -/
def State.recordRecord (s : State) (part cause info : Nat) (r : LaunchRec) (off : Nat) : State :=
  let w (j : Nat) : Word := wordAt r.bytes (off + 8 * j)
  s.sendRecord part (s.part.get part).supv [ofN (cause + 2 ^ 9), w 0, w 1, ofN info, w 2, w 3, w 4, w 5]

/-- The location that an action of the device for a partition reaches; a held page makes it wait (R85, R149). -/
def actionLoc (part va : Nat) (a : Access) : Act (Except AccFault Nat) := do
  let s ← get
  if (s.holdOn part va).isSome then stall
  let (w, s1) := s.walk devWalker part va
  set s1
  match w with
  | .error .busy => stall
  | .error (.fault f) => return .error f
  | .ok l => if s.allows part 0 l.entry (l.phys va) a then return .ok (l.phys va) else return .error { cause := cPERM, info := a.permInfo }

/-- The job id names a job that this device has issued: its engine is one, and its number is among the last 65,536 that the core has
given (R190). -/
def State.jobIssued (s : State) (id : Word) : Bool :=
  let n := (s.coreAt (jobCore id)).jobSeq
  bits id 62 42 == 0 && bits id 41 30 == s.dev && decide (jobCore id < 1920) && decide (jobEngine id ≤ 4) &&
    (decide (65536 ≤ n) || decide (bits id 15 0 < n))

/-- One dependence: met, not yet met, or a fault with its cause and table level (R62, R85). A job that has been issued and no longer has
a record has completed; one that has not been issued is waited for. Of a counter dependence only bits [51:0] are used, as a virtual address
that need not be aligned (DESIGN CHOICE, log entry 75). -/
def depTest (part : Nat) (d : Word) : Act (Except (Nat × Nat) Bool) := do
  let s ← get
  if d = 0 then return .ok true
  else if bit d 63 then
    return .ok (match s.jobOf (ofN (bits d 62 0)) with
      | some j => j.state == 4
      | none => s.jobIssued (ofN (bits d 62 0)))
  else
    match ← actionLoc part (bits d 51 0) .read with
    | .error f => return .error (f.cause, if f.cause = cXLATE then f.info.toNat else 0)
    | .ok loc =>
      let s ← get
      if s.badRange loc 8 then return .error (cECC, 0)
      else
        remoteEnter part loc 8 false
        let s ← get
        return .ok (s.wordAtLoc loc == 0)

/-- DEPENDENCE_TEST of a queue's head: a record of no task ends; a crew that fits no die is removed with SHAPE; each dependence
not yet met is tested, and one that faults removes the record (R62, R76, R85, R90). -/
def dependenceAct (q : Nat) : Act Unit := do
  let s ← get
  match (s.launch.get q).recs, s.partOfQueue q with
  | r :: _, some p =>
    if r.tasks = 0 then modify (fun x => x.removeHead q r.uid)
    else if s.shapeBad p r then modify (fun x => (x.removeHead q r.uid).recordRecord p cSHAPE q r 0)
    else
      let fault (which : Nat) (f : Nat × Nat) : Act Unit :=
        modify (fun x => (x.removeHead q r.uid).recordRecord p f.1 (q + which * 2 ^ 6 + f.2 * 2 ^ 8) r 16)
      match ← (if r.dep0 then return .ok true else depTest p (wordAt r.bytes 48) : Act (Except (Nat × Nat) Bool)) with
      | .error f => fault 0 f
      | .ok m0 =>
        match ← (if r.dep1 then return .ok true else depTest p (wordAt r.bytes 56) : Act (Except (Nat × Nat) Bool)) with
        | .error f => fault 1 f
        | .ok m1 =>
          modify (fun x => { x with launch := x.launch.modify q (fun l =>
            { l with recs := l.recs.map (fun y => if y.uid = r.uid then { y with dep0 := m0, dep1 := m1 } else y) }) })
  | _, _ => return

def execDependenceTest (q : Nat) (s : State) : Host.Outcome State Fault Refusal := runEvent (fun s => s.runEng (dependenceAct q)) s

/-! ## Identity (R78, R79) -/

/-- Identity registers of thread `k` of `c` of task `i` of a record. -/
def LaunchRec.ident (r : LaunchRec) (q i k c rankS rankC : Nat) : Ident :=
  let g0 := fieldAt r.bytes 24 4
  let g1 := fieldAt r.bytes 28 4
  let n0 := fieldAt r.bytes 32 4
  let n1 := fieldAt r.bytes 36 4
  let t0 := (g0 + n0 - 1) / n0
  let t1 := (g1 + n1 - 1) / n1
  let t := i * c + k
  let base : Ident :=
    { Ident.none with taskId := ofN (i + q * 2 ^ 32), nom0 := n0, nom1 := n1, gext0 := g0, gext1 := g1, squadRank := rankS,
                      crewRank := rankC }
  if t < t0 * t1 then
    let o0 := t % t0 * n0
    let o1 := t / t0 * n1
    { base with org0 := o0, org1 := o1, ext0 := min n0 (g0 - o0), ext1 := min n1 (g1 - o1) }
  else base

/-! ## Starting tasks (R77, R88, R93) -/

/-- A task starts on its threads' contexts: g1 holds ARG, and the shot clock runs (R77, R103). -/
def State.startTask (s : State) (t : Task) (ids : List (Nat × Nat × Ident)) (entry arg : Word) : State :=
  let (id, s1) := s.fresh
  let t' : Task := { t with start := s.time, clockEnd := some (s.taskAc t + shotLen t.shot) }
  let s2 : State := { s1 with tasks := assocSet s1.tasks id t' }
  ids.foldl (fun x p => x.startCtx p.1 p.2.1 (.task id) entry (fun c => { c with g := c.g.set 1 arg, ident := p.2.2 })) s2

/-- A task of one thread on a context. -/
def State.oneThread (s : State) (part core k : Nat) (cnt : Word) (shot origq sreg : Nat) : Task :=
  { part := part, width := 1, clusters := [clusterOf core], gang := false, crew := false, threads := [(core, k)], ended := [],
    cnt := cnt, shot := shot, clockEnd := none, origq := origq, sreg := sreg, record := none, ordered := none, start := s.time,
    homeDev := s.dev, homeCore := core }

/-! ## Placement (R86 to R89) -/

/-- A region's bound-task count rises (R67). -/
def State.bind (s : State) (sreg : Nat) : State :=
  if sreg = 0 then s else { s with sealed_ := s.sealed_.modify (sreg - 1) (fun r => { r with count := r.count + 1 }) }

def State.partReserved (s : State) (part : Nat) : Option Nat := (s.reserved.find? (fun r => r.1 == part)).map (fun r => r.2.1)

/-- Tasks of a partition may be placed and started: it is RUNNING and not quiescing (R86, R104). -/
def State.mayStart (s : State) (part : Nat) : Bool := (s.part.get part).state == 2 && !s.quiescing.contains part

/-- The candidates of R86. -/
def State.candidate (s : State) (q : Nat) : Bool :=
  let l := s.launch.get q
  match l.recs, s.partOfQueue q with
  | r :: _, some p =>
    l.en && r.dep0 && r.dep1 && r.tasks != 0 && !s.shapeBad p r && !s.gateClosed r && s.mayStart p &&
      (l.period == 0 || decide (0 < s.leftNow q))
  | _, _ => false

/-- The order of R86: queues with a deadline first, then by DL, then by number. -/
def State.queueLe (s : State) (a b : Nat) : Bool :=
  let x := s.launch.get a
  let y := s.launch.get b
  let bx := x.period == 0
  let by_ := y.period == 0
  (!bx && by_) || (bx == by_ && (decide (x.dl.toNat < y.dl.toNat) || (x.dl == y.dl && decide (a ≤ b))))

/-- The next task of the head has been placed; the record leaves the head with its last one (R85). -/
def State.placedOne (s : State) (q : Nat) (r : LaunchRec) : State :=
  let s1 := if r.tasks ≤ r.placed + 1 then s.popHead q
    else { s with launch := s.launch.modify q (fun l =>
      { l with recs := l.recs.map (fun y => if y.uid = r.uid then { y with placed := y.placed + 1 } else y) }) }
  s1.bind r.sreg

/-- A thread task joins the shortest task queue of its partition, outside reserved clusters (R87). -/
def State.placeThread (s : State) (q part : Nat) (r : LaunchRec) : Option State :=
  let cores := ((s.clustersOf part).filter (fun c => !s.reservedCl c)).flatMap coresOf
  let len (c : Nat) : Nat := (s.coreAt c).taskq.length
  let ok := cores.filter (fun c => decide (len c < 128))
  match ok with
  | [] => none
  | c0 :: rest =>
    let c := rest.foldl (fun m x => if len x < len m then x else m) c0
    let e : TaskEntry :=
      { entry := r.entry, arg := r.arg, cnt := r.cnt, shot := r.shot, origq := q, idx := r.placed, record := some r.uid,
        ident := some (r.ident q r.placed 0 1 0 0), sreg := r.sreg, spawned := false }
    some ((s.modCore c (fun x => { x with taskq := x.taskq ++ [e] })).placedOne q r)

/-- The cores of a cluster with a free task context, ascending. -/
def State.openCores (s : State) (cl : Nat) : List Nat := (coresOf cl).filter (fun c => !(s.freeTaskCtx c).isEmpty)

/-- Clusters of a partition on which a gang of width `w` may start (R88). -/
def State.qualifying (s : State) (part w : Nat) : List Nat :=
  (s.clustersOf part).filter (fun cl => (s.clusterAt cl).gang.isNone && decide (w ≤ (s.openCores cl).length))

/-- A crew task of the partition holds clusters of the die: no other one is placed there (R360). -/
def State.crewOn (s : State) (part die : Nat) : Bool :=
  s.tasks.any (fun p => p.2.part == part && p.2.crew && p.2.clusters.any (fun c => c / 60 == die))

/-- The clusters that a gang task takes, if it can be placed (R88, R360). -/
def State.gangClusters (s : State) (part : Nat) (r : LaunchRec) : Option (List Nat) :=
  let cls := s.qualifying part r.sqw
  if r.kind = 1 then cls.head?.map (fun c => [c])
  else
    let onDie (d : Nat) : List Nat := cls.filter (fun c => c / 60 == d)
    ((List.range 4).find? (fun d => !s.crewOn part d && decide (r.crewn ≤ (onDie d).length))).map (fun d => (onDie d).take r.crewn)

/-- A barrier as the dispatch of task `id` sets it (R360). -/
def Barrier.opened (count id : Nat) : Barrier := { gen := 0, count := count, arrived := [], engc := 0, engArr := 0, task := id }

/-- The dispatch of a gang task of width `w` sets the huddles of its clusters, and that of a crew task the crew barriers of its
partition on its die (R360). -/
def State.openBarriers (s : State) (t : Task) (id : Nat) : State :=
  let s1 := t.clusters.foldl (fun x cl => x.modCluster cl (fun k =>
    { k with huddle := (List.range 8).foldl (fun h n => h.set n (Barrier.opened t.width id)) k.huddle })) s
  if t.crew then
    let die := t.clusters.headD 0 / 60
    { s1 with crew := (List.range 16).foldl (fun c n =>
        c.set (crewKey die t.part n) (Barrier.opened (t.clusters.length * t.width) id)) s1.crew }
  else s1

/-- A gang task starts on its clusters: every thread in this step (R75, R80, R88). -/
def State.placeGang (s : State) (q part : Nat) (r : LaunchRec) : Option State :=
  (s.gangClusters part r).map (fun cls =>
    let w := r.sqw
    let c := cls.length * w
    let one (p : Nat × Nat) : List (Nat × Nat × Ident) :=
      ((List.range w).zip (s.openCores p.2)).map (fun x =>
        (x.2, (s.freeTaskCtx x.2).headD 0, r.ident q r.placed (p.1 * w + x.1) c x.1 p.1))
    let ids := ((List.range cls.length).zip cls).flatMap one
    let id := s.uid
    let t : Task :=
      { part := part, width := w, clusters := cls, gang := true, crew := r.kind == 2, threads := ids.map (fun x => (x.1, x.2.1)),
        ended := [], cnt := r.cnt, shot := r.shot, clockEnd := none, origq := q, sreg := r.sreg, record := some r.uid,
        ordered := none, start := s.time, homeDev := s.dev, homeCore := (ids.headD (0, 0, Ident.none)).1 }
    let s1 := (s.startTask t ids r.entry r.arg).openBarriers t id
    let s2 := cls.foldl (fun x cl => x.modCluster cl (fun k => { k with gang := some id })) s1
    { s2.placedOne q r with reserved := s2.reserved.filter (fun x => x.2.1 != q) })

/-- The clusters that a reservation holds (R89); none where no die qualifies for the crew, each one that is wide enough having a crew of the
partition already (DESIGN CHOICE, log entry 75). -/
def State.reserveFor (s : State) (q part : Nat) (r : LaunchRec) : State :=
  let free (cl : Nat) : Nat := (coresOf cl).foldl (fun n c => n + (s.freeTaskCtx c).length) 0
  let most (cls : List Nat) : List Nat := cls.mergeSort (fun a b => decide (free b < free a) || (free a == free b && decide (a ≤ b)))
  let cls := s.clustersOf part
  let held :=
    if r.kind = 1 then (most cls).take 1
    else
      match (List.range 4).find? (fun d => !s.crewOn part d && decide (r.crewn ≤ (cls.filter (fun c => c / 60 == d)).length)) with
      | some d => (most (cls.filter (fun c => c / 60 == d))).take r.crewn
      | none => []
  { s with reserved := s.reserved ++ [(part, q, held)] }

/-- One turn of the loop of R86: whether a task has been placed. -/
def placeOne (a : Bool × State) (q : Nat) : Bool × State :=
  if a.1 then a
  else
    let s := a.2
    match (s.launch.get q).recs, s.partOfQueue q with
    | r :: _, some p =>
      if r.kind = 0 then
        match s.placeThread q p r with
        | some s' => (true, s')
        | none => (false, s)
      else
        match s.partReserved p with
        | some q' =>
          if q' ≠ q then (false, s)
          else
            match s.placeGang q p r with
            | some s' => (true, s')
            | none => (false, s)
        | none =>
          match s.placeGang q p r with
          | some s' => (true, s')
          | none => (false, s.reserveFor q p r)
    | _, _ => a

/-- TASK_PLACE: at most one task is placed (R86). DEDUCED, log entry 48. -/
def execTaskPlace (s : State) : Host.Outcome State Fault Refusal :=
  runEvent (fun s =>
    let cs := ((List.range 64).filter s.candidate).mergeSort s.queueLe
    (cs.foldl placeOne (false, s)).2) s

/-! ## Starts from a core's queues (R93) -/

/-- The entry of a residual queue that starts next: the greatest residual, ties to the lower node (R216). -/
def bestResidual (q : List ResidEntry) : Option ResidEntry :=
  match q with
  | [] => none
  | e :: r =>
    some (r.foldl (fun m x =>
      if (f32 m.resid).lt (f32 x.resid) || ((f32 m.resid).eqv (f32 x.resid) && decide (x.node < m.node)) then x else m) e)

/-- The earliest QUEUED entry of a cluster's ordered-task table (R96). -/
def State.earliest (s : State) (cl : Nat) : Option OrdTask :=
  match (s.clusterAt cl).ord.filter (fun o => o.state == .queued) with
  | [] => none
  | o :: r => some (r.foldl (fun m x => if keyLt x m then x else m) o)

/-- A log slot of a core that none of its uncommitted ordered tasks uses (R98). -/
def State.freeSlot (s : State) (cl core : Nat) : Option Nat :=
  (List.range 8).find? (fun n => !((s.clusterAt cl).ord.any (fun o => o.core == core && o.slot == some n)))

/-- TASK.ID of a spawned task (R79). -/
def spawnedId (e : TaskEntry) : Word := ofN (e.idx % 2 ^ 32 + e.origq % 64 * 2 ^ 32 + 2 ^ 63)

/-- The order of published keys. -/
def rawKeyLt (a b : Nat × Nat × Nat) : Bool :=
  decide (a.1 < b.1) || (a.1 == b.1 && (decide (a.2.1 < b.2.1) || (a.2.1 == b.2.1 && decide (a.2.2 < b.2.2))))

/-- The key that a held SPAWNT will have (R95, R101); none where it will be REFUSED, its timestamp being below its task's, since that uses no
key (R422). -/
def State.heldKey (s : State) (h : Held) : Option (Nat × Nat × Nat) :=
  match h.instr with
  | .spawnt _ _ sb =>
    let ts := h.snapshot.g.get sb
    let vt := h.snapshot.ident.vtime
    if vt != BitVec.allOnes 64 && ts.ult vt then none else some (ts.toNat, h.core, (s.coreAt h.core).spawnCount)
  | _ => none

/-- The keys that a sample sees: QUEUED and RUNNING tasks, and SPAWNTs held inside an uncommitted task. -/
def State.liveKeys (s : State) (part : Nat) : List (Nat × Nat × Nat) :=
  (s.clustersOf part).flatMap (fun cl => (s.clusterAt cl).ord.flatMap (fun o =>
    (if o.state = .finished then [] else [o.key]) ++ o.held.filterMap s.heldKey))

def leastKey (ks : List (Nat × Nat × Nat)) : Option (Nat × Nat × Nat) :=
  match ks with
  | [] => none
  | k :: r => some (r.foldl (fun m x => if rawKeyLt x m then x else m) k)

/-- Nothing of the partition comes before a key: no live key is below it, and every FINISHED task below it has committed (R101, R267). -/
def State.nothingBefore (s : State) (part : Nat) (key : Nat × Nat × Nat) : Bool :=
  !((s.liveKeys part).any (fun k => rawKeyLt k key)) &&
    !((s.clustersOf part).any (fun cl => (s.clusterAt cl).ord.any (fun o => o.state == .finished && rawKeyLt o.key key)))

/-- The key of an ordered task is the least key published, and every earlier task has committed (R97, R101, R267). -/
def State.leastPublished (s : State) (part : Nat) (o : OrdTask) : Bool :=
  (s.umpire.get part).published == some (some o.key) && s.nothingBefore part o.key

/-- A free task context of a core starts a task (R93). -/
def State.startOn (s : State) (part core k : Nat) : State :=
  let c := s.coreAt core
  let cl := clusterOf core
  match bestResidual c.residq with
  | some e =>
    let s1 := s.modCore core (fun x =>
      { x with residq := x.residq.filter (fun y => y.node != e.node), startAc := some (s.coreAc core) })
    let id : Ident := { Ident.none with taskId := ofN (e.node % 2 ^ 24 + e.origq % 64 * 2 ^ 32 + 3 * 2 ^ 62) }
    s1.startTask (s1.oneThread part core k 0 0 e.origq 0) [(core, k, id)] e.entry e.arg
  | none =>
    match s.earliest cl with
    | some o =>
      let slot := s.freeSlot cl core
      let irr := s.leastPublished part o
      let s1 := s.modOrd cl o.uid (fun x => { x with state := .running, core := core, ctx := k, slot := slot, irrevocable := irr })
      let id : Ident := { Ident.none with taskId := spawnedId o.entry, vtime := o.ts }
      let t : Task := { s1.oneThread part core k o.entry.cnt o.entry.shot o.entry.origq 0 with ordered := some (cl, o.uid) }
      s1.startTask t [(core, k, id)] o.entry.entry o.entry.arg
    | none =>
      match c.taskq.getLast? with
      | none => s
      | some e =>
        let s1 := s.modCore core (fun x => { x with taskq := x.taskq.dropLast })
        let id : Ident := match e.ident with
          | some i => i
          | none => { Ident.none with taskId := spawnedId e }
        let t : Task := { s1.oneThread part core k e.cnt e.shot e.origq e.sreg with record := e.record }
        s1.startTask t [(core, k, id)] e.entry e.arg

/-- TASK_START: a free task context of a core that is not on a reserved cluster starts a task (R93, R104): the lowest-numbered one (DESIGN
CHOICE, log entry 75). -/
def execTaskStart (core : Nat) (s : State) : Host.Outcome State Fault Refusal :=
  runEvent (fun s =>
    match s.partOfCore core, s.freeTaskCtx core with
    | some p, k :: _ => if s.mayStart p && !s.reservedCl (clusterOf core) then s.startOn p core k else s
    | _, _ => s) s

/-- TASK_END: the end of a task whose threads have all ended, tried again while it must wait (R76). -/
def execTaskEnd (task : Nat) (s : State) : Host.Outcome State Fault Refusal :=
  runEvent (fun s => s.runEvAct (.taskEnd task) (taskEndAct task)) s

/-! ## Shot clocks (R103, R117) -/

/-- The trap of an expiry. -/
def shotTrap (c : Ctx) : Trap :=
  { cause := cSHOTCLOCK, epc := c.resumePc, eaddr := 0, einfo := 0, pois := false,
    eng := false, job := 0 }

/-- An expiry parks a running thread, its blocking tuple requests withdrawn (R103, R165). -/
def State.expire (s : State) (core k : Nat) : State :=
  let c := s.ctxAt core k
  if c.phase = .running ∧ c.heldTrap.isNone then (s.withdrawAll core k).takeTrap core k (shotTrap c) else s

/-- SHOTCLOCK: every thread of the task is parked; a thread that moves to another core is waited for, and so are the held items of an ordered
task that is irrevocable (R97); an END of the last
thread comes first (R103). -/
def execShotclock (task : Nat) (s : State) : Host.Outcome State Fault Refusal :=
  runEvent (fun s =>
    match assocGet s.tasks task with
    | none => s
    | some t =>
      match t.clockEnd with
      | none => s
      | some e =>
        if s.taskAc t < e || t.threads.any (fun q => (s.ctxAt q.1 q.2).phase == .moving || s.heldBack q.1 q.2) ||
            t.threads.all (fun q => (s.ctxAt q.1 q.2).phase == .ended) then s
        else t.threads.foldl (fun x q => x.expire q.1 q.2) (s.modTask task (fun y => { y with clockEnd := none }))) s

/-- HANDLER_SHOTCLOCK: a handler or arrival whose clock of 2^16 ac has expired is aborted (R117, R118). -/
def execHandlerShotclock (core ctx : Nat) (s : State) : Host.Outcome State Fault Refusal :=
  runEvent (fun s =>
    match (s.ctxAt core ctx).shotEnd with
    | none => s
    | some e => if s.coreAc core < e then s else (s.modCtx core ctx (fun c => { c with shotEnd := none })).expire core ctx) s

/-! ## Quiescing (R104) -/

/-- QUIESCE_REQUEST of the management core. -/
def execQuiesceRequest (part : Nat) (s : State) : Host.Outcome State Fault Refusal :=
  runEvent (fun s =>
    if (s.part.get part).state = 2 ∧ !s.quiescing.contains part then { s with quiescing := s.quiescing ++ [part] } else s) s

/-- A context holds nothing that keeps its partition from being quiet: it is idle or parked, or its thread has ended and waits
for a parked one of its gang. -/
def State.quietCtx (s : State) (core k : Nat) : Bool :=
  let c := s.ctxAt core k
  c.phase == .idle || c.phase == .parked ||
    (c.phase == .ended &&
      (match s.taskOf core k with
       | some (_, t) => t.threads.any (fun q => (s.ctxAt q.1 q.2).phase == .parked)
       | none => false))

/-- The conditions of QUIET (R104): no task that runs holds a context, no ordered task is FINISHED, no handler runs, every message
sent has been answered, and no handoff of the partition runs (R172). -/
def State.quiet (s : State) (part : Nat) : Bool :=
  ((s.clustersOf part).flatMap coresOf).all (fun c =>
      (List.range 8).all (fun k => s.quietCtx c k) && (s.coreAt c).outq.all (fun o => !o.sent) &&
        (s.coreAt c).sendaPend.isEmpty) &&
    (s.clustersOf part).all (fun cl => (s.clusterAt cl).ord.all (fun o => o.state != .finished)) &&
    s.handoffs.all (fun h => h.h.part != part || h.step == 9) && s.splits.all (fun h => h.part != part)

/-- PARTITION_QUIET: a quiescing partition becomes QUIET, and its reservation ends (R89, R104). -/
def execPartitionQuiet (part : Nat) (s : State) : Host.Outcome State Fault Refusal :=
  runEvent (fun s =>
    if s.quiescing.contains part && s.quiet part then
      { s with quiescing := s.quiescing.filter (fun p => p != part), reserved := s.reserved.filter (fun r => r.1 != part),
               part := s.part.modify part (fun e => { e with state := 3 }) }
    else s) s

/-! ## The umpire tree (R101) -/

/-- A publication: GVT is written, with the commit floor that results when no ordered task is live (R101), which is an event for every context
of the partition (R330). -/
def State.publishKey (s : State) (part : Nat) (k : Option (Nat × Nat × Nat)) : State :=
  let done := (s.clustersOf part).flatMap (fun cl => ((s.clusterAt cl).ord.filter (fun o => o.state == .finished)).map OrdTask.key)
  let s1 := ((s.clustersOf part).flatMap coresOf).foldl (fun x c => x.latchCore c 6) s
  { s1 with umpire := s1.umpire.modify part (fun u =>
      { u with published := some k, gvt := match k with
          | some key => ofN key.1
          | none => done.foldl (fun m key => ofN (max m.toNat key.1)) u.floor }) }

/-- The keys of a partition's QUEUED ordered tasks. -/
def State.queuedKeys (s : State) (part : Nat) : List (Nat × Nat × Nat) :=
  (s.clustersOf part).flatMap (fun cl => ((s.clusterAt cl).ord.filter (fun o => o.state == .queued)).map OrdTask.key)

/-- An ordered task that cannot go on before it is irrevocable: it holds a trap, or a log slot that is missing (R97, R98). -/
def State.waitsKey (s : State) (o : OrdTask) : Bool :=
  o.state == .running && (o.slot.isNone || (s.ctxAt o.core o.ctx).heldTrap.isSome)

/-- In a quiescing partition no QUEUED task starts, so that one keeps every later task from its commit. At a publication each later task that
has FINISHED is rolled back; one that runs is let run (R104), but for one that can only wait. DESIGN CHOICE, log entry 48. -/
def State.quiesceOrd (s : State) (part : Nat) : State :=
  match s.quiescing.contains part, leastKey (s.queuedKeys part) with
  | true, some key =>
    let above := (s.clustersOf part).flatMap (fun cl =>
      ((s.clusterAt cl).ord.filter (fun o => (o.state == .finished || s.waitsKey o) && !o.irrevocable && rawKeyLt key o.key)).map
        (fun o => (cl, o)))
    (above.mergeSort (fun a b => !rawKeyLt a.2.key b.2.key)).foldl (fun x p => x.rollback p.1 p.2) s
  | _, _ => s

/-- The FINISHED tasks that a publication lets commit, in key order: those below the published key, as long as no earlier task is live again
(R101, R267). -/
def State.committing (s : State) (part : Nat) : List (Nat × OrdTask) :=
  let below (o : OrdTask) : Bool :=
    match (s.umpire.get part).published with
    | some (some key) => rawKeyLt o.key key
    | some none => true
    | none => false
  let live := s.liveKeys part
  ((s.clustersOf part).flatMap (fun cl =>
    ((s.clusterAt cl).ord.filter (fun o =>
      o.state == .finished && (o.irrevocable || (below o && !live.any (fun k => rawKeyLt k o.key))))).map (fun o => (cl, o)))).mergeSort
      (fun a b => !rawKeyLt b.2.key a.2.key)

/-- The running task with the published key becomes irrevocable once every earlier one has committed (R97, R267). -/
def State.raiseLeast (s : State) (part : Nat) : State :=
  (s.clustersOf part).foldl (fun x cl =>
    if (x.clusterAt cl).ord.any (fun o => o.state == .running && !o.irrevocable && s.leastPublished part o) then
      x.modCluster cl (fun c => { c with ord := c.ord.map (fun o =>
        if o.state == .running && s.leastPublished part o then { o with irrevocable := true } else o) })
    else x) s

/-- Commits one at a time in key order: the next task becomes irrevocable, its held items are released, and it commits; after the last the
running task with the published key becomes irrevocable (R97, R101, R267). -/
def commitNext : Nat → Nat → State → State
  | 0, _, s => s
  | n + 1, part, s =>
    match s.committing part with
    | [] => s.raiseLeast part
    | (cl, o) :: _ =>
      let s1 := s.modOrd cl o.uid (fun x => { x with irrevocable := true })
      if o.held.isEmpty then
        match commitAct cl { o with irrevocable := true } s1 with
        | .ok (_, s') => commitNext n part s'
        | .error _ => s1
      else s1

/-- UMPIRE_TICK: at a multiple of 1,024 of DEV.TIME the last sample is published and a new one taken; then the tasks that may
commit do (R101). -/
def execUmpireTick (part : Nat) (s : State) : Host.Outcome State Fault Refusal :=
  runEvent (fun s =>
    let u := s.umpire.get part
    let s1 :=
      if u.tick < s.time / 1024 then
        let p := match u.sampled with
          | some k => (s.publishKey part k).quiesceOrd part
          | none => s
        { p with umpire := p.umpire.modify part (fun v =>
            { v with sampled := some (leastKey (p.liveKeys part)), tick := s.time / 1024 }) }
      else s
    commitNext 64 part s1) s

end Sys2Proof.Machine
end

