-- ==== Sys2Proof/Machine/Xbar.lean ====
section
/-! DEFINITION. Resistive crossbar arrays and bounded-error registers (R194 to R204, R246, R247, R433 to R436). -/

namespace Sys2Proof.Machine

/-! ## Arrays -/

def State.arrayAt (s : State) (cl arr : Nat) : XbarArray := (s.clusterAt cl).xbar.get arr

def State.modArray (s : State) (cl arr : Nat) (f : XbarArray → XbarArray) : State :=
  s.modCluster cl (fun c => { c with xbar := c.xbar.modify arr f })

/-- Erasing an array programs every weight to 0 and clears PROG and CALOK, and its banks (R194, R434). -/
def XbarArray.erase (a : XbarArray) : XbarArray :=
  { a with weights := Tab.const 0, prog := false, progDone := false, calok := false, bank := Tab.const 0,
           bound := Tab.const 0x7F800000#32, bankDrift := Tab.const false, leaving := false }

/-- An array whose cluster leaves its partition is erased once the commands still in its queue have ended (R194, R196). -/
def XbarArray.leave (a : XbarArray) : XbarArray := if a.queue.isEmpty then a.erase else { a with leaving := true }

/-- The arrays of a cluster are erased. -/
def State.eraseArrays (s : State) (cl : Nat) : State :=
  (List.range 8).foldl (fun (x : State) a => x.modArray cl a XbarArray.leave) s

/-- An array of the cluster is still to be erased (R194). -/
def State.erasing (s : State) (cl : Nat) : Bool := (List.range 8).any (fun a => (s.arrayAt cl a).leaving)

/-- The analogue island of a cluster's die is gated to OP 0 (R18). -/
def State.analogOff (s : State) (cl : Nat) : Bool := (s.island.get (8 * (cl / 60) + 5)).eff == 0

/-- Core `k`'s bank of an array, group `grp`: results, bound word, and whether its latest product drifted (R198). -/
def XbarArray.bankOf (x : XbarArray) (k grp : Nat) : Vec × W32 × Bool :=
  (vecOf (fun i => x.bank.get (512 * k + 16 * grp + i)), x.bound.get (32 * k + grp), x.bankDrift.get k)

/-- A result read that waits sees a product complete: after the last one that it waits for, it holds what that product left (R198). -/
def XbarRead.after (r : XbarRead) (arr id k : Nat) (x : XbarArray) : XbarRead :=
  if r.key / 32 = arr ∧ r.got.isNone ∧ r.wait.contains id then
    let w := r.wait.filter (fun j => j != id)
    { r with wait := w, got := if w.isEmpty then some (x.bankOf k (r.key % 32)) else none }
  else r

/-- The result reads of a core that wait for a product see it complete. -/
def State.noteProduct (s : State) (cl arr : Nat) (c : XbarCmd) : State :=
  let k := c.dest.core
  let x := s.arrayAt cl arr
  if c.op = 0 ∧ ((s.coreAt k).ctx.cells.any (fun p => p.2.xread.isSome)) then
    s.modCore k (fun y => { y with ctx := { y.ctx with cells := y.ctx.cells.map (fun p =>
      (p.1, { p.2 with xread := p.2.xread.map (fun r => r.after arr c.id (k % 8) x) })) } })
  else s

/-- A command ends and its destination receives its status, or a fault; the array of a cluster that has left its partition is erased after
the last one (R194). -/
def State.xbarEnd (s : State) (cl arr : Nat) (c : XbarCmd) (v : Reply) : State :=
  ((s.noteProduct cl arr c).modArray cl arr (fun a =>
    let b : XbarArray := { a with queue := a.queue.erase c, progDone := a.prog }
    if b.leaving && b.queue.isEmpty then b.erase else b)).push (.pendingValueArrive c.dest v)

/-- The fault that a drift, or a gated island, gives a destination (R196, R200, R201). -/
def driftPoison (arr : Nat) : Reply := .poison { cause := cDRIFT, addr := 0, info := ofN (arr % 8) }

/-- A command stands in the queue before another that reached the array in the same ac: one of a lower core, or of a lower context of the
same core (R196). -/
def XbarCmd.leads (c d : XbarCmd) : Bool :=
  !d.started && c.stamp == d.stamp && (decide (c.dest.core < d.dest.core) || (c.dest.core == d.dest.core && decide (c.dest.ctx < d.dest.ctx)))

/-- A command enters an array's queue: at its end, but for those that it leads (R196). -/
def enterQueue (c : XbarCmd) : List XbarCmd → List XbarCmd
  | [] => [c]
  | d :: r => if c.leads d then c :: d :: r else d :: enterQueue c r

/-- A command enters an array's queue of 4 entries (R196). -/
def xbarIssue (arr : Nat) (c : XbarCmd) : Act Unit := do
  let s ← get
  let cl := clusterOf s.curCore
  if 4 ≤ (s.arrayAt cl arr).queue.length then stall
  releaseWait 2
  takeSlot s.curCore
  modify (fun x => { (x.setPend c.dest).modArray cl arr (fun a => { a with queue := enterQueue c a.queue }) with uid := x.uid + 1 })

/-- The local count of ac of a cluster's analogue island (R8, R201). -/
def State.analogAc (s : State) (cl : Nat) : Nat := (s.island.get (8 * (cl / 60) + 5)).cycles / 4

/-- A command of the running context with nothing but its destination, its number and when it enters the queue. -/
def State.bareXbar (s : State) (op a : Nat) : XbarCmd :=
  { op := op, dest := s.dest a, ptr := 0, sreg := s.sregAt s.curCore s.curCtx, r0 := 0, count := 0, xs := [], row := 0, bad := 0,
    started := false, id := s.uid, stamp := s.analogAc (clusterOf s.curCore), start := 0, part := s.curPart }

/-! ## CMV, CPROG, CCAL, CQRY (R433, R434) -/

def cmvStartAct (a arr sa sb sc : Nat) : Act Unit := do
  prepIll 0xED [sa, sb, sc] [a] [sb, sc] (fun s => decide (512 < (s.me.g.get sb).toNat + (s.me.g.get sc).toNat))
  let p ← readG sa
  let r ← readG sb
  let n ← readG sc
  let off := bits p 17 0
  if n ≠ 0 ∧ (bits p 53 52 ≠ 3 ∨ bits p 51 48 ≠ 0 ∨ bits p 47 18 ≠ 0 ∨ 2 ^ 18 < off + n.toNat) then trapNow cXLATE p 0
  holding (.cmvStart a arr sa sb sc) [a] none (do
    let s ← get
    xbarIssue arr { s.bareXbar 0 a with ptr := p, r0 := r.toNat, count := n.toNat }
    advance)

def execCmvStart (a arr sa sb sc : Nat) (s : State) : Host.Outcome State Fault Refusal := runAct (cmvStartAct a arr sa sb sc) s

def cprogAct (a arr sa sb sc : Nat) : Act Unit := do
  prepIll 0xED [sa, sb, sc] [a] [sb, sc] (fun s =>
    s.me.g.get sc == 0 || decide (512 < (s.me.g.get sb).toNat + (s.me.g.get sc).toNat))
  let p ← readG sa
  let r ← readG sb
  let c ← readG sc
  noRegister p
  if bits p 5 0 ≠ 0 then trapNow cALIGN p 64
  holding (.cprog a arr sa sb sc) [a] none (do
    let s ← get
    xbarIssue arr { s.bareXbar 1 a with ptr := p, r0 := r.toNat, count := c.toNat }
    advance)

def execCprog (a arr sa sb sc : Nat) (s : State) : Host.Outcome State Fault Refusal := runAct (cprogAct a arr sa sb sc) s

def ccalAct (a arr : Nat) : Act Unit := do
  prep 0xED [] [a]
  holding (.ccal a arr) [a] none (do
    let s ← get
    xbarIssue arr (s.bareXbar 2 a)
    advance)

def execCcal (a arr : Nat) (s : State) : Host.Outcome State Fault Refusal := runAct (ccalAct a arr) s

/-- The word of array state, as of the last completed command, and BUSY (R203, Table 1). -/
def State.arrayWord (s : State) (cl arr : Nat) : Word :=
  let x := s.arrayAt cl arr
  ofN (min x.drifts 0xFFFF * 2 ^ 48 + min x.prods 0xFFFFFFFF * 2 ^ 16 + (s.partOfCluster cl).getD 0 % 16 * 2 ^ 12 +
    (x.queue.any (fun c => c.started)).toNat * 2 ^ 3 + x.progDone.toNat * 2 ^ 2 + x.calok.toNat)

def cqryAct (a arr sel : Nat) : Act Unit := do
  if 3 ≤ sel then ill 0
  prep 0xED [] [a]
  let s ← get
  let x := s.arrayAt (clusterOf s.curCore) arr
  writeG a (match sel with
    | 0 => s.arrayWord (clusterOf s.curCore) arr
    | 1 => ofN x.beta.toNat
    | _ => ofN x.gamma.toNat)
  advance

def execCqry (a arr sel : Nat) (s : State) : Host.Outcome State Fault Refusal := runAct (cqryAct a arr sel) s

/-- An instruction that is to start a product on an array. -/
def productOn (arr : Nat) (i : Instr) : Bool :=
  match i with
  | .cmvStart _ n _ _ _ => n == arr
  | _ => false

/-- The result read: a product on the array that its own task holds back is waited for (R97); it waits for every earlier product of the core
on the array, copies the bank as that product left it, whatever completes after, and traps DRIFT on a drifted bank (R198, R434). -/
def cmvReadAct (a arr grp : Nat) : Act Unit := do
  let _ ← window
  let s ← get
  if (s.heldOf s.curCore s.curCtx).any (fun h => productOn arr h.instr) then stall
  let x := s.arrayAt (clusterOf s.curCore) arr
  let k := s.curCore % 8
  let mine := (x.queue.filter (fun c => c.op == 0 && c.dest.core == s.curCore)).map (fun c => c.id)
  let r : XbarRead := match s.me.xread.filter (fun r => r.key == 32 * arr + grp) with
    | some r => r
    | none => { key := 32 * arr + grp, wait := mine, got := if mine.isEmpty then some (x.bankOf k grp) else none }
  match r.got with
  | none => do
    set (s.modMe (fun c => { c with xread := some r }))
    waitHere
  | some (v, w, drift) => do
    set (s.modMe (fun c => { c with xread := none }))
    if drift then trapNow cDRIFT 0 (ofN (arr % 8))
    writeB a v w
    advance

def execCmvRead (a arr grp : Nat) (s : State) : Host.Outcome State Fault Refusal := runAct (cmvReadAct a arr grp) s

/-! ## The arrays at work (R197 to R202) -/

/-- INT8 inputs as driven: -128 is driven as -127 (R198). -/
def drive (bs : List Byte) : List Int := bs.map (fun b => max (-127) (signed b.toNat 8))

/-- The command that may start: the first not started, once every earlier one has ended; a product also reaches the head at ac 512 of the
one product before it, while that one converts (R201). -/
def XbarArray.next (x : XbarArray) : Option XbarCmd :=
  match x.queue.find? (fun c => !c.started) with
  | none => none
  | some c =>
    let before := x.queue.filter (fun d => d.started)
    if before.isEmpty || (c.op == 0 && decide (before.length ≤ 1) && before.all (fun d => d.op == 0)) then some c else none

/-- A product that runs waits, before it completes at its ac 560, for the one behind it that reaches the head first: at its ac 512, one
without inputs completing at its ac 528 (R201). -/
def XbarArray.overtaken (x : XbarArray) (d : XbarCmd) : Bool :=
  match x.next with
  | some c => decide (max c.stamp (d.start + 512) + (if c.count = 0 then 16 else 0) ≤ d.start + 560)
  | none => false

/-- A core's bank receives sixteen results a group and one bound word (R198). -/
def XbarArray.setBank (x : XbarArray) (k : Nat) (f : Nat → W32) (bound : W32) : XbarArray :=
  { x with bank := (List.range 512).foldl (fun (t : Tab W32) j => t.set (512 * k + j) (f j)) x.bank,
           bound := (List.range 32).foldl (fun (t : Tab W32) g => t.set (32 * k + g) bound) x.bound,
           bankDrift := x.bankDrift.set k false }

/-- The fault of a command's source: EINFO[2:0] as the cause gives it, the array in [10:8], and [11] (R196). -/
def sourcePoison (arr : Nat) (q : Poison) : Reply := .poison { q with info := ofN (q.info.toNat % 8 + arr % 8 * 2 ^ 8 + 2 ^ 11) }

/-- A product that a gated island ends: it has drifted (R18, R200, R201), but one without inputs never drifts. -/
def State.driftEnd (s : State) (cl arr : Nat) (c : XbarCmd) : State :=
  (s.modArray cl arr (fun a =>
    if c.op = 0 ∧ c.count ≠ 0 then
      { a with calok := false, drifts := a.drifts + 1, prods := a.prods + 1, bankDrift := a.bankDrift.set (c.dest.core % 8) true }
    else a)).xbarEnd cl arr c (driftPoison arr)

/-- XBAR_COMMAND_HEAD: the command at the head starts. A product reads its inputs; one with none writes its bank at once; a
gated island ends every command with DRIFT (R198, R199, R201). An uncorrectable error in the inputs ends the product with ECC (R23). -/
def execXbarCommandHead (cluster arr : Nat) (s : State) : Host.Outcome State Fault Refusal :=
  runEvent (fun s =>
    match (s.arrayAt cluster arr).next with
    | none => s
    | some c =>
      if s.analogOff cluster then s.driftEnd cluster arr c
      else if c.op = 0 ∧ c.count = 0 then
        (s.modArray cluster arr (fun a =>
          { a.setBank (c.dest.core % 8) (fun _ => 0) 0 with prods := a.prods + 1 })).xbarEnd cluster arr c (.value (ofN stOK))
      else
        let loc := spadLoc c.dest.core (bits c.ptr 17 0)
        if c.op = 0 ∧ s.badRange loc c.count then
          s.xbarEnd cluster arr c (sourcePoison arr { cause := cECC, addr := c.ptr, info := 0 })
        else
          let (bs, s1) := if c.op = 0 ∧ s.inLog loc c.count then s.freeBytes c.count else (s.bytesAt loc c.count, s)
          let xs := if c.op = 0 then drive bs else []
          s1.modArray cluster arr (fun a =>
            { a with queue := a.queue.map (fun d => if d = c then { c with started := true, xs := xs, start := s.analogAc cluster } else d) })) s

/-- Σ xi·f(i) over the driven rows. -/
def rowSum (xs : List Int) (f : Nat → Int) : Int :=
  ((List.range xs.length).zip xs).foldl (fun t p => t + p.2 * f p.1) 0

/-- βa·S + γa, exactly (R199). -/
def XbarArray.exactBound (x : XbarArray) (xs : List Int) : Num :=
  ((f32 x.beta).mul (Num.ofInt (xs.foldl (fun t v => t + v.natAbs) 0))).add (f32 x.gamma)

/-- |c/16 - y| ≤ B for a reading c (R199). -/
def within (c y : Int) (b : Num) : Bool := (((Num.ofInt c).scale (-4)).sub (Num.ofInt y)).abs.le b

/-- A product has drifted: CALOK is 0, a reference reading deviates by more than half the bound (R200), or a reading lies
outside the bound that the device guarantees for every product that completes with OK (R199). -/
def XbarArray.drifted (x : XbarArray) (c : XbarCmd) (readings : List Int) (refA refB : Int) : Bool :=
  let b := x.exactBound c.xs
  let alt (i : Nat) : Int := if (c.r0 + i) % 2 = 0 then 7 else -7
  let cols := (List.range 512).all (fun j =>
    within (readings.getD j 0) (rowSum c.xs (fun i => x.weights.get (512 * (c.r0 + i) + j))) b)
  !x.calok || !(within refA (rowSum c.xs (fun _ => 7)) (b.scale (-1))) || !(within refB (rowSum c.xs alt) (b.scale (-1))) || !cols

/-- XBAR_PRODUCT_COMPLETE: the product that started first completes with its readings, in units of 1/16: its bank is written
with the bound and its destination receives OK, or it drifts (R198 to R201). -/
def execXbarProductComplete (cluster arr : Nat) (readings : List Int) (refA refB : Int) (s : State) :
    Host.Outcome State Fault Refusal :=
  runEvent (fun s =>
    let x := s.arrayAt cluster arr
    match x.queue.find? (fun c => c.started) with
    | none => s
    | some c =>
      if c.op ≠ 0 then s
      else
        let k := c.dest.core % 8
        if s.analogOff cluster then s.driftEnd cluster arr c
        else if x.drifted c readings refA refB then s.driftEnd cluster arr c
        else
          let bound : W32 := BitVec.ofNat 32 (Fmt.b32.round .up (x.exactBound c.xs))
          (s.modArray cluster arr (fun a =>
            { a.setBank k (fun j => toF32 ((Num.ofInt (readings.getD j 0)).scale (-4))) bound with prods := a.prods + 1 })).xbarEnd
              cluster arr c (.value (ofN stOK))) s

/-- The weight of an INT4 code: -8 is programmed as -7 (R197). -/
def weightOf (bs : List Byte) (j : Nat) : Int :=
  max (-7) (signed ((bs.getD (j / 2) 0).toNat / (if j % 2 = 0 then 1 else 16) % 16) 4)

/-- The cells of a row that could not be verified: at most `k`, and which is free (DESIGN CHOICE, log entry 1). -/
def freeCells (n k : Nat) : List Nat := (List.range k).map (fun i => Config.freeNat (n + 1 + i) % 512)

/-- A cell that could not be verified stands at its nearest achievable conductance, which is not stated: a free value (DESIGN CHOICE, log
entry 1). -/
def freeWeight (n j : Nat) : Int := (Config.freeNat n / 15 ^ j % 15 : Nat) - 7

/-- The end of a CPROG whose rows have all been programmed (R197, R269). -/
def State.cprogEnd (s : State) (cl arr : Nat) (c : XbarCmd) : State :=
  if c.bad = 0 then s.xbarEnd cl arr c (.value (ofN stOK))
  else
    (s.modArray cl arr (fun a => { a with calok := false })).xbarEnd cl arr c
      (.value (ofN (2 ^ 63 + stREFUSED * 2 ^ 32 + c.bad % 2 ^ 32)))

/-- A row's source when the cluster has left the partition whose CPROG still runs: it is read through that partition's tables (R194, R196). -/
def orphanRow (c : XbarCmd) (p : Word) : Act (Except Poison (List Byte)) := do
  let s ← get
  let bad (f : AccFault) : Except Poison (List Byte) := .error { cause := f.cause, addr := p, info := f.info }
  let take (loc : Nat) : Act (Except Poison (List Byte)) := do
    let s ← get
    if s.ownedRange loc 256 then stall
    else if s.badRange loc 256 then return bad { cause := cECC, info := 0 }
    else
      set (s.recallRange loc 256)
      return .ok ((s.recallRange loc 256).bytesAt loc 256)
  if bits p 53 52 = 0 ∨ (bits p 53 52 = 2 ∧ bits p 51 40 = s.dev) then
    let va := if bits p 53 52 = 0 then bits p 51 0 else bits p 39 0
    match s.walk devWalker c.part va with
    | (.error .busy, _) => stall
    | (.error (.fault f), _) => return bad f
    | (.ok l, s1) =>
      set s1
      if s1.allows c.part c.sreg l.entry (l.phys va) .read then take (l.phys va) else return bad { cause := cPERM, info := 0 }
  else
    match ← resolveAt c.dest.core c.part c.sreg p .read with
    | .error f => return bad f
    | .ok (.mem loc _) => take loc
    | .ok (.reg _) => return bad { cause := cALIGN, info := 0 }
    | .ok (.far d) =>
      match s.farRead s.farOwner { core := c.dest.core, ctx := 8, reg := 0 } c.part d p 256 with
      | (none, s') => do set s'; waitHere
      | (some (.error q), s') => do set s'; return .error q
      | (some (.ok bs), s') => do set s'; return .ok bs

/-- The bytes of a CPROG's next row. -/
def progRow (cluster : Nat) (c : XbarCmd) (p : Word) : Act (Except Poison (List Byte)) := do
  let s ← get
  if s.partOfCluster cluster = some c.part then catchFault (readBytes p 256) else orphanRow c p

/-- XBAR_PROGRAM_ROW: the CPROG that runs programs its next row, with `unverified` cells left unverified; a fault on the source
stops it (R197). -/
def execXbarProgramRow (cluster arr : Nat) (unverified : Nat) (s : State) : Host.Outcome State Fault Refusal :=
  runEvent (fun s =>
    match (s.arrayAt cluster arr).queue with
    | [] => s
    | c :: _ =>
      if !c.started ∨ c.op ≠ 1 then s
      else if s.analogOff cluster then s.xbarEnd cluster arr c (driftPoison arr)
      else
        let p := ptrAdd (setBits c.ptr 63 54 0) (256 * c.row : Nat)
        let job := ofN (2 ^ 47 + 8 * cluster + arr)
        match s.inEngine c.dest.core c.sreg job (progRow cluster c p) with
        | (none, x) => x
        | (some (.error q), x) =>
          (x.farClear (2 ^ 48 + job.toNat)).xbarEnd cluster arr c (sourcePoison arr q)
        | (some (.ok bs), x) =>
          let n := x.free
          let open_ := freeCells n unverified
          let w (j : Nat) : Int := if open_.contains j then freeWeight n j else weightOf bs j
          let c1 : XbarCmd := { c with row := c.row + 1, bad := c.bad + unverified }
          let y := x.farClear (2 ^ 48 + job.toNat)
          let z : State := { y with free := y.free + 1 + unverified }
          let z1 := z.modArray cluster arr (fun a =>
            { a with prog := true,
                     weights := (List.range 512).foldl (fun (t : Tab Int) j => t.set (512 * (c.r0 + c.row) + j) (w j)) a.weights,
                     queue := a.queue.map (fun d => if d = c then c1 else d) })
          if c1.row = c1.count then z1.cprogEnd cluster arr c1 else z1) s

/-- CALIBRATION_COMPLETE: a CCAL ends with the constants it measured (R202). The calibration of bring-up is part of its step 5. -/
def execCalibrationComplete (cluster arr : Nat) (beta gamma : BitVec 32) (s : State) : Host.Outcome State Fault Refusal :=
  runEvent (fun s =>
    let x := s.arrayAt cluster arr
    let good := (f32 beta).le (f32 0x3E000000#32) && (f32 gamma).le (f32 0x42800000#32)
    let set_ (y : State) : State := y.modArray cluster arr (fun a =>
      { a with beta := beta, gamma := gamma, calok := good, prods := if good then 0 else a.prods })
    match x.queue.find? (fun c => c.started) with
    | none => s
    | some c =>
      if c.op ≠ 2 then s
      else if s.analogOff cluster then s.xbarEnd cluster arr c (driftPoison arr)
      else (set_ s).xbarEnd cluster arr c (.value (ofN (if good then stOK else stREFUSED)))) s

/-! ## Bounded-error arithmetic (R246, R435) -/

/-- max over the sixteen lanes of |v|, exactly. -/
def maxAbs (v : Vec) : Num := (List.range 16).foldl (fun m k => m.maxN (f32 (lane32 v k)).abs) Num.zero

/-- Every lane is finite. -/
def allFin (v : Vec) : Bool := (List.range 16).all (fun k => (f32 (lane32 v k)).isFin)

/-- The rounding term of a result. -/
def rhoOf (v : Vec) : Num := ((maxAbs v).scale (-24)).add (Num.fin false 1 (-149))

/-- The bound word of a result: round_up of an exact expression, or +Inf where an operand, a bound or a result is not finite. -/
def newBound (ops : List (Vec × W32)) (r : Vec) (e : Num) : W32 :=
  if ops.all (fun p => allFin p.1 && (f32 p.2).isFin) && allFin r then BitVec.ofNat 32 (Fmt.b32.round .up e) else f32pinf

/-- Ma·Bb + Mb·Ba + Ba·Bb. -/
def mulBound (a b : Vec × W32) : Num :=
  (((maxAbs a.1).mul (f32 b.2)).add ((maxAbs b.1).mul (f32 a.2))).add ((f32 a.2).mul (f32 b.2))

def boundedAdd (f : W32 → W32 → W32) (a b : Vec × W32) : Vec × W32 :=
  let r := vecOf (fun k => f (lane32 a.1 k) (lane32 b.1 k))
  (r, newBound [a, b] r (((f32 a.2).add (f32 b.2)).add (rhoOf r)))

def boundedMul (a b : Vec × W32) : Vec × W32 :=
  let r := vecOf (fun k => fmul (lane32 a.1 k) (lane32 b.1 k))
  (r, newBound [a, b] r ((mulBound a b).add (rhoOf r)))

def boundedFma (a b c : Vec × W32) : Vec × W32 :=
  let r := vecOf (fun k => ffma (lane32 a.1 k) (lane32 b.1 k) (lane32 c.1 k))
  (r, newBound [a, b, c] r (((mulBound a b).add (f32 c.2)).add (rhoOf r)))

/-- A bounded instruction of two operands. -/
def bounded2 (a sa sb : Nat) (f : Vec × W32 → Vec × W32 → Vec × W32) : Act Unit := do
  let x ← readB sa
  let y ← readB sb
  let (v, w) := f x y
  writeB a v w
  advance

def execEadd (a sa sb : Nat) (s : State) : Host.Outcome State Fault Refusal := runAct (bounded2 a sa sb (boundedAdd fadd)) s
def execEsub (a sa sb : Nat) (s : State) : Host.Outcome State Fault Refusal := runAct (bounded2 a sa sb (boundedAdd fsub)) s
def execEmul (a sa sb : Nat) (s : State) : Host.Outcome State Fault Refusal := runAct (bounded2 a sa sb boundedMul) s

def efmaAct (a sa sb sc : Nat) : Act Unit := do
  let x ← readB sa
  let y ← readB sb
  let z ← readB sc
  let (v, w) := boundedFma x y z
  writeB a v w
  advance

def execEfma (a sa sb sc : Nat) (s : State) : Host.Outcome State Fault Refusal := runAct (efmaAct a sa sb sc) s

def emovAct (a sa : Nat) : Act Unit := do
  let (v, w) ← readB sa
  writeB a v w
  advance

def execEmov (a sa : Nat) (s : State) : Host.Outcome State Fault Refusal := runAct (emovAct a sa) s

/-- ADMIT's comparison: a bound of +Inf is never within a limit, and a NaN limit fails (R247, R436). -/
def boundWithin (w lim : W32) : Bool := w != f32pinf && (f32 w).le (f32 lim)

/-- ADMIT, the only path from a b register to a v register (R436). -/
def admitAct (a sa sb sc : Nat) : Act Unit := do
  prep 0xF0 [sc, vkey sb] [a]
  let (v, w) ← readB sa
  let g ← readG sc
  let s ← get
  if boundWithin w (BitVec.ofNat 32 (bits g 31 0)) then
    writeV sb v
    writeG a (ofN stOK)
  else if s.me.atrap then trapNow cBOUND 0 (ofN w.toNat)
  else writeG a (ofN stREFUSED)
  advance

def execAdmitB (a sa sb sc : Nat) (s : State) : Host.Outcome State Fault Refusal := runAct (admitAct a sa sb sc) s

def ebndAct (a sa : Nat) : Act Unit := do
  prep 0xF0 [] [a]
  let (_, w) ← readB sa
  writeG a (ofN w.toNat)
  advance

def execEbnd (a sa : Nat) (s : State) : Host.Outcome State Fault Refusal := runAct (ebndAct a sa) s

end Sys2Proof.Machine
end

