-- ==== Sys2Proof/Machine/Swap.lean ====
section
/-! DEFINITION. Saving, restoring and killing a partition (R279 to R283, R444). Where R280 names a field of the image without its
place, the place is the model's (DESIGN CHOICE, log entry 40). -/

namespace Sys2Proof.Machine

/-! ## Ranges of memory -/

def clearRange (m : List Host.Cell) (a n : Nat) : List Host.Cell := m.filter (fun c => !(decide (a ≤ c.1) && decide (c.1 < a + n)))

/-- The bytes at `src` are copied over those at `dst`. -/
def copyRange (m : List Host.Cell) (src dst n : Nat) : List Host.Cell :=
  (m.filter (fun c => decide (src ≤ c.1) && decide (c.1 < src + n))).foldl (fun x c => memWrite x (dst + (c.1 - src)) c.2)
    (clearRange m dst n)

def State.copyMem (s : State) (src dst n : Nat) : State := { s with mem := copyRange s.mem src dst n }

/-- Pads a list of bytes to `n`. -/
def padTo (n : Nat) (bs : List Byte) : List Byte := bs.take n ++ List.replicate (n - bs.length) 0

/-- The queues that a mask names, ascending. -/
def queuesOf (m : Word) : List Nat := (List.range 64).filter (fun q => bit m q)

/-! ## Parts of an image (R280) -/

/-- A task-queue entry of 32 bytes; `sreg` is SREG of its record, which the 32 bytes do not hold (R67, R92). -/
def TaskEntry.ofBytes (b : List Byte) (sreg : Nat) : TaskEntry :=
  { entry := wordAt b 0, arg := wordAt b 8, cnt := wordAt b 16, shot := fieldAt b 24 1 % 32, origq := fieldAt b 24 2 / 2 ^ 10 % 64,
    idx := fieldAt b 28 4, record := none, ident := none, sreg := sreg, spawned := true }

def ResidEntry.bytes (e : ResidEntry) : List Byte :=
  bytesOf (e.node % 2 ^ 24 + e.origq % 64 * 2 ^ 32) 8 ++ bytesOf e.resid.toNat 8 ++ bytesOf e.entry.toNat 8 ++ bytesOf e.arg.toNat 8

def ResidEntry.ofBytes (n : Nat) (b : List Byte) : ResidEntry :=
  { node := fieldAt b 0 3, resid := BitVec.ofNat 32 (fieldAt b 8 4), entry := wordAt b 16, arg := wordAt b 24, seqn := n,
    origq := fieldAt b 4 1 % 64 }

def MsgEntry.bytes (e : MsgEntry) : List Byte :=
  msgHeader e.msg ++ padTo 64 e.msg.payload ++ bytesOf (1 + e.deferred.toNat * 2 + (if e.state = 2 then 4 else 0)) 8

def ArrEntry.bytes (e : ArrEntry) : List Byte :=
  bytesOf e.arr.addr.toNat 8 ++ bytesOf (e.arr.len.toNat % 2 ^ 62 + e.ready.toNat * 2 ^ 62 + 2 ^ 63) 8 ++ bytesOf e.arr.tag.toNat 8 ++
    bytesOf e.arr.hpc.toNat 8

def OutMsg.bytes (o : OutMsg) : List Byte := msgHeader o.msg ++ padTo 64 o.msg.payload ++ bytesOf o.dest.toNat 8

def OrdTask.bytes (o : OrdTask) : List Byte :=
  padTo 64 (bytesOf o.ts.toNat 8 ++ bytesOf (o.spCore + o.spCount * 2 ^ 32) 8 ++ o.entry.bytes ++ bytesOf 1 8)

/-- Entries of `w` bytes each at a location. -/
def State.entriesAt (s : State) (loc w n : Nat) : List (List Byte) := (List.range n).map (fun j => s.bytesAt (loc + w * j) w)

/-- SREG of every queued task, four bits each (R67). Its place in the core block is the model's (DESIGN CHOICE, log entry 40). -/
def sregNibbles (es : List TaskEntry) : Nat := (es.foldr (fun e n => n * 16 + e.sreg % 16) 0)

/-- What a core block holds after the scratchpad: offsets and bytes. -/
def Core.blockParts (c : Core) (weight : Nat) : List (Nat × List Byte) :=
  let flat (es : List (List Byte)) : List Byte := es.flatten
  [(0x40000, (List.range 1024).flatMap (fun k => bytesOf (c.entry (k / 256) (k % 256)).toNat 4)),
   (0x41000, padTo 0x1000 (flat (c.taskq.map TaskEntry.bytes))),
   (0x42000, padTo 0x800 (flat (c.residq.map ResidEntry.bytes))),
   (0x42800, padTo 0x800 ((List.range 48).flatMap (fun k => bytesOf ((assocGet c.fdt (16 + k)).getD 0) 8) ++
     bytesOfWords [c.gcfg, c.svec, ofN weight, ofN c.spawnCount, ofN c.taskq.length, ofN c.residq.length] ++
     bytesOf (sregNibbles c.taskq) 64)),
   (0x43000, padTo 0x600 (flat (c.lowq.map MsgEntry.bytes))),
   (0x43600, padTo 0x300 (flat (c.highq.map MsgEntry.bytes))),
   (0x43900, padTo 0x100 (flat (c.arrq.map ArrEntry.bytes))),
   (0x43A00, padTo 0xC00 (flat (c.outq.map OutMsg.bytes))),
   (0x44600, padTo 0xA00 [])]

/-- Writes a core block. -/
def State.saveCore (s : State) (base core : Nat) : State :=
  let c := s.coreAt core
  let w := (s.clusterAt (clusterOf core)).mx.weight.get (core % 8)
  (c.blockParts w).foldl (fun x p => x.putBytes (base + p.1) p.2) (s.copyMem (spadLoc core 0) base (2 ^ 18))

/-- Writes a cluster's block. The table of ordered tasks holds the QUEUED ones: a parked ordered thread stands in the image as a thread
(R104, R280). -/
def State.saveCluster (s : State) (base cl : Nat) : State :=
  let s1 := (List.range 8).foldl (fun (x : State) k => x.saveCore (base + 0x45000 * k) (8 * cl + k)) s
  s1.putBytes (base + 0x228000) (padTo 0x1000 ((((s.clusterAt cl).ord.filter (fun o => o.state == .queued)).map OrdTask.bytes).flatten))

/-- The state of a queue, and its records. -/
def State.saveQueue (s : State) (q : Nat) : List Byte :=
  let l := s.launch.get q
  bytesOfWords [ofN (l.en.toNat * 2 ^ 63 + l.budget * 2 ^ 28 + l.period), ofZ l.left,
    (if l.dl = BitVec.allOnes 64 then l.dl else l.dl - ofN s.time), ofN l.recs.length] ++ l.recs.flatMap (fun r => padTo 64 r.bytes)

/-- The parked contexts of a partition's cores. -/
def State.parkedOf (s : State) (part : Nat) : List (Nat × Nat) :=
  ((s.clustersOf part).flatMap coresOf).flatMap (fun c =>
    ((List.range 8).filter (fun k => (s.ctxAt c k).phase == .parked)).map (fun k => (c, k)))

/-- Bytes 0 to 3,167 of a parked thread's image. -/
def State.threadBytes (s : State) (core k : Nat) : List Byte :=
  let c := s.ctxAt core k
  let t := c.trap
  let img := s.migImage core k true
  let csw := setBits (wordAt img 136) 18 16 c.vwin
  let w : Window := if c.vwin = 0 then Window.clear else (s.coreAt core).win.get (c.vwin - 1)
  padTo 512 (img.take 136 ++ bytesOf csw.toNat 8 ++ img.drop 144 ++
    bytesOfWords [t.epc, t.ecause, t.eaddr, t.einfo, t.ejob, t.tvec, ofN (core + k * 2 ^ 11)]) ++
    (List.range 32).flatMap (fun r => bytesOf (w.v.get r).toNat 64) ++ (List.range 8).flatMap (fun r => bytesOf (w.m.get r).toNat 8) ++
    (List.range 8).flatMap (fun r => bytesOf (w.b.get r).toNat 64 ++ bytesOf (w.bound.get r).toNat 4)

/-- "MRXB", the customisation string (R280). -/
def mrxb : List Byte := [0x4D, 0x52, 0x58, 0x42].map (BitVec.ofNat 8)

/-- The window tag of R280. -/
def State.windowTag (s : State) (part : Nat) (bs : List Byte) : List Byte :=
  padTo 32 ((Config.kmac (s.linkKey part) mrxb (bs.take 3168)).take 32)

def State.saveThread (s : State) (part core k : Nat) : List Byte :=
  let bs := s.threadBytes core k
  padTo 4096 (bs ++ s.windowTag part bs)

/-- Tasks bound to sealed region `r + 1` among an image's (R280). -/
def State.imageBound (s : State) (part r : Nat) : Nat :=
  ((s.tasks.filter (fun t => t.2.part == part && t.2.sreg == r + 1)).length) +
    ((s.clustersOf part).flatMap coresOf).foldl (fun n c => n + ((s.coreAt c).taskq.filter (fun e => e.sreg == r + 1)).length) 0

/-- The header of an image of `size` bytes. -/
def State.imageHeader (s : State) (part size : Nat) : List Byte :=
  let e := s.part.get part
  let qs := queuesOf e.qmask
  let cls := s.clustersOf part
  let counts : List Nat :=
    [cls.length, qs.length, (qs.map (fun q => (s.launch.get q).recs.length)).sum, (cls.map (fun c => ((s.clusterAt c).ord.filter (fun o => o.state == .queued)).length)).sum,
     (s.pins.filter (fun p => p.part == part)).length, (s.parkedOf part).length, 0]
  bytesOf 1 4 ++ bytesOf ((size + 4095) / 4096) 4 ++ bytesOfWords (partWords e) ++ bytesOfWords [e.sbbase, e.sblim, e.sbbase, ofN s.time] ++
    counts.flatMap (fun n => bytesOf n 8) ++ bytesOf (s.umpire.get part).floor.toNat 8 ++
    (List.range 8).flatMap (fun r => bytesOf (s.imageBound part r) 2) ++ bytesOf 0 8

/-- Writes an image: header, queues, clusters, pins, parked threads; and where its clusters begin. -/
def State.writeImage (s : State) (part img : Nat) : Nat × State :=
  let cls := s.clustersOf part
  let qbytes := (queuesOf (s.part.get part).qmask).flatMap s.saveQueue
  let blocks := img + 256 + qbytes.length
  let pinsAt := blocks + 0x229000 * cls.length
  let pins := s.pins.filter (fun p => p.part == part)
  let parked := s.parkedOf part
  let threadsAt := pinsAt + 16 * pins.length
  let size := threadsAt + 4096 * parked.length - img
  let s1 := (s.putBytes img (s.imageHeader part size)).putBytes (img + 256) qbytes
  let s2 := ((List.range cls.length).zip cls).foldl (fun (x : State) p => x.saveCluster (blocks + 0x229000 * p.1) p.2) s1
  let s3 := s2.putBytes pinsAt (pins.flatMap (fun p => bytesOf (p.vline * 64) 8 ++ bytesOf p.core 8))
  (blocks, ((List.range parked.length).zip parked).foldl (fun (x : State) p =>
    x.putBytes (threadsAt + 4096 * p.1) (s.saveThread part p.2.1 p.2.2)) s3)

/-- Bytes that no image may overwrite: those of a sealed region, which only PF WRITE changes (R66), of the hidden region (R42), and beyond the
device's memory. -/
def State.keptFrom (s : State) (a n : Nat) : Bool :=
  decide (2 ^ 39 - 2 ^ 26 < a + n) ||
    (List.range 8).any (fun r =>
      let x := s.sealed_.get r
      x.size != 0 && decide (a < x.base + x.size) && decide (x.base < a + n))

/-- The bytes of a partition's image. -/
def State.imageSize (s : State) (part : Nat) : Nat :=
  256 + ((queuesOf (s.part.get part).qmask).flatMap s.saveQueue).length + 0x229000 * (s.clustersOf part).length +
    16 * (s.pins.filter (fun p => p.part == part)).length + 4096 * (s.parkedOf part).length

/-! ## Saving (R279) -/

/-- Stopped engine jobs of a core are cancelled with REFUSED. -/
def State.cancelStopped (s : State) (core : Nat) : State :=
  ((s.coreAt core).jobs.filter (fun j => j.state == 3)).foldl (fun (x : State) j => (x.cancelJob j).getD x) s

/-- The near-bank units that a partition owns are forced to NORMAL (R220). -/
def State.forceUnits (s : State) (part : Nat) : State :=
  (s.unit.cells.filter (fun u => u.2.state != 0 && u.2.owner == part)).foldl (fun (x : State) u => x.nbForce u.1) s

/-- A core's contexts are freed and its queues emptied: they stand in the image. -/
def State.leaveCore (s : State) (core : Nat) : State :=
  let s1 := (List.range 8).foldl (fun (x : State) k =>
    if (x.ctxAt core k).phase = .idle then x
    else ((x.freeHolds core k).freeBufs (clusterOf core) (x.ctxAt core k).workId).freeCtx core k) s
  s1.modCore core (fun c => { c with taskq := [], residq := [], lowq := [], highq := [], arrq := [], outq := [] })

/-- CTXSV of a QUIET partition: the image is written and STATE is SWAPPED. -/
def State.savePart (s : State) (part img : Nat) : State :=
  let cls := s.clustersOf part
  let cores := cls.flatMap coresOf
  let qs := queuesOf (s.part.get part).qmask
  let a := (cores.foldl State.cancelStopped s.charge).forceUnits part
  let (blocks, b) := a.writeImage part img
  let w : Swap :=
    { image := img, blocks := blocks, sbptr := (s.part.get part).sbbase.toNat, clusters := cls,
      cores := cores.map (fun c => (c, a.coreAt c)), recs := qs.map (fun q => (q, (a.launch.get q).recs)),
      tasks := a.tasks.filter (fun t => t.2.part == part), loaded := false, rdptr := 0, mapEnd := 0, dest := none }
  let c := cores.foldl State.leaveCore b
  let d := cls.foldl (fun (x : State) cl => x.modCluster cl (fun k => { k with ord := [], gang := none })) c
  { d with tasks := d.tasks.filter (fun t => t.2.part != part), swaps := assocSet d.swaps part w,
           launch := qs.foldl (fun l q => l.modify q (fun x => { x with recs := [] })) d.launch,
           pins := d.pins.filter (fun p => p.part != part),
           part := d.part.modify part (fun e => { e with state := 4 }) }

/-! ## Restoring (R282) -/

/-- A parsed entry, or the saved one whose bytes it has. -/
def keepSaved {α : Type} (enc : α → List Byte) (saved : List α) (i : Nat) (b : List Byte) (parsed : α) : α :=
  match saved[i]? with
  | some e => if enc e = b then e else parsed
  | none => parsed

/-- Positions of a list with its elements. -/
def indexed {α : Type} (xs : List α) : List (Nat × α) := (List.range xs.length).zip xs

def validMsg (b : List Byte) : Bool := fieldAt b 88 1 % 2 == 1

/-- Message entries of a block; entry `i` of a new kind is numbered `u + i`. -/
def msgEntries (saved : List MsgEntry) (u : Nat) (bs : List (List Byte)) : List MsgEntry :=
  (indexed (bs.filter validMsg)).map (fun p =>
    keepSaved MsgEntry.bytes saved p.1 p.2
      { uid := u + p.1, msg := msgOfBytes p.2, state := if fieldAt p.2 88 1 / 4 % 2 = 1 then 2 else 0,
        deferred := fieldAt p.2 88 1 / 2 % 2 == 1 })

def arrEntries (saved : List ArrEntry) (core u : Nat) (bs : List (List Byte)) : List ArrEntry :=
  (indexed (bs.filter (fun b => bit (wordAt b 8) 63))).map (fun p =>
    let e := keepSaved ArrEntry.bytes saved p.1 p.2
      { uid := u + p.1, ready := bit (wordAt p.2 8) 62, state := 0,
        arr := { core := core, addr := wordAt p.2 0, len := ofN (bits (wordAt p.2 8) 61 0), tag := wordAt p.2 16, extra := 0,
                 src := 0, hpc := wordAt p.2 24, bytes := [] } }
    { e with arr := { e.arr with core := core } })

def outEntries (saved : List OutMsg) (n : Nat) (bs : List (List Byte)) : List OutMsg :=
  (indexed (bs.take n)).map (fun p =>
    let o : OutMsg := keepSaved OutMsg.bytes saved p.1 p.2
      { dest := wordAt p.2 88, ch := 0, msg := msgOfBytes p.2, sent := false, backoff := 64, notBefore := 0 }
    { o with sent := false, backoff := 64, notBefore := 0 })

/-- A core block is written back onto a core (R280, R282). `old` is the core as it was saved, where this device knows it. -/
def State.loadCore (s : State) (base core : Nat) (old : Option Core) : State :=
  let o := old.getD Core.reset
  let tbl := s.bytesAt (base + 0x40000) 4096
  let misc := s.bytesAt (base + 0x42800) 0x1F0
  let tasks := s.entriesAt (base + 0x41000) 32 (fieldAt misc 0x1A0 8)
  let resid := s.entriesAt (base + 0x42000) 32 (fieldAt misc 0x1A8 8)
  let u := s.uid
  let outs := s.entriesAt (base + 0x43A00) 96 32
  let live := outs.filter (fun b => !b.all (fun x => x == 0))
  let s1 := (s.copyMem base (spadLoc core 0) (2 ^ 18)).modCore core (fun c =>
    { c with
      tables := (List.range 1024).filterMap (fun k =>
        let w := BitVec.ofNat 32 (fieldAt tbl (4 * k) 4 / 2 ^ 13 * 2 ^ 13)
        if w = resetEntry (k / 256) (k % 256) then none else some (k, w)),
      building := [], fdt := (List.range 48).filterMap (fun k =>
        if fieldAt misc (8 * k) 8 = 0 then none else some (16 + k, fieldAt misc (8 * k) 8)),
      gcfg := wordAt misc 0x180, svec := wordAt misc 0x188, spawnCount := fieldAt misc 0x198 4,
      taskq := (indexed tasks).map (fun p => keepSaved TaskEntry.bytes o.taskq p.1 p.2
        (TaskEntry.ofBytes p.2 (fieldAt misc 0x1B0 64 / 16 ^ p.1 % 16))),
      residq := (indexed resid).map (fun p => ResidEntry.ofBytes p.1 p.2), residSeq := resid.length,
      lowq := msgEntries o.lowq u (s.entriesAt (base + 0x43000) 96 16),
      highq := msgEntries o.highq (u + 16) (s.entriesAt (base + 0x43600) 96 8),
      arrq := arrEntries o.arrq core (u + 24) (s.entriesAt (base + 0x43900) 32 8),
      outq := outEntries o.outq live.length live })
  ({ s1 with uid := u + 32 } : State).modCluster (clusterOf core) (fun k =>
    { k with mx := { k.mx with weight := k.mx.weight.set (core % 8) (fieldAt misc 0x190 8 % 16) } })

/-- An ordered-task table, every entry QUEUED. -/
def State.loadOrd (s : State) (base cl : Nat) (map : Nat → Nat) : State :=
  let bs := (s.entriesAt (base + 0x228000) 64 64).filter (fun b => fieldAt b 48 1 == 1)
  let os := (indexed bs).map (fun (p : Nat × List Byte) =>
    ({ uid := s.uid + p.1, ts := wordAt p.2 0, spCore := map (fieldAt p.2 8 2 % 2 ^ 11), spCount := fieldAt p.2 12 4,
       entry := TaskEntry.ofBytes ((p.2.drop 16).take 32) 0, state := .queued, irrevocable := false, aborted := false, core := 8 * cl,
       ctx := 8, serial := 0, slot := none, log := [], reads := [], writes := [], held := [], sends := [] } : OrdTask))
  ({ s with uid := s.uid + 64 } : State).modCluster cl (fun k => { k with ord := os })

/-- A queue's state and records; its period restarts with DL at the remaining ac. -/
def State.loadQueue (s : State) (loc q : Nat) (old : Option (List LaunchRec)) : State :=
  let h := s.bytesAt loc 32
  let n := fieldAt h 24 8
  let cfg := wordAt h 0
  let mk (p : Nat × List Byte) : LaunchRec :=
    keepSaved LaunchRec.bytes (old.getD []) p.1 p.2
      { uid := s.uid + p.1, bytes := p.2, placed := 0, dep0 := wordAt p.2 48 == 0, dep1 := wordAt p.2 56 == 0 }
  let l : LaunchQ :=
    { en := bit cfg 63, budget := bits cfg 48 28, period := bits cfg 19 0, ovr := (s.launch.get q).ovr, raised := false,
      left := signed (fieldAt h 8 8) 64,
      dl := if wordAt h 16 = BitVec.allOnes 64 then wordAt h 16 else wordAt h 16 + ofN s.time,
      recs := (indexed (s.entriesAt (loc + 32) 64 n)).map mk }
  { s with uid := s.uid + n, launch := s.launch.set q l,
           records := l.recs.foldl (fun m r => if (assocGet m r.uid).isSome then m else assocSet m r.uid r.tasks) s.records }

/-- A pin is made again where it can be; otherwise it is dropped and PLOST is set for its core. A line that has migrated returns to its
home slice (R138, R282). -/
def State.loadPin (s : State) (part vline core : Nat) : State :=
  let lost (x : State) : State := x.modCore core (fun c => { c with plost := true })
  match s.walk devWalker part (vline * 64) with
  | (.error _, x) => lost x
  | (.ok l, x) =>
    let line := l.phys (vline * 64) / 64
    let mine := x.pins.filter (fun p => p.part == part)
    if !x.allows part 0 l.entry (l.phys (vline * 64)) .read || x.unitHolds (line * 64) ||
        decide ((x.part.get part).pinq ≤ mine.length) || decide (14 ≤ x.pinsInSet line) || (x.holdOn part (vline * 64)).isSome then lost x
    else { x.returnHome line with pins := x.pins ++ [{ line := line, part := part, core := core, vline := vline }] }

/-- The bound word of a restored b register: +Inf when the tag fails, or when the saved bound is negative or a NaN. -/
def restoredBound (tagOk : Bool) (x : W32) : W32 :=
  if !tagOk || (f32 x).isNan || (f32 x).lt Num.zero then f32pinf else x

/-- The task of a parked thread that another device saved. The threads of one gang, which carry one TASK.ID and one first core and stand
on different cores, are one task again; each takes its rank from its order in the image (DESIGN CHOICE, log entry 40). -/
def State.foreignThread (s : State) (m : Migration) : Nat × Nat × State :=
  let t : Task := { s.foreignTask m with clockEnd := none }
  let id := wordAt m.image 144
  match s.tasks.find? (fun p => p.2.part == m.part && p.2.homeDev == t.homeDev && p.2.homeCore == t.homeCore &&
      p.2.threads.any (fun q => (s.ctxAt q.1 q.2).ident.taskId == id) && p.2.threads.all (fun q => q.1 != m.dstCore)) with
  | some (u, g) =>
    let cls := (g.threads.map (fun q => clusterOf q.1) ++ [clusterOf m.dstCore]).eraseDups
    let s1 := cls.foldl (fun (x : State) cl => x.modCluster cl (fun k => { k with gang := some u })) s
    (u, g.threads.length % 8, s1.modTask u (fun x =>
      { x with width := x.threads.length + 1, threads := x.threads ++ [(m.dstCore, m.dstCtx)], clusters := cls, gang := true,
               crew := decide (1 < cls.length) }))
  | none =>
    let (u, x) := s.fresh
    (u, 0, { x with tasks := assocSet x.tasks u t })

/-- A parked thread is restored on its mapped core and context, and its trap record is sent again (R282). A parked handler or arrival of
another device's image holds the aborted entry of its queue, or the first ready arrival, which R279 leaves at the head. -/
def State.loadThread (s : State) (part : Nat) (w : Option Swap) (map : Nat → Nat) (bs : List Byte) : State :=
  let place := fieldAt bs 304 8
  let core0 := place % 2 ^ 11
  let k := place / 2 ^ 11 % 8
  let core := map core0
  let old := (w.bind (fun x => assocGet x.cores core0)).map (fun c => c.ctx.get k)
  let vwin := bits (wordAt bs 136) 18 16
  let tagOk := s.windowTag part bs == (bs.drop 3168).take 32
  let count := ((s.ctxAt core k).parkCount + 1) % 2 ^ 32
  let (u, s1) := s.fresh
  let (id, rank, s2) : Work × Nat × State :=
    match old with
    | some o => (o.work, o.ident.squadRank, s1)
    | none =>
      if k < 4 then
        let m : Migration :=
          { srcDev := 0, srcCore := 0, srcCtx := 0, dstDev := s.dev, dstCore := core, dstCtx := k, part := part, access := true,
            statusReg := 0, image := bs }
        let (t, r, x) := s1.foreignThread m
        (.task t, r, x)
      else if k < 6 then
        match (s.coreAt core).arrq.find? (fun e => e.ready && e.state == 0) with
        | some e => (.arrival e.uid, 0, s1.modCore core (fun c =>
            { c with arrq := c.arrq.map (fun x => if x.uid = e.uid then { x with state := 2 } else x) }))
        | none => (.none, 0, s1)
      else
        let q := if k = 7 then (s.coreAt core).highq else (s.coreAt core).lowq
        ((q.find? (fun e => e.state == 2)).elim .none (fun e => .message e.uid), 0, s1)
  let held : Option MsgEntry := match id with
    | .message n => s2.msgEntry core n
    | _ => none
  let plain : Ctx := match held with
    | some e => { Ctx.idle with msgr := { Ctx.idle.msgr with id := msgId e.msg, src := ofN (e.msg.sdev * 2 ^ 11 + e.msg.score), len := ofN e.msg.len } }
    | none => Ctx.idle
  let base := (old.getD plain).ofImage bs
  let c : Ctx :=
    { base with phase := .parked, work := id, ident := { base.ident with squadRank := rank }, serial := u, parkCount := count, vwin := vwin % 5, q := [], streams := [], pend := 0,
                trap := { epc := wordAt bs 256, ecause := wordAt bs 264, eaddr := wordAt bs 272, einfo := wordAt bs 280,
                          ejob := wordAt bs 288, tvec := wordAt bs 296 } }
  let win : Window :=
    { used := true, v := (List.range 32).foldl (fun t r => t.set r (BitVec.ofNat 512 (fieldAt bs (512 + 64 * r) 64))) (Tab.const 0),
      m := (List.range 8).foldl (fun t r => t.set r (wordAt bs (2560 + 8 * r))) (Tab.const 0),
      b := (List.range 8).foldl (fun t r => t.set r (BitVec.ofNat 512 (fieldAt bs (2624 + 68 * r) 64))) (Tab.const 0),
      bound := (List.range 8).foldl (fun t r =>
        t.set r (restoredBound tagOk (BitVec.ofNat 32 (fieldAt bs (2688 + 68 * r) 4)))) (Tab.const 0) }
  let s3 := s2.modCtx core k (fun _ => c)
  let s4 := if vwin % 5 = 0 then s3 else s3.modCore core (fun x => { x with win := x.win.set (vwin % 5 - 1) win })
  s4.sendRecord part core
    [c.trap.ecause, c.trap.epc, c.trap.eaddr, c.trap.einfo, c.trap.ejob, parkHandle core k count, c.ident.taskId,
     if k < 4 then 0 else c.msgr.id]

/-- Threads of a gang that had ended and waited for a parked one return to their mapped contexts. -/
def State.loadEnded (s : State) (w : Swap) (map : Nat → Nat) : State :=
  w.cores.foldl (fun (x : State) p =>
    (List.range 4).foldl (fun (y : State) k =>
      let c := p.2.ctx.get k
      if c.phase = .ended then y.modCtx (map p.1) k (fun _ => { c with q := [], streams := [] }) else y) x) s

/-- Tasks that this device saved, on their mapped cores. -/
def State.loadTasks (s : State) (w : Swap) (map : Nat → Nat) : State :=
  let t' (t : Task) : Task :=
    { t with clusters := t.clusters.map (fun c => map (8 * c) / 8), threads := t.threads.map (fun q => (map q.1, q.2)),
             ended := t.ended.map (fun q => (map q.1, q.2)), start := s.time, clockEnd := none, homeCore := map t.homeCore }
  let s1 := w.tasks.foldl (fun (x : State) p =>
    (t' p.2).clusters.foldl (fun (y : State) cl => if p.2.gang then y.modCluster cl (fun k => { k with gang := some p.1 }) else y) x) s
  { s1 with tasks := w.tasks.foldl (fun m p => assocSet m p.1 (t' p.2)) s1.tasks }

/-- CTXLD: none where it is refused (R282). The accumulators of every cluster of the partition are +0 with shape 0×0 (R393, R395). -/
def State.loadPart (s : State) (part img : Nat) (dest : RegDest) : Option State :=
  let e := s.part.get part
  let h := s.bytesAt img 256
  let ncl := fieldAt h 168 8
  let cls := s.clustersOf part
  let saved := wordAt h 48
  let w := s.swapOf part
  if fieldAt h 0 4 ≠ 1 ∨ !(e.state == 4 || (e.state == 1 && cls.length == ncl)) ∨ cls.length < ncl ∨ saved &&& ~~~e.qmask ≠ 0 then none
  else
    let old := (List.range 240).filter (fun c => decide (fieldAt h (16 + c / 8) 1 / 2 ^ (c % 8) % 2 = 1))
    let map (core : Nat) : Nat := ((cls[old.findIdx (fun c => c == clusterOf core)]?)).elim core (fun c => 8 * c + core % 8)
    let qs := queuesOf saved
    let (qend, s1) := qs.foldl (fun (a : Nat × State) q =>
      let n := fieldAt (a.2.bytesAt (a.1 + 24) 8) 0 8
      (a.1 + 32 + 64 * n, a.2.loadQueue a.1 q (w.bind (fun x => assocGet x.recs q)))) (img + 256, s)
    let s2 := (indexed (cls.take ncl)).foldl (fun (x : State) p =>
      let base := qend + 0x229000 * p.1
      let y := (List.range 8).foldl (fun (z : State) k =>
        z.loadCore (base + 0x45000 * k) (8 * p.2 + k)
          (w.bind (fun v => ((old[p.1]?).bind (fun o => assocGet v.cores (8 * o + k)))))) x
      y.loadOrd base p.2 map) s1
    let pinsAt := qend + 0x229000 * ncl
    let npins := fieldAt h 200 8
    let s3 := (s2.entriesAt pinsAt 16 npins).foldl (fun (x : State) b =>
      x.loadPin part (fieldAt b 0 8 / 64) (map (fieldAt b 8 2 % 2 ^ 11))) s2
    let s4 := cls.foldl (fun (x : State) cl => x.modCluster cl (fun k =>
        { k with tlb2 := [], walkq := [], mx := { k.mx with acc := MatrixUnit.reset.acc, shape := MatrixUnit.reset.shape,
                                                            issued := MatrixUnit.reset.issued } }))
      ((cls.flatMap coresOf).foldl (fun (x : State) c => x.modCore c (fun k => { k with tlb := [] })) s3)
    let s5 := match w with
      | some v => (s4.loadTasks v map).loadEnded v map
      | none =>
        (List.range 8).foldl (fun (x : State) r =>
          { x with sealed_ := x.sealed_.modify r (fun g => { g with count := g.count + fieldAt h (232 + 2 * r) 2 }) }) s4
    let s6 := (s5.entriesAt (pinsAt + 16 * npins) 4096 (fieldAt h 208 8)).foldl (fun (x : State) b => x.loadThread part w map b) s5
    let ptr := fieldAt h 152 8
    let sw : Swap :=
      { image := img, blocks := qend, sbptr := ptr, clusters := old, cores := [], recs := [], tasks := [], loaded := true,
        rdptr := fieldAt h 136 8, mapEnd := ptr, dest := some dest }
    let s7 : State :=
      { s6 with swaps := assocSet s6.swaps part sw, part := s6.part.modify part (fun x => { x with state := 4 }),
                umpire := s6.umpire.modify part (fun u => { u with floor := wordAt h 224, gvt := wordAt h 224 }) }
    some (s7.endReplay part)

/-! ## PKILL (R283) -/

/-- A killed core: queues, trap registers, SVEC, tables and contexts, and GCFG at its reset value (R213, R214); counters that name jobs and
messages go on. DEDUCED, log entry 35. -/
def Core.killed (c : Core) : Core :=
  { Core.reset with jobSeq := c.jobSeq, seqn := c.seqn, spawnCount := c.spawnCount, merr := c.merr, mqcap := c.mqcap,
                    pickAc := c.pickAc, residSeq := c.residSeq,
                    ctx := { dflt := Ctx.idle, cells := c.ctx.cells.map (fun p =>
                      (p.1, { Ctx.idle with parkCount := p.2.parkCount, lastIssue := p.2.lastIssue })) } }

/-- A killed cluster: engine commands, buffers, barriers, ordered tasks; the arrays are erased, after a running array command has
ended (R194, R196). -/
def Cluster.killed (c : Cluster) : Cluster :=
  { Cluster.reset with throttle := c.throttle,
                       xbar := { dflt := c.xbar.dflt, cells := c.xbar.cells.map (fun p =>
                         (p.1, ({ p.2 with queue := p.2.queue.filter (fun q => q.started) } : XbarArray).leave)) } }

/-- Events in flight to the contexts of killed cores are dropped, and so are its trap records (R278) and its records on their way to a queue
(R283). -/
def forKilled (part : Nat) (mine : Nat → Bool) (e : Event) : Bool :=
  match e with
  | .trapDeliverSupervisor r => r.part == part
  | .trapRecordResend r => r.part == part
  | .launchSubmit r => r.part == part && r.host.isNone
  | .storeAcknowledge c _ => mine c
  | .remoteFaultDeliver c _ _ => mine c
  | .trapDeliverTvec c _ _ => mine c
  | _ => false

/-- The blocked tuple requests of a killed context are withdrawn at their homes on other devices (R165). -/
def State.killBlocked (s : State) (core k : Nat) : State :=
  (s.ctxAt core k).blocked.foldl (fun (x : State) r =>
    match s.rangeOf r.part (f0Of r.key) with
    | some e => if e.dev = s.dev then x else x.tupleTo e.dev { r with kind := .withdraw }
    | none => x) s

/-- The partition is ended (R283): every task of it ends, so that a queue in deficit is found in OVERRUN (R84). Device memory stands; its
scratchpads read zero. -/
def State.killPart (s : State) (part : Nat) : State :=
  let e := s.part.get part
  let cls := s.clustersOf part
  let cores := cls.flatMap coresOf
  let mine (c : Nat) : Bool := cls.contains (clusterOf c)
  let qs := queuesOf e.qmask
  let s := cores.foldl (fun (x : State) c => (List.range 8).foldl (fun y k => y.killBlocked c k) x) (s.handoffsKill part)
  let a := (s.charge.forceUnits part)
  let b := (a.uline.filter (fun u => mine u.core)).foldl (fun (x : State) u => x.recall u.line) a
  -- sealed regions: tasks, queued entries, and the tasks of a save image
  let gone := b.tasks.filter (fun t => t.2.part == part)
  let swapped := (b.swapOf part).elim [] (fun w => if w.loaded then [] else w.tasks.map (fun t => t.2.sreg) ++
    w.cores.flatMap (fun c => c.2.taskq.map (fun x => x.sreg)))
  let bound := gone.map (fun t => t.2.sreg) ++ cores.flatMap (fun c => (b.coreAt c).taskq.map (fun x => x.sreg)) ++ swapped
  let c := bound.foldl (fun (x : State) r => x.unbind r 1) (gone.foldl (fun (x : State) t => x.overrunCheck t.2.origq) b)
  let d := match (c.swapOf part).bind (fun w => w.dest) with
    | some r => c.push (.pendingValueArrive r (.value (ofN stREFUSED)))
    | none => c
  let keep (t : Tuple) : Bool := t.part != part
  let keepW (w : Waiter) : Bool := w.req.part != part
  let clean (k : Slice) : Slice :=
    { k with tuples := k.tuples.filter keep, shadow := k.shadow.filter keep, waiters := k.waiters.filter keepW,
             conts := k.conts.filter keepW }
  let jobs := cores.flatMap (fun k => ((d.coreAt k).jobs.map (fun j => j.id)))
  { d with
    part := d.part.modify part (fun x => { x with state := 0 }),
    tasks := d.tasks.filter (fun t => t.2.part != part),
    launch := qs.foldl (fun l q => l.modify q (fun x => { x with recs := [] })) d.launch,
    records := (qs.flatMap (fun q => (d.launch.get q).recs.map (fun r => r.uid))).foldl assocErase d.records,
    reserved := d.reserved.filter (fun r => r.1 != part),
    quiescing := d.quiescing.filter (fun p => p != part),
    swaps := assocErase d.swaps part,
    core := cores.foldl (fun t k => t.modify k Core.killed) d.core,
    cluster := cls.foldl (fun t k => t.modify k Cluster.killed) d.cluster,
    crew := (List.range 64).foldl (fun t n => t.set (crewKey (n / 16) part (n % 16)) Barrier.reset) d.crew,
    umpire := d.umpire.modify part (fun u => { u with sampled := none, published := none, gvt := 0, floor := 0 }),
    slice := { dflt := clean d.slice.dflt, cells := d.slice.cells.map (fun p => (p.1, clean p.2)) },
    sentTuples := d.sentTuples.filter (fun t => !mine t.1.core),
    splits := d.splits.filter (fun h => !mine h.src.core),
    pins := d.pins.filter (fun p => p.part != part),
    holds := d.holds.filter (fun h => h.part != part),
    tlbis := d.tlbis.filter (fun t => t.msg.part != part),
    owned := d.owned.filter (fun o => !jobs.contains o.2),
    far := d.far.filter (fun f => !(decide (f.owner < 2 ^ 48) && mine (f.owner / 8)) &&
      !jobs.any (fun j => f.owner == 2 ^ 48 + j.toNat || f.owner == 2 ^ 49 + j.toNat)),
    net := { d.net with open_ := d.net.open_.filter (fun r => r.part != part),
                        mcasts := d.net.mcasts.filter (fun m => m.part != part) },
    fab := { d.fab with out := d.fab.out.map (fun o =>
      if mine o.dest.core then { o with dest := { o.dest with ctx := 8, reg := 16 }, acq := false } else o) },
    agenda := d.agenda.filter (fun v => !forKilled part mine v),
    mem := cores.foldl (fun m k => clearRange m (spadLoc k 0) (2 ^ 18)) d.mem }

/-- A partition that the management core ends, with an entry in its event log (R274, R277). -/
def State.endPartition (s : State) (part : Nat) : State :=
  let s1 := s.killPart part
  { s1 with mgmtLog := s1.mgmtLog ++ [.partitionEnded part] }

/-! ## The instructions (R444) -/

/-- The status of an operation on a partition comes back to a pending destination. -/
def partReply (a : Nat) (f : State → Nat × State) : Act Unit := do
  let s ← get
  takeSlot s.curCore
  modify (fun x =>
    let d := x.dest a
    let (st, y) := f (x.setPend d)
    y.push (.pendingValueArrive d (.value (ofN st))))
  advance

/-- An operation on a partition waits for a restore of it that still replays (R444). -/
def partFree (p : Nat) : Act Unit := do
  let s ← get
  if (s.swapOf p).any (fun w => w.loaded) then stall

/-- CTXSV. An image that would overwrite a sealed region, or reach beyond memory, is REFUSED (R66; DESIGN CHOICE, log entry 40). -/
def ctxsvAct (a sa sb : Nat) : Act Unit := do
  let s ← get
  prepPriv 0xFD s.privM [sa, sb] [a]
  let p ← readG sa
  let g ← readG sb
  partFree (bits p 3 0)
  partReply a (fun x =>
    if bits p 63 4 ≠ 0 ∨ g.toNat % 4096 ≠ 0 ∨ (x.part.get (bits p 3 0)).state ≠ 3 ∨
        x.keptFrom g.toNat (x.imageSize (bits p 3 0)) = true then (stREFUSED, x)
    else (stOK, x.savePart (bits p 3 0) g.toNat))

def execCtxsv (a sa sb : Nat) (s : State) : Host.Outcome State Fault Refusal := runAct (ctxsvAct a sa sb) s

/-- CTXLD: its destination is pending until the scorebook is empty (R282, R444). While an engine owns a line, an image with pins waits, since
their walks would (R135). -/
def ctxldAct (a sa sb : Nat) : Act Unit := do
  let s ← get
  prepPriv 0xFD s.privM [sa, sb] [a]
  let p ← readG sa
  let g ← readG sb
  partFree (bits p 3 0)
  if !s.owned.isEmpty && fieldAt (s.bytesAt g.toNat 256) 200 8 != 0 then stall
  takeSlot s.curCore
  modify (fun x =>
    let d := x.dest a
    let y := x.setPend d
    let no := y.push (.pendingValueArrive d (.value (ofN stREFUSED)))
    if bits p 63 4 ≠ 0 then no else (y.loadPart (bits p 3 0) g.toNat d).getD no)
  advance

def execCtxld (a sa sb : Nat) (s : State) : Host.Outcome State Fault Refusal := runAct (ctxldAct a sa sb) s

def pkillAct (a sa : Nat) : Act Unit := do
  let s ← get
  prepPriv 0xFD s.privM [sa] [a]
  let p ← readG sa
  partFree (bits p 3 0)
  partReply a (fun x =>
    if bits p 63 4 ≠ 0 then (stREFUSED, x)
    else if (x.part.get (bits p 3 0)).state = 0 then (stEMPTY, x)
    else (stOK, x.killPart (bits p 3 0)))

def execPkill (a sa : Nat) (s : State) : Host.Outcome State Fault Refusal := runAct (pkillAct a sa) s

end Sys2Proof.Machine
end

