-- ==== Sys2Proof/Machine/System.lean ====
section
/-! DEFINITION. System instructions (R440 to R445), the delivery of trap records (R273 to R275), shootdown (R147 to R150), and what
the walkers and the lines' homes do (R131, R132, R145). -/

namespace Sys2Proof.Machine

/-! ## MFS and MTS (R298, R440) -/

/-- The special register of a number of R298, as it stands. Unassigned numbers are refused at decode. The management core stands on D3
(R1). -/
def State.special (s : State) (num : Nat) : Word :=
  let c := s.me
  let i := c.ident
  match num with
  | 0x000 => s.csw
  | 0x001 => c.trap.epc
  | 0x002 => c.trap.ecause
  | 0x003 => c.trap.eaddr
  | 0x004 => c.trap.einfo
  | 0x005 => c.trap.ejob
  | 0x006 => c.trap.tvec
  | 0x007 => (s.coreAt s.curCore).svec
  | 0x008 => c.msgr.jobLast
  | 0x009 => c.msgr.xferId
  | 0x00A => c.msgr.id
  | 0x00B => c.msgr.src
  | 0x00C => c.msgr.len
  | 0x00D => (s.coreAt s.curCore).gcfg
  | 0x00E => (s.part.get s.curPart).ssb
  | 0x010 => ofN i.org0
  | 0x011 => ofN i.org1
  | 0x012 => ofN i.ext0
  | 0x013 => ofN i.ext1
  | 0x014 => ofN i.nom0
  | 0x015 => ofN i.nom1
  | 0x016 => ofN i.gext0
  | 0x017 => ofN i.gext1
  | 0x018 => ofN i.squadRank
  | 0x019 => ofN i.crewRank
  | 0x01A => ofN s.curCore
  | 0x01B => ofN (clusterOf s.curCore)
  | 0x01C => ofN (min 3 (s.curCore / 480))
  | 0x01D => ofN s.dev
  | 0x01E => ofN s.curPart
  | 0x01F => i.taskId
  | 0x020 => i.vtime
  | 0x021 => (s.umpire.get s.curPart).gvt
  | 0x022 => ofN s.time
  | 0x030 => isaVer
  | 0x031 => s.isaFeat
  | _ => 0

/-- MFS; JOB.LAST waits for a held instruction that is to issue a job (R97, R390). -/
def mfsAct (a num : Nat) : Act Unit := do
  prep 0xF8 [] [a]
  let s ← get
  if num = 0x008 ∧ s.holdsOp issuesJob then stall
  writeG a (s.special num)
  advance

def execMfs (a num : Nat) (s : State) : Host.Outcome State Fault Refusal := runAct (mfsAct a num) s

/-- A value that GCFG's TAU accepts: at least 0 and below 1 (R214). -/
def tauOk (x : W32) : Bool :=
  !(f32 x).isNan && !(f32 x).lt Num.zero && (f32 x).lt (f32 (BitVec.ofNat 32 0x3F800000))

/-- A value that GCFG's RTHR accepts (R214). -/
def rthrOk (x : W32) : Bool := !(f32 x).isNan && !(f32 x).lt Num.zero && x != f32pinf

/-- -0 is stored as +0 (R214). -/
def plusZero (x : W32) : W32 := if x = BitVec.ofNat 32 0x80000000 then 0 else x

/-- A write of GCFG: each field passes or fails on its own (R214). -/
def writeGcfg (old v : Word) : Word :=
  let tau := BitVec.ofNat 32 (bits v 31 0)
  let rthr := BitVec.ofNat 32 (bits v 63 32)
  let t := if tauOk tau then (plusZero tau).toNat else bits old 31 0
  let r := if rthrOk rthr then (plusZero rthr).toNat else bits old 63 32
  ofN (r * 2 ^ 32 + t)

/-- A write of a special register: CSW changes its RW fields, a PC must be one, and an RO register ignores the write (R7, R298,
R440). -/
def writeSpecial (num : Nat) (v : Word) : Act Unit := do
  if (num == 1 || num == 6 || num == 7) && (bit v 5 || bits v 63 52 != 0) then ill 0
  match num with
  | 0x000 => modify (fun s => s.modMe (fun c => c.setCsw v))
  | 0x001 => modify (fun s => s.modMe (fun c => { c with trap := { c.trap with epc := v } }))
  | 0x006 => modify (fun s => s.modMe (fun c => { c with trap := { c.trap with tvec := v } }))
  | 0x007 => modify (fun s => s.modCore s.curCore (fun c => { c with svec := v }))
  | 0x00D => modify (fun s => s.modCore s.curCore (fun c => { c with gcfg := writeGcfg c.gcfg v }))
  | _ => pure ()

def mtsAct (num sa : Nat) : Act Unit := do
  prep 0xF9 [sa] []
  notSpec
  let v ← readG sa
  writeSpecial num v
  advance

def execMts (num sa : Nat) (s : State) : Host.Outcome State Fault Refusal := runAct (mtsAct num sa) s

/-! ## TRET (R275, R441) -/

/-- TRET without a handle returns from the TVEC handler (R273, R441). -/
def tretAct : Act Unit := do
  let s ← get
  if !s.me.intv then ill 0
  if ← badTarget s.me.trap.epc then trapNow cILLTGT s.me.trap.epc 0
  modify (fun x => x.returnTrap x.curCore x.curCtx)

def execTret (s : State) : Host.Outcome State Fault Refusal := runAct tretAct s

/-- TRET with a handle: the request travels to the handle's core (R441). -/
def tretHandle (a sa action : Nat) : Act Unit := do
  let s ← get
  prepPriv 0xFA s.privS [sa] [a]
  notSpec
  let h ← readG sa
  takeSlot s.curCore
  modify (fun x => (x.setPend (x.dest a)).push (.tretHandleArrive { dest := x.dest a, handle := h, action := action }))
  advance

def execTretResume (a sa : Nat) (s : State) : Host.Outcome State Fault Refusal := runAct (tretHandle a sa 1) s
def execTretSkip (a sa : Nat) (s : State) : Host.Outcome State Fault Refusal := runAct (tretHandle a sa 2) s
def execTretEnd (a sa : Nat) (s : State) : Host.Outcome State Fault Refusal := runAct (tretHandle a sa 3) s

/-- The context that a handle names, if it is parked with the same park count and belongs to the issuer's partition (R275, R441). -/
def State.parkedBy (s : State) (t : TretReq) : Option (Nat × Nat) :=
  let h := t.handle
  let core := bits h 10 0
  let k := bits h 13 11
  if bits h 15 14 ≠ 0 ∨ bits h 63 48 ≠ 0 ∨ 1920 ≤ core then none
  else if (s.partOfCore core).isNone || s.partOfCore core != s.partOfCore t.dest.core then none
  else if (s.ctxAt core k).phase ≠ .parked ∨ (s.ctxAt core k).parkCount ≠ bits h 47 16 then none
  else some (core, k)

/-- The PC of the instruction after EPC, by the number of instructions of EPC's line; of a line that cannot be read, the next line
(R275, R291). -/
def State.afterPc (s : State) (core k : Nat) : Word :=
  let pc := (s.ctxAt core k).trap.epc
  match fetchLine pc (s.asCtx core k) with
  | .ok (.line cs, _) => nextPc pc cs.length
  | _ => nextPc pc 1

/-- A parked thread runs again from `pc`, with a fresh shot clock (R103, R275). -/
def State.runAgain (s : State) (core k : Nat) (pc : Word) : State :=
  let s1 := s.modCtx core k (fun c => { c with phase := .running, pc := pc })
  match (s.ctxAt core k).work with
  | .task id => s1.modTask id (fun t => { t with clockEnd := some (s.taskAc t + shotLen t.shot) })
  | _ => s1

/-- The context of an aborted handler is freed (R275). -/
def State.freeHandler (s : State) (core k : Nat) : State :=
  ((s.freeHolds core k).freeBufs (clusterOf core) (s.ctxAt core k).workId).freeCtx core k

/-- The entry of an aborted handler may start again (R275). -/
def State.readyEntry (s : State) (core : Nat) (w : Work) : State :=
  let m (u : Nat) (e : MsgEntry) : MsgEntry := if e.uid = u then { e with state := 0 } else e
  match w with
  | .message u => s.modCore core (fun c => { c with lowq := c.lowq.map (m u), highq := c.highq.map (m u) })
  | .arrival u => s.modCore core (fun c => { c with arrq := c.arrq.map (fun e => if e.uid = u then { e with state := 0 } else e) })
  | _ => s

/-- The actions of R275 on a parked context. DEDUCED, log entry 29. -/
def State.dispose (s : State) (core k action : Nat) : State :=
  let c := s.ctxAt core k
  if 4 ≤ k then
    if action = 1 then (s.readyEntry core c.work).freeHandler core k
    else (s.dropEntry core c.work false).freeHandler core k
  else
    match action with
    | 1 => s.runAgain core k c.trap.epc
    | 2 => s.runAgain core k (s.afterPc core k)
    | _ =>
      match s.taskOf core k with
      | some (id, t) => s.abortTask id t
      | none => s.freeCtx core k

/-- A handle is served; the work of an aborted handler ends, and its streams are released (R387). -/
def tretServe (t : TretReq) : Act Unit := do
  let s ← get
  match s.parkedBy t with
  | none => set (s.push (.pendingValueArrive t.dest (.value (ofN stEMPTY))))
  | some (core, k) =>
    if 4 ≤ k && !(s.ctxAt core k).streams.isEmpty then releaseStreams core k
    modify (fun x => (x.dispose core k t.action).push (.pendingValueArrive t.dest (.value (ofN stOK))))

/-- TRET_HANDLE_ARRIVE: the handle's core acts and answers OK, or EMPTY (R441). -/
def execTretHandleArrive (t : TretReq) (s : State) : Host.Outcome State Fault Refusal :=
  runEvent (fun s => s.runEvAct (.tretHandleArrive t) (tretServe t)) s

/-! ## SYSC (R442) -/

def execSysc (n : Nat) (s : State) : Host.Outcome State Fault Refusal := runAct (trapAfter cSYSCALL (ofN (n % 1024))) s

/-! ## Delivery of trap records (R274) -/

/-- The trapping context is context 7 of the supervisor core: the record of a parked thread that names it. -/
def trapsSupervisor (supv : Nat) (r : TrapRecord) : Bool :=
  let ec := r.words.headD 0
  let h := (r.words[5]?).getD 0
  !bit ec 8 && !bit ec 9 && bits h 10 0 == supv && bits h 13 11 == 7

/-- The record as a high-priority message from its sending core to the supervisor's SVEC (R274). -/
def State.recordMsg (s : State) (r : TrapRecord) (supv : Nat) : Msg :=
  { kind := 0, ackreq := false, timed := false, hi := true, len := 64, hpc := bits (s.coreAt supv).svec 51 0,
    seqn := (s.coreAt r.score).seqn, part := r.part, sdev := s.dev, score := r.score, ts := 0, payload := bytesOfWords r.words }

/-- The record has left: its message took a sequence count of the sending core (R111). -/
def State.countSent (s : State) (core : Nat) : State := s.modCore core (fun c => { c with seqn := c.seqn + 1 })

/-- A refused record is sent again after its back-off, which doubles up to 8,192 ac (R274). -/
def State.retryRecord (s : State) (r : TrapRecord) : State :=
  s.push (.trapRecordResend { r with notBefore := s.coreAc r.score + r.backoff, backoff := min 8192 (2 * r.backoff) })

/-- A trap record reaches the supervisor core of its partition (R274): it ends the partition, is queued, joins a scorebook, or is
refused. DEDUCED, log entry 30. -/
def State.deliverRecord (s : State) (r : TrapRecord) : State :=
  let e := s.part.get r.part
  if r.score = mgmtCore || e.state == 0 || e.state == 5 then s
  else if (s.coreAt e.supv).svec = 0 || trapsSupervisor e.supv r then s.endPartition r.part
  else
    let m := s.recordMsg r e.supv
    if e.state = 4 then
      match s.appendScore r.part 1 e.supv 0 (msgHeader m ++ m.payload) with
      | some s1 => s1.countSent r.score
      | none => (s.logFull r.part).retryRecord r
    else
      match s.enqueueMsg e.supv m with
      | some s1 => s1.countSent r.score
      | none => s.retryRecord r

def execTrapDeliverSupervisor (r : TrapRecord) (s : State) : Host.Outcome State Fault Refusal :=
  runEvent (fun s => s.deliverRecord r) s

/-- TRAP_RECORD_RESEND: the back-off has expired; before that the record waits (R274). -/
def execTrapRecordResend (r : TrapRecord) (s : State) : Host.Outcome State Fault Refusal :=
  runEvent (fun s => if r.notBefore ≤ s.coreAc r.score then s.deliverRecord r else s.push (.trapRecordResend r)) s

/-- TRAP_DELIVER_TVEC: a trap that waited for the context's pending registers, or for its task to become irrevocable, is delivered
(R97, R119, R273). -/
def execTrapDeliverTvec (core ctx : Nat) (t : Trap) (s : State) : Host.Outcome State Fault Refusal :=
  runEvent (fun s =>
    let c := s.ctxAt core ctx
    if c.heldTrap = some t ∧ c.pend = 0 ∧ !s.specAt core ctx ∧ !s.heldBack core ctx ∧ c.phase = .running then
      (s.modCtx core ctx (fun x => { x with heldTrap := none })).deliverTrap core ctx t
    else s) s

/-! ## TLBI (R147 to R150, R443) -/

/-- The status of a TLBI goes back to its destination. -/
def State.tlbiDone (s : State) (d : RegDest) (v : Word) : State := s.push (.pendingValueArrive d (.value v))

/-- The messages of a TLBI leave for every cluster of the partition. -/
def State.tlbiSend (s : State) (part kind : Nat) (va : Word) (d : RegDest) (v : Word) : State :=
  let t : TlbiMsg := { part := part, kind := kind, va := va, dest := d, status := v }
  let cls := s.clustersOf part
  if cls.isEmpty then s.tlbiDone d v
  else ({ s with tlbis := s.tlbis ++ [{ msg := t, clusters := cls }] } : State).pushAll (cls.map (fun c => .tlbiWalkerMessage t c))

/-- A pin lies on a page: its virtual line does. -/
def pinOn (part vbase logSize : Nat) (p : Pin) : Bool :=
  p.part == part && decide (vbase ≤ p.vline * 64) && decide (p.vline * 64 < vbase + 2 ^ logSize)

/-- Unpinning a page (R148): pins and quota are freed, and PLOST is set for each pinning core. -/
def State.unpinPage (s : State) (part vbase logSize : Nat) : State :=
  let gone := s.pins.filter (pinOn part vbase logSize)
  let s1 := gone.foldl (fun (x : State) p => x.modCore p.core (fun c => { c with plost := true })) s
  { s1 with pins := s.pins.filter (fun p => !pinOn part vbase logSize p) }

/-- The walk of an address waits for an engine that owns a line of the tables (R135). -/
def State.walkBusy (s : State) (cl part va : Nat) : Bool :=
  match s.walk cl part va with
  | (.error .busy, _) => true
  | _ => false

/-- UNMAP, MOVE and MOVEF at issue (R147 to R150): the status they end with at once, or none, with the hold set. A table line that
carries an uncorrectable error gives no valid leaf. DEDUCED, log entry 27. -/
def State.tlbiHold (s : State) (part kind va : Nat) : Option Word × State :=
  match s.walk (clusterOf s.curCore) part va with
  | (.error _, s1) => (some (ofN stNOMATCH), s1)
  | (.ok l, s1) =>
    let vbase := va / 2 ^ l.logSize * 2 ^ l.logSize
    if bit l.entry 6 && s1.unitHolds l.frame then (some (st63 stREFUSED), s1)
    else if kind = 3 && s1.pins.any (pinOn part vbase l.logSize) then (some (ofN stREFUSED), s1)
    else if (s1.holdOn part va).isSome || decide (8 ≤ (s1.holds.filter (fun h => h.part == part)).length) then (some (ofN stFULL), s1)
    else
      let h : Hold :=
        { part := part, vbase := vbase, logSize := l.logSize, core := s.curCore, ctx := s.curCtx, serial := s.me.serial }
      (none, { s1.unpinPage part vbase l.logSize with holds := s1.holds ++ [h] })

/-- What a TLBI of a kind does at issue; its messages follow. -/
def State.tlbi (s : State) (part kind : Nat) (p : Word) (d : RegDest) : State :=
  let va := bits p 51 0
  if kind < 2 then s.tlbiSend part kind p d (ofN stOK)
  else if kind = 5 then
    match s.holdOn part va with
    | some h => ({ s with holds := s.holds.filter (fun x => x != h) } : State).tlbiSend part kind p d (ofN stOK)
    | none => s.tlbiSend part kind p d (ofN stEMPTY)
  else
    match s.tlbiHold part kind va with
    | (none, s1) => s1.tlbiSend part kind p d (ofN stOK)
    | (some v, s1) => s1.tlbiDone d v

def tlbiAct (a sa kind : Nat) : Act Unit := do
  let s ← get
  noStream 0xFC [sa]
  prepPriv 0xFC s.privS (if kind = 1 then [] else [sa]) [a]
  notSpec
  let p ← (if kind = 1 then return 0 else readG sa)
  if kind ≠ 1 ∧ bits p 53 52 ≠ 0 then trapNow cXLATE p 0
  if [2, 3, 4].contains kind && s.walkBusy (clusterOf s.curCore) s.curPart (bits p 51 0) then stall
  takeSlot s.curCore
  modify (fun x =>
    let y := x.setPend (x.dest a)
    match y.partOfCore y.curCore with
    | some part => y.tlbi part kind p (y.dest a)
    | none =>
      y.tlbiDone (y.dest a) (ofN (if kind < 2 then stOK else if kind = 5 then stEMPTY else stNOMATCH)))
  advance

def execTlbiInv (a sa : Nat) (s : State) : Host.Outcome State Fault Refusal := runAct (tlbiAct a sa 0) s
def execTlbiInvall (a sa : Nat) (s : State) : Host.Outcome State Fault Refusal := runAct (tlbiAct a sa 1) s
def execTlbiUnmap (a sa : Nat) (s : State) : Host.Outcome State Fault Refusal := runAct (tlbiAct a sa 2) s
def execTlbiMove (a sa : Nat) (s : State) : Host.Outcome State Fault Refusal := runAct (tlbiAct a sa 3) s
def execTlbiMovef (a sa : Nat) (s : State) : Host.Outcome State Fault Refusal := runAct (tlbiAct a sa 4) s
def execTlbiRel (a sa : Nat) (s : State) : Host.Outcome State Fault Refusal := runAct (tlbiAct a sa 5) s

/-- An entry of the partition's clusters that a TLBI removes: one that covers the address, or any for INVALL (R144, R147). -/
def tlbiHits (t : TlbiMsg) (e : TlbEntry) : Bool :=
  t.kind == 1 || (decide (e.vbase ≤ bits t.va 51 0) && decide (bits t.va 51 0 < e.vbase + 2 ^ e.logSize))

/-- TLBI_WALKER_MESSAGE: a walker removes the entries of its cluster's TLBs, drops its walks of the page, and acknowledges (R147).
DEDUCED, log entry 28. -/
def execTlbiWalkerMessage (t : TlbiMsg) (cluster : Nat) (s : State) : Host.Outcome State Fault Refusal :=
  runEvent (fun s =>
    let s1 := s.modCluster cluster (fun c =>
      { c with tlb2 := c.tlb2.filter (fun e => !tlbiHits t e),
               walkq := c.walkq.filter (fun w => (s.holdOn w.1 (w.2 * 4096)).isSome || !(w.1 == t.part &&
                 (t.kind == 1 || w.2 == bits t.va 51 12))) })
    let s2 := (coresOf cluster).foldl (fun (x : State) k =>
      if (x.coreAt k).tlb.isEmpty then x
      else x.modCore k (fun c => { c with tlb := c.tlb.filter (fun e => !tlbiHits t e) })) s1
    s2.push (.tlbiAcknowledge t cluster)) s

/-- TLBI_ACKNOWLEDGE: the last acknowledgement writes the status (R147). -/
def execTlbiAcknowledge (t : TlbiMsg) (cluster : Nat) (s : State) : Host.Outcome State Fault Refusal :=
  runEvent (fun s =>
    match s.tlbis.find? (fun w => w.msg == t) with
    | none => s
    | some w =>
      let left := w.clusters.filter (fun c => c != cluster)
      let rest := s.tlbis.filter (fun x => x.msg != t)
      if left.isEmpty then ({ s with tlbis := rest } : State).tlbiDone t.dest t.status
      else { s with tlbis := rest ++ [{ w with clusters := left }] }) s

/-! ## Walks and homes -/

/-- WALK_COMPLETE: a walk that waited at its cluster's walker, one of the 32 in flight there, is done, and its translation enters the
second-level TLB; a walk of a page still held goes on waiting (R145, R149). The merged requesters then find it there, or walk to the
fault. -/
def execWalkComplete (cluster : Nat) (va : Word) (s : State) : Host.Outcome State Fault Refusal :=
  runEvent (fun s =>
    match ((s.clusterAt cluster).walkq.take 32).find? (fun w => w.2 == bits va 51 12) with
    | none => s
    | some w =>
      if (s.holdOn w.1 (w.2 * 4096)).isSome then s
      else
        let s1 := s.modCluster cluster (fun c => { c with walkq := c.walkq.filter (fun x => x != w) })
        match s1.walk cluster w.1 (w.2 * 4096) with
        | (.error .busy, _) => s
        | (.error _, s2) => s2
        | (.ok l, s2) =>
          let t : TlbEntry :=
            { vbase := w.2 * 4096 / 2 ^ l.logSize * 2 ^ l.logSize, logSize := l.logSize,
              leaf := setBits l.entry 51 12 (l.frame / 4096), use := 0 }
          { s2.modCluster cluster (fun c => { c with tlb2 := tlb2Insert (Config.freeNat s2.free) c.tlb2 t }) with
            free := s2.free + 1 }) s

/-- A pin keeps its line in its home slice (R138). -/
def State.pinned (s : State) (line : Nat) : Bool := s.pins.any (fun p => p.line == line)

/-- HOME_REQUEST: a request of a core of node `node` counts at the line's home, and the fourth in a row moves the line to that
node's slice where it may move (R131, R132). -/
def execHomeRequest (line node : Nat) (s : State) : Host.Outcome State Fault Refusal :=
  runEvent (fun s =>
    let h := s.home.get line
    let run := if h.node = node then h.run + 1 else 1
    let home := homeSlice (line * 64)
    let key := home.1 * 64 + home.2
    let at_ := s.holderOf line
    let counted : LineHome := { h with node := node, run := run }
    if run < 4 ∨ node = at_ ∨ s.pinned line ∨ s.uline.any (fun u => u.line == line) then { s with home := s.home.set line counted }
    else if node = home.2 then
      { s with home := s.home.set line { node := node, run := 0, holder := node }, forwards := s.forwards.modify key (fun n => n - 1) }
    else if at_ ≠ home.2 then { s with home := s.home.set line { node := node, run := 0, holder := node } }
    else if s.forwards.get key < 2048 then
      { s with home := s.home.set line { node := node, run := 0, holder := node }, forwards := s.forwards.modify key (fun n => n + 1) }
    else { s with home := s.home.set line counted }) s

/-! ## HALT (R445) -/

/-- What has reached the management core: entries of its event log, and commands. DESIGN CHOICE, log entry 7. -/
def State.wakes (s : State) : Nat := s.mgmtLog.length + s.mgmtCmds

/-- HALT: a wake latch already set ends it at once and is cleared; otherwise the context halts. -/
def haltAct : Act Unit := do
  let s ← get
  needPriv 0xFE s.privM
  notSpec
  if s.me.wakeSeen < s.wakes then
    modify (fun x => x.modMe (fun c => { c with wakeSeen := x.wakes }))
    advance
  else modify (fun x => x.modMe (fun c => { c with phase := .halted }))

def execHalt (s : State) : Host.Outcome State Fault Refusal := runAct haltAct s

/-- HALT_WAKE: halted contexts of the management core whose latch is set go on at the next instruction. -/
def execHaltWake (s : State) : Host.Outcome State Fault Refusal :=
  runEvent (fun s =>
    s.modCore mgmtCore (fun c =>
      { c with ctx := { dflt := c.ctx.dflt, cells := c.ctx.cells.map (fun p =>
          (p.1, if p.2.phase = .halted ∧ p.2.wakeSeen < s.wakes then
            { p.2 with phase := .running, wakeSeen := s.wakes, pc := nextPc p.2.pc p.2.lineN } else p.2)) } })) s

end Sys2Proof.Machine
end

