-- ==== Sys2Proof/Machine/Power.lean ====
section
/-! DEFINITION. Reset and bring-up, islands, power and heat, alarms and key erasure, error protection, device registers (R7, R15 to
R24, R69 to R74). -/

namespace Sys2Proof.Machine

/-! ## Reset and bring-up (R24, R69, R70) -/

/-- A bring-up step is under way; whether its hardware will succeed is free (DESIGN CHOICE, log entry 21). -/
def State.startStep (s : State) (n : Nat) : State :=
  ({ s with free := s.free + 1 } : State).push (.bringUpStepComplete n (decide (Config.freeNat s.free % 2 = 0)))

/-- The flash image that a bring-up step runs, the recovery image's part in recovery: the management firmware in step 1, the
microcode in step 5, the service-core firmware in step 6 (R24, R69). -/
def State.imageOf (s : State) (step : Nat) : Option Nat :=
  let base := if s.sec.recovery then 8 else 0
  match step with
  | 1 => some base
  | 5 => some (base + 2)
  | 6 => some (base + 1)
  | _ => none

/-- An image passes: its key hashes to the fused value, its signature over its security version number and its content verifies, and
that number is not below the fused minimum (R69). -/
def imagePasses (i : FlashImage) : Bool :=
  Config.sha3 i.key == Config.rootKeyHash && Config.verify i.key (bytesOf i.svn 4 ++ i.content) i.signature &&
    decide (Config.minSvn ≤ i.svn)

/-- The image of a bring-up step fails (R69). -/
def State.imageFails (s : State) (step : Nat) : Bool :=
  match s.imageOf step with
  | some n => !imagePasses (Config.flash n)
  | none => false

/-- The device resets: what stands is the fuse map, the memory, and the key store with its generation (R24, R71, R74); a device with
an erased key store boots only the recovery image, until it is provisioned again (DESIGN CHOICE, log entry 21). The scratchpads keep their
bytes, since Table 7 zeroes the memory stacks alone, and a reset while the key store is being erased drops the erasure, with the keys as
they stand: the spec states neither (DESIGN CHOICE, log entry 75). -/
def State.resetDevice (s : State) : State :=
  let r := State.reset
  ({ r with
    turn := s.turn, free := s.free, uid := s.uid, mem := s.mem, badLines := s.badLines, fuse := s.fuse,
    sec := { r.sec with keys := s.sec.keys, slots := s.sec.slots, idKey := s.sec.idKey, xi := s.sec.xi, gen := s.sec.gen,
                        recovery := !s.sec.idKey } } : State).startStep 1

/-- DEVICE_RESET (R24). -/
def execDeviceReset (s : State) : Host.Outcome State Fault Refusal := runEvent State.resetDevice s

/-- Islands `ks` of every die are raised to OP 3, under the thermal limit and a grade-2 hold (R16, R21, R24). -/
def State.raiseIslands (s : State) (ks : List Nat) : State :=
  { s with island := (List.range 4).foldl (fun t d => ks.foldl (fun u k => u.modify (8 * d + k) (fun x =>
      { x with req := 3, eff := if k < 4 && s.held2 d then min x.limit 1 else min 3 x.limit, changing := false })) t) s.island }

/-- An array is calibrated at bring-up, with constants that no rule fixes (R24, R202; DESIGN CHOICE, log entry 1). -/
def State.calibrate (s : State) (cl arr : Nat) : State :=
  let b : W32 := BitVec.ofNat 32 (Config.freeNat s.free)
  let g : W32 := BitVec.ofNat 32 (Config.freeNat (s.free + 1))
  { s.modArray cl arr (fun a =>
      { a with beta := b, gamma := g, calok := (f32 b).le (f32 0x3E000000#32) && (f32 g).le (f32 0x42800000#32) }) with
    free := s.free + 2 }

/-- What a bring-up step does (R24, R54, R69). -/
def State.bringUp (s : State) (step : Nat) : State :=
  let content := match s.imageOf step with
    | some n => (Config.flash n).content
    | none => []
  match step with
  | 1 => s.extendMeas 0 content
  | 2 => s.raiseIslands [4, 6, 7]
  | 3 => { s with mem := clearRange s.mem 0 (2 ^ 39), badLines := [], ecc := Tab.const { corr := 0, unc := 0 } }
  | 5 =>
    (List.range 240).foldl (fun (x : State) cl => (List.range 8).foldl (fun (y : State) a => y.calibrate cl a) x)
      ((s.raiseIslands [0, 1, 2, 3, 5]).extendMeas 2 content)
  | 6 =>
    let s1 := s.extendMeas 1 content
    { s1 with link := { s1.link with state := 1 } }
  | _ => s

/-- An image has failed: the device boots the recovery image instead, from step 1 on; a recovery image that fails leaves the device
in boot ROM (R69). -/
def State.imageFailed (s : State) : State :=
  if s.sec.recovery then { s with sec := { s.sec with failed := true } }
  else ({ s with sec := { s.sec with recovery := true, boot := 0 } } : State).startStep 1

/-- BRING_UP_STEP_COMPLETE: the next step of Table 7 begins, or a step fails: an image that fails gives way to the recovery image,
and another failure stops the sequence in recovery firmware (R24, R69). Step 1 does nothing but verify and measure, so it fails only
by its image. -/
def execBringUpStepComplete (step : Nat) (ok : Bool) (s : State) : Host.Outcome State Fault Refusal :=
  runEvent (fun s =>
    if step ≠ s.sec.boot + 1 ∨ 7 < step then s
    else if s.imageFails step ∨ (step = 1 ∧ !ok) then s.imageFailed
    else if ok then
      let s1 := s.bringUp step
      let s2 : State := { s1 with sec := { s1.sec with boot := step } }
      if step < 7 then s2.startStep (step + 1) else s2
    else { s with sec := { s.sec with recovery := true } }) s

/-! ## Islands (R15 to R18) -/

/-- A change of point begins (R16). -/
def State.changePoint (s : State) (i : Nat) : State :=
  ({ s with island := s.island.modify i (fun x => { x with changing := true }) } : State).push (.operatingPointChangeDone i)

/-- ISL_CTL_WRITE (R16, R17). -/
def execIslCtlWrite (isl : Nat) (v : Word) (s : State) : Host.Outcome State Fault Refusal :=
  runEvent (fun s => if isl < 32 then s.writeIslCtl isl v else s) s

/-- An array when its island is gated: calibration is lost, and every command ends with DRIFT (R18, R201). -/
def State.gateArray (s : State) (cl arr : Nat) : State :=
  let x := s.arrayAt cl arr
  let s1 := x.queue.foldl (fun (y : State) c => y.driftEnd cl arr c) s
  s1.modArray cl arr (fun a => { a with calok := false })

def State.gateArrays (s : State) (die : Nat) : State :=
  (List.range 60).foldl (fun (x : State) n => (List.range 8).foldl (fun (y : State) a => y.gateArray (60 * die + n) a) x) s

/-- OPERATING_POINT_CHANGE_DONE: EFF takes the new point (R16); an analogue island that goes to OP 0 loses its calibration (R18). -/
def execOperatingPointChangeDone (isl : Nat) (s : State) : Host.Outcome State Fault Refusal :=
  runEvent (fun s =>
    let p := s.pointOf isl
    let off := isl % 8 == 5 && p == 0 && (s.island.get isl).eff != 0
    let s1 : State := { s with island := s.island.modify isl (fun x => { x with eff := p, changing := false }) }
    if off then s1.gateArrays (isl / 8) else s1) s

/-! ## Power and heat (R19 to R21) -/

/-- LIMIT of an island falls one step; OP 1 is the lowest thermal limit (DESIGN CHOICE, log entry 22). -/
def State.fallLimit (s : State) (i : Nat) : State :=
  if (s.island.get i).limit ≤ 1 then s
  else
    ({ s with stepped := true,
              island := s.island.modify i (fun x => { x with limit := x.limit - 1, quietWindows := 0 }) } : State).changePoint i

/-- The grade of an alarm source (R72, Table 10). -/
def AlarmGrade (a : AlarmSource) : Nat :=
  match a with
  | .tempAbove105 => 1
  | .tempAbove115 => 2
  | .tempAbove125 => 3
  | .supplyOutside => 3
  | .supplyThreeExcursions => 4
  | .clockOff => 3
  | .integrity => 2
  | .integritySixteen => 3
  | .packageOpening => 4

/-- An alarm of grade 1 or 2 names a die (R21). -/
def State.alarmed (s : State) (die : Nat) : Bool := s.sec.alarms.any (fun a => a.2 == die && decide (AlarmGrade a.1 ≤ 2))

/-- The window's count of an island: it is quiet when power was low, and at no time in the window a matrix unit of it gated or an alarm
of grade 1 or 2 named its die (R21). What is in force at the window's end belongs to the next one too. -/
def State.countWindow (s : State) (low : Bool) (i : Nat) : State :=
  let now := (s.island.get i).gated || s.alarmed (i / 8)
  let quiet := low && !now && !(s.island.get i).noisy
  { s with island := s.island.modify i (fun x =>
      { x with quietWindows := if quiet then x.quietWindows + 1 else 0, sinceRise := x.sinceRise + 1, noisy := now }) }

/-- An island whose LIMIT may rise (R21). -/
def State.mayRise (s : State) (i : Nat) : Bool :=
  let x := s.island.get i
  decide (x.limit < 3) && decide (16 ≤ x.quietWindows) && decide (16 ≤ x.sinceRise)

/-- The measured heat of an island. -/
def heatOf (heat : List Nat) (i : Nat) : Nat := (heat[i]?).getD 0

/-- The islands of a list by heat, the coolest first, ties to the lower island number (R21). -/
def coolestFirst (heat : List Nat) (is : List Nat) : List Nat :=
  is.mergeSort (fun a b => decide (heatOf heat a < heatOf heat b) || (heatOf heat a == heatOf heat b && decide (a ≤ b)))

/-- The islands of a list by heat, the hottest first (R19); of two equally hot the lower island number (DESIGN CHOICE, log entry
22). -/
def hottestFirst (heat : List Nat) (is : List Nat) : List Nat :=
  is.mergeSort (fun a b => decide (heatOf heat b < heatOf heat a) || (heatOf heat a == heatOf heat b && decide (a ≤ b)))

/-- LIMIT of the coolest eligible island rises one step, ties to the lower island number (R21). -/
def State.riseOne (s : State) (heat : List Nat) : State :=
  match (coolestFirst heat ((List.range 32).filter s.mayRise)).head? with
  | none => s
  | some i => ({ s with island := s.island.modify i (fun x => { x with limit := x.limit + 1, sinceRise := 0 }) } : State).changePoint i

/-- POWER_WINDOW: a window above 1,800 W lowers LIMIT of core-quadrant islands, hottest first, how many being the firmware's
(R19); otherwise at most one LIMIT rises, and none in a window in which one has fallen (R21). `heat` gives the measured heat of islands
0 to 31. -/
def execPowerWindow (milliwatts : Nat) (heat : List Nat) (s : State) : Host.Outcome State Fault Refusal :=
  runEvent (fun s =>
    let low := decide (milliwatts ≤ 1710000)
    let s1 := (List.range 32).foldl (fun (x : State) i => x.countWindow low i) s
    let s2 :=
      if 1800000 < milliwatts then
        let ok := hottestFirst heat ((List.range 32).filter (fun i => decide (i % 8 < 4) && decide (1 < (s1.island.get i).limit)))
        let n := 1 + Config.freeNat s1.free % ok.length
        (ok.take n).foldl State.fallLimit ({ s1 with free := s1.free + 1 } : State)
      else if s1.stepped then s1
      else s1.riseOne heat
    { s2 with stepped := false }) s

/-- Clusters of an island. -/
def State.clustersIn (s : State) (i : Nat) : List Nat :=
  (List.range 60).filterMap (fun n => if s.islandOf (60 * (i / 8) + n) = i then some (60 * (i / 8) + n) else none)

/-- A matrix unit's gating changes, and whether it is being taken back; its island shows whether any unit gates (R16, R20). -/
def State.setThrottle (s : State) (cl n : Nat) (easing : Bool) : State :=
  let s1 := s.modCluster cl (fun c => { c with throttle := n, easing := easing })
  let i := s1.islandOf cl
  let any := (s1.clustersIn i).any (fun c => (s1.clusterAt c).throttle != 0)
  { s1 with island := s1.island.modify i (fun x =>
      { x with gated := any, noisy := x.noisy || any, quietWindows := if any then 0 else x.quietWindows }) }

/-- HEAT_FLUX_WINDOW: above 200 W/cm² the unit gates one step more a window until the estimate falls below 180 W/cm²; from then on it
gates one step less a window, until it exceeds 200 again; gating of 2 in 8 that is not enough lowers LIMIT of the island (R20). -/
def execHeatFluxWindow (cluster milliwattsPerCm2 : Nat) (s : State) : Host.Outcome State Fault Refusal :=
  runEvent (fun s =>
    let t := (s.clusterAt cluster).throttle
    let easing := (s.clusterAt cluster).easing
    if 200000 < milliwattsPerCm2 ∧ 3 ≤ t then (s.setThrottle cluster t false).fallLimit (s.islandOf cluster)
    else if 200000 < milliwattsPerCm2 then s.setThrottle cluster (t + 1) false
    else if t = 0 then s
    else if easing ∨ milliwattsPerCm2 < 180000 then s.setThrottle cluster (t - 1) true
    else s.setThrottle cluster (min 3 (t + 1)) false) s

/-! ## Alarms and key erasure (R65, R72 to R74) -/

/-- Every partition is ended, and no new one is made until reset (R65, R73). -/
def State.endAll (s : State) : State :=
  let s1 := (List.range 16).foldl (fun (x : State) p => if (x.part.get p).state = 0 then x else x.endPartition p) s
  { s1 with sec := { s1.sec with noNewParts := true } }

/-- Points of a die's core-quadrant islands change with a grade-2 hold (R73). -/
def State.changeQuadrants (s : State) (die : Nat) : State :=
  (List.range 4).foldl (fun (x : State) k => x.changePoint (8 * die + k)) s

/-- The action of an alarm's grade (R73, R74). -/
def State.alarmAction (s : State) (grade die : Nat) : State :=
  match grade with
  | 1 => (List.range 4).foldl (fun (x : State) k => x.fallLimit (8 * die + k)) s
  | 2 => { s.changeQuadrants die with stepped := true }
  | 3 => s.endAll
  | _ => ({ s with sec := { s.sec with silent := true, erasing := true } } : State).push .keyErasureDone

/-- Sixteen INTEGRITY events within 2^32 ac raise a grade-3 alarm (R72); they are counted anew after it (DESIGN CHOICE, log entry
22). -/
def State.countIntegrity (s : State) : State :=
  let ts := (s.sec.integ.filter (fun t => decide (s.time < t + 2 ^ 32))) ++ [s.time]
  if 16 ≤ ts.length then ({ s with sec := { s.sec with integ := [] } } : State).push (.alarmRaise .integritySixteen 3)
  else { s with sec := { s.sec with integ := ts } }

/-- Three supply excursions within 2^30 ac raise a grade-4 alarm (R72); every raise of the supply alarm is one (DESIGN CHOICE, log
entry 22). -/
def State.countSupply (s : State) (die : Nat) : State :=
  let ts := (s.sec.supply.filter (fun t => decide (s.time < t + 2 ^ 30))) ++ [s.time]
  if 3 ≤ ts.length then ({ s with sec := { s.sec with supply := [] } } : State).push (.alarmRaise .supplyThreeExcursions die)
  else { s with sec := { s.sec with supply := ts } }

/-- An alarm of a higher grade for the same die, or of grade 3 or 4, is in force: it sets the action (R72). The rule does not say whether the
highest grade is taken over the device or for each die: grades 1 and 2, whose actions are those of a die, are outranked by their own die's
alarms, and by grades 3 and 4 anywhere (DESIGN CHOICE, log entry 75). -/
def State.outranked (s : State) (a : AlarmSource × Nat) : Bool :=
  s.sec.alarms.any (fun b => decide (AlarmGrade a.1 < AlarmGrade b.1) && (b.2 == a.2 || decide (3 ≤ AlarmGrade b.1)))

/-- The action of an alarm in force is taken, unless a higher grade is in force or it has been taken (R72, R73). -/
def State.actOn (s : State) (a : AlarmSource × Nat) : State :=
  if s.outranked a ∨ s.sec.acted.contains a then s
  else ({ s with sec := { s.sec with acted := s.sec.acted ++ [a] } } : State).alarmAction (AlarmGrade a.1) a.2

/-- An alarm of grade 1 or 2 disturbs the window of its die's islands (R21). -/
def State.disturb (s : State) (die : Nat) : State :=
  { s with island := (List.range 8).foldl (fun t k => t.modify (8 * die + k) (fun x => { x with noisy := true })) s.island }

/-- ALARM_RAISE: the alarm is logged, and acted on unless one of a higher grade is in force (R72, R73). An alarm that is raised again
is acted on again. -/
def execAlarmRaise (source : AlarmSource) (die : Nat) (s : State) : Host.Outcome State Fault Refusal :=
  runEvent (fun s =>
    let g := AlarmGrade source
    let s1 : State :=
      { s with mgmtLog := s.mgmtLog ++ [.alarm source die],
               sec := { s.sec with flag := s.sec.flag || decide (2 ≤ g), acted := s.sec.acted.filter (fun a => a != (source, die)),
                                   alarms := if s.sec.alarms.contains (source, die) then s.sec.alarms else s.sec.alarms ++ [(source, die)] } }
    let s2 := if source = .integrity then s1.countIntegrity else if source = .supplyOutside then s1.countSupply die else s1
    let s3 := if g ≤ 2 then s2.disturb die else s2
    s3.actOn (source, die)) s

/-- ALARM_CONDITION_END: the condition ceases; the end of the last grade-2 alarm of a die ends its hold, and the alarms that now have the
highest grade in force set the action (R72, R73). -/
def execAlarmConditionEnd (source : AlarmSource) (die : Nat) (s : State) : Host.Outcome State Fault Refusal :=
  runEvent (fun s =>
    let s1 : State := { s with sec := { s.sec with alarms := s.sec.alarms.filter (fun a => a != (source, die)),
                                                   acted := s.sec.acted.filter (fun a => a != (source, die)) } }
    let s2 := if s.held2 die && !s1.held2 die then s1.changeQuadrants die else s1
    s1.sec.alarms.foldl State.actOn s2) s

/-- A key-store slot, and the seed ξ, that have been overwritten with zeros (R74). -/
def zeroSlot : List Byte := List.replicate 32 0

/-- KEY_ERASURE_DONE: every key-store slot, ξ among them, has been overwritten with zeros and verified, and the device resets (R74). -/
def execKeyErasureDone (s : State) : Host.Outcome State Fault Refusal :=
  runEvent (fun s =>
    if s.sec.erasing then ({ s with sec := { s.sec with keys := [], slots := Tab.const zeroSlot, idKey := false, xi := zeroSlot } } : State).resetDevice
    else s) s

/-! ## Error protection (R22, R23) -/

/-- The die on which a line stands: a quarter of device memory, or the cores of a die (R12, R13). -/
def dieOfLine (line : Nat) : Nat := if line * 64 < 2 ^ 39 then line * 64 / 2 ^ 37 else (line * 64 - 2 ^ 40) / 2 ^ 18 / 480

/-- The die of an ECC site. -/
def eccDie : EccSite → Nat
  | .line l => min 3 (dieOfLine l)
  | .sram d _ => min 3 d

/-- An uncorrectable error there is device-wide: a line of the hidden region, the tuple tables that the partitions share, and firmware
state (R65). -/
def eccShared : EccSite → Bool
  | .line l => decide (l * 64 < 2 ^ 39) && hidden (l * 64)
  | .sram _ a => a == .tuples || a == .firmware

/-- ECC.CORR counts a corrected error, and saturates (R23). -/
def State.countCorr (s : State) (die : Nat) : State :=
  { s with ecc := s.ecc.modify die (fun e => { e with corr := min (2 ^ 32 - 1) (e.corr + 1) }) }

/-- An uncorrectable error is found: with no consumer, by the scrub or a write-back, it marks its line and is counted in ECC.UNC; one that
the access of an agent meets is not counted: its line is marked, or the agent's next access meets it, so that the access raises ECC (R23). -/
def State.eccFound (s : State) (site : EccSite) (agent : Option Nat) : State :=
  let s1 : State :=
    match site with
    | .line l => { s with badLines := s.badLines ++ [l] }
    | .sram _ _ => { s with meets := s.meets ++ agent.toList }
  if agent.isNone then s1.countUnc (eccDie site) else s1

/-- PATROL_SCRUB, and every other detection of an error by ECC (R22, R23): a corrected error is counted and has no other effect; a line that
is already marked is not counted again. A device-wide error ends every partition (R65). DEDUCED, log entry 31. -/
def execPatrolScrub (site : EccSite) (finding : ScrubFinding) (s : State) : Host.Outcome State Fault Refusal :=
  runEvent (fun s =>
    let found (agent : Option Nat) : State :=
      let known := match site with
        | .line l => s.badLines.contains l
        | .sram _ _ => false
      if known then s
      else if eccShared site then (s.eccFound site agent).endAll else s.eccFound site agent
    match finding with
    | .clean => s
    | .corrected => s.countCorr (eccDie site)
    | .uncorrectable => found none
    | .met agent => found (some agent)) s

/-- ECC_CORR_WRITE (R23). -/
def execEccCorrWrite (die : Nat) (v : Word) (s : State) : Host.Outcome State Fault Refusal :=
  runEvent (fun s => s.regWrite (.eccCorr die) v) s

/-! ## Registers without a row of their own (R7, R46, R58, R66, R74) -/

/-- The link carries traffic: it is UP, and the device has not stopped transmitting on it (R56, R74). -/
def State.linkUp (s : State) : Bool := s.link.state == 2 && !s.sec.silent

/-- ADP.DROP counts, and saturates. -/
def State.countDrop (s : State) : State := { s with link := { s.link with drop := min (2 ^ 32 - 1) (s.link.drop + 1) } }

/-- A host write while the link is not UP is discarded and counted (R56). -/
def State.hostWritten (s : State) (f : State → State) : State := if s.linkUp then f s else s.countDrop

/-- A write of HR.CTL by a function: enabling checks SIZE, disabling resets HEAD and TAIL; an enabled ring ignores any other change (R58). A
write with EN = 0 to a disabled ring resets HEAD and TAIL too (DESIGN CHOICE, log entry 69). -/
def State.ringCtl (s : State) (fn ring : Nat) (v : Word) : State :=
  let r := s.ring.get ring
  let en := bit v 63
  let sc := bits v 23 20
  let size := bits v 14 11
  let vec := bits v 10 0
  if 64 ≤ ring ∨ r.owner ≠ fn then s
  else if r.en && (r.sc != sc || r.size != size || r.vec != vec) then s
  else
    let r1 : Ring := { r with sc := sc, size := size, vec := vec }
    let r2 : Ring :=
      if r.en then (if en then r1 else { r1 with en := false, head := 0, tail := 0, stopped := true })
      else if !en then { r1 with head := 0, tail := 0 }
      else if size < 4 ∨ 12 < size then { r1 with badcfg := true }
      else { r1 with en := true, stopped := false }
    { s with ring := s.ring.set ring r2 }

/-- A write of HR.TAIL by a function; a TAIL more than 2^SIZE ahead of HEAD stops the ring (R58). -/
def State.ringTail (s : State) (fn ring : Nat) (v : Word) : State :=
  let r := s.ring.get ring
  let tail := bits v 15 0
  if 64 ≤ ring ∨ r.owner ≠ fn then s
  else
    let far := decide (2 ^ r.size < (tail + 2 ^ 16 - r.head) % 2 ^ 16)
    { s with ring := s.ring.set ring { r with tail := tail, badcfg := r.badcfg || far, stopped := r.stopped || far } }

/-- A write by a function to a register of a host ring in BAR0 (R58): HR.BASE, HR.CTL, HR.TAIL, and HR.STAT, whose BADCFG a 1 clears. -/
def State.ringWrite (s : State) (fn off : Nat) (v : Word) : State :=
  let ring := (off - 0x10000) / 0x40
  if off < 0x10000 ∨ 64 ≤ ring ∨ (s.ring.get ring).owner ≠ fn then s
  else
    match (off - 0x10000) % 0x40 with
    | 0x00 => { s with ring := s.ring.modify ring (fun r => { r with base := ofN (bits v 63 12 * 4096) }) }
    | 0x08 => s.ringCtl fn ring v
    | 0x10 => s.ringTail fn ring v
    | 0x20 => if bit v 1 then { s with ring := s.ring.modify ring (fun r => { r with badcfg := false }) } else s
    | _ => s

/-- A provisioning command at a physical address: 64 bytes, the 1,312-byte public key and the 2,420-byte signature over the 64 bytes
(DESIGN CHOICE, log entry 23). One that Avmugar has signed raises G by one and sets a new ξ; a device whose G is 255 cannot be
provisioned (R71, R74). -/
def State.provision (s : State) (pa : Nat) : State :=
  let key := s.bytesAt (pa + 64) 1312
  if s.sec.gen < 255 ∧ Config.sha3 key = Config.rootKeyHash ∧
      Config.verify key (s.bytesAt pa 64) (s.bytesAt (pa + 64 + 1312) 2420) = true then
    { s with sec := { s.sec with gen := s.sec.gen + 1, idKey := true, xi := Security.seed (s.sec.gen + 1) } }
  else s

/-- Settings of the management core's firmware for which the spec names the writer but no register (DESIGN CHOICE, log entry 23): the
function of a ring, the base and size of a sealed region, the partition and members of a multicast group, and provisioning. -/
def State.firmwareWrite (s : State) (off : Nat) (v : Word) : State :=
  let n := off % 0x1000
  match off / 0x1000 with
  | 0 => { s with ring := s.ring.modify (n % 64) (fun r => { r with owner := bits v 5 0 }) }
  | 1 => { s with sealed_ := s.sealed_.modify (n % 8) (fun r => { r with base := bits v 38 21 * 2 ^ 21 }) }
  | 2 => { s with sealed_ := s.sealed_.modify (n % 8) (fun r => { r with size := bits v 17 0 * 2 ^ 21 }) }
  | 3 => { s with net := { s.net with groups := s.net.groups.modify (n % 64) (fun g =>
      { g with part := if bit v 63 then some (bits v 3 0) else none }) } }
  | 4 =>
    let m : BitVec 4096 := BitVec.ofNat 4096 (2 ^ bits v 11 0)
    { s with net := { s.net with groups := s.net.groups.modify (n % 64) (fun g =>
        { g with members := if bit v 63 then g.members ||| m else g.members &&& ~~~m }) } }
  | 5 => s.provision v.toNat
  | 6 => { s with sec := { s.sec with
      keys := if s.sec.keys.contains (n % 16) then s.sec.keys else s.sec.keys ++ [n % 16],
      slots := s.sec.slots.set (n % 16) (s.bytesAt v.toNat 32) } }
  | _ => s

/-- REGISTER_WRITE: a write to a register under its Access column; one at no register has no effect. Offsets from 2^48 stand for BAR0
of function [39:32], and from 2^49 for firmware settings (DESIGN CHOICE, log entry 23). -/
def execRegisterWrite (off : Nat) (v : Word) (s : State) : Host.Outcome State Fault Refusal :=
  runEvent (fun s =>
    if off < 2 ^ 48 then
      match regAt off with
      | some r => s.regWrite r v
      | none => s
    else if off < 2 ^ 49 then
      s.hostWritten (fun x => x.ringWrite ((off - 2 ^ 48) / 2 ^ 32) ((off - 2 ^ 48) % 2 ^ 32) v)
    else s.firmwareWrite (off - 2 ^ 49) v) s

end Sys2Proof.Machine
end

