-- ==== Sys2Proof/Machine/Host.lean ====
section
/-! DEFINITION. The Cidan Link, the adapter, host rings and commands, sealed regions' gates, attestation, and the partition table (R53
to R68, R71). -/

namespace Sys2Proof.Machine

/-- A feature that both ends have agreed (R55). A command that has been taken keeps it while the link is not UP (R56). -/
def State.linkFeature (s : State) (k : Nat) : Bool := bit s.link.feat k

/-! ## Completions (R56, R60) -/

/-- The records of a ring that may be written now: in the order its commands were taken, while the link is up. -/
def flushRing : Nat → State → Nat → State
  | 0, s, _ => s
  | n + 1, s, k =>
    let r := s.ring.get k
    match r.held.find? (fun c => c.idx == r.written) with
    | none => s
    | some c =>
      flushRing n { s with ring := s.ring.set k { r with written := r.written + 1, held := r.held.filter (fun x => x.idx != c.idx) },
                           hostOut := s.hostOut ++ [c] } k

def State.flush (s : State) (k : Nat) : State := if s.linkUp then flushRing (s.ring.get k).held.length s k else s

/-- HOST_CMD_COMPLETE: a command's record is written and its interrupt raised, after the earlier records of its ring; while the link
is not UP it is held (R56, R60). -/
def execHostCmdComplete (c : HostCompletion) (s : State) : Host.Outcome State Fault Refusal :=
  runEvent (fun s => ({ s with ring := s.ring.modify c.ring (fun r => { r with held := r.held ++ [c] }) } : State).flush c.ring) s

/-! ## The Cidan Link (R54, R55) -/

/-- The link is DEAD, and the management core is told. -/
def State.linkDead (s : State) : State :=
  { s with link := { s.link with state := 4, failed := 0, idle := false }, mgmtLog := s.mgmtLog ++ [.linkDead] }

/-- CIDAN_LINK_FLIT: a flit of the link; its CRC failures are replayed, and the eighth failed replay in a row of one flit enters RECOVERY
(R54): the ninth failure, since the first is of no replay. -/
def execCidanLinkFlit (crcOk : Bool) (s : State) : Host.Outcome State Fault Refusal :=
  runEvent (fun s =>
    if !s.linkUp then s
    else if crcOk then { s with link := { s.link with failed := 0, idle := false } }
    else if 8 ≤ s.link.failed then { s with link := { s.link with state := 3, failed := 0, idle := false } }
    else { s with link := { s.link with failed := s.link.failed + 1 } }) s

/-- CIDAN_LINK_TRAINING_DONE: training or recovery succeeds, and the link is UP at the lower minor version with the features that both
ends name; a different major version keeps it in TRAINING with VMISMATCH, and is a recovery that fails; that leaves the link DEAD (R35,
R54, R55). -/
def execCidanLinkTrainingDone (ok : Bool) (version : BitVec 32) (features : Word) (s : State) :
    Host.Outcome State Fault Refusal :=
  runEvent (fun s =>
    if s.link.state ≠ 1 ∧ s.link.state ≠ 3 then s
    else if !ok then if s.link.state = 3 then s.linkDead else s
    else if version.toNat / 2 ^ 24 ≠ 1 then
      let s1 : State := { s with link := { s.link with vmismatch := true } }
      if s.link.state = 3 then s1.linkDead else s1
    else
      (List.range 64).foldl State.flush
        { s with link := { s.link with state := 2, failed := 0, idle := false, ver := 0, feat := ofN (bits features 3 0) } }) s

/-- CIDAN_LANE_LOCK_TIMEOUT: lane lock has been lost for 2^16 ac (R54). -/
def execCidanLaneLockTimeout (s : State) : Host.Outcome State Fault Refusal :=
  runEvent (fun s => if s.link.state = 0 || s.link.state = 4 then s else s.linkDead) s

/-- LOW_POWER_IDLE, where it is agreed (R55). -/
def execLowPowerIdle (s : State) : Host.Outcome State Fault Refusal :=
  runEvent (fun s => if s.linkUp && s.linkFeature 3 then { s with link := { s.link with idle := true } } else s) s

def execLowPowerIdleExit (s : State) : Host.Outcome State Fault Refusal :=
  runEvent (fun s => { s with link := { s.link with idle := false } }) s

/-! ## The adapter (R53, R56, R57) -/

/-- The adapter answers a read. -/
def State.barAnswer (s : State) (tag : Word) (bs : List Byte) : State := { s with aperture := s.aperture ++ [(tag, some bs)] }

/-- PEER_TO_PEER_REJECT: Unsupported Request (R53). -/
def execPeerToPeerReject (tag : Word) (s : State) : Host.Outcome State Fault Refusal :=
  runEvent (fun s => { s with aperture := s.aperture ++ [(tag, none)] }) s

/-- A read of BAR0 by a function (R56, R58): ADP.DROP for a PF; the registers of a ring, which read zero in a function that does not own it;
WO and reserved fields read zero (R7). What stands at any other offset is not stated: free (DESIGN CHOICE, log entry 69). -/
def State.barRead (s : State) (fn off : Nat) : Word × State :=
  let ring := (off - 0x10000) / 0x40
  let r := s.ring.get ring
  let mine (w : Word) : Word := if r.owner = fn then w else 0
  if fn % 32 = 0 ∧ off = 8 then (ofN s.link.drop, s)
  else if 0x10000 ≤ off ∧ ring < 64 then
    (mine (match (off - 0x10000) % 0x40 with
     | 0x00 => r.base
     | 0x08 => ofN (r.en.toNat * 2 ^ 63 + r.sc * 2 ^ 20 + r.size * 2 ^ 11 + r.vec)
     | 0x10 => ofN r.tail
     | 0x18 => ofN r.head
     | 0x20 => ofN (r.badcfg.toNat * 2 + r.stopped.toNat)
     | _ => 0), s)
  else s.freeW

/-- BAR_ACCESS_LINK_DOWN: an access of BAR0. While the link is not UP, reads complete with ones, and writes are discarded and counted (R56);
while it is UP, they are the accesses of R58 (DESIGN CHOICE, log entry 69). -/
def execBarAccessLinkDown (write : Bool) (a : BarAccess) (s : State) : Host.Outcome State Fault Refusal :=
  runEvent (fun s =>
    if write then s.hostWritten (fun x => x.ringWrite a.fn a.off a.value)
    else if s.linkUp then (let (w, x) := s.barRead a.fn a.off; x.barAnswer a.tag (bytesOf w.toNat 8))
    else s.barAnswer a.tag (List.replicate 8 0xFF)) s

/-! ## Service cores (R57) -/

/-- The die and the mesh quadrant that a service core serves. -/
def serviceDie (sc : Nat) : Nat := sc / 4
def serviceQuadrant (sc : Nat) : Nat := sc % 4

/-- The service core that handles every PF aperture access to a physical address: bits [38:35]. -/
def apertureCore (pa : Nat) : Nat := pa / 2 ^ 35 % 16

/-- A byte of the hidden region, or of a sealed region, is closed to the aperture (R57, R66). DEDUCED, log entry 33. -/
def State.byteClosed (s : State) (a : Nat) : Bool := hidden a || (s.sealedAt a).isSome

/-- An access of the aperture that touches a closed byte. -/
def State.apertureClosed (s : State) (pa n : Nat) : Bool := (List.range n).any (fun j => s.byteClosed (pa + j))

/-- Accesses of the aperture by one service core are performed in the order in which they arrive (R61): one that is given to the adapter
while an earlier one of its service core still waits goes behind it. -/
def State.apertureTurn (s : State) (pa : Nat) (e : Event) (f : State → State) : State :=
  let waits := s.agenda.any (fun x =>
    match x with
    | .apertureRead a _ _ => apertureCore a == apertureCore pa
    | .apertureWrite a _ => apertureCore a == apertureCore pa
    | _ => false)
  if waits && s.turn != .event e then s.push e else f s

/-- What the aperture reads: closed bytes read zero (R57). -/
def State.readOpen (s : State) (pa : Nat) (bs : List Byte) : List Byte :=
  ((List.range bs.length).zip bs).map (fun p => if s.byteClosed (pa + p.1) then 0 else p.2)

/-- What the aperture writes: closed bytes keep what they hold (R57). -/
def State.writeOpen (s : State) (pa : Nat) (bs : List Byte) : List Byte :=
  ((List.range bs.length).zip bs).map (fun p => if s.byteClosed (pa + p.1) then memRead s.mem (pa + p.1) else p.2)

/-- What the accesses of the host do before they act, for each partition whose tasks may be speculative (R99, R135, R137). -/
def hostEnter (loc n : Nat) (write : Bool) : Act Unit := do
  let s ← get
  ((List.range 16).filter (fun p => (s.part.get p).state == 2 || (s.part.get p).state == 3)).forM
    (fun p => remoteEnter p loc n write)
  if s.ownedRange loc n then stall
  modify (fun x => x.recallRange loc n)

/-- The value of a line with an uncorrectable error as the host reads it is not stated: free (DESIGN CHOICE, log entry 1). -/
def State.hostBytes (s : State) (loc n : Nat) : List Byte × State :=
  if s.badRange loc n then
    ((List.range n).map (fun j => BitVec.ofNat 8 (Config.freeNat (s.free + j))), { s with free := s.free + n })
  else (s.bytesAt loc n, s)

/-- APERTURE_READ (R57). -/
def execApertureRead (pa n : Nat) (tag : Word) (s : State) : Host.Outcome State Fault Refusal :=
  runEvent (fun s =>
    if !s.linkUp then s.barAnswer tag (List.replicate n 0xFF)
    else
      s.apertureTurn pa (.apertureRead pa n tag) (fun s => s.runEvAct (.apertureRead pa n tag) (do
        hostEnter pa n false
        modify (fun x =>
          let (bs, y) := x.hostBytes pa n
          if y.apertureClosed pa n then y.countDrop.barAnswer tag (y.readOpen pa bs) else y.barAnswer tag bs)))) s

/-- APERTURE_WRITE (R57). Closed lines keep their ECC mark (R23). -/
def execApertureWrite (pa : Nat) (bytes : List Byte) (s : State) : Host.Outcome State Fault Refusal :=
  runEvent (fun s =>
    if !s.linkUp then s.countDrop
    else
      s.apertureTurn pa (.apertureWrite pa bytes) (fun s => s.runEvAct (.apertureWrite pa bytes) (do
        hostEnter pa bytes.length true
        modify (fun x =>
          if x.apertureClosed pa bytes.length then
            let y := x.putBytes pa (x.writeOpen pa bytes)
            ({ y with badLines := x.badLines.filter (fun l => y.badLines.contains l || x.byteClosed (64 * l)) } : State).countDrop
          else x.putBytes pa bytes)))) s

/-! ## Host rings (R58) -/

/-- HR_CTL_WRITE by a function (R58). -/
def execHrCtlWrite (fn ring : Nat) (v : Word) (s : State) : Host.Outcome State Fault Refusal :=
  runEvent (fun s => s.hostWritten (fun x => x.ringCtl fn ring v)) s

/-- HR_TAIL_WRITE by a function: a doorbell (R58). -/
def execHrTailWrite (fn ring : Nat) (v : Word) (s : State) : Host.Outcome State Fault Refusal :=
  runEvent (fun s => s.hostWritten (fun x => x.ringTail fn ring v)) s

/-! ## Commands (R59 to R61) -/

/-- Commands of a service core that it has taken and not completed. -/
def State.openCmds (s : State) (sc : Nat) : Bool :=
  s.ring.cells.any (fun r => r.2.sc == sc && r.2.taken != r.2.written + r.2.held.length)

/-- A ring offers its service core a command: it is enabled, not stopped, not empty, and has room for held completions (R56, R58). -/
def State.offers (s : State) (sc ring : Nat) : Bool :=
  let r := s.ring.get ring
  r.en && !r.stopped && r.head != r.tail && r.sc == sc && (s.linkUp || decide (r.taken - r.written < 4096))

/-- The ring whose command a service core takes next: round robin in ascending ring number (R61). -/
def State.nextRing (s : State) (sc : Nat) : Option Nat :=
  ((List.range 64).map (fun j => (s.ringNext.get sc + j) % 64)).find? (s.offers sc)

/-- A LAUNCH of a service core that has yet to enter its queue: its next command waits (R61). -/
def State.launchOut (s : State) (sc : Nat) : Bool :=
  s.agenda.any (fun e =>
    match e with
    | .launchSubmit r => r.host.any (fun k => k.sc == sc)
    | _ => false)

/-- The service core may take the command: its ring is the next, and WAITALL is met (R59, R61). -/
def State.canTake (s : State) (c : HostCmd) : Bool :=
  s.nextRing c.sc == some c.ring && !s.launchOut c.sc && !(c.waitall && s.openCmds c.sc)

/-- The command is taken: HEAD and the round robin move on (R58, R61). -/
def State.take (s : State) (c : HostCmd) : State :=
  { s with ring := s.ring.modify c.ring (fun r => { r with head := (r.head + 1) % 2 ^ 16, taken := r.taken + 1 }),
           ringNext := s.ringNext.set c.sc ((c.ring + 1) % 64) }

/-- The VF that a command's ring belongs to, and so the partition it serves; none for a PF (R53, R59). -/
def State.cmdVf (s : State) (c : HostCmd) : Option Nat :=
  let fn := (s.ring.get c.ring).owner % 32
  if fn = 0 then none else some (fn - 1)

/-- The completion of a command about to be taken. -/
def State.completion (s : State) (c : HostCmd) (status : Nat) (faddr : Word) (data : List Byte) : HostCompletion :=
  let r := s.ring.get c.ring
  { sc := c.sc, ring := c.ring, idx := r.taken, cpl := c.cpl, haddr := c.haddr, tag := c.tag, status := status, faddr := faddr,
    irq := c.irq, vec := r.vec, data := data }

/-- A PF command's address is physical when ARG1[63] is 1, and else, as a VF's, partition virtual (R59; DEDUCED, log entry 24). -/
def State.cmdVirtual (s : State) (c : HostCmd) : Bool := (s.cmdVf c).isSome || !bit c.arg1 63

/-- The partition that a command names: a VF's own; for the PF, that of PART where the command uses one (R59; DEDUCED, log entry 24). -/
def State.cmdNames (s : State) (c : HostCmd) (uses : Bool) : Option Nat :=
  match s.cmdVf c with
  | some k => some k
  | none => if uses then some c.part else none

/-- A command is refused (R59). -/
def State.cmdBad (s : State) (c : HostCmd) (uses aligned : Bool) : Bool :=
  decide (6 < c.op) || !c.reservedZero || ((s.cmdVf c).isSome && c.part != 0) || !aligned || decide (2 ^ 32 < c.len) ||
    (match s.cmdNames c uses with
     | some p => decide (16 ≤ p) || (s.part.get p).state != 2
     | none => false)

/-- A command of operation `op`, or a reserved one: it is taken; refused, or performed by `f`, which gives its status, its faulting
address and what a read returns; and it completes. What must wait is tried again. -/
def hostCmd (c : HostCmd) (op : Nat) (again : Event) (uses aligned : Bool) (f : Act (Option (Nat × Word × List Byte)))
    (s : State) : State :=
  if !s.canTake c || (c.op != op && decide (c.op ≤ 6)) then s
  else if s.cmdBad c uses aligned then
    (s.take c).push (.hostCmdComplete (s.completion c stREFUSED 0 []))
  else
    s.runEvAct again (do
      let k := s.completion c stOK 0 []
      let r ← f
      modify (fun x =>
        match r with
        | some (st, fa, bs) => (x.take c).push (.hostCmdComplete { k with status := st, faddr := fa, data := bs })
        | none => x.take c))

/-- HOST_NOP (R59). -/
def execHostNop (c : HostCmd) (s : State) : Host.Outcome State Fault Refusal :=
  runEvent (hostCmd c 0 (.hostNop c) false true (return some (stOK, 0, []))) s

/-- The location of an address of a command: by the partition's tables, or physical (R59). A sealed region takes a physical WRITE (`region`)
while its gate is DRAINED, and nothing else (R66, R67). -/
def hostLoc (part : Option Nat) (va : Nat) (write region : Bool) : Act (Option Nat) := do
  match part with
  | some p =>
    match ← actionLoc p va (if write then .write else .read) with
    | .ok loc => return some loc
    | .error _ => return none
  | none =>
    let s ← get
    if 2 ^ 39 ≤ va || hidden va then return none
    else
      match s.sealedAt va with
      | some r => return if region && (s.sealed_.get r).gate == 2 then some va else none
      | none => return some va

/-- Bytes up to the end of the page of an address, and no more than `n`. -/
def pageChunk (va n : Nat) : Nat := min n (4096 - va % 4096)

/-- A WRITE or a SIGNAL, page by page: none, or the first address that faulted (R60). -/
def hostWrite (part : Option Nat) (region : Bool) : Nat → Nat → List Byte → Act (Option Nat)
  | 0, _, _ => return none
  | _, _, [] => return none
  | n + 1, va, bs => do
    match ← hostLoc part va true region with
    | none => return some va
    | some loc =>
      let k := pageChunk va bs.length
      hostEnter loc k true
      modify (fun s => s.putBytes loc (bs.take k))
      hostWrite part region n (va + k) (bs.drop k)

/-- A READ, page by page: the bytes, and the first address that faulted. -/
def hostRead (part : Option Nat) : Nat → Nat → Nat → Act (List Byte × Option Nat)
  | 0, _, _ => return ([], none)
  | n + 1, va, len => do
    if len = 0 then return ([], none)
    match ← hostLoc part va false false with
    | none => return ([], some va)
    | some loc =>
      let k := pageChunk va len
      hostEnter loc k false
      let s ← get
      let (bs, s1) := s.hostBytes loc k
      set s1
      let (rest, f) ← hostRead part n (va + k) (len - k)
      return (bs ++ rest, f)

/-- The partition whose tables a command's address goes through. -/
def State.cmdTables (s : State) (c : HostCmd) : Option Nat := if s.cmdVirtual c then s.cmdNames c true else none

/-- HOST_WRITE (R59, R60). -/
def execHostWrite (c : HostCmd) (s : State) : Host.Outcome State Fault Refusal :=
  runEvent (hostCmd c 1 (.hostWrite c) (s.cmdVirtual c) (decide (c.daddr.toNat % 64 = 0) && decide (c.haddr.toNat % 64 = 0)) (do
    let bs := c.data.take c.len
    match ← hostWrite (s.cmdTables c) true (c.len / 4096 + 2) c.daddr.toNat bs with
    | none => return some (stOK, 0, [])
    | some a => return some (stREFUSED, ofN a, []))) s

/-- HOST_READ (R59, R60). -/
def execHostRead (c : HostCmd) (s : State) : Host.Outcome State Fault Refusal :=
  runEvent (hostCmd c 2 (.hostRead c) (s.cmdVirtual c) (decide (c.daddr.toNat % 64 = 0) && decide (c.haddr.toNat % 64 = 0)) (do
    let (bs, f) ← hostRead (s.cmdTables c) (c.len / 4096 + 2) c.daddr.toNat c.len
    match f with
    | none => return some (stOK, 0, bs)
    | some a => return some (stREFUSED, ofN a, bs))) s

/-- HOST_LAUNCH: the body is submitted to queue ARG0[5:0] of the command's partition (R59, R60). -/
def execHostLaunch (c : HostCmd) (s : State) : Host.Outcome State Fault Refusal :=
  runEvent (hostCmd c 3 (.hostLaunch c) true true (do
    let s ← get
    let q := bits c.arg0 5 0
    let p := (s.cmdNames c true).getD 0
    if s.partOfQueue q ≠ some p then return some (stREFUSED, 0, [])
    else
      modify (fun x => x.push (.launchSubmit
        { q := q, part := p, record := c.body, reply := none, host := some (s.completion c stOK 0 []) }))
      return none)) s

/-- HOST_SIGNAL: 64 bits are stored (R59). -/
def execHostSignal (c : HostCmd) (s : State) : Host.Outcome State Fault Refusal :=
  runEvent (hostCmd c 4 (.hostSignal c) (s.cmdVirtual c) (decide (c.daddr.toNat % 8 = 0)) (do
    match ← hostWrite (s.cmdTables c) false 2 c.daddr.toNat (bytesOf c.arg0.toNat 8) with
    | none => return some (stOK, 0, [])
    | some a => return some (stREFUSED, ofN a, []))) s

/-! ## Gates (R67, R68) -/

def State.modSealed (s : State) (r : Nat) (f : Sealed → Sealed) : State := { s with sealed_ := s.sealed_.modify r f }

/-- A command that reaches the management core (R445; DEDUCED, log entry 25). -/
def State.toMgmt (s : State) : State := { s with mgmtCmds := s.mgmtCmds + 1 }

/-- GATE_CLOSE (R55, R67). -/
def execGateClose (c : HostCmd) (s : State) : Host.Outcome State Fault Refusal :=
  runEvent (fun s =>
    if bit c.arg1 0 then s
    else
      hostCmd c 5 (.gateClose c) false true (do
        let s ← get
        let r := bits c.arg0 2 0
        let g := s.sealed_.get r
        modify State.toMgmt
        if bit c.arg1 1 && !s.linkFeature 1 then return some (stREFUSED, 0, [])
        else if g.gate = 2 then return some (stOK, 0, [])
        else
          modify (fun x =>
            let y := x.modSealed r (fun k => { k with gate := 1, waiting := k.waiting ++ [s.completion c stOK 0 []] })
            if g.count = 0 then y.push (.gateDrained r) else y)
          return none) s) s

/-- GATE_DRAINED: the closes complete with OK (R67, R68). -/
def execGateDrained (region : Nat) (s : State) : Host.Outcome State Fault Refusal :=
  runEvent (fun s =>
    let g := s.sealed_.get region
    if g.gate ≠ 1 ∨ g.count ≠ 0 then s
    else
      (s.modSealed region (fun k => { k with gate := 2, waiting := [] })).pushAll (g.waiting.map Event.hostCmdComplete)) s

/-- GATE_OPEN (R55, R67, R68, R70). -/
def execGateOpen (c : HostCmd) (s : State) : Host.Outcome State Fault Refusal :=
  runEvent (fun s =>
    if !bit c.arg1 0 then s
    else
      hostCmd c 5 (.gateOpen c) false true (do
        let s ← get
        let r := bits c.arg0 2 0
        let g := s.sealed_.get r
        let opened (x : State) : State := x.modSealed r (fun k => { k with gate := 0, waiting := [] })
        modify State.toMgmt
        if bit c.arg1 1 && !s.linkFeature 1 then return some (stREFUSED, 0, [])
        else if g.gate = 1 then
          modify (fun x => (opened x).pushAll (g.waiting.map (fun k => Event.hostCmdComplete { k with status := stREFUSED })))
          return some (stOK, 0, [])
        else if g.gate = 2 && bit c.arg1 1 then
          let digest := Config.sha3 (s.bytesAt g.base g.size)
          if digest = c.body.take 32 then
            modify (fun x => (opened x).extendMeas 3 (bytesOf r 1 ++ digest))
            return some (stOK, 0, [])
          else return some (stNOMATCH, 0, [])
        else
          modify opened
          return some (stOK, 0, [])) s) s

/-! ## Attestation (R71) -/

/-- The signed body of a report, 256 bytes. -/
def State.reportBody (s : State) (c : HostCmd) : List Byte :=
  let entry := match s.cmdVf c with
    | some p => Config.sha3 (bytesOfWords (partWords (s.part.get p)))
    | none => List.replicate 32 0
  bytesOf 1 4 ++ bytesOf s.sec.flag.toNat 4 ++ bytesOf Config.serial.toNat 8 ++ padTo 32 c.body ++ s.sec.meas.flatMap (padTo 32) ++
    padTo 32 entry ++ bytesOf isaVer.toNat 4 ++ bytesOf s.sec.gen 4 ++ bytesOf s.isaFeat.toNat 8 ++
    padTo 32 (Config.sha3 (bytesOfWords ((List.range 4).map s.fuse.get)))

/-- ATTEST (R55, R59, R71). -/
def execAttest (c : HostCmd) (s : State) : Host.Outcome State Fault Refusal :=
  runEvent (hostCmd c 6 (.attest c) false true (do
    let s ← get
    modify State.toMgmt
    if !s.linkFeature 0 || decide (c.len < 2676) || s.sec.recovery || !s.sec.idKey then return some (stREFUSED, 0, [])
    else
      let body := s.reportBody c
      return some (stOK, 0, body ++ padTo 2420 (Config.sign s.sec.xi body)))) s

/-! ## The partition table (R64) -/

/-- The span of a scorebook may not stand there (R64). -/
def State.scorebookBad (s : State) (e : PartEntry) : Bool :=
  let b := e.sbbase.toNat
  let l := e.sblim.toNat
  b != 0 && (b % 4096 != 0 || l % 4096 != 0 || decide (l ≤ b) || decide (2 ^ 39 - 2 ^ 26 < l) ||
    (List.range 8).any (fun r =>
      let g := s.sealed_.get r
      g.size != 0 && decide (b < g.base + g.size) && decide (g.base < l)))

/-- A field that may change only in certain states has changed (R64). A write that takes a FREE entry to BUILDING builds it. -/
def State.frozen (s : State) (part : Nat) (e : PartEntry) : Bool :=
  let o := s.part.get part
  let building := o.state == 1 || (o.state == 0 && e.state == 1)
  let open_ := building || o.state == 3 || o.state == 4
  (!open_ && (e.clmask != o.clmask || e.qmask != o.qmask || e.ptroot != o.ptroot || e.key != o.key)) ||
    (!building && (e.tanch != o.tanch || e.sbbase != o.sbbase || e.sblim != o.sblim))

/-- A write of an entry is refused (R24, R64, R73). DEDUCED, log entry 34. -/
def State.entryBad (s : State) (part : Nat) (e : PartEntry) : Bool :=
  let others := (List.range 16).filter (fun p => p != part && (s.part.get p).state != 0)
  decide (16 ≤ part) || decide (5 < e.state) ||
    others.any (fun p => e.clmask &&& (s.part.get p).clmask != 0 || e.qmask &&& (s.part.get p).qmask != 0) ||
    (List.range 8).any (fun v => PartEntry.mode e v == 3 || (PartEntry.mode e v == 0 && !e.noneok)) ||
    !(decide (e.supv < 1920) && e.clmask.getLsbD (e.supv / 8)) || !s.sec.keys.contains e.key || decide (s.devices ≤ e.tanch) ||
    s.scorebookBad e || s.frozen part e || (s.part.get part).state == 0 && (s.sec.noNewParts || decide (s.sec.boot < 7))

/-- PARTITION_ENTRY_WRITE: the entry is checked as a whole (R64). Clusters that leave have their arrays erased, and one whose
arrays are still to be erased is not given before (R194); building the
entry writes the partition's range table (R154); entering RUNNING extends MEAS3 (R69, R70). -/
def execPartitionEntryWrite (part : Nat) (e : PartEntry) (s : State) : Host.Outcome State Fault Refusal :=
  runEvent (fun s =>
    let x := s.toMgmt
    let e' : PartEntry := { e with clmask := e.clmask &&& BitVec.ofNat 256 (2 ^ 240 - 1), ptroot := ofN (bits e.ptroot 51 12 * 4096) }
    if x.entryBad part e' then x
    else if (List.range 240).any (fun c => e'.clmask.getLsbD c && s.erasing c) then s.push (.partitionEntryWrite part e)
    else
      let o := x.part.get part
      let gone := (List.range 240).filter (fun c => o.state != 0 && o.clmask.getLsbD c && !e'.clmask.getLsbD c)
      let x1 : State := { x with part := x.part.set part e' }
      let y := gone.foldl State.eraseArrays x1
      let z : State :=
        if e'.state = 1 then
          let all : RangeEntry := { lo := 0, last := 0xFFFFFFFF, dev := e'.tanch, moving := false }
          { y with range := y.range.set part { entries := [all], tver := 0 } }
        else y
      if e'.state = 2 ∧ o.state ≠ 2 then z.extendMeas 3 (bytesOfWords (partWords e')) else z) s

end Sys2Proof.Machine
end

