-- ==== Sys2Proof/Machine/Dispatch.lean ====
section
/-! DEFINITION. The one dispatch: every instruction of the opcode table, and every event, to its meaning. -/

namespace Sys2Proof.Machine

/-- The effect of one instruction or event. -/
def exec (i : Instr) (s : State) : Host.Outcome State Fault Refusal :=
  match i with
  | .br target => Sys2Proof.Machine.execBr target s
  | .bcc cond sa sb target => Sys2Proof.Machine.execBcc cond sa sb target s
  | .bz a target => Sys2Proof.Machine.execBz a target s
  | .bnz a target => Sys2Proof.Machine.execBnz a target s
  | .call a target => Sys2Proof.Machine.execCall a target s
  | .calli a sa => Sys2Proof.Machine.execCalli a sa s
  | .ret sa => Sys2Proof.Machine.execRet sa s
  | .jmpi sa => Sys2Proof.Machine.execJmpi sa s
  | .loop a target => Sys2Proof.Machine.execLoop a target s
  | .sleep sa mask => Sys2Proof.Machine.execSleep sa mask s
  | .brk n => Sys2Proof.Machine.execBrk n s
  | .trapi n => Sys2Proof.Machine.execTrapi n s
  | .ldi a imm => Sys2Proof.Machine.execLdi a imm s
  | .add a sa sb ty sat => Sys2Proof.Machine.execAdd a sa sb ty sat s
  | .sub a sa sb ty sat => Sys2Proof.Machine.execSub a sa sb ty sat s
  | .mul a sa sb ty sat => Sys2Proof.Machine.execMul a sa sb ty sat s
  | .mulh a sa sb ty => Sys2Proof.Machine.execMulh a sa sb ty s
  | .mulhn a sa sb ty => Sys2Proof.Machine.execMulhn a sa sb ty s
  | .div a sa sb ty => Sys2Proof.Machine.execDiv a sa sb ty s
  | .divn a sa sb ty => Sys2Proof.Machine.execDivn a sa sb ty s
  | .rem a sa sb ty => Sys2Proof.Machine.execRem a sa sb ty s
  | .remn a sa sb ty => Sys2Proof.Machine.execRemn a sa sb ty s
  | .min a sa sb ty => Sys2Proof.Machine.execMin a sa sb ty s
  | .max a sa sb ty => Sys2Proof.Machine.execMax a sa sb ty s
  | .minn a sa sb ty => Sys2Proof.Machine.execMinn a sa sb ty s
  | .maxn a sa sb ty => Sys2Proof.Machine.execMaxn a sa sb ty s
  | .seq a sa sb ty => Sys2Proof.Machine.execSeq a sa sb ty s
  | .slt a sa sb ty => Sys2Proof.Machine.execSlt a sa sb ty s
  | .sltn a sa sb ty => Sys2Proof.Machine.execSltn a sa sb ty s
  | .and a sa sb ty => Sys2Proof.Machine.execAnd a sa sb ty s
  | .or a sa sb ty => Sys2Proof.Machine.execOr a sa sb ty s
  | .xor a sa sb ty => Sys2Proof.Machine.execXor a sa sb ty s
  | .andn a sa sb ty => Sys2Proof.Machine.execAndn a sa sb ty s
  | .shl a sa sb ty => Sys2Proof.Machine.execShl a sa sb ty s
  | .shr a sa sb ty => Sys2Proof.Machine.execShr a sa sb ty s
  | .sra a sa sb ty => Sys2Proof.Machine.execSra a sa sb ty s
  | .rol a sa sb ty => Sys2Proof.Machine.execRol a sa sb ty s
  | .clz a sa ty => Sys2Proof.Machine.execClz a sa ty s
  | .ctz a sa ty => Sys2Proof.Machine.execCtz a sa ty s
  | .popc a sa ty => Sys2Proof.Machine.execPopc a sa ty s
  | .bswp a sa ty => Sys2Proof.Machine.execBswp a sa ty s
  | .sext a sa ty => Sys2Proof.Machine.execSext a sa ty s
  | .zext a sa ty => Sys2Proof.Machine.execZext a sa ty s
  | .mov a sa ty => Sys2Proof.Machine.execMov a sa ty s
  | .addi a sa imm => Sys2Proof.Machine.execAddi a sa imm s
  | .andi a sa imm => Sys2Proof.Machine.execAndi a sa imm s
  | .ori a sa imm => Sys2Proof.Machine.execOri a sa imm s
  | .xori a sa imm => Sys2Proof.Machine.execXori a sa imm s
  | .shli a sa count => Sys2Proof.Machine.execShli a sa count s
  | .shri a sa count => Sys2Proof.Machine.execShri a sa count s
  | .srai a sa count => Sys2Proof.Machine.execSrai a sa count s
  | .sel a sa sb sc => Sys2Proof.Machine.execSel a sa sb sc s
  | .lea a m => Sys2Proof.Machine.execLea a m s
  | .padd a sa sb => Sys2Proof.Machine.execPadd a sa sb s
  | .paddImm a sa imm => Sys2Proof.Machine.execPaddImm a sa imm s
  | .pset a sa fmt blog => Sys2Proof.Machine.execPset a sa fmt blog s
  | .pget a sa => Sys2Proof.Machine.execPget a sa s
  | .pstrip a sa => Sys2Proof.Machine.execPstrip a sa s
  | .pglb a sa => Sys2Proof.Machine.execPglb a sa s
  | .pchk a sa w => Sys2Proof.Machine.execPchk a sa w s
  | .bins a sa sb => Sys2Proof.Machine.execBins a sa sb s
  | .bext a sa lsb width => Sys2Proof.Machine.execBext a sa lsb width s
  | .ffcs a sa => Sys2Proof.Machine.execFfcs a sa s
  | .plset a sa sb limit => Sys2Proof.Machine.execPlset a sa sb limit s
  | .ld a m ty scp ord => Sys2Proof.Machine.execLd a m ty scp ord s
  | .st a m ty scp ord ch => Sys2Proof.Machine.execSt a m ty scp ord ch s
  | .pf m => Sys2Proof.Machine.execPf m s
  | .lock a m => Sys2Proof.Machine.execLock a m s
  | .unlock a m => Sys2Proof.Machine.execUnlock a m s
  | .lockq a m => Sys2Proof.Machine.execLockq a m s
  | .cwb m => Sys2Proof.Machine.execCwb m s
  | .cinv m => Sys2Proof.Machine.execCinv m s
  | .czero m => Sys2Proof.Machine.execCzero m s
  | .aadd a sa sb imm ty scp ord => Sys2Proof.Machine.execAadd a sa sb imm ty scp ord s
  | .aand a sa sb imm ty scp ord => Sys2Proof.Machine.execAand a sa sb imm ty scp ord s
  | .aor a sa sb imm ty scp ord => Sys2Proof.Machine.execAor a sa sb imm ty scp ord s
  | .axor a sa sb imm ty scp ord => Sys2Proof.Machine.execAxor a sa sb imm ty scp ord s
  | .amin a sa sb imm ty scp ord => Sys2Proof.Machine.execAmin a sa sb imm ty scp ord s
  | .amax a sa sb imm ty scp ord => Sys2Proof.Machine.execAmax a sa sb imm ty scp ord s
  | .aminn a sa sb imm ty scp ord => Sys2Proof.Machine.execAminn a sa sb imm ty scp ord s
  | .amaxn a sa sb imm ty scp ord => Sys2Proof.Machine.execAmaxn a sa sb imm ty scp ord s
  | .aswp a sa sb imm ty scp ord => Sys2Proof.Machine.execAswp a sa sb imm ty scp ord s
  | .acas a sa sb sc imm ty scp ord => Sys2Proof.Machine.execAcas a sa sb sc imm ty scp ord s
  | .affcs a sa imm ty scp ord => Sys2Proof.Machine.execAffcs a sa imm ty scp ord s
  | .aplset a sa sb sc imm ty scp ord => Sys2Proof.Machine.execAplset a sa sb sc imm ty scp ord s
  | .aupd sa sb op imm ty scp => Sys2Proof.Machine.execAupd sa sb op imm ty scp s
  | .fence scp ord => Sys2Proof.Machine.execFence scp ord s
  | .tfence scp => Sys2Proof.Machine.execTfence scp s
  | .bara a bar => Sys2Proof.Machine.execBara a bar s
  | .barw a bar sa => Sys2Proof.Machine.execBarw a bar sa s
  | .bart a bar => Sys2Proof.Machine.execBart a bar s
  | .barg a bar => Sys2Proof.Machine.execBarg a bar s
  | .migr a sa => Sys2Proof.Machine.execMigr a sa s
  | .vld a m ty => Sys2Proof.Machine.execVld a m ty s
  | .vst a m ty => Sys2Proof.Machine.execVst a m ty s
  | .vlds a sa sb imm ty mk => Sys2Proof.Machine.execVlds a sa sb imm ty mk s
  | .vldx a sa sb imm ty mk => Sys2Proof.Machine.execVldx a sa sb imm ty mk s
  | .vstx a sa sb imm ty mk => Sys2Proof.Machine.execVstx a sa sb imm ty mk s
  | .vadd a sa sb ty mk sat => Sys2Proof.Machine.execVadd a sa sb ty mk sat s
  | .vsub a sa sb ty mk sat => Sys2Proof.Machine.execVsub a sa sb ty mk sat s
  | .vmul a sa sb ty mk sat => Sys2Proof.Machine.execVmul a sa sb ty mk sat s
  | .vdiv a sa sb ty mk => Sys2Proof.Machine.execVdiv a sa sb ty mk s
  | .vmin a sa sb ty mk => Sys2Proof.Machine.execVmin a sa sb ty mk s
  | .vmax a sa sb ty mk => Sys2Proof.Machine.execVmax a sa sb ty mk s
  | .vfma a sa sb sc ty mk => Sys2Proof.Machine.execVfma a sa sb sc ty mk s
  | .vfms a sa sb sc ty mk => Sys2Proof.Machine.execVfms a sa sb sc ty mk s
  | .vand a sa sb ty mk => Sys2Proof.Machine.execVand a sa sb ty mk s
  | .vor a sa sb ty mk => Sys2Proof.Machine.execVor a sa sb ty mk s
  | .vxor a sa sb ty mk => Sys2Proof.Machine.execVxor a sa sb ty mk s
  | .vshl a sa sb ty mk => Sys2Proof.Machine.execVshl a sa sb ty mk s
  | .vshr a sa sb ty mk => Sys2Proof.Machine.execVshr a sa sb ty mk s
  | .vsra a sa sb ty mk => Sys2Proof.Machine.execVsra a sa sb ty mk s
  | .vsqrt a sa ty mk => Sys2Proof.Machine.execVsqrt a sa ty mk s
  | .vrsq a sa ty mk => Sys2Proof.Machine.execVrsq a sa ty mk s
  | .vrcp a sa ty mk => Sys2Proof.Machine.execVrcp a sa ty mk s
  | .vexp2 a sa ty mk => Sys2Proof.Machine.execVexp2 a sa ty mk s
  | .vlog2 a sa ty mk => Sys2Proof.Machine.execVlog2 a sa ty mk s
  | .vabs a sa ty mk => Sys2Proof.Machine.execVabs a sa ty mk s
  | .vneg a sa ty mk => Sys2Proof.Machine.execVneg a sa ty mk s
  | .vbc a sa ty mk => Sys2Proof.Machine.execVbc a sa ty mk s
  | .vcmp cond a sa sb ty mk => Sys2Proof.Machine.execVcmp cond a sa sb ty mk s
  | .vsel a sa sb sc ty => Sys2Proof.Machine.execVsel a sa sb sc ty s
  | .vred a sa op ty mk => Sys2Proof.Machine.execVred a sa op ty mk s
  | .vscan a sa op ty mk => Sys2Proof.Machine.execVscan a sa op ty mk s
  | .vperm a sa sb ty mk => Sys2Proof.Machine.execVperm a sa sb ty mk s
  | .vshuf a sa sb pattern ty mk => Sys2Proof.Machine.execVshuf a sa sb pattern ty mk s
  | .vins a sa lane ty mk => Sys2Proof.Machine.execVins a sa lane ty mk s
  | .vext a sa lane wsel => Sys2Proof.Machine.execVext a sa lane wsel s
  | .vcvt a sa dcode scode part mk => Sys2Proof.Machine.execVcvt a sa dcode scode part mk s
  | .venc a sa code part mk => Sys2Proof.Machine.execVenc a sa code part mk s
  | .vdec a sa code part mk => Sys2Proof.Machine.execVdec a sa code part mk s
  | .mkand a sa sb => Sys2Proof.Machine.execMkand a sa sb s
  | .mkor a sa sb => Sys2Proof.Machine.execMkor a sa sb s
  | .mknot a sa => Sys2Proof.Machine.execMknot a sa s
  | .mkset a sa => Sys2Proof.Machine.execMkset a sa s
  | .mkpop a sa => Sys2Proof.Machine.execMkpop a sa s
  | .tblld t m => Sys2Proof.Machine.execTblld t m s
  | .tblrd a t sa => Sys2Proof.Machine.execTblrd a t sa s
  | .fdtset code sa => Sys2Proof.Machine.execFdtset code sa s
  | .fdtget a code => Sys2Proof.Machine.execFdtget a code s
  | .strm st sa sb w v => Sys2Proof.Machine.execStrm st sa sb w v s
  | .strmx st sa sb w v p => Sys2Proof.Machine.execStrmx st sa sb w v p s
  | .strmq a sa v => Sys2Proof.Machine.execStrmq a sa v s
  | .mcfgWeights sa => Sys2Proof.Machine.execMcfgWeights sa s
  | .mma sa => Sys2Proof.Machine.execMma sa s
  | .mmag a sa sb => Sys2Proof.Machine.execMmag a sa sb s
  | .mdrain sa sb q => Sys2Proof.Machine.execMdrain sa sb q s
  | .mresume a sa => Sys2Proof.Machine.execMresume a sa s
  | .mstat a sa => Sys2Proof.Machine.execMstat a sa s
  | .gath sa => Sys2Proof.Machine.execGath sa s
  | .skipb sa sb => Sys2Proof.Machine.execSkipb sa sb s
  | .cbdef a sa sb => Sys2Proof.Machine.execCbdef a sa sb s
  | .cbwaitP a sa => Sys2Proof.Machine.execCbwaitP a sa s
  | .cbwaitC a sa => Sys2Proof.Machine.execCbwaitC a sa s
  | .cbpub a sa => Sys2Proof.Machine.execCbpub a sa s
  | .cbadv a sa => Sys2Proof.Machine.execCbadv a sa s
  | .cbfree a sa => Sys2Proof.Machine.execCbfree a sa s
  | .cbq a sa => Sys2Proof.Machine.execCbq a sa s
  | .xcopy sa => Sys2Proof.Machine.execXcopy sa s
  | .xpoll a sa => Sys2Proof.Machine.execXpoll a sa s
  | .xwait a sa => Sys2Proof.Machine.execXwait a sa s
  | .xcancel a sa => Sys2Proof.Machine.execXcancel a sa s
  | .jwait a sa => Sys2Proof.Machine.execJwait a sa s
  | .jpoll a sa => Sys2Proof.Machine.execJpoll a sa s
  | .nred a sa => Sys2Proof.Machine.execNred a sa s
  | .nrwait a sa => Sys2Proof.Machine.execNrwait a sa s
  | .nmcast a sa => Sys2Proof.Machine.execNmcast a sa s
  | .putk a sa sb sc => Sys2Proof.Machine.execPutk a sa sb sc s
  | .rdkB a sa => Sys2Proof.Machine.execRdkB a sa s
  | .rdkP a sa => Sys2Proof.Machine.execRdkP a sa s
  | .rdkC a sa => Sys2Proof.Machine.execRdkC a sa s
  | .takkB a sa => Sys2Proof.Machine.execTakkB a sa s
  | .takkP a sa => Sys2Proof.Machine.execTakkP a sa s
  | .takkC a sa => Sys2Proof.Machine.execTakkC a sa s
  | .kcancel a sa sb => Sys2Proof.Machine.execKcancel a sa sb s
  | .krange a sa sb => Sys2Proof.Machine.execKrange a sa sb s
  | .ksplit a sa => Sys2Proof.Machine.execKsplit a sa s
  | .msend sa sb sc len hi ch => Sys2Proof.Machine.execMsend sa sb sc len hi ch s
  | .msenda a sa sb sc len hi ch => Sys2Proof.Machine.execMsenda a sa sb sc len hi ch s
  | .mreply sa len => Sys2Proof.Machine.execMreply sa len s
  | .spawn a sa => Sys2Proof.Machine.execSpawn a sa s
  | .spawnt a sa sb => Sys2Proof.Machine.execSpawnt a sa sb s
  | .popt a sa => Sys2Proof.Machine.execPopt a sa s
  | .steal a sa sb => Sys2Proof.Machine.execSteal a sa sb s
  | .lnch a sa sb => Sys2Proof.Machine.execLnch a sa sb s
  | .gld a sa sb sd => Sys2Proof.Machine.execGld a sa sb sd s
  | .gst a sa sb sc sd => Sys2Proof.Machine.execGst a sa sb sc sd s
  | .gadd a sa sb => Sys2Proof.Machine.execGadd a sa sb s
  | .gdamp a sa sb sc => Sys2Proof.Machine.execGdamp a sa sb sc s
  | .gelim a sa sb sc da db => Sys2Proof.Machine.execGelim a sa sb sc da db s
  | .gres a sa sb sc sd d => Sys2Proof.Machine.execGres a sa sb sc sd d s
  | .gpost a sa sb sc sd => Sys2Proof.Machine.execGpost a sa sb sc sd s
  | .cmvStart a arr sa sb sc => Sys2Proof.Machine.execCmvStart a arr sa sb sc s
  | .cprog a arr sa sb sc => Sys2Proof.Machine.execCprog a arr sa sb sc s
  | .ccal a arr => Sys2Proof.Machine.execCcal a arr s
  | .cqry a arr sel => Sys2Proof.Machine.execCqry a arr sel s
  | .cmvRead a arr grp => Sys2Proof.Machine.execCmvRead a arr grp s
  | .eadd a sa sb => Sys2Proof.Machine.execEadd a sa sb s
  | .esub a sa sb => Sys2Proof.Machine.execEsub a sa sb s
  | .emul a sa sb => Sys2Proof.Machine.execEmul a sa sb s
  | .efma a sa sb sc => Sys2Proof.Machine.execEfma a sa sb sc s
  | .emov a sa => Sys2Proof.Machine.execEmov a sa s
  | .admitB a sa sb sc => Sys2Proof.Machine.execAdmitB a sa sb sc s
  | .ebnd a sa => Sys2Proof.Machine.execEbnd a sa s
  | .nbc a sa sb => Sys2Proof.Machine.execNbc a sa sb s
  | .nbov a sa sb => Sys2Proof.Machine.execNbov a sa sb s
  | .nbmodeNormal a sa sb => Sys2Proof.Machine.execNbmodeNormal a sa sb s
  | .nbstat a sa sel => Sys2Proof.Machine.execNbstat a sa sel s
  | .mfs a num => Sys2Proof.Machine.execMfs a num s
  | .mts num sa => Sys2Proof.Machine.execMts num sa s
  | .tretResume a sa => Sys2Proof.Machine.execTretResume a sa s
  | .tretSkip a sa => Sys2Proof.Machine.execTretSkip a sa s
  | .tretEnd a sa => Sys2Proof.Machine.execTretEnd a sa s
  | .sysc n => Sys2Proof.Machine.execSysc n s
  | .tlbiInv a sa => Sys2Proof.Machine.execTlbiInv a sa s
  | .tlbiInvall a sa => Sys2Proof.Machine.execTlbiInvall a sa s
  | .tlbiUnmap a sa => Sys2Proof.Machine.execTlbiUnmap a sa s
  | .tlbiMove a sa => Sys2Proof.Machine.execTlbiMove a sa s
  | .tlbiMovef a sa => Sys2Proof.Machine.execTlbiMovef a sa s
  | .tlbiRel a sa => Sys2Proof.Machine.execTlbiRel a sa s
  | .ctxsv a sa sb => Sys2Proof.Machine.execCtxsv a sa sb s
  | .ctxld a sa sb => Sys2Proof.Machine.execCtxld a sa sb s
  | .pkill a sa => Sys2Proof.Machine.execPkill a sa s
  | .nbuOpen w st => Sys2Proof.Machine.execNbuOpen w st s
  | .nbuSetbMask m => Sys2Proof.Machine.execNbuSetbMask m s
  | .nbuSetbReg st => Sys2Proof.Machine.execNbuSetbReg st s
  | .nbuRdcol st t c => Sys2Proof.Machine.execNbuRdcol st t c s
  | .nbuWrcol t c => Sys2Proof.Machine.execNbuWrcol t c s
  | .nbuMacb d t c => Sys2Proof.Machine.execNbuMacb d t c s
  | .nbuMacbOnes d t c => Sys2Proof.Machine.execNbuMacbOnes d t c s
  | .nbuClra d => Sys2Proof.Machine.execNbuClra d s
  | .nbuAdda d st => Sys2Proof.Machine.execNbuAdda d st s
  | .nbuMaxa d st => Sys2Proof.Machine.execNbuMaxa d st s
  | .nbuScala d st => Sys2Proof.Machine.execNbuScala d st s
  | .nbuWbacc st b t c => Sys2Proof.Machine.execNbuWbacc st b t c s
  | .nbuWbaccBf st b t c => Sys2Proof.Machine.execNbuWbaccBf st b t c s
  | .nbuLdi d im => Sys2Proof.Machine.execNbuLdi d im s
  | .nbuAddi d st im => Sys2Proof.Machine.execNbuAddi d st im s
  | .nbuAdd d st t => Sys2Proof.Machine.execNbuAdd d st t s
  | .nbuSub d st t => Sys2Proof.Machine.execNbuSub d st t s
  | .nbuAnd d st t => Sys2Proof.Machine.execNbuAnd d st t s
  | .nbuShl d st t => Sys2Proof.Machine.execNbuShl d st t s
  | .nbuBeq st t f => Sys2Proof.Machine.execNbuBeq st t f s
  | .nbuBne st t f => Sys2Proof.Machine.execNbuBne st t f s
  | .nbuBlt st t f => Sys2Proof.Machine.execNbuBlt st t f s
  | .nbuLoop st f => Sys2Proof.Machine.execNbuLoop st f s
  | .nbuJmp f => Sys2Proof.Machine.execNbuJmp f s
  | .nbuReport st => Sys2Proof.Machine.execNbuReport st s
  | .deviceReset => Sys2Proof.Machine.execDeviceReset s
  | .bringUpStepComplete step ok => Sys2Proof.Machine.execBringUpStepComplete step ok s
  | .islCtlWrite isl v => Sys2Proof.Machine.execIslCtlWrite isl v s
  | .operatingPointChangeDone isl => Sys2Proof.Machine.execOperatingPointChangeDone isl s
  | .powerWindow milliwatts heat => Sys2Proof.Machine.execPowerWindow milliwatts heat s
  | .heatFluxWindow cluster milliwattsPerCm2 => Sys2Proof.Machine.execHeatFluxWindow cluster milliwattsPerCm2 s
  | .alarmRaise source die => Sys2Proof.Machine.execAlarmRaise source die s
  | .keyErasureDone => Sys2Proof.Machine.execKeyErasureDone s
  | .patrolScrub site finding => Sys2Proof.Machine.execPatrolScrub site finding s
  | .eccCorrWrite die v => Sys2Proof.Machine.execEccCorrWrite die v s
  | .registerWrite off v => Sys2Proof.Machine.execRegisterWrite off v s
  | .fabDimWrite v => Sys2Proof.Machine.execFabDimWrite v s
  | .fabRtoWrite v => Sys2Proof.Machine.execFabRtoWrite v s
  | .fabErrWrite v => Sys2Proof.Machine.execFabErrWrite v s
  | .retrain port => Sys2Proof.Machine.execRetrain port s
  | .disable port hold => Sys2Proof.Machine.execDisable port hold s
  | .vmismatchClear port => Sys2Proof.Machine.execVmismatchClear port s
  | .linkTrainingWords port version features => Sys2Proof.Machine.execLinkTrainingWords port version features s
  | .laneLockLoss port => Sys2Proof.Machine.execLaneLockLoss port s
  | .controlWordTimeout port => Sys2Proof.Machine.execControlWordTimeout port s
  | .flitArrive fs => Sys2Proof.Machine.execFlitArrive fs s
  | .swapInject passing => Sys2Proof.Machine.execSwapInject passing s
  | .flitDeliver f => Sys2Proof.Machine.execFlitDeliver f s
  | .aeadPad dst vc => Sys2Proof.Machine.execAeadPad dst vc s
  | .ackTimer src vc => Sys2Proof.Machine.execAckTimer src vc s
  | .ack src pairs => Sys2Proof.Machine.execAck src pairs s
  | .responseAck src vc upTo => Sys2Proof.Machine.execResponseAck src vc upTo s
  | .aresp f => Sys2Proof.Machine.execAresp f s
  | .replayTimerExpiry dst vc => Sys2Proof.Machine.execReplayTimerExpiry dst vc s
  | .deviceLostDeclare dev => Sys2Proof.Machine.execDeviceLostDeclare dev s
  | .mcastCopy c => Sys2Proof.Machine.execMcastCopy c s
  | .mcastStatus job member status => Sys2Proof.Machine.execMcastStatus job member status s
  | .redc m => Sys2Proof.Machine.execRedc m s
  | .redr m => Sys2Proof.Machine.execRedr m s
  | .cidanLinkFlit crcOk => Sys2Proof.Machine.execCidanLinkFlit crcOk s
  | .cidanLinkTrainingDone ok version features => Sys2Proof.Machine.execCidanLinkTrainingDone ok version features s
  | .cidanLaneLockTimeout => Sys2Proof.Machine.execCidanLaneLockTimeout s
  | .lowPowerIdle => Sys2Proof.Machine.execLowPowerIdle s
  | .apertureRead pa n tag => Sys2Proof.Machine.execApertureRead pa n tag s
  | .apertureWrite pa bytes => Sys2Proof.Machine.execApertureWrite pa bytes s
  | .peerToPeerReject tag => Sys2Proof.Machine.execPeerToPeerReject tag s
  | .barAccessLinkDown write a => Sys2Proof.Machine.execBarAccessLinkDown write a s
  | .hrCtlWrite fn ring v => Sys2Proof.Machine.execHrCtlWrite fn ring v s
  | .hrTailWrite fn ring v => Sys2Proof.Machine.execHrTailWrite fn ring v s
  | .hostNop c => Sys2Proof.Machine.execHostNop c s
  | .hostWrite c => Sys2Proof.Machine.execHostWrite c s
  | .hostRead c => Sys2Proof.Machine.execHostRead c s
  | .hostLaunch c => Sys2Proof.Machine.execHostLaunch c s
  | .hostSignal c => Sys2Proof.Machine.execHostSignal c s
  | .gateClose c => Sys2Proof.Machine.execGateClose c s
  | .gateOpen c => Sys2Proof.Machine.execGateOpen c s
  | .attest c => Sys2Proof.Machine.execAttest c s
  | .hostCmdComplete c => Sys2Proof.Machine.execHostCmdComplete c s
  | .gateDrained region => Sys2Proof.Machine.execGateDrained region s
  | .partitionEntryWrite part e => Sys2Proof.Machine.execPartitionEntryWrite part e s
  | .launchQueueCfgWrite q v => Sys2Proof.Machine.execLaunchQueueCfgWrite q v s
  | .periodStart q => Sys2Proof.Machine.execPeriodStart q s
  | .dependenceTest q => Sys2Proof.Machine.execDependenceTest q s
  | .taskPlace => Sys2Proof.Machine.execTaskPlace s
  | .taskStart core => Sys2Proof.Machine.execTaskStart core s
  | .taskEnd task => Sys2Proof.Machine.execTaskEnd task s
  | .shotclock task => Sys2Proof.Machine.execShotclock task s
  | .handlerShotclock core ctx => Sys2Proof.Machine.execHandlerShotclock core ctx s
  | .quiesceRequest part => Sys2Proof.Machine.execQuiesceRequest part s
  | .partitionQuiet part => Sys2Proof.Machine.execPartitionQuiet part s
  | .umpireTick part => Sys2Proof.Machine.execUmpireTick part s
  | .messageArrive core m => Sys2Proof.Machine.execMessageArrive core m s
  | .acknowledgementArrive core a => Sys2Proof.Machine.execAcknowledgementArrive core a s
  | .handlerStart core ctx => Sys2Proof.Machine.execHandlerStart core ctx s
  | .outgoingSend core => Sys2Proof.Machine.execOutgoingSend core s
  | .outgoingResend core seqn => Sys2Proof.Machine.execOutgoingResend core seqn s
  | .trapRecordResend r => Sys2Proof.Machine.execTrapRecordResend r s
  | .arrivalEntryReserve d => Sys2Proof.Machine.execArrivalEntryReserve d s
  | .arrivalReady d => Sys2Proof.Machine.execArrivalReady d s
  | .arrivalHandlerStart core ctx => Sys2Proof.Machine.execArrivalHandlerStart core ctx s
  | .pendingValueArrive dst v => Sys2Proof.Machine.execPendingValueArrive dst v s
  | .remoteFaultDeliver core ctx p => Sys2Proof.Machine.execRemoteFaultDeliver core ctx p s
  | .peerAccessServe r => Sys2Proof.Machine.execPeerAccessServe r s
  | .migrationRequest m => Sys2Proof.Machine.execMigrationRequest m s
  | .migrationReply m accepted => Sys2Proof.Machine.execMigrationReply m accepted s
  | .migrationImage m => Sys2Proof.Machine.execMigrationImage m s
  | .migrationImageAck m => Sys2Proof.Machine.execMigrationImageAck m s
  | .homeRequest line node => Sys2Proof.Machine.execHomeRequest line node s
  | .engineLineRelease job line => Sys2Proof.Machine.execEngineLineRelease job line s
  | .walkComplete cluster va => Sys2Proof.Machine.execWalkComplete cluster va s
  | .tlbiWalkerMessage t cluster => Sys2Proof.Machine.execTlbiWalkerMessage t cluster s
  | .tlbiAcknowledge t cluster => Sys2Proof.Machine.execTlbiAcknowledge t cluster s
  | .tuplePut r => Sys2Proof.Machine.execTuplePut r s
  | .tupleReadTake r => Sys2Proof.Machine.execTupleReadTake r s
  | .tupleCancel r => Sys2Proof.Machine.execTupleCancel r s
  | .tupleWithdraw r => Sys2Proof.Machine.execTupleWithdraw r s
  | .tupleDeliveryComplete d => Sys2Proof.Machine.execTupleDeliveryComplete d s
  | .handoffSplit h => Sys2Proof.Machine.execHandoffSplit h s
  | .handoffCopyReceive h im => Sys2Proof.Machine.execHandoffCopyReceive h im s
  | .handoffFreeze h => Sys2Proof.Machine.execHandoffFreeze h s
  | .handoffCutover h => Sys2Proof.Machine.execHandoffCutover h s
  | .handoffSwitch h => Sys2Proof.Machine.execHandoffSwitch h s
  | .handoffAbandon h status => Sys2Proof.Machine.execHandoffAbandon h status s
  | .moved part lo last dev => Sys2Proof.Machine.execMoved part lo last dev s
  | .matrixGrain cluster => Sys2Proof.Machine.execMatrixGrain cluster s
  | .jobComplete job => Sys2Proof.Machine.execJobComplete job s
  | .userInterrupt core ctx => Sys2Proof.Machine.execUserInterrupt core ctx s
  | .engineFaultDeliver f => Sys2Proof.Machine.execEngineFaultDeliver f s
  | .copyRow cluster core => Sys2Proof.Machine.execCopyRow cluster core s
  | .copyArrivalWait cluster core => Sys2Proof.Machine.execCopyArrivalWait cluster core s
  | .gatherRow cluster core => Sys2Proof.Machine.execGatherRow cluster core s
  | .drainRow cluster core => Sys2Proof.Machine.execDrainRow cluster core s
  | .streamUnit core ctx reg => Sys2Proof.Machine.execStreamUnit core ctx reg s
  | .xbarCommandHead cluster arr => Sys2Proof.Machine.execXbarCommandHead cluster arr s
  | .xbarProductComplete cluster arr readings refA refB => Sys2Proof.Machine.execXbarProductComplete cluster arr readings refA refB s
  | .xbarProgramRow cluster arr unverified => Sys2Proof.Machine.execXbarProgramRow cluster arr unverified s
  | .calibrationComplete cluster arr beta gamma => Sys2Proof.Machine.execCalibrationComplete cluster arr beta gamma s
  | .nbuStep u => Sys2Proof.Machine.execNbuStep u s
  | .nbuOrdinaryAccess u a => Sys2Proof.Machine.execNbuOrdinaryAccess u a s
  | .nbuRequest u r => Sys2Proof.Machine.execNbuRequest u r s
  | .trapDeliverSupervisor r => Sys2Proof.Machine.execTrapDeliverSupervisor r s
  | .trapDeliverTvec core ctx t => Sys2Proof.Machine.execTrapDeliverTvec core ctx t s
  | .coreMqcapWrite core v => Sys2Proof.Machine.execCoreMqcapWrite core v s
  | .sleepWake core ctx countExpired => Sys2Proof.Machine.execSleepWake core ctx countExpired s
  | .barrierGenerationComplete b => Sys2Proof.Machine.execBarrierGenerationComplete b s
  | .launchSubmit r => Sys2Proof.Machine.execLaunchSubmit r s
  | .haltWake => Sys2Proof.Machine.execHaltWake s
  | .storeAcknowledge core ctx => Sys2Proof.Machine.execStoreAcknowledge core ctx s
  | .victimQueueSteal q => Sys2Proof.Machine.execVictimQueueSteal q s
  | .tretHandleArrive t => Sys2Proof.Machine.execTretHandleArrive t s
  | .mresumeAtUnit r => Sys2Proof.Machine.execMresumeAtUnit r s
  | .alarmConditionEnd source die => Sys2Proof.Machine.execAlarmConditionEnd source die s
  | .lowPowerIdleExit => Sys2Proof.Machine.execLowPowerIdleExit s
  | .sortedIndexBuilt core t => Sys2Proof.Machine.execSortedIndexBuilt core t s
  | .nbmodeCompute a sa sb => Sys2Proof.Machine.execNbmodeCompute a sa sb s
  | .nbmodeResume a sa sb => Sys2Proof.Machine.execNbmodeResume a sa sb s
  | .nop => Sys2Proof.Machine.execNop s
  | .endWork => Sys2Proof.Machine.execEndWork s
  | .mcfgDiscard => Sys2Proof.Machine.execMcfgDiscard s
  | .mzero => Sys2Proof.Machine.execMzero s
  | .uiret => Sys2Proof.Machine.execUiret s
  | .mdefer => Sys2Proof.Machine.execMdefer s
  | .tabort => Sys2Proof.Machine.execTabort s
  | .tret => Sys2Proof.Machine.execTret s
  | .halt => Sys2Proof.Machine.execHalt s
  | .nbuHalt => Sys2Proof.Machine.execNbuHalt s
  | .nbuClose => Sys2Proof.Machine.execNbuClose s

end Sys2Proof.Machine
end

