-- ==== Sys2Proof/Machine/Choose.lean ====
section
/-! DEFINITION. Fetching an instruction (R284 to R293), the release of held instructions (R97), and what may happen next: the actions
in flight, the contexts that are ready (R109, R110), and the device's own actions whose conditions hold (DESIGN CHOICE, log entry 2). -/

namespace Sys2Proof.Machine

/-! ## Fetch (R289 to R293) -/

/-- A trap that names the PC to be fetched. -/
def fetchTrap (pc : Word) (cause : Nat) (addr info : Word) : Trap :=
  { cause := cause, epc := pc, eaddr := addr, einfo := info, pois := false, eng := false, job := 0 }

/-- What the running context's next instruction is: an instruction, with N of its line in the state; the trap of its fetch or of its
encoding; or none, while its translation waits. -/
def State.fetchNext (s : State) : Option (Except Trap Instr) × State :=
  let pc := s.me.pc
  if bit pc 5 || bits pc 63 52 != 0 then (some (.error (fetchTrap pc cILLTGT pc 0)), s)
  else
    match fetchLine pc s with
    | .ok (.fault f, s1) => (some (.error (fetchTrap pc f.cause pc f.info)), s1)
    | .ok (.malformed, s1) => (some (.error (fetchTrap pc cILLINE (ofN (lineOf pc)) 0)), s1)
    | .ok (.line cs, s1) =>
      match cs[bits pc 4 0]? with
      | none => (some (.error (fetchTrap pc cILLTGT pc 0)), s1)
      | some c =>
        match decodeCode c.head c.tail with
        | .ok i => (some (.ok i), s1.modMe (fun k => { k with lineN := cs.length }))
        | .error b => (some (.error (fetchTrap pc cILL 0 b.einfo)), s1)
    | .error (.wait s1) => (none, s1)
    | .error _ => (none, s)

/-! ## Pairs (R109) -/

/-- The issue class of a major opcode: vector, or scalar. -/
def vecClass (op : Nat) : Bool := (decide (0x80 ≤ op) && decide (op < 0xD0)) || (decide (0xE8 ≤ op) && decide (op < 0xF8))

/-- A register as a class and a number: g at 0, v at 64, m at 128, b at 192, q at 256, special registers at 4096. -/
def clsKey (c : Cls) (x : Nat) : List Nat :=
  match c with
  | .g => [x]
  | .v => [64 + x]
  | .m => [128 + x]
  | .b => [192 + x]
  | .q => [256 + x]
  | .pair => [x, x + 1]
  | .sg => [x]
  | .sv => [64 + x]
  | .zero => []
  | .any => []

/-- The registers that an instruction names in any field, and a special register that it reads or writes (R109). -/
def rawNames (r : Raw) : List Nat :=
  match rowOf r.op r.sub with
  | none => []
  | some w =>
    clsKey w.a r.a ++ clsKey w.sa r.sa ++ (if formOf r.op == some .fmemo && !r.ix then [] else clsKey w.sb r.sb) ++ clsKey w.sc r.sc ++
      clsKey w.sd r.sd ++ (if w.sub2 == .maskSel && decide (8 ≤ r.sub2) then [128 + (r.sub2 - 8)] else []) ++
      (if r.op == 0xF8 || r.op == 0xF9 then [4096 + r.imm] else [])

/-- Special registers that an instruction reads without naming them: GCFG, and CSW for ATRAP (R109). -/
def impliedReads (i : Instr) : List Nat :=
  match i with
  | .gelim _ _ _ _ _ _ => [4096 + 0x00D]
  | .gres _ _ _ _ _ _ => [4096 + 0x00D]
  | .gpost _ _ _ _ _ => [4096 + 0x00D]
  | .admitB _ _ _ _ => [4096]
  | _ => []

/-- The instruction transfers control, taken or not, or ends or traps its work: none pairs with it (R109, R328). -/
def transfers (op : Nat) : Bool := (decide (0x01 ≤ op) && decide (op ≤ 0x0D) && op != 0x0B) || op == 0xC2 || op == 0xFA || op == 0xFB

/-- Opcodes whose field A is read and not written: BZ, BNZ, ST, VST and VSCAT. -/
def readsA (op : Nat) : Bool := [0x04, 0x05, 0x51, 0x81, 0x84].contains op

/-- The registers that an instruction writes, at once or later (R109). -/
def rawWrites (r : Raw) : List Nat :=
  match rowOf r.op r.sub with
  | none => []
  | some w =>
    (if readsA r.op then [] else clsKey w.a r.a) ++
      (if r.op == 0x28 && decide (2 ≤ r.sub) then clsKey w.sa r.sa else []) ++
      (if r.op == 0xE8 then clsKey w.sb r.sb ++ clsKey w.sd r.sd else []) ++
      (if r.op == 0xBA then clsKey w.sb r.sb else []) ++
      (if r.op == 0x9D then clsKey w.sb r.sb else []) ++
      (if r.op == 0x9E then clsKey w.sa r.sa else []) ++ (if [0x9C, 0x9D, 0x9E].contains r.op then [4096] else []) ++
      (if r.op == 0xF9 then [4096 + r.imm] else []) ++ (if issuesJob r.op then [4096 + 0x008] else [])

/-- The key of a stream register: 32 and above are vector registers in Ctx.streams. -/
def streamReg (k : Nat) : Nat := if k < 32 then k else 32 + k

/-- The registers that the running context's instruction writes: those in stream mode that it names are advanced (R193). -/
def State.writesOf (s : State) (i : Instr) : List Nat :=
  match rawOf i with
  | none => []
  | some r => rawWrites r ++ ((s.me.streams.map (fun p => streamReg p.1)).filter (fun k => (rawNames r).contains k))

/-- The context issues: the core has picked in this ac, and lastissue is set (R110); the instruction after it in its line may issue beside
it, unless this one transfers control or is itself the second of a pair (R109, R328). -/
def State.tick (s : State) (i : Instr) : State :=
  let c := s.coreAt s.curCore
  let now := s.coreAc s.curCore
  let second := match c.pair with
    | some p => p.ctx == s.curCtx && p.serial == s.me.serial && p.pc == s.me.pc && c.pickAc == some now
    | none => false
  let next : Option Pair :=
    if second || s.me.lineN ≤ bits s.me.pc 4 0 + 1 then none
    else ((rawOf i).filter (fun r => !transfers r.op)).map (fun r =>
      { ctx := s.curCtx, serial := s.me.serial, pc := s.me.pc + 1, vec := vecClass r.op, writes := s.writesOf i })
  (s.modCore s.curCore (fun c => { c with pickAc := some now, pair := next })).modMe (fun c => { c with lastIssue := now })

/-- A context's turn: it fetches and runs one instruction, or takes the trap of the fetch. -/
def State.issue (s : State) (core k : Nat) : Host.Outcome State Fault Refusal :=
  let s0 := s.asCtx core k
  match s0.fetchNext with
  | (some (.ok i), s1) => exec i (s1.tick i)
  | (some (.error t), s1) =>
    .next (((s1.farClear (8 * core + k)).modCore core (fun c => { c with pickAc := some (s1.coreAc core), pair := none })).takeTrap core k t)
  | (none, s1) => .next s1

/-! ## Readiness and the choice of a context (R109, R110) -/

/-- The context runs: it is not idle, parked, asleep, or stopped by a trap it holds. -/
def Ctx.awake (c : Ctx) : Bool := c.phase == .running && c.sleep.isNone && c.heldTrap.isNone

/-- A start from the core's residual queue in this ac: a GPOST would have come before it, and so waits for the next (R215). -/
def State.postWaits (s : State) (i : Instr) : Bool :=
  match i with
  | .gpost _ _ _ _ _ => (s.coreAt s.curCore).startAc == some (s.coreAc s.curCore)
  | _ => false

/-- The instruction of a context's next turn does something: it does not stall. -/
def State.moves (s : State) (core k : Nat) : Bool :=
  match (s.asCtx core k).fetchNext with
  | (some (.ok i), s1) =>
    !s1.postWaits i &&
    (match exec i (s1.tick i) with
     | .next s2 => s2 != s1.tick i
     | _ => true)
  | (some (.error _), _) => true
  | (none, s1) => s1 != s.asCtx core k

/-- The context runs an ordered task that stalls as a whole: an irrevocable one whose held items are still being released in program order
(R97), or a speculative one that found no free log slot at its dispatch (R98). -/
def State.ordStalled (s : State) (core k : Nat) : Bool :=
  match s.ordOf core k with
  | some (_, o) => if o.irrevocable then s.heldBack core k else o.slot.isNone
  | none => false

/-- The report of a faulted store of the context is on its way: it is delivered before the next instruction (R350). -/
def State.faultWaits (s : State) (core k : Nat) : Bool :=
  s.agenda.any (fun e => match e with
    | .remoteFaultDeliver c j _ => c == core && j == k
    | _ => false)

/-- The context is ready (R109): it is awake, and its next instruction does not stall, that is, does something. -/
def State.ready (s : State) (core k : Nat) : Bool :=
  let c := s.ctxAt core k
  c.awake && !c.interrupted && !s.ordStalled core k && !s.faultWaits core k && s.moves core k

/-- The context with the least lastissue, the first of equals. -/
def State.leastIssued (s : State) (core : Nat) (ks : List Nat) : Option Nat :=
  match ks with
  | [] => none
  | k :: r => some (r.foldl (fun m x => if (s.ctxAt core x).lastIssue < (s.ctxAt core m).lastIssue then x else m) k)

/-- The context that a core picks (R110). DEDUCED, log entry 36. -/
def State.pickFresh (s : State) (core : Nat) : Option Nat :=
  let t := (List.range 4).filter (s.ready core)
  if s.coreAc core % 2 = 1 && !t.isEmpty then s.leastIssued core t
  else if s.ready core 7 then some 7
  else if s.ready core 6 then some 6
  else
    let a := [4, 5].filter (s.ready core)
    if a.isEmpty then s.leastIssued core t else s.leastIssued core a

/-- The context that issues the second instruction of a pair in this ac (R109): it stands where the first one left it, its next
instruction is of the other class, and reads and writes no register that the first wrote. -/
def State.pairCtx (s : State) (core : Nat) : Option Nat :=
  let c := s.coreAt core
  match c.pair with
  | none => none
  | some p =>
    let x := s.ctxAt core p.ctx
    if c.pickAc == some (s.coreAc core) && x.serial == p.serial && x.pc == p.pc && s.ready core p.ctx then
      match (s.asCtx core p.ctx).fetchNext with
      | (some (.ok i), _) =>
        (match rawOf i with
         | some r =>
           if vecClass r.op != p.vec && !((rawNames r ++ impliedReads i).any (fun k => p.writes.contains k)) then some p.ctx else none
         | none => none)
      | _ => none
    else none

/-- The context that issues next on a core: the second instruction of a pair, else one pick in each ac (R109, R110). -/
def State.pickCtx (s : State) (core : Nat) : Option Nat :=
  match s.pairCtx core with
  | some k => some k
  | none => if (s.coreAt core).pickAc == some (s.coreAc core) then none else s.pickFresh core

/-! ## Held instructions (R97) -/

/-- The q handles after the release of a held instruction: those that it has changed. -/
def mergeQ {α : Type} [DecidableEq α] (real snap old : List (Nat × α)) : List (Nat × α) :=
  let set_ := snap.filter (fun p => assocGet old p.1 != some p.2)
  let gone := old.filter (fun p => (assocGet snap p.1).isNone)
  set_.foldl (fun m p => assocSet m p.1 p.2) (gone.foldl (fun m p => assocErase m p.1) real)

/-- The context as it goes on after the release of a held instruction: the destinations that have their values are written, each an event of
the context (R330), and so are the q handles and JOB.LAST that the instruction has changed (R390). -/
def settle (real snap : Ctx) (dsts : List Nat) (old : Ctx) : Ctx :=
  let one (c : Ctx) (d : Nat) : Ctx :=
    if snap.pend.getLsbD d then c
    else { c.setG d (snap.g.get d) with pend := c.pend &&& ~~~(BitVec.ofNat 16 (2 ^ d)), latch := c.latch ||| 16 }
  let r := dsts.foldl one real
  { r with stores := r.stores + (snap.stores - old.stores), blocked := r.blocked ++ snap.blocked.drop old.blocked.length, q := mergeQ r.q snap.q old.q,
           msgr := { r.msgr with jobLast := if snap.msgr.jobLast = old.msgr.jobLast then r.msgr.jobLast else snap.msgr.jobLast } }

/-- Stores sent for work that has ended are acknowledged to no context: they name context 8. -/
def State.detach (s : State) (before : List Outstanding) (core k : Nat) : State :=
  { s with fab := { s.fab with out := s.fab.out.map (fun o =>
      if o.dest.core = core ∧ o.dest.ctx = k ∧ o.store ∧ !before.contains o then { o with dest := { o.dest with ctx := 8 } } else o) } }

/-- The first held instruction of an irrevocable ordered task is released: it runs as its context stood at issue, behind none of its own
task's items (R97). One that must wait stays. -/
def State.releaseHeld (s : State) (cl uid : Nat) : Host.Outcome State Fault Refusal :=
  match (s.clusterAt cl).ord.find? (fun o => o.uid == uid) with
  | none => .next s
  | some o =>
    match o.held with
    | [] => .next s
    | h :: rest =>
      let real := s.ctxAt h.core h.cidx
      let back (x : State) (c : Ctx) : State := x.modCtx h.core h.cidx (fun _ => c)
      let left (x : State) (hs : List Held) : State := x.modOrd cl uid (fun y => { y with held := hs })
      match exec h.instr (back (left (s.asCtx h.core h.cidx) []) { h.snapshot with phase := .running }) with
      | .next s2 =>
        let c2 := s2.ctxAt h.core h.cidx
        if c2.phase = .running ∧ c2.pc = h.snapshot.pc then .next (left (back s2 real) (h :: rest))
        else
          let s3 := left s2 rest
          if real.serial ≠ h.snapshot.serial then .next ((back s3 real).detach s.fab.out h.core h.cidx)
          else if c2.phase = .running ∧ c2.pc = nextPc h.snapshot.pc h.snapshot.lineN then
            .next (back s3 (settle real c2 h.dsts h.snapshot))
          else .next (back s3 { real with phase := c2.phase, pc := c2.pc, trap := c2.trap, parkCount := c2.parkCount })
      | r => r

/-! ## What may happen next -/

/-- Events of one lane happen in the order in which they were put in flight: messages of one core to another, requests to one tuple span
or near-bank unit, accesses of one context to one 8-byte word (R254), flits of one stream, a handoff, a reduction, a launch queue, a
service core, a ring. -/
def orderOf (e : Event) : Option (List Nat) :=
  match e with
  | .messageArrive core m => some [1, core, m.sdev, m.score]
  | .acknowledgementArrive core _ => some [2, core]
  | .tuplePut r => some [3, r.srcDev, r.src.core, r.key.toNat % 2 ^ 32]
  | .tupleReadTake r => some [3, r.srcDev, r.src.core, r.key.toNat % 2 ^ 32]
  | .tupleCancel r => some [3, r.srcDev, r.src.core, r.key.toNat % 2 ^ 32]
  | .tupleWithdraw r => some [3, r.srcDev, r.src.core, r.key.toNat % 2 ^ 32]
  | .nbuRequest u r => some [4, u, r.dest.core]
  | .flitDeliver f => some [5, f.src, f.vc]
  | .handoffSplit h => some [6, h.part]
  | .handoffCopyReceive h _ => some [6, h.part]
  | .handoffFreeze h => some [6, h.part]
  | .handoffCutover h => some [6, h.part]
  | .handoffSwitch h => some [6, h.part]
  | .handoffAbandon h _ => some [6, h.part]
  | .redc m => some [7, m.group, m.rid]
  | .redr m => some [7, m.group, m.rid]
  | .arrivalEntryReserve d => some [8, d.core]
  | .arrivalReady d => some [9, d.core]
  | .launchSubmit r => some [10, r.q]
  | .hostNop c => some [11, c.sc]
  | .hostWrite c => some [11, c.sc]
  | .hostRead c => some [11, c.sc]
  | .hostLaunch c => some [11, c.sc]
  | .hostSignal c => some [11, c.sc]
  | .gateClose c => some [11, c.sc]
  | .gateOpen c => some [11, c.sc]
  | .attest c => some [11, c.sc]
  | .apertureRead pa _ _ => some [12, apertureCore pa]
  | .apertureWrite pa _ => some [12, apertureCore pa]
  | .homeRequest line _ => some [13, line]
  | .storeAcknowledge core c => some [14, core, c]
  | _ => none

/-- The lanes of an event: an access of several words stands in the lane of each (R254). -/
def lanesOf (e : Event) : List (List Nat) :=
  match e with
  | .peerAccessServe r => (accessWords r).map (fun w => [15, r.srcDev, r.src.core, r.src.ctx, w])
  | _ => (orderOf e).toList

/-- The events in flight that may happen now: the first of each lane, and a refused trap record once its back-off has passed. -/
def State.dueFrom (s : State) : List (List Nat) → List Event → List Event
  | _, [] => []
  | seen, e :: r =>
    let ls := lanesOf e
    if ls.any seen.contains then s.dueFrom (ls ++ seen) r
    else
      let rest := s.dueFrom (ls ++ seen) r
      match e with
      | .trapRecordResend t => if t.notBefore ≤ s.coreAc t.score then e :: rest else rest
      | .messageArrive core m => if s.overtakenMsg core m then rest else e :: rest
      | _ => e :: rest

/-- A core's island has a clock (R16). -/
def State.powered (s : State) (core : Nat) : Bool := s.runPoint (s.coreIsland core) != 0

/-- Handlers and arrivals of a core's partition may start (R104, R282). -/
def State.handles (s : State) (core : Nat) : Bool :=
  match s.partOfCore core with
  | none => false
  | some p =>
    ((s.part.get p).state == 2 && !s.quiescing.contains p) || ((s.part.get p).state == 4 && (s.swapOf p).any (fun w => w.loaded))

/-- A queue from which its handler context may start an entry (R114). -/
def State.handlerDue (s : State) (core k : Nat) (q : List MsgEntry) : Bool :=
  (s.ctxAt core k).phase == .idle && q.any (fun e => e.state == 0) && !q.any (fun e => e.state == 2)

/-- The fault of an engine for the work of a context is on its way: it comes before a user-level interrupt (R278). -/
def State.engineWaits (s : State) (core k : Nat) : Bool :=
  s.agenda.any (fun e => match e with
    | .engineFaultDeliver f => f.core == core && f.ctx == k && f.work == (s.ctxAt core k).serial
    | _ => false)

/-- A shot clock that ends at `e` expires: in the ac `e` itself only when no thread that it bounds can issue, since a precise trap of that ac,
and an END, come first (R103, R278); and not while the thread's ordered task releases its held items (R97). -/
def State.clockRuns (s : State) (now e : Nat) (ts : List (Nat × Nat)) : Bool :=
  (decide (e < now) || (e == now && !ts.any (fun q => s.ready q.1 q.2))) && !ts.any (fun q => s.heldBack q.1 q.2)

/-- The actions of one context's own timers and deliveries. -/
def State.ctxDue (s : State) (core k : Nat) : List Event :=
  let c := s.ctxAt core k
  (match c.sleep with
   | some (t, m) => if t ≤ s.coreAc core then [.sleepWake core k true]
     else if c.latch &&& BitVec.ofNat 7 m ≠ 0 then [.sleepWake core k false] else []
   | none => []) ++
  (match c.heldTrap with
   | some t =>
     if c.pend = 0 && !s.specAt core k && !s.ordStalled core k && c.phase == .running then [.trapDeliverTvec core k t] else []
   | none => []) ++
  (match c.shotEnd with
   | some t => if s.clockRuns (s.coreAc core) t [(core, k)] then [.handlerShotclock core k] else []
   | none => []) ++
  (if c.takesIntr && !s.engineWaits core k then [.userInterrupt core k] else []) ++
  c.streams.filterMap (fun p =>
    match p.2.src with
    | .pattern _ _ _ _ _ _ =>
      if !p.2.write && decide (p.2.ahead.length < 16) && decide (p.2.moved + p.2.ahead.length < p.2.total) then
        some (.streamUnit core k p.1) else none
    | _ => none)

/-- The actions of one core. -/
def State.coreDue (s : State) (core : Nat) : List Event :=
  let c := s.coreAt core
  let starts : List Event :=
    match s.partOfCore core with
    | some p =>
      if s.mayStart p && !s.reservedCl (clusterOf core) && !(s.freeTaskCtx core).isEmpty &&
          (!c.residq.isEmpty || !c.taskq.isEmpty || (s.earliest (clusterOf core)).isSome) then [.taskStart core] else []
    | none => []
  let quiet := match s.partOfCore core with
    | some p => s.quiescing.contains p || (s.part.get p).state == 3
    | none => true
  let sends : List Event :=
    if quiet then []
    else (if (s.sendable core false).isSome then [.outgoingSend core] else []) ++
      (c.outq.filter (fun o => !o.sent && decide (64 < o.backoff) && decide (o.notBefore ≤ s.coreAc core))).map
        (fun o => .outgoingResend core o.msg.seqn)
  let handlers : List Event :=
    if s.handles core then
      (if s.handlerDue core 6 c.lowq then [.handlerStart core 6] else []) ++
      (if s.handlerDue core 7 c.highq then [.handlerStart core 7] else []) ++
      (([4, 5].filter (fun k => (s.ctxAt core k).phase == .idle && c.arrq.any (fun e => e.ready && e.state == 0) &&
          !c.arrq.any (fun e => e.state == 2))).take 1).map
        (fun k => .arrivalHandlerStart core k)
    else []
  starts ++ sends ++ handlers ++ (List.range 8).flatMap (s.ctxDue core)

/-- The actions of one cluster's engines, arrays and walker. An island without a clock stops its engines and arrays (R15, R16). Readings and
calibration constants are free (DESIGN CHOICE, log entry 1). -/
def State.clusterDue (s : State) (cl : Nat) : List Event :=
  let c := s.clusterAt cl
  let cores := List.range 8
  let mat : List Event := if (s.idleHead cl).isSome || (s.nextCore cl).isSome then [.matrixGrain cl] else []
  let drain : List Event :=
    (cores.filter (fun n => match c.mx.queue.get n with
      | d :: _ => d.kind == .drain && !d.stopped
      | [] => false)).map (fun n => .drainRow cl n)
  let copy : List Event := (match s.copyTurn cl with
    | some n => [.copyRow cl n]
    | none => []) ++
    (cores.filter (fun n => match c.copyq.get n with
      | d :: _ => !d.reserved && ((s.jobOf d.job).bind (fun j => j.arr)).isSome
      | [] => false)).map (fun n => .copyArrivalWait cl n)
  let gath : List Event :=
    (cores.filter (fun n => match c.gathq.get n with
      | d :: _ => !d.stopped
      | [] => false)).map (fun n => .gatherRow cl n)
  let arr : List Event := cores.flatMap (fun a =>
    let x := c.xbar.get a
    (if x.next.isSome then [.xbarCommandHead cl a] else []) ++
    (match x.queue.find? (fun d => d.started) with
     | some d =>
       if x.overtaken d then []
       else if d.op = 0 then [.xbarProductComplete cl a ((List.range 512).map (fun j => (Config.freeWord (s.free + 4 + j)).toInt))
         (Config.freeWord (s.free + 2)).toInt (Config.freeWord (s.free + 3)).toInt]
       else if d.op = 1 then [.xbarProgramRow cl a (Config.freeNat (s.free + 2) % 513)]
       else [.calibrationComplete cl a (BitVec.ofNat 32 (Config.freeNat (s.free + 2))) (BitVec.ofNat 32 (Config.freeNat (s.free + 3)))]
     | none => []))
  let walks : List Event :=
    ((c.walkq.take 32).filter (fun w => (s.holdOn w.1 (w.2 * 4096)).isNone)).map (fun w => .walkComplete cl (ofN (w.2 * 4096)))
  (if s.runPoint (s.islandOf cl) = 0 then [] else mat ++ drain ++ copy ++ gath) ++
    (if s.runPoint (8 * (cl / 60) + 5) = 0 then
       (if s.analogOff cl then (cores.filter (fun a => (c.xbar.get a).next.isSome)).map (fun a => .xbarCommandHead cl a) else [])
     else arr) ++ walks

/-- The actions of launch queues, partitions and tasks. -/
def State.launchDue (s : State) : List Event :=
  (List.range 64).flatMap (fun q =>
    let l := s.launch.get q
    (match l.recs, s.partOfQueue q with
     | r :: _, some p => if r.tasks == 0 || s.shapeBad p r || !(r.dep0 && r.dep1) then [.dependenceTest q] else []
     | _, _ => []) ++
    (if l.en && l.period != 0 && decide (l.dl.toNat ≤ s.time) then [.periodStart q] else [])) ++
  (if (List.range 64).any s.candidate then [.taskPlace] else []) ++
  s.tasks.filterMap (fun t => match t.2.clockEnd with
    | some e => if s.clockRuns (s.taskAc t.2) e t.2.threads then some (.shotclock t.1) else none
    | none => none) ++
  (List.range 16).flatMap (fun p =>
    (if (s.part.get p).state = 2 && (decide ((s.umpire.get p).tick < s.time / 1024) || !(s.committing p).isEmpty) then [.umpireTick p]
     else []) ++
    (if s.quiescing.contains p && s.quiet p then [.partitionQuiet p] else []) ++
    (match s.nextScore p with
     | some (.msg core m, _) => [.messageArrive core m]
     | some (.arr d, _) => [.arrivalEntryReserve d]
     | none => []))

/-- The actions of the fabric interface and the management core. -/
def State.fabricDue (s : State) : List Event :=
  (if s.nextInject.isSome || s.fab.swap.isSome then [.flitArrive []] else []) ++
  s.fab.tx.cells.flatMap (fun t =>
    (match t.2.deadline with
     | some d => if d ≤ s.time then [.replayTimerExpiry (t.1 / 8) (t.1 % 8)] else []
     | none => []) ++
    (if s.padDue t.1 then [.aeadPad (t.1 / 8) (t.1 % 8)] else [])) ++
  s.fab.rx.cells.flatMap (fun t =>
    match t.2.first with
    | some f => if f + 64 ≤ s.time then [.ackTimer (t.1 / 8) (t.1 % 8)] else []
    | none => []) ++
  (if (s.coreAt mgmtCore).ctx.cells.any (fun c => c.2.phase == .halted && decide (c.2.wakeSeen < s.wakes)) then [.haltWake] else [])

/-- The contexts that issue next, one for each core. -/
def State.ctxTurns (s : State) : List Turn :=
  s.core.cells.filterMap (fun c =>
    if s.powered c.1 then (s.pickCtx c.1).map (fun k => Turn.ctx c.1 k) else none)

/-- The near-bank units that run: one serves the traffic that waits for it before its next micro-instruction (R228). -/
def State.unitTurns (s : State) : List Turn :=
  s.unit.cells.filterMap (fun u =>
    let x := s.unit.get u.1
    if x.state = 2 && s.runPoint (8 * (u.1 / 64) + 6) != 0 then some (if x.waiting.isEmpty then .unit u.1 else .event (.nbuStep u.1)) else none)

/-- The ordered tasks whose held instructions are released. -/
def State.heldTurns (s : State) : List Turn :=
  s.cluster.cells.flatMap (fun c =>
    ((s.clusterAt c.1).ord.filter (fun o => o.irrevocable && !o.held.isEmpty)).map (fun o => Turn.held c.1 o.uid))

/-- The device's own actions whose conditions hold. -/
def State.due (s : State) : List Event :=
  (s.core.cells.filter (fun c => s.powered c.1)).flatMap (fun c => s.coreDue c.1) ++
    s.cluster.cells.flatMap (fun c => s.clusterDue c.1) ++ s.launchDue ++ s.fabricDue

/-- Everything that may happen next; true marks an event that is in flight. -/
def State.choices (s : State) : List (Turn × Bool) :=
  (s.dueFrom [] s.agenda).map (fun e => (.event e, true)) ++
    (s.ctxTurns ++ s.unitTurns ++ s.heldTurns ++ s.due.map Turn.event).map (fun t => (t, false))

/-- A core has still to issue the second instruction of a pair in this ac (R109). -/
def State.pairing (s : State) : Bool := s.core.cells.any (fun c => s.powered c.1 && (s.pairCtx c.1).isSome)

/-- Between two steps an L1 may evict a line in update-only state: its partial is combined at the home, and the line is I (R136, Table 4).
Whether one does, and which, is free. -/
def State.evictU (s : State) : State :=
  match s.uline with
  | [] => s
  | us =>
    let s1 : State := { s with free := s.free + 1 }
    match us[Config.freeNat s.free % (us.length + 1)]? with
    | none => s1
    | some u => { s1.combine u with uline := s1.uline.filter (fun x => x != u) }

/-- The next turn: how much time passes, and which of the things that may then happen happens, are free (DESIGN CHOICE, log entry 2). No
time passes inside a pair. -/
def State.pickNext (s : State) : State :=
  let s1 := if s.pairing then s else (s.elapse (Config.freeNat (s.free + 1))).evictU
  let cs := s1.choices
  match cs[Config.freeNat s.free % cs.length]? with
  | none => { s1.elapse 1 with turn := .idle, free := s1.free + 2 }
  | some (.event e, true) => { s1 with turn := .event e, free := s1.free + 600, agenda := s1.agenda.erase e }
  | some (t, _) => { s1 with turn := t, free := s1.free + 600 }

end Sys2Proof.Machine
end

