-- ==== Sys2Proof/Machine/Step.lean ====
section
/-! DEFINITION. One step of the device, and the placing of an instruction where the next step fetches. -/

namespace Sys2Proof.Machine

noncomputable section

/-- What happens in a turn. -/
def State.act (s : State) : Host.Outcome State Fault Refusal :=
  match s.turn with
  | .ctx core k => s.issue core k
  | .unit u =>
    match decodeMicro ((s.unitAt u).overlay.get (s.unitAt u).pc) with
    | some i => exec i { s with curUnit := u }
    | none => .next (s.nbIllop u)
  | .event e => exec e.toInstr s
  | .held cl uid => s.releaseHeld cl uid
  | .idle => .next s

/-- One step: what the turn names happens, and then the next turn is chosen. A device whose firmware and recovery images have both
failed stays in boot ROM until it is reset (R69). -/
def step (s : State) : Host.Outcome State Fault Refusal :=
  if s.sec.failed ∧ s.turn ≠ .event .deviceReset then .fault .bootRom
  else
    match s.act with
    | .next s' => .next s'.pickNext
    | .fault f => .fault f
    | .refused r => .refused r

/-- The partition of a placed program: cluster 0, its supervisor core 0, its tables at 0x1_0000. -/
def fetchPart : PartEntry := { PartEntry.free with state := 2, noneok := true, clmask := 1, ptroot := 0x10000 }

/-- The line of one instruction (R284 to R286). -/
def lineBytes (head tail len : Nat) : List Byte :=
  bytesOf (2 ^ 11) 2 ++ bytesOf head 2 ++ List.replicate (60 - len) 0 ++ bytesOf tail len

/-- The state in which the next step fetches and runs one instruction word of the opcode table (DESIGN CHOICE, log entry 26). A core
instruction stands alone in the line at 0x10_0000, which context 0 of core 0 of partition 0 runs through a 1 GiB leaf; a micro-instruction
stands in the overlay of unit 0 at its PC. -/
def State.withFetchWord (s : State) (nbits w : Nat) : State :=
  match tableWord nbits w with
  | .core head tail =>
    let s1 : State := { s with turn := .ctx 0 0, part := s.part.set 0 fetchPart, sec := { s.sec with failed := false } }
    let s2 := ((s1.putBytes 0x10000 (bytesOf 0x20001 8)).putBytes 0x20000 (bytesOf 0x2F 8)).putBytes 0x100000
      (lineBytes head tail (tailLen (head / 2 ^ 14)))
    s2.modCtx 0 0 (fun c => { c with phase := .running, pc := 0x100000, sleep := none, heldTrap := none })
  | .micro x =>
    { s with
      turn := .unit 0, sec := { s.sec with failed := false },
      unit := s.unit.modify 0 (fun y => { y with state := 2, overlay := y.overlay.set y.pc x }) }

end

end Sys2Proof.Machine
end

