-- ==== Sys2Proof/Safety.lean ====
section
/-! DEFINITION. The terms in which claims about the machine are stated: a legal turn, operands that can be read at once, the
state that a completed instruction leaves, and the parts of the state that an instruction leaves alone. -/

namespace Sys2Proof.Machine

/-! ## A legal turn -/

/-- The agent that acts next may act: a context has a clock (R16), runs, is not asleep, holds no trap, no user-level interrupt waits for
it, and its ordered task waits neither for a log slot nor for its held items (R97, R98, R109, R191); a near-bank unit runs a program and
no ordinary access waits for it (R223, R228); a held instruction belongs to an irrevocable ordered task (R97). A context whose store has
faulted waits for the report (R350). -/
def State.turnLegal (s : State) : Prop :=
  match s.turn with
  | .ctx core k => s.powered core = true ∧ (s.ctxAt core k).awake = true ∧ (s.ctxAt core k).interrupted = false ∧
      s.ordStalled core k = false ∧ s.faultWaits core k = false
  | .unit u => (s.unit.get u).state = 2 ∧ (s.unit.get u).waiting = []
  | .held cl uid => ∃ o ∈ (s.clusterAt cl).ord, o.uid = uid ∧ o.irrevocable = true ∧ o.held ≠ []
  | .event _ => True
  | .idle => True

/-! ## Operands -/

/-- None of the registers is in stream mode or pending. Keys above 31 are vector registers. -/
def Ctx.plain (c : Ctx) (ks : List Nat) : Bool :=
  ks.all (fun k => (assocGet c.streams k).isNone && !c.pend.getLsbD k)

/-- None of the registers is poisoned, but for those whose poison has already trapped (R120, R196). -/
def Ctx.unpoisoned (c : Ctx) (ks : List Nat) : Bool := c.poison.all (fun p => !ks.contains p.1 || c.seen.getLsbD p.1)

/-- The running context can read `srcs` and write `dsts` at once. -/
def State.canRun (s : State) (srcs dsts : List Nat) : Bool :=
  s.me.plain (srcs ++ dsts) && s.me.unpoisoned srcs

/-- The state after an instruction that falls through (R291): the PC is that of the next instruction, and words fetched from another
device for it are dropped. -/
def State.completed (s : State) : State :=
  (if s.me.streams.isEmpty then s else s.farClear s.farOwner).modMe (fun c => { c with pc := nextPc c.pc c.lineN })

/-- The state after an instruction that transfers control to `t` (R326). -/
def State.jumped (s : State) (t : Word) : State :=
  (if s.me.streams.isEmpty then s else s.farClear s.farOwner).modMe (fun c => { c with pc := t })

/-- The state after an instruction whose one result is `v` in general register `d`. -/
def State.wrote (s : State) (d : Nat) (v : Word) : State := (s.setG d v).completed

/-- A value of `w` bits as the 64 bits that an instruction of type `ty` writes: sign-extended for a signed type, else
zero-extended (R325). -/
def extendTy {w : Nat} (ty : Nat) (v : BitVec w) : Word := if ty < 4 then v.signExtend 64 else v.setWidth 64

/-- The value of an operand as an instruction of type `ty` reads it: signed for a signed type, else unsigned (R334). -/
def valueTy {w : Nat} (ty : Nat) (v : BitVec w) : Int := if ty < 4 then v.toInt else v.toNat

/-- A result of `w` bits: with .sat the nearest value of the type, else as it is (R232, R334). -/
def saturate (sat : Bool) (ty w : Nat) (x : Int) : Int :=
  if sat then (if ty < 4 then min (max x (-(2 ^ (w - 1)))) (2 ^ (w - 1) - 1) else min (max x 0) (2 ^ w - 1)) else x

/-- The effective address of a memory operand whose registers are plain (R294). -/
def State.addrOf (s : State) (m : MemOp) : Word :=
  s.me.g.get m.sa + (BitVec.ofNat 32 m.imm).signExtend 64 + (if m.ix then s.me.g.get m.sb <<< m.scl else 0)

/-- No speculative task is live in any cluster (R97). -/
def State.noneLive (s : State) : Prop := s.liveOrd = [] ∧ s.cluster.dflt.ord = []

/-- Nothing interferes with an access of `n` bytes at a location: no engine owns a line of it, no speculative task is live, no core holds
partials, no line of it carries an uncorrectable error, no log area in use holds it, and the core's store queue has room (R23, R98, R99,
R135, R137, R350). -/
def State.undisturbed (s : State) (loc n : Nat) : Prop :=
  s.ownedRange loc n = false ∧ s.noneLive ∧ s.uline = [] ∧ s.badRange loc n = false ∧ s.inLog loc n = false ∧
    (s.coreAt s.curCore).storeq < 16

/-- A pointer of the running context leads to location `loc` of this device, on a page that does not travel, for an access of `n` bytes
with which nothing interferes, by a context that runs no ordered task. -/
def State.reaches (s : State) (p : Word) (a : Access) (loc n : Nat) : Prop :=
  (∃ leaf u, resolve p a s = .ok (.mem loc leaf, u) ∧ bit leaf 4 = false) ∧ s.undisturbed loc n ∧
    s.ordOf s.curCore s.curCtx = none

/-- A trap that the running instruction raises at itself (R272). -/
def State.trapAt (s : State) (cause : Nat) (addr info : Word) : Trap :=
  { cause := cause, epc := s.me.pc, eaddr := addr, einfo := info, pois := false, eng := false, job := 0 }

/-- The state after the running instruction has trapped (R272 to R274). -/
def State.trapped (s : State) (cause : Nat) (addr info : Word) : State :=
  (s.farClear (8 * s.curCore + s.curCtx)).takeTrap s.curCore s.curCtx (s.trapAt cause addr info)

/-- The line at `pc` gives instruction `i`, its line holding `n` instructions, and no trap: the PC is legal, its line is translated,
readable and well-formed, and the head and tail of its slot are those of `i` (R284 to R293). -/
def State.fetches (s : State) (i : Instr) (n : Nat) (s1 : State) : Prop :=
  bit s.me.pc 5 = false ∧ bits s.me.pc 63 52 = 0 ∧
    ∃ cs c, fetchLine s.me.pc s = .ok (.line cs, s1) ∧ cs.length = n ∧ cs[bits s.me.pc 4 0]? = some c ∧
      decodeCode c.head c.tail = .ok i

/-- The state after an instruction that falls through and cannot have read another device. -/
def State.onward (s : State) : State := s.modMe (fun c => { c with pc := nextPc c.pc c.lineN })

/-- The state that has taken a long-latency slot and made register `a` pending (R119). -/
def State.asked (s : State) (a : Nat) : State :=
  (s.modCore s.curCore (fun c => { c with slots := c.slots + 1 })).setPend (s.dest a)

/-- The running context can read `srcs`, and has a slot for the answer that register `a` will await; its task is not speculative, and no
earlier access of it is out. -/
def State.canAsk (s : State) (srcs : List Nat) (a : Nat) : Prop :=
  s.canRun srcs [a] = true ∧ a < 16 ∧ (s.coreAt s.curCore).slots < 64 ∧ s.ordOf s.curCore s.curCtx = none ∧
    s.outOf s.curCore s.curCtx = []

/-- A release of the running context completes at once: no access of it is out, and its ordered task, if it runs one, is irrevocable and holds
no item back (R97, R255). -/
def State.settled (s : State) : Prop :=
  s.outOf s.curCore s.curCtx = [] ∧ ∀ cl o, s.ordOf s.curCore s.curCtx = some (cl, o) → o.irrevocable = true ∧ o.held = []

/-- The context has a window of vector registers, or a free one that it may bind (R108). -/
def State.windowed (s : State) : Prop := s.me.vwin ≠ 0 ∨ ∃ w, w < 4 ∧ ((s.coreAt s.curCore).win.get w).used = false

/-! ## Vectors -/

/-- Vector register `k` of the running context's window (R108). -/
def State.vreg (s : State) (k : Nat) : Vec := (s.winAt (s.me.vwin - 1)).v.get k

/-- Mask register `k` of the running context's window. -/
def State.mreg (s : State) (k : Nat) : Word := (s.winAt (s.me.vwin - 1)).m.get k

/-- Lane `k` of width `w` (R365). -/
def laneBits (v : Vec) (w k : Nat) : BitVec w := v.extractLsb' (w * k) w

/-- Lane `k` is active under mask selector `mk`, 0 or 8 to 15 (R310, R365). -/
def State.active (s : State) (mk w k : Nat) : Bool := mk == 0 || (s.mreg (mk - 8)).getLsbD (if w = 4 then k / 2 else k)

/-- The state after an instruction whose one result is vector register `d`, mask register `d`, or bounded register `d`. -/
def State.wroteV (s : State) (d : Nat) (x : Vec) : State :=
  (s.modWin (s.me.vwin - 1) (fun n => { n with v := n.v.set d x })).completed
def State.wroteM (s : State) (d : Nat) (x : Word) : State :=
  (s.modWin (s.me.vwin - 1) (fun n => { n with m := n.m.set d x })).completed
def State.wroteB (s : State) (d : Nat) (x : Vec) (bound : W32) : State :=
  (s.modWin (s.me.vwin - 1) (fun n => { n with b := n.b.set d x, bound := n.bound.set d bound })).completed

/-- Bounded register `k` of the running context's window: its lanes and its bound word (R204). -/
def State.breg (s : State) (k : Nat) : Vec × W32 :=
  ((s.winAt (s.me.vwin - 1)).b.get k, (s.winAt (s.me.vwin - 1)).bound.get k)

/-- The state after an instruction whose one result is bounded register `d`, or vector register `d`, and that reads no other device. -/
def State.putB (s : State) (d : Nat) (x : Vec) (bound : W32) : State :=
  (s.modWin (s.me.vwin - 1) (fun n => { n with b := n.b.set d x, bound := n.bound.set d bound })).onward
def State.putV (s : State) (d : Nat) (x : Vec) : State :=
  (s.modWin (s.me.vwin - 1) (fun n => { n with v := n.v.set d x })).onward

/-- The context has a window, and its registers with these keys can be read and written at once. -/
def State.vecRun (s : State) (srcs dsts : List Nat) : Bool := s.me.vwin != 0 && s.canRun srcs dsts

/-- The lanes of width `w` of `r` are `f k` where lane `k` is active under `mk`, and those of `old` where it is not. -/
def State.lanesAre (s : State) (mk w : Nat) (r old : Vec) (f : Nat → BitVec w) : Prop :=
  ∀ k, k < 512 / w → laneBits r w k = if s.active mk w k then f k else laneBits old w k

/-- Nothing interferes with the running context's accesses to its own scratchpad, and its instruction is no held one. -/
def State.calm (s : State) : Prop :=
  s.me.blk = none ∧ s.me.wout = [] ∧ s.owned = [] ∧ s.noneLive ∧ s.uline = [] ∧ s.badLines = [] ∧ s.meets = [] ∧
    (s.coreAt s.curCore).storeq < 16 ∧ s.ordOf s.curCore s.curCtx = none ∧ (s.outOf s.curCore s.curCtx).any (fun o => o.acq) = false

/-- A raw pointer to offset `off` of the running core's own scratchpad (R128, R129). -/
def spadPtr (p : Word) (off : Nat) : Prop := p = BitVec.ofNat 64 (3 * 2 ^ 52 + off) ∧ off < 2 ^ 18

/-- A register names an operand block of `n` bytes, aligned to `align`, at offset `off` of the running core's own scratchpad, clear of
the log area while that is in use (R98, R389). -/
def State.blockAt (s : State) (p : Word) (align n off : Nat) : Prop :=
  spadPtr p off ∧ off % align = 0 ∧ off + n ≤ 2 ^ 18 ∧ (0x3C000 < off + n → s.logInUse s.curPart = false) ∧ s.calm

/-- A job that has not completed, with no completion form but its record (R190). -/
def State.openJob (s : State) (id : Word) : Prop :=
  ∃ j, s.jobOf id = some j ∧ j.state < 4 ∧ j.later < 32 ∧ j.buf = none ∧ j.huddles = [] ∧ j.arr = none

/-- No job record of the running core, of the model's device, has the number that the next job takes (R391). -/
def State.freshJob (s : State) : Prop :=
  s.curCore < 1920 ∧ s.dev < 4096 ∧ ∀ j ∈ (s.coreAt s.curCore).jobs, bits j.id 15 0 ≠ (s.coreAt s.curCore).jobSeq % 65536

/-- A job has completed with a status (R190, R391). -/
def State.jobDone (s : State) (id : Word) (code : Nat) : Prop := (s.jobOf id).map (fun j => (j.state, j.code)) = some (4, code)

/-- No core of the running core's cluster has a job record (R190). -/
def State.noJobs (s : State) : Prop := (coresOf (clusterOf s.curCore)).all (fun k => (s.coreAt k).jobs.isEmpty) = true

/-- The bytes of a block. -/
def State.block (s : State) (off n : Nat) : List Byte := s.bytesAt (spadLoc s.curCore off) n

/-- Nothing anywhere interferes with accesses to scratchpads: no engine owns a line, no ordered task is queued or live, no partials and
no error marks stand, and nothing is out at another device. -/
def State.still (s : State) : Prop :=
  s.owned = [] ∧ s.uline = [] ∧ s.badLines = [] ∧ s.meets = [] ∧ s.fab.out = [] ∧ s.far = [] ∧ ∀ cl, (s.clusterAt cl).ord = []

/-! ## Near-bank units -/

/-- Unit `u` runs a micro-instruction now: it is not at its limit of steps, and no switch to NORMAL waits (R219, R223). -/
def State.unitRuns (s : State) (u : Nat) : Prop :=
  s.curUnit = u ∧ (s.unitAt u).state = 2 ∧ (s.unitAt u).steps + 1 < 2 ^ 24 ∧ (s.unitAt u).pending = false

/-- The state differs from `s` at most in unit `u`. -/
def State.onlyUnit (t s : State) (u : Nat) : Prop := t = { s with unit := t.unit } ∧ ∀ v, v ≠ u → t.unitAt v = s.unitAt v

/-! ## What stays as it was -/

/-- Memory, its error marks and the update-only partials are those of `s`. -/
def State.sameMem (t s : State) : Prop := t.mem = s.mem ∧ t.badLines = s.badLines ∧ t.uline = s.uline

/-- The state differs from `s` at most in what a translation or a fetch may change: the contents of TLBs, the count of free values,
and, where update-only partials stand, memory by their recall (R137, R144 to R146). -/
def State.sameButWalk (t s : State) : Prop :=
  (∀ c, t.coreAt c = { s.coreAt c with tlb := (t.coreAt c).tlb, tlbUse := (t.coreAt c).tlbUse }) ∧
    (∀ c, t.clusterAt c = { s.clusterAt c with tlb2 := (t.clusterAt c).tlb2 }) ∧
    t = { s with core := t.core, cluster := t.cluster, free := t.free, mem := t.mem, badLines := t.badLines,
                 uline := t.uline } ∧
    (s.uline = [] → t.sameMem s)

/-- Every context but context `k` of core `c` is that of `s`. -/
def State.otherCtxs (t s : State) (c k : Nat) : Prop := ∀ d j, ¬ (d = c ∧ j = k) → t.ctxAt d j = s.ctxAt d j

/-- A context's special registers, trap registers, handles, window number and streams are those of `c`: of the registers of a context
only g registers, their marks and the PC may differ. -/
def Ctx.sameButG (d c : Ctx) : Prop :=
  d.trap = c.trap ∧ d.ident = c.ident ∧ d.msgr = c.msgr ∧ d.q = c.q ∧ d.uie = c.uie ∧ d.atrap = c.atrap ∧ d.vwin = c.vwin ∧
    d.latch = c.latch ∧ d.streams = c.streams ∧ d.phase = c.phase ∧ d.work = c.work ∧ d.pend = c.pend ∧
    d.retStack = c.retStack ∧ d.sendBuf = c.sendBuf ∧ d.sleep = c.sleep ∧ d.stores = c.stores

/-- The running context has gone on to the next instruction, with general registers `g`; nothing else of it changed, and no other
context did. -/
def State.wentOn (t s : State) (g : Tab Word) : Prop :=
  t.me.g = g ∧ t.me.pc = nextPc s.me.pc s.me.lineN ∧ t.me.sameButG s.me ∧ t.otherCtxs s s.curCore s.curCtx ∧
    t.curCore = s.curCore ∧ t.curCtx = s.curCtx

/-- The running context has gone on to the next instruction with general registers `g`, and memory is as it was; more of the context
may have changed. -/
def State.passed (t s : State) (g : Tab Word) : Prop :=
  t.me.g = g ∧ t.me.pc = nextPc s.me.pc s.me.lineN ∧ t.sameMem s

/-- Memory is that of `s` but for the bytes `bs` at `loc`. -/
def State.stored (t s : State) (loc : Nat) (bs : List Byte) : Prop :=
  t.mem = memWriteBytes s.mem loc bs ∧
    (Memory.wf s.mem = true → ∀ j, j < loc ∨ loc + bs.length ≤ j → memRead t.mem j = memRead s.mem j)

end Sys2Proof.Machine
end

