-- ==== Sys2Proof/Certificates/Slice0/Obligations.lean ====
section
/-! DEFINITION. The statements for the provers. Each docstring names the rules of spec/ that it formalises; `wrote`, `completed`,
`canRun` and the other terms stand in Safety.lean. -/

open Sys2Proof Sys2Proof.Machine

/-! ## Encoding, fetching and stepping -/

/-- Decoding the head and tail of a well-formed instruction gives the instruction back; the three operations of NBMODE share one
encoding (R309, R318). -/
def Obligations.DecodeOfEncode : Prop :=
  ∀ (i : Instr) (c : Code), i.wellFormed = true → encode i = some c →
    decodeCode c.head c.tail = .ok i ∨
      ∃ a x y, (i = .nbmodeCompute a x y ∨ i = .nbmodeResume a x y) ∧ decodeCode c.head c.tail = .ok (.nbmodeNormal a x y)

/-- Decoding the overlay word of a well-formed near-bank micro-instruction gives the micro-instruction back (R224). -/
def Obligations.DecodeOfEncodeMicro : Prop :=
  ∀ (i : Instr) (w : W32), i.wellFormed = true → encodeMicro i = some w → decodeMicro w = some i

/-- Whatever a head and a tail decode to is well-formed: no reserved encoding becomes an instruction (R288, R296, R324). -/
def Obligations.DecodedIsWellFormed : Prop :=
  ∀ (h t : Nat) (i : Instr), decodeCode h t = .ok i → i.wellFormed = true

/-- Words written out from the encodings of the spec decode to the instructions they stand for. -/
def Obligations.WordsDecode : Prop :=
  decodeCode 0x8A04 0x00002002 = .ok (.ffcs 4 2) ∧ decodeCode 0x8905 0x00084005 = .ok (.shli 5 5 8) ∧
    decodeCode 0x8885 0x00031105 = .ok (.or 5 5 4 3) ∧ decodeCode 0x8283 0x00000002 = .ok (.loop 3 2) ∧
    decodeCode 0xBE01 0x000D0000 = .ok (.mfs 1 13) ∧ decodeCode 0 0 = .ok .nop ∧
    decodeMicroOp 0x31028001#32 = some (.macb 2 5 1) ∧ decodeMicroOp 0xA8187FFC#32 = some (.loop 3 0x7FFC)

/-- When the bytes at the program counter decode to an instruction, a step at a context's turn counts the issue, runs exec of that
instruction, and chooses the next turn (R284 to R293, R110). At a near-bank unit's turn a step runs exec of the micro-instruction
that the overlay word at the unit's PC decodes to, or enters ILLOP for a word that is none; at an event's turn it runs exec of the
event (R223, log entry 2). -/
def Obligations.StepRuns : Prop :=
  (∀ (s s1 : State) (core k n : Nat) (i : Instr), s.turn = .ctx core k → s.sec.failed = false →
    (s.asCtx core k).fetches i n s1 →
    step s = match exec i ((s1.modMe (fun c => { c with lineN := n })).tick i) with
      | .next t => .next t.pickNext
      | .fault f => .fault f
      | .refused r => .refused r) ∧
  ((∀ (s t : State) (u : Nat) (i : Instr), s.turn = .unit u → s.sec.failed = false →
    decodeMicro ((s.unitAt u).overlay.get (s.unitAt u).pc) = some i → exec i { s with curUnit := u } = .next t →
    step s = .next t.pickNext) ∧
  (∀ (s : State) (u : Nat), s.turn = .unit u → s.sec.failed = false →
    decodeMicro ((s.unitAt u).overlay.get (s.unitAt u).pc) = none → step s = .next (s.nbIllop u).pickNext) ∧
  (∀ (s t : State) (e : Event), s.turn = .event e → s.sec.failed = false → exec e.toInstr s = .next t →
    step s = .next t.pickNext))

/-- Every step leaves a legal turn: the context that issues next has a clock, runs, is not asleep, holds no trap and no user-level
interrupt waits for it; the unit that runs next runs a program with no access waiting; a held instruction that is released belongs
to an irrevocable task (R16, R97, R109, R191, R223, R228). -/
def Obligations.StepKeepsTurnLegal : Prop :=
  ∀ s t : State, s.turnLegal → step s = .next t → t.turnLegal

/-- The state after reset has a legal turn. -/
def Obligations.ResetTurnLegal : Prop :=
  State.reset.turnLegal

/-- After reset every island is at OP 0 but island 31, no partition exists, no context holds work, every link is DOWN, and memory lists
nothing and keeps its canonical form (R24, R52). A device whose firmware image and recovery image have both failed stays in boot ROM
until it is reset (R69). -/
def Obligations.ResetLeaves : Prop :=
  ((∀ k, k ≠ 31 → ((State.reset.island.get k).eff = 0 ∧ (State.reset.island.get k).req = 0)) ∧
    (State.reset.island.get 31).eff = 3 ∧ (∀ p, (State.reset.part.get p).state = 0) ∧
    (∀ c k, (State.reset.ctxAt c k).phase = .idle) ∧ (∀ p, (State.reset.fab.port.get p).state = 0) ∧
    State.reset.link.state = 0 ∧ State.reset.mem = [] ∧ Memory.wf State.reset.mem = true) ∧
  (∀ s : State, s.sec.failed = true → s.turn ≠ .event .deviceReset → step s = .fault .bootRom)

/-! ## Memory -/

/-- A byte written is the byte read, every other byte is as before, and the canonical form is kept. Two memories in canonical form that
read alike everywhere are equal. -/
def Obligations.MemoryLaws : Prop :=
  ((∀ (m : List Host.Cell) (a : Nat) (b : Byte), Memory.wf m = true →
    Memory.wf (memWrite m a b) = true ∧ memRead (memWrite m a b) a = b ∧
      ∀ j, j ≠ a → memRead (memWrite m a b) j = memRead m j) ∧
  (∀ (s : State) (loc : Nat) (bs : List Byte), Memory.wf s.mem = true →
    Memory.wf (s.putBytes loc bs).mem = true ∧ (s.putBytes loc bs).bytesAt loc bs.length = bs ∧
      ∀ j, j < loc ∨ loc + bs.length ≤ j → memRead (s.putBytes loc bs).mem j = memRead s.mem j)) ∧
  (∀ m n : List Host.Cell, Memory.wf m = true → Memory.wf n = true → (∀ a, memRead m a = memRead n a) → m = n)

/-! ## Integer and control instructions -/

/-- The arithmetic group but for its divisions writes its expression over the low `w` bits of its sources, extended by TY (R334). -/
def Obligations.ArithmeticResults : Prop :=
  ∀ (s : State) (d a b ty w : Nat), w = 8 * 2 ^ (ty % 4) → s.canRun [a, b] [d] = true →
    let x : BitVec w := (s.me.g.get a).setWidth w
    let y : BitVec w := (s.me.g.get b).setWidth w
    let put (v : BitVec w) : Host.Outcome State Fault Refusal := .next (s.wrote d (extendTy ty v))
    let flag (p : Bool) : Host.Outcome State Fault Refusal := .next (s.wrote d (if p then 1 else 0))
    (∀ sat, exec (.add d a b ty sat) s = put (BitVec.ofInt w (saturate sat ty w (valueTy ty x + valueTy ty y))) ∧
      exec (.sub d a b ty sat) s = put (BitVec.ofInt w (saturate sat ty w (valueTy ty x - valueTy ty y))) ∧
      exec (.mul d a b ty sat) s = put (BitVec.ofInt w (saturate sat ty w (valueTy ty x * valueTy ty y)))) ∧
    exec (.mulh d a b ty) s = put (BitVec.ofInt w ((x.toInt * y.toInt).fdiv (2 ^ w))) ∧
    exec (.mulhn d a b ty) s = put (BitVec.ofNat w (x.toNat * y.toNat / 2 ^ w)) ∧
    exec (.min d a b ty) s = put (if x.slt y then x else y) ∧ exec (.max d a b ty) s = put (if x.slt y then y else x) ∧
    exec (.minn d a b ty) s = put (if x.ult y then x else y) ∧ exec (.maxn d a b ty) s = put (if x.ult y then y else x) ∧
    exec (.seq d a b ty) s = flag (x == y) ∧ exec (.slt d a b ty) s = flag (x.slt y) ∧ exec (.sltn d a b ty) s = flag (x.ult y)

/-- Division never traps, and gives the cases of Table 4: by a zero divisor, of the least number by -1, and otherwise truncated towards
zero or the floor; a non-zero REM has the sign of the dividend (R335). -/
def Obligations.DivisionCases : Prop :=
  ∀ (s : State) (d a b ty w : Nat), w = 8 * 2 ^ (ty % 4) → s.canRun [a, b] [d] = true →
    let ia := ((s.me.g.get a).setWidth w : BitVec w).toInt
    let ib := ((s.me.g.get b).setWidth w : BitVec w).toInt
    let ua := ((s.me.g.get a).setWidth w : BitVec w).toNat
    let ub := ((s.me.g.get b).setWidth w : BitVec w).toNat
    let gives (i : Instr) (x : Int) : Prop := exec i s = .next (s.wrote d (extendTy ty (BitVec.ofInt w x)))
    (ib = 0 → gives (.div d a b ty) (-1) ∧ gives (.rem d a b ty) ia ∧ gives (.divn d a b ty) (2 ^ w - 1) ∧
      gives (.remn d a b ty) ua) ∧
    (ia = -2 ^ (w - 1) → ib = -1 → gives (.div d a b ty) (-2 ^ (w - 1)) ∧ gives (.rem d a b ty) 0) ∧
    (ib ≠ 0 → ¬ (ia = -2 ^ (w - 1) ∧ ib = -1) → ∃ q : Int,
      (0 ≤ q * (ia * ib) ∧ q.natAbs = ia.natAbs / ib.natAbs) ∧ gives (.div d a b ty) q ∧ gives (.rem d a b ty) (ia - ib * q) ∧
        (ia - ib * q ≠ 0 → (0 < ia - ib * q ↔ 0 < ia))) ∧
    (ub ≠ 0 → gives (.divn d a b ty) (ua / ub : Nat) ∧ gives (.remn d a b ty) (ua % ub : Nat))

/-- The logic and shift group, the unary group, the immediate group and SEL write their expressions (R336 to R339), and LDI its
immediate (R333). CLZ, CTZ and POPC count the leading zeros, the trailing zeros and the set bits of the low `w` bits, and BSWP
reverses their bytes (R337): the counts by the bits they say are clear or set, the reversal byte by byte. -/
def Obligations.LogicAndCounts : Prop :=
  (∀ (s : State) (d a b c ty w : Nat), w = 8 * 2 ^ (ty % 4) → s.canRun [a, b, c] [d] = true →
    let x : BitVec w := (s.me.g.get a).setWidth w
    let y : BitVec w := (s.me.g.get b).setWidth w
    let n := y.toNat % w
    let put (v : BitVec w) : Host.Outcome State Fault Refusal := .next (s.wrote d (extendTy ty v))
    (exec (.and d a b ty) s = put (x &&& y) ∧ exec (.or d a b ty) s = put (x ||| y) ∧ exec (.xor d a b ty) s = put (x ^^^ y) ∧
      exec (.andn d a b ty) s = put (x &&& ~~~y) ∧ exec (.shl d a b ty) s = put (x <<< n) ∧
      exec (.shr d a b ty) s = put (x >>> n) ∧ exec (.sra d a b ty) s = put (x.sshiftRight n) ∧
      exec (.rol d a b ty) s = put (x.rotateLeft n)) ∧
    (exec (.sext d a ty) s = .next (s.wrote d (x.signExtend 64)) ∧ exec (.zext d a ty) s = .next (s.wrote d (x.setWidth 64)) ∧
      exec (.mov d a ty) s = put x) ∧
    (∀ imm : Nat,
      let k : Word := (BitVec.ofNat 16 imm).signExtend 64
      let z := s.me.g.get a
      exec (.addi d a imm) s = .next (s.wrote d (z + k)) ∧ exec (.andi d a imm) s = .next (s.wrote d (z &&& k)) ∧
        exec (.ori d a imm) s = .next (s.wrote d (z ||| k)) ∧ exec (.xori d a imm) s = .next (s.wrote d (z ^^^ k)) ∧
        exec (.shli d a imm) s = .next (s.wrote d (z <<< (imm % 64))) ∧
        exec (.shri d a imm) s = .next (s.wrote d (z >>> (imm % 64))) ∧
        exec (.srai d a imm) s = .next (s.wrote d (z.sshiftRight (imm % 64)))) ∧
    (∀ imm : Word, exec (.ldi d imm) s = .next (s.wrote d imm)) ∧
    exec (.sel d a b c) s = .next (s.wrote d (if s.me.g.get a ≠ 0 then s.me.g.get b else s.me.g.get c))) ∧
  (∀ (s : State) (d a ty w : Nat), w = 8 * 2 ^ (ty % 4) → s.canRun [a] [d] = true →
    let x : BitVec w := (s.me.g.get a).setWidth w
    (∃ n, exec (.clz d a ty) s = .next (s.wrote d (BitVec.ofNat 64 n)) ∧ n ≤ w ∧
      (∀ k, k < n → x.getMsbD k = false) ∧ (n < w → x.getMsbD n = true)) ∧
    (∃ n, exec (.ctz d a ty) s = .next (s.wrote d (BitVec.ofNat 64 n)) ∧ n ≤ w ∧
      (∀ k, k < n → x.getLsbD k = false) ∧ (n < w → x.getLsbD n = true)) ∧
    exec (.popc d a ty) s = .next (s.wrote d (BitVec.ofNat 64 ((List.range w).countP (fun k => x.getLsbD k)))) ∧
    ∃ v : BitVec w, exec (.bswp d a ty) s = .next (s.wrote d (extendTy ty v)) ∧
      ∀ k, k < w → v.getLsbD k = x.getLsbD (w - 8 - k / 8 * 8 + k % 8))

/-- A transfer of control whose target may be entered goes to the target PC that the displacement and slot give; one that is not taken
falls through; CALL and CALLI write the next PC, LOOP the decremented count (R291, R292, R326, R327). A transfer to a target that
may not be entered traps ILLTGT at the transfer with the target in EADDR, and neither the link register nor the LOOP count changes
(R293, R326). -/
def Obligations.ControlTransfers : Prop :=
  (∀ (s u : State) (a b f c : Nat) (t : Word), badTarget t s = .ok (false, u) →
    (t = target32 s.me.pc f → exec (.br f) s = .next (u.jumped t)) ∧
    (t = target32 s.me.pc f → s.canRun [a] [] = true →
      (s.me.g.get a = 0 → exec (.bz a f) s = .next (u.jumped t) ∧ exec (.bnz a f) s = .next s.completed) ∧
      (s.me.g.get a ≠ 0 → exec (.bnz a f) s = .next (u.jumped t) ∧ exec (.bz a f) s = .next s.completed)) ∧
    (t = target16 s.me.pc f → s.canRun [a, b] [] = true →
      let x := s.me.g.get a
      let y := s.me.g.get b
      let holds := (c = 0 ∧ x = y) ∨ (c = 1 ∧ x ≠ y) ∨ (c = 2 ∧ x.toInt < y.toInt) ∨ (c = 3 ∧ y.toInt ≤ x.toInt) ∨
        (c = 4 ∧ x.toNat < y.toNat) ∨ (c = 5 ∧ y.toNat ≤ x.toNat)
      (holds → exec (.bcc c a b f) s = .next (u.jumped t)) ∧ (c < 6 → ¬ holds → exec (.bcc c a b f) s = .next s.completed)) ∧
    (t = target32 s.me.pc f → s.canRun [a] [a] = true →
      (s.me.g.get a ≠ 1 → exec (.loop a f) s = .next ((u.setG a (s.me.g.get a - 1)).jumped t)) ∧
      (s.me.g.get a = 1 → exec (.loop a f) s = .next (s.wrote a 0))) ∧
    (t = target32 s.me.pc f → s.canRun [] [a] = true → ∃ v, exec (.call a f) s = .next v ∧ v.me.pc = t ∧
      v.me.g.get a = s.nextOf ∧ (∀ j, j ≠ a → v.me.g.get j = s.me.g.get j) ∧ v.mem = u.mem) ∧
    (t = s.me.g.get b → s.canRun [b] [a] = true → ∃ v, exec (.calli a b) s = .next v ∧ v.me.pc = t ∧
      v.me.g.get a = s.nextOf ∧ (∀ j, j ≠ a → v.me.g.get j = s.me.g.get j) ∧ v.mem = u.mem) ∧
    (t = s.me.g.get b → s.canRun [b] [] = true → exec (.jmpi b) s = .next (u.jumped t) ∧
      ∃ v, exec (.ret b) s = .next v ∧ v.me.pc = t ∧ v.me.g = s.me.g ∧ v.mem = u.mem) ∧ (s.uline = [] → u.mem = s.mem)) ∧
  (∀ (s u : State) (a f : Nat) (t : Word), badTarget t s = .ok (true, u) → t = target32 s.me.pc f →
    let trap : Trap := { cause := 3, epc := s.me.pc, eaddr := t, einfo := 0, pois := false, eng := false, job := 0 }
    let after : Host.Outcome State Fault Refusal :=
      .next ((s.farClear (8 * s.curCore + s.curCtx)).takeTrap s.curCore s.curCtx trap)
    exec (.br f) s = after ∧ (s.canRun [] [a] = true → exec (.call a f) s = after) ∧
      (s.canRun [a] [a] = true → s.me.g.get a ≠ 1 → exec (.loop a f) s = after))

/-- NOP only falls through; SLEEP returns at once on a count of 0 or a latched event of its mask, clearing those latches, and else sleeps
with its deadline in the ac of its core and its mask, until SLEEP_WAKE; BRK and TRAPI complete and then raise SYSCALL with bit 63, and SOFT,
with EPC naming the next instruction (R329, R330, R332). END of a thread that is its task's only one stops the thread and puts the task's
end in flight; END of a handler whose accesses are performed and whose sends fit the outgoing queue frees its context; END waits while a
register is pending (R76, R114, R115, R119, R263, R329). -/
def Obligations.NopSleepTrapsEnd : Prop :=
  ((∀ s : State, exec .nop s = .next (s.modMe (fun c => { c with pc := nextPc c.pc c.lineN }))) ∧
  (∀ (s : State) (a mask : Nat), s.curCtx < 4 → s.me.sleep = none → s.canRun [a] [] = true →
    let m := BitVec.ofNat 7 mask
    (s.me.latch &&& m ≠ 0 ∨ s.me.g.get a = 0 →
      exec (.sleep a mask) s = .next (s.modMe (fun c => { c with latch := c.latch &&& ~~~m })).completed) ∧
    (s.me.latch &&& m = 0 ∧ s.me.g.get a ≠ 0 →
      exec (.sleep a mask) s = .next (s.modMe (fun c => { c with sleep := some (s.coreAc s.curCore + (s.me.g.get a).toNat, m.toNat) })))) ∧
  (∀ (s : State) (core k t m : Nat) (e : Bool), (s.ctxAt core k).sleep = some (t, m) →
    (e = true ∧ t ≤ s.coreAc core ∨ (s.ctxAt core k).latch &&& BitVec.ofNat 7 m ≠ 0) →
    exec (.sleepWake core k e) s = .next (s.modCtx core k (fun c =>
      { c with sleep := none, latch := c.latch &&& ~~~(BitVec.ofNat 7 m), pc := nextPc c.pc c.lineN }))) ∧
  (∀ (s : State) (n : Nat),
    let s1 := s.modMe (fun c => { c with pc := nextPc c.pc c.lineN })
    let trap (cause : Nat) (info : Word) : Trap :=
      { cause := cause, epc := s.nextOf, eaddr := 0, einfo := info, pois := false, eng := false, job := 0 }
    exec (.brk n) s = .next (s1.takeTrap s.curCore s.curCtx (trap 19 (BitVec.ofNat 64 (2 ^ 63 + n % 1024)))) ∧
    exec (.trapi n) s = .next (s1.takeTrap s.curCore s.curCtx (trap 18 (BitVec.ofNat 64 (n % 1024)))))) ∧
  ((∀ (s : State) (id : Nat) (t : Task), s.me.pend = 0 → s.me.stores = 0 → s.me.poison = [] → s.me.streams = [] → s.curCtx < 4 →
    s.taskOf s.curCore s.curCtx = some (id, t) → t.ordered = none → t.threads = [(s.curCore, s.curCtx)] →
    ∃ v, exec .endWork s = .next v ∧ (v.ctxAt s.curCore s.curCtx).phase = .ended ∧ Event.taskEnd id ∈ v.agenda ∧ v.mem = s.mem) ∧
  (∀ s : State, s.me.pend = 0 → s.me.stores = 0 → s.me.poison = [] → s.me.streams = [] → 4 ≤ s.curCtx →
    s.outOf s.curCore s.curCtx = [] → (s.coreAt s.curCore).outq.length + s.me.sendBuf.length ≤ 32 →
    ∃ v, exec .endWork s = .next v ∧ (v.ctxAt s.curCore s.curCtx).phase = .idle ∧ (v.ctxAt s.curCore s.curCtx).sendBuf = [] ∧
      (v.coreAt s.curCore).outq = (s.coreAt s.curCore).outq ++ s.me.sendBuf ∧ v.mem = s.mem) ∧
  (∀ s : State, s.me.pend ≠ 0 → exec .endWork s = .next s))

/-- What a completed instruction that writes one general register leaves unchanged: every other general register, the status and special
registers of its context, every other context, and every byte of memory (the arithmetic and logic groups; R291, R325). -/
def Obligations.WroteFrame : Prop :=
  ∀ (s : State) (d : Nat) (v : Word),
    let t := s.wrote d v
    t.me.g.get d = v ∧ (∀ j, j ≠ d → t.me.g.get j = s.me.g.get j) ∧ t.me.pc = nextPc s.me.pc s.me.lineN ∧
      t.me.sameButG s.me ∧ t.otherCtxs s s.curCore s.curCtx ∧ t.sameMem s ∧ t.cluster = s.cluster ∧ t.unit = s.unit ∧
      t.agenda = s.agenda ∧ t.part = s.part

/-! ## Address and bit-field instructions -/

/-- LEA and the address group write the pointers that R341 to R343 give, bit for bit. BINS inserts under a mask and BEXT extracts a
field (R345). -/
def Obligations.AddressesAndFields : Prop :=
  (∀ (s : State) (d a b : Nat), s.canRun [a, b] [d] = true → s.curCore < 4096 →
    let p := s.me.g.get a
    let hi := p.extractLsb' 54 10
    let put (v : Word) : Host.Outcome State Fault Refusal := .next (s.wrote d v)
    (∀ m : MemOp, s.canRun (memSrcs m) [d] = true → exec (.lea d m) s = put (s.addrOf m)) ∧
    exec (.padd d a b) s = put (hi ++ (p + s.me.g.get b).extractLsb' 0 54) ∧
    (∀ imm, exec (.paddImm d a imm) s = put (hi ++ (p + (BitVec.ofNat 16 imm).signExtend 64).extractLsb' 0 54)) ∧
    (∀ fmt blog, exec (.pset d a fmt blog) s = put (BitVec.ofNat 6 fmt ++ BitVec.ofNat 4 blog ++ p.extractLsb' 0 54)) ∧
    exec (.pget d a) s = put ((p.extractLsb' 52 12).setWidth 64) ∧
    exec (.pstrip d a) s = put ((p.extractLsb' 0 54).setWidth 64) ∧
    (p.extractLsb' 52 2 = 0 → p.extractLsb' 40 12 = 0 →
      exec (.pglb d a) s = put (hi ++ 2#2 ++ BitVec.ofNat 12 s.dev ++ p.extractLsb' 0 40)) ∧
    (p.extractLsb' 48 6 = 0b110000#6 →
      exec (.pglb d a) s = put (hi ++ 1#2 ++ BitVec.ofNat 12 s.dev ++ BitVec.ofNat 12 s.curCore ++ 0#10 ++ p.extractLsb' 0 18)) ∧
    (p.extractLsb' 48 6 = 0b110001#6 →
      exec (.pglb d a) s = put (hi ++ 1#2 ++ BitVec.ofNat 12 s.dev ++
        BitVec.ofNat 12 (s.curCore / 8 * 8 + (p.extractLsb' 18 3).toNat) ++ 0#10 ++ p.extractLsb' 0 18)) ∧
    (p.extractLsb' 52 2 = 1 ∨ p.extractLsb' 52 2 = 2 → exec (.pglb d a) s = put p) ∧
    ((p.extractLsb' 52 2 = 0 ∧ p.extractLsb' 40 12 ≠ 0) ∨ (p.extractLsb' 52 2 = 3 ∧ 2 ≤ (p.extractLsb' 48 4).toNat) →
      exec (.pglb d a) s = .next (s.trapped 4 p 0))) ∧
  (∀ (s : State) (d a b : Nat),
    let v := s.me.g.get a
    (s.canRun [a, b, d] [d] = true →
      exec (.bins d a b) s = .next (s.wrote d ((s.me.g.get d &&& ~~~(s.me.g.get b)) ||| (v &&& s.me.g.get b)))) ∧
    (s.canRun [a] [d] = true → ∀ lsb width, lsb < 64 → width ≤ 64 →
      exec (.bext d a lsb width) s = .next (s.wrote d ((v.extractLsb' lsb width).setWidth 64))))

/-- PCHK never traps: it writes FAIL and the cause where the access would trap, REMOTE where the pointer names another device, whose tables
it does not judge, and 0 where the access would succeed (R129, R344). -/
def Obligations.PointerCheck : Prop :=
  ∀ (s u : State) (d a : Nat) (w : Bool) (r : Except AccFault Target), s.canRun [a] [d] = true →
    let p := s.me.g.get a
    let away : Nat := if (bits p 53 52 = 1 ∨ bits p 53 52 = 2) ∧ bits p 51 40 ≠ s.dev then 2 ^ 62 else 0
    resolveAt s.curCore s.curPart (s.sregAt s.curCore s.curCtx) p (if w then .write else .read) s = .ok (r, u) →
    (∀ f, r = .error f → 1 ≤ f.cause → exec (.pchk d a w) s = .next (u.wrote d (BitVec.ofNat 64 (2 ^ 63 + away + f.cause)))) ∧
    (∀ n, r = .ok (.far n) → exec (.pchk d a w) s = .next (u.wrote d (BitVec.ofNat 64
      (2 ^ 62 + if bits p 53 52 = 1 ∧ (1920 ≤ bits p 39 28 ∨ 2 ^ 18 ≤ bits p 27 0) then 2 ^ 63 + 4 else 0)))) ∧
    (∀ loc leaf, r = .ok (.mem loc leaf) → exec (.pchk d a w) s = .next (u.wrote d 0)) ∧
    (∀ off, r = .ok (.reg off) →
      (off % 8 ≠ 0 → exec (.pchk d a w) s = .next (u.wrote d (BitVec.ofNat 64 (2 ^ 63 + 6)))) ∧
      (off % 8 = 0 → (∀ x, regAt off = some x → u.regMay x w = false) →
        exec (.pchk d a w) s = .next (u.wrote d (BitVec.ofNat 64 (2 ^ 63 + 5)))) ∧
      (∀ x, regAt off = some x → u.regMay x w = true → exec (.pchk d a w) s = .next (u.wrote d 0)))

/-- FFCS writes the index of the least clear bit of g[SA], or 64, and sets that bit; where d is SA only the index stands. PLSET sets the
bits where the population afterwards stays within the limit, and writes OK, else FULL with g[SA] as it was; bits already set count
once, and where d is SA only the status stands (R346, R347). -/
def Obligations.FreeBitsAndLimits : Prop :=
  ∀ (s : State) (d a b limit : Nat),
    let v := s.me.g.get a
    let nw := v ||| s.me.g.get b
    let count (x : Word) : Nat := (List.range 64).countP (fun k => x.getLsbD k)
    (s.canRun [a] [d, a] = true → ∃ n, n ≤ 64 ∧ (∀ j, j < n → v.getLsbD j = true) ∧ (n < 64 → v.getLsbD n = false) ∧
      (n = 64 → v = BitVec.allOnes 64) ∧ ∃ t, exec (.ffcs d a) s = .next t ∧ t.me.g.get d = BitVec.ofNat 64 n ∧
        (a ≠ d → t.me.g.get a = if n < 64 then v ||| (1#64 <<< n) else v) ∧
        (∀ j, j ≠ d → j ≠ a → t.me.g.get j = s.me.g.get j) ∧ t.me.pc = nextPc s.me.pc s.me.lineN ∧ t.sameMem s ∧
        t.me.sameButG s.me ∧ t.otherCtxs s s.curCore s.curCtx) ∧
    (s.canRun [b, a] [d, a] = true →
      (s.me.g.get b = 0 → nw = v) ∧ ∃ t, exec (.plset d a b limit) s = .next t ∧
        t.me.g.get d = (if count nw ≤ limit then 0 else 1) ∧
        (a ≠ d → t.me.g.get a = if count nw ≤ limit then nw else v) ∧
        (∀ j, j ≠ d → j ≠ a → t.me.g.get j = s.me.g.get j) ∧ t.me.pc = nextPc s.me.pc s.me.lineN ∧ t.sameMem s ∧
        t.me.sameButG s.me ∧ t.otherCtxs s s.curCore s.curCtx)

/-! ## Loads, stores, atomics and synchronisation -/

/-- LD of this device's memory and of the core's own scratchpad writes the bytes, extended by TY, and ST writes the register's low bytes there
and nothing else; an address that is not a multiple of the width traps ALIGN with the width in EINFO (R348 to R350). LD from another
device, or from the scratchpad of another core, makes its register pending and goes on, and ST to one goes on with an entry of the store
queue and a slot; the value that arrives is written and the
register is no longer pending, unless the work that asked has gone; a fault that arrives poisons it; a store's acknowledgement frees its
entry of the store queue and its slot (R119, R120, R350). -/
def Obligations.MemoryAccesses : Prop :=
  (∀ (s : State) (a : Nat) (m : MemOp) (ty scp ord ch loc : Nat),
    (ord = 0 ∨ (s.outOf s.curCore s.curCtx = [] ∧ s.ordOf s.curCore s.curCtx = none)) → s.me.blk = none → s.me.wout = [] →
    let n := 2 ^ (ty % 4)
    let p := s.addrOf m
    (s.canRun (memSrcs m) [a] = true → p.toNat % n = 0 → s.reaches p .read loc n → s.peerLoc loc = false →
      ∃ t, exec (.ld a m ty scp ord) s = .next t ∧ t.sameMem s ∧
        t.wentOn (s.latch s.curCore s.curCtx 4) (s.me.g.set a (extendTy ty (BitVec.ofNat (8 * n) (natOfBytes (s.bytesAt loc n)))))) ∧
    (s.canRun (memSrcs m ++ [a]) [] = true → p.toNat % n = 0 → s.reaches p .write loc n → s.peerLoc loc = false →
      ∃ t, exec (.st a m ty scp ord ch) s = .next t ∧ t.wentOn s s.me.g ∧ t.stored s loc (bytesOf (s.me.g.get a).toNat n)) ∧
    (s.canRun (memSrcs m) [a] = true → p.toNat % n ≠ 0 →
      exec (.ld a m ty scp ord) s = .next (s.trapped 6 p (BitVec.ofNat 64 n))) ∧
    (s.canRun (memSrcs m ++ [a]) [] = true → p.toNat % n ≠ 0 →
      exec (.st a m ty scp ord ch) s = .next (s.trapped 6 p (BitVec.ofNat 64 n)))) ∧
  ((∀ (s u : State) (a : Nat) (m : MemOp) (ty scp : Nat) (tg : Target), s.canRun (memSrcs m) [a] = true → a < 16 →
    (s.addrOf m).toNat % 2 ^ (ty % 4) = 0 → resolve (s.addrOf m) .read s = .ok (tg, u) →
    ((∃ d, tg = .far d) ∨ ∃ loc leaf, tg = .mem loc leaf ∧ bit leaf 4 = false ∧ s.peerLoc loc = true) →
    (s.coreAt s.curCore).slots < 64 → s.outOf s.curCore s.curCtx = [] → s.ordOf s.curCore s.curCtx = none →
    ∃ t, exec (.ld a m ty scp 0) s = .next t ∧ t.me.pend.getLsbD a = true ∧ t.me.g = s.me.g ∧
      t.me.pc = nextPc s.me.pc s.me.lineN ∧ (t.coreAt s.curCore).slots = (s.coreAt s.curCore).slots + 1 ∧
      (t.outOf s.curCore s.curCtx).length = 1 ∧ t.mem = u.mem) ∧
  (∀ (s u : State) (a : Nat) (m : MemOp) (ty scp ord ch : Nat) (tg : Target), s.canRun (memSrcs m ++ [a]) [] = true →
    (s.addrOf m).toNat % 2 ^ (ty % 4) = 0 → resolve (s.addrOf m) .write s = .ok (tg, u) →
    ((∃ d, tg = .far d) ∨ ∃ loc leaf, tg = .mem loc leaf ∧ bit leaf 4 = false ∧ s.peerLoc loc = true) → s.me.wout = [] →
    (s.coreAt s.curCore).slots < 64 → (s.coreAt s.curCore).storeq < 16 → s.outOf s.curCore s.curCtx = [] →
    s.ordOf s.curCore s.curCtx = none →
    ∃ t, exec (.st a m ty scp ord ch) s = .next t ∧ t.me.g = s.me.g ∧ t.me.pc = nextPc s.me.pc s.me.lineN ∧
      (t.coreAt s.curCore).slots = (s.coreAt s.curCore).slots + 1 ∧ (t.coreAt s.curCore).storeq = (s.coreAt s.curCore).storeq + 1 ∧
      t.me.stores = s.me.stores + 1 ∧ (t.outOf s.curCore s.curCtx).length = 1 ∧ t.mem = u.mem) ∧
  (∀ (s : State) (d : RegDest) (w : Word), d.reg < 16 → (s.ctxAt d.core d.ctx).serial = d.work →
    ∃ t, exec (.pendingValueArrive d (.value w)) s = .next t ∧ (t.ctxAt d.core d.ctx).pend.getLsbD d.reg = false ∧
      (t.ctxAt d.core d.ctx).g = (s.ctxAt d.core d.ctx).g.set d.reg w ∧
      (t.coreAt d.core).slots = (s.coreAt d.core).slots - 1 ∧ t.mem = s.mem) ∧
  (∀ (s : State) (d : RegDest) (p : Poison), d.reg < 16 → (s.ctxAt d.core d.ctx).serial = d.work →
    ∃ t, exec (.pendingValueArrive d (.poison p)) s = .next t ∧ (t.ctxAt d.core d.ctx).pend.getLsbD d.reg = false ∧
      (d.reg, p) ∈ (t.ctxAt d.core d.ctx).poison ∧ (t.ctxAt d.core d.ctx).g = (s.ctxAt d.core d.ctx).g) ∧
  (∀ (s : State) (d : RegDest) (v : Reply), d.reg < 16 → (s.ctxAt d.core d.ctx).serial ≠ d.work →
    ∃ t, exec (.pendingValueArrive d v) s = .next t ∧ (t.ctxAt d.core d.ctx).g = (s.ctxAt d.core d.ctx).g ∧
      (t.ctxAt d.core d.ctx).pend = (s.ctxAt d.core d.ctx).pend) ∧
  (∀ (s : State) (core k : Nat), k < 8 → ∃ t, exec (.storeAcknowledge core k) s = .next t ∧
    (t.coreAt core).storeq = (s.coreAt core).storeq - 1 ∧ (t.coreAt core).slots = (s.coreAt core).slots - 1 ∧
    (t.ctxAt core k).stores = (s.ctxAt core k).stores - 1 ∧ (t.ctxAt core k).g = (s.ctxAt core k).g) ∧
  (∀ (s : State) (core k : Nat) (p : Poison), (s.ctxAt core k).phase = .running → (s.ctxAt core k).heldTrap = none →
    (s.ctxAt core k).sleep = none →
    exec (.remoteFaultDeliver core k p) s = .next (s.takeTrap core k
      { cause := p.cause, epc := (s.ctxAt core k).pc, eaddr := p.addr, einfo := p.info, pois := false, eng := false, job := 0 })))

/-- A trap in a speculative task, or while registers are pending, is held; one that neither holds back is delivered: to the context's
TVEC handler for a TVEC-level cause in a task context outside its handler, with EPC, ECAUSE, EADDR, EINFO and EJOB written and the
PC at TVEC; else the context parks and its record goes to the supervisor (R97, R119, R272 to R274). The first instruction that reads a
poisoned register traps with the cause, address and EINFO of the mark and POIS set, and nothing of it happens (R120, R196). -/
def Obligations.TrapsAndPoison : Prop :=
  (∀ (s : State) (core k : Nat) (t : Trap),
    let c := s.ctxAt core k
    let level := t.eng = true ∨ t.cause ∈ [11, 12, 13, 14, 17, 18]
    (s.specAt core k = true ∨ c.pend ≠ 0 →
      s.takeTrap core k t = s.modCtx core k (fun x => { x with heldTrap := some t, sleep := none })) ∧
    (s.specAt core k = false → c.pend = 0 → k < 4 → level → c.trap.tvec ≠ 0 → bit c.trap.ecause 12 = false →
      let d := (s.takeTrap core k t).ctxAt core k
      d.pc = c.trap.tvec ∧ d.trap.epc = t.epc ∧ bits d.trap.ecause 7 0 = t.cause % 256 ∧ bit d.trap.ecause 12 = true ∧
        d.trap.eaddr = t.eaddr ∧ d.trap.einfo = t.einfo ∧ d.trap.ejob = t.job ∧ d.trap.tvec = c.trap.tvec ∧ d.g = c.g ∧
        d.phase = c.phase ∧ (s.takeTrap core k t).agenda = s.agenda) ∧
    (s.specAt core k = false → c.pend = 0 → (¬ level ∨ c.trap.tvec = 0 ∨ 4 ≤ k ∨ bit c.trap.ecause 12 = true) →
      let u := s.takeTrap core k t
      let d := u.ctxAt core k
      d.phase = .parked ∧ d.pc = t.epc ∧ d.trap.epc = t.epc ∧ bits d.trap.ecause 7 0 = t.cause % 256 ∧
        bit d.trap.ecause 10 = decide (4 ≤ k) ∧ bit d.trap.ecause 11 = t.pois ∧ bit d.trap.ecause 8 = t.eng ∧
        d.trap.eaddr = t.eaddr ∧ d.trap.einfo = t.einfo ∧ d.parkCount = (c.parkCount + 1) % 2 ^ 32 ∧ d.g = c.g ∧ u.mem = s.mem ∧
        ∃ r : TrapRecord, u.agenda = s.agenda ++ [.trapDeliverSupervisor r] ∧ r.score = core ∧
          r.words = [d.trap.ecause, t.epc, t.eaddr, t.einfo, t.job,
            BitVec.ofNat 64 (core + k * 2 ^ 11 + d.parkCount * 2 ^ 16), c.ident.taskId, if 4 ≤ k then c.msgr.id else 0])) ∧
  (∀ (s : State) (d a ty r : Nat) (sat : Bool) (p : Poison), s.me.streams = [] → s.me.pend = 0 → s.me.poison = [(r, p)] → r < 16 →
    s.me.seen.getLsbD r = false →
    let t : Trap := { cause := p.cause, epc := s.me.pc, eaddr := p.addr, einfo := p.info, pois := true, eng := false, job := 0 }
    let after : State := ((s.farClear (8 * s.curCore + s.curCtx)).modMe
      (fun c => { c with seen := c.seen ||| BitVec.ofNat 16 (2 ^ r) })).takeTrap s.curCore s.curCtx t
    exec (.add d r a ty sat) s = .next after ∧ exec (.mov d r ty) s = .next after ∧ exec (.bz r a) s = .next after ∧
      exec (.migr d r) s = .next after)

/-- Cache control of this device's memory leaves memory and registers as they are and goes on; CZERO clears the line (R353). LOCK pins a
line of device memory within the quota and the set's room and writes OK; UNLOCK unpins it; LOCKQ reports the partition's pinned
lines, the line's pin and the loss flag, which it clears (R138 to R140, R354). -/
def Obligations.CacheAndPins : Prop :=
  (∀ (s : State) (m : MemOp), s.canRun (memSrcs m) [] = true →
    let p := s.addrOf m
    (∀ r u, resolveAt s.curCore s.curPart (s.sregAt s.curCore s.curCtx) p .read s = .ok (r, u) →
      ∃ t, exec (.pf m) s = .next t ∧ t.wentOn s s.me.g ∧ t.mem = (if bits p 53 52 = 0 then u else s).mem ∧
        (s.uline = [] → t.sameMem s)) ∧
    (∀ loc, s.reaches p .read loc 1 → s.undisturbed (loc / 64 * 64) 64 →
      (∃ t, exec (.cwb m) s = .next t ∧ t.wentOn s s.me.g ∧ t.sameMem s) ∧
        ∃ t, exec (.cinv m) s = .next t ∧ t.wentOn s s.me.g ∧ t.sameMem s) ∧
    (∀ loc, s.reaches p .write loc 1 → s.peerLoc loc = false → s.undisturbed (loc / 64 * 64) 64 →
      ∃ t, exec (.czero m) s = .next t ∧ t.wentOn s s.me.g ∧ t.stored s (loc / 64 * 64) (List.replicate 64 0))) ∧
  (∀ (s u : State) (d loc : Nat) (m : MemOp) (leaf : Word), s.canRun (memSrcs m) [d] = true → s.spec = false →
    s.uline = [] → resolve (s.addrOf m) .read s = .ok (.mem loc leaf, u) → loc < 2 ^ 39 →
    let line := loc / 64
    let mine := s.pins.filter (fun x => x.part == s.curPart)
    (s.holds = [] → s.unitHolds (line * 64) = false → mine.any (fun x => x.line == line) = false →
      mine.length < (s.part.get s.curPart).pinq → s.pinsInSet line < 14 →
      ∃ t, exec (.lock d m) s = .next t ∧ t.me.g = s.me.g.set d 0 ∧ t.me.pc = nextPc s.me.pc s.me.lineN ∧ t.sameMem s ∧
        ∃ x, t.pins = s.pins ++ [x] ∧ x.line = line ∧ x.part = s.curPart ∧ x.core = s.curCore) ∧
    (s.pins.any (fun x => x.part == s.curPart && x.line == line) = true →
      ∃ t, exec (.unlock d m) s = .next t ∧ t.wentOn s (s.me.g.set d 0) ∧ t.sameMem s ∧
        t.pins = s.pins.filter (fun y => !(y.part == s.curPart && y.line == line))) ∧
    (∃ t, exec (.lockq d m) s = .next t ∧ t.pins = s.pins ∧ (t.coreAt s.curCore).plost = false ∧
      t.wentOn s (s.me.g.set d (BitVec.ofNat 64 (mine.length * 2 ^ 32 + (s.coreAt s.curCore).plost.toNat * 2 +
        (s.pins.any (fun x => x.line == line)).toNat)))))

/-- MIGR towards a core of the partition stops the thread and puts its request in flight; towards its own core it writes EMPTY and goes
on (R122, R123, R364). -/
def Obligations.MigrateRequest : Prop :=
  ∀ (s : State) (d a c : Nat), s.canRun [a] [d] = true →
    let p := s.me.g.get a
    bits p 53 52 = 1 → bits p 51 40 = s.dev → s.dev < s.devices → bits p 39 28 = c → c < 1920 → bits p 27 0 < 2 ^ 18 →
    (c = s.curCore → exec (.migr d a) s = .next ((s.setG d 2).modMe (fun x => { x with pc := nextPc x.pc x.lineN }))) ∧
    (c ≠ s.curCore → s.mayMigrate = true → s.partOfCore c = some s.curPart → s.reservedCl (clusterOf c) = false →
      s.me.stay = false → s.me.pend = 0 → s.me.stores = 0 → s.outOf s.curCore s.curCtx = [] →
      ∃ t m, exec (.migr d a) s = .next t ∧ t.me.phase = .moving ∧ t.agenda = s.agenda ++ [.migrationRequest m] ∧
        m.dstCore = c ∧ m.srcCore = s.curCore ∧ m.srcCtx = s.curCtx ∧ m.statusReg = d ∧ m.vtime = s.me.ident.vtime ∧
        t.mem = s.mem) ∧
    (c ≠ s.curCore → s.mayMigrate = false →
      exec (.migr d a) s = .next ((s.setG d 3).modMe (fun x => { x with pc := nextPc x.pc x.lineN })))

/-- An atomic on this device's memory, or on the core's own scratchpad, writes the old value, extended by TY, to its destination, and stores
what its operation makes of the old value and its operand; ACAS stores only on equality, AFFCS and APLSET only where they find room;
nothing else of memory changes (R355, R356). An atomic on another device, or on the scratchpad of another core, makes its destination
pending and goes on (R119, R350). -/
def Obligations.AtomicResults : Prop :=
  (∀ (s u : State) (d a b c imm ty scp : Nat) (tg : Target), (ty = 2 ∨ ty = 3 ∨ ty = 6 ∨ ty = 7) → s.canRun [a, b, c] [d] = true →
    d < 16 →
    let p := s.me.g.get a + (BitVec.ofNat 16 imm).signExtend 64
    p.toNat % 2 ^ (ty % 4) = 0 → bits p 53 48 ≠ 50 → resolve p .write s = .ok (tg, u) →
    ((∃ v, tg = .far v) ∨ ∃ loc leaf, tg = .mem loc leaf ∧ bit leaf 4 = false ∧ s.peerLoc loc = true) →
    (s.coreAt s.curCore).slots < 64 → s.outOf s.curCore s.curCtx = [] → s.ordOf s.curCore s.curCtx = none →
    let asks (i : Instr) : Prop := ∃ t, exec i s = .next t ∧ t.me.pend.getLsbD d = true ∧ t.me.g = s.me.g ∧
      t.me.pc = nextPc s.me.pc s.me.lineN ∧ (t.coreAt s.curCore).slots = (s.coreAt s.curCore).slots + 1 ∧ t.mem = u.mem
    asks (.aadd d a b imm ty scp 0) ∧ asks (.acas d a b c imm ty scp 0) ∧ asks (.affcs d a imm ty scp 0)) ∧
  ∀ (s : State) (d a b c imm ty scp ord w loc : Nat), (ty = 2 ∨ ty = 3 ∨ ty = 6 ∨ ty = 7) → w = 8 * 2 ^ (ty % 4) →
    (ord = 0 ∨ s.outOf s.curCore s.curCtx = []) → s.canRun [a, b, c] [d] = true →
    let p := s.me.g.get a + (BitVec.ofNat 16 imm).signExtend 64
    p.toNat % (w / 8) = 0 → bits p 53 48 ≠ 50 → s.reaches p .write loc (w / 8) → s.peerLoc loc = false →
    let o := BitVec.ofNat w (natOfBytes (s.bytesAt loc (w / 8)))
    let y := (s.me.g.get b).setWidth w
    let z := (s.me.g.get c).setWidth w
    let l := s.latch s.curCore s.curCtx 4
    let keeps (i : Instr) (out : Word) : Prop := ∃ t, exec i s = .next t ∧ t.wentOn l (s.me.g.set d out) ∧ t.sameMem s
    let writes (i : Instr) (v : BitVec w) (out : Word) : Prop :=
      ∃ t, exec i s = .next t ∧ t.wentOn l (s.me.g.set d out) ∧ t.stored s loc (bytesOf v.toNat (w / 8))
    let old := extendTy ty o
    writes (.aadd d a b imm ty scp ord) (o + y) old ∧ writes (.aand d a b imm ty scp ord) (o &&& y) old ∧
    writes (.aor d a b imm ty scp ord) (o ||| y) old ∧ writes (.axor d a b imm ty scp ord) (o ^^^ y) old ∧
    writes (.amin d a b imm ty scp ord) (if y.slt o then y else o) old ∧
    writes (.amax d a b imm ty scp ord) (if o.slt y then y else o) old ∧
    writes (.aminn d a b imm ty scp ord) (if y.ult o then y else o) old ∧
    writes (.amaxn d a b imm ty scp ord) (if o.ult y then y else o) old ∧ writes (.aswp d a b imm ty scp ord) y old ∧
    (o = z → writes (.acas d a b c imm ty scp ord) y old) ∧ (o ≠ z → keeps (.acas d a b c imm ty scp ord) old) ∧
    (∀ n, n < w → (∀ j, j < n → o.getLsbD j = true) → o.getLsbD n = false →
      writes (.affcs d a imm ty scp ord) (o ||| BitVec.twoPow w n) (BitVec.ofNat 64 n)) ∧
    (o = BitVec.allOnes w → keeps (.affcs d a imm ty scp ord) (BitVec.ofNat 64 w)) ∧
    let count := (List.range w).countP (fun k => (o ||| y).getLsbD k)
    (count ≤ min (s.me.g.get c).toNat w → writes (.aplset d a b c imm ty scp ord) (o ||| y) 0) ∧
    (min (s.me.g.get c).toNat w < count → keeps (.aplset d a b c imm ty scp ord) 1)

/-- AUPD writes no register: in scratchpad, on a FIXH page and in a region that a near-bank unit holds it combines in memory at once,
elsewhere it combines in memory or in the core's own partial of the line (R136, R220, R357); FENCE and TFENCE complete when the context's
accesses to other cores and devices are answered; FENCE changes nothing, and TFENCE ends the time in which the walkers of its scope may
still read a word that the thread has overwritten (R146, R259, R260, R359). BARA adds the thread to the open generation and writes GEN;
BARW waits until the generation has moved on; BART and BARG read GEN; a complete generation raises GEN by 1 and opens the next with no
arrivals (R361, R362). -/
def Obligations.UpdatesFencesBarriers : Prop :=
  ((∀ (s u : State) (a b op imm ty scp loc w : Nat) (leaf : Word), (ty = 2 ∨ ty = 3 ∨ ty = 6 ∨ ty = 7) → w = 8 * 2 ^ (ty % 4) →
    op < 6 → s.canRun [a, b] [] = true →
    let p := s.me.g.get a + (BitVec.ofNat 16 imm).signExtend 64
    p.toNat % (w / 8) = 0 → bits p 53 48 ≠ 50 → resolve p .write s = .ok (.mem loc leaf, u) → bit leaf 4 = false →
    s.peerLoc loc = false → s.undisturbed loc (w / 8) → s.ordOf s.curCore s.curCtx = none → loc % (w / 8) = 0 →
    let combined (x : Nat) : Nat := updCombine op ty x ((s.me.g.get b).toNat % 2 ^ w)
    let new := bytesOf (combined (natOfBytes (s.bytesAt loc (w / 8)))) (w / 8)
    ∃ t, exec (.aupd a b op imm ty scp) s = .next t ∧ t.wentOn s s.me.g ∧
      ((2 ^ 39 ≤ loc ∨ bit leaf 5 = true ∨ s.unitHolds loc = true) → t.stored s loc new) ∧
      (t.stored s loc new ∨ (t.mem = s.mem ∧ ∃ x, t.uline = [x] ∧ x.line = loc / 64 ∧ x.core = s.curCore ∧ x.op = op ∧ x.ty = ty ∧
        x.parts[loc % 64 / (w / 8)]? = some (combined (updIdentity op ty))))) ∧
  (∀ (s : State) (scp ord : Nat), s.settled →
    exec (.fence scp ord) s = .next (s.modMe (fun c => { c with pc := nextPc c.pc c.lineN })) ∧
      ∃ t, exec (.tfence scp) s = .next t ∧ t.wentOn s s.me.g ∧ t.sameMem s ∧
        ∀ x ∈ t.stale, x.core = s.curCore → x.serial = s.me.serial →
          (scp = 2 ∨ scp = 3) ∧ x.fenced.contains (clusterOf s.curCore) = true) ∧
  (∀ (s : State) (scp : Nat), (s.outOf s.curCore s.curCtx).any (fun o => o.store) = true →
    exec (.tfence scp) s = .next s ∧ exec (.fence scp 2) s = .next s)) ∧
  ((∀ (s : State) (d a n id : Nat) (t : Task), s.curCtx < 4 → s.taskOf s.curCore s.curCtx = some (id, t) → t.gang = true → n < 8 →
    (∀ cl o, s.ordOf s.curCore s.curCtx = some (cl, o) → o.irrevocable = true ∧ o.held = []) → s.canRun [a] [d] = true →
    let x := (s.clusterAt (clusterOf s.curCore)).huddle.get n
    let past := (x.gen - BitVec.ofNat 32 (s.me.g.get a).toNat).toNat
    let g := s.me.g
    let gen : Word := x.gen.setWidth 64
    let here : BarrierId := .huddle (clusterOf s.curCore) n
    let last := (s.modBarrier here (fun z => { z with arrived := z.arrived ++ [(s.curCore, s.curCtx)] })).barrierFull here
    (x.arrived.contains (s.curCore, s.curCtx) = false → s.outOf s.curCore s.curCtx = [] →
      (last = false → ∃ v, exec (.bara d n) s = .next v ∧ v.wentOn s (g.set d gen) ∧ v.sameMem s ∧
        ((v.clusterAt (clusterOf s.curCore)).huddle.get n).arrived = x.arrived ++ [(s.curCore, s.curCtx)] ∧
        ((v.clusterAt (clusterOf s.curCore)).huddle.get n).gen = x.gen) ∧
      (last = true → ∃ v, exec (.bara d n) s = .next v ∧ v.passed s (g.set d gen) ∧
        ((v.clusterAt (clusterOf s.curCore)).huddle.get n).arrived = [] ∧
        ((v.clusterAt (clusterOf s.curCore)).huddle.get n).gen = x.gen + 1)) ∧
    (1 ≤ past → past ≤ 2 ^ 31 → ∃ v, exec (.barw d n a) s = .next v ∧ v.wentOn s (g.set d gen) ∧ v.cluster = s.cluster) ∧
    (past = 0 ∨ 2 ^ 31 < past → exec (.barw d n a) s = .next s) ∧
    (∃ v, exec (.bart d n) s = .next v ∧ v.wentOn s (g.set d (gen &&& 1)) ∧ v.cluster = s.cluster) ∧
    (∃ v, exec (.barg d n) s = .next v ∧ v.wentOn s (g.set d gen) ∧ v.cluster = s.cluster)) ∧
  (∀ (s : State) (cl n : Nat), s.barrierFull (.huddle cl n) = true →
    ∃ v, exec (.barrierGenerationComplete (.huddle cl n)) s = .next v ∧
      ((v.clusterAt cl).huddle.get n).gen = ((s.clusterAt cl).huddle.get n).gen + 1 ∧
      ((v.clusterAt cl).huddle.get n).arrived = [] ∧ v.mem = s.mem))

/-! ## Vectors -/

/-- Integer lane arithmetic and logic: every active lane of the destination is its operation of the sources' lanes, and inactive lanes
keep their value (R365, R372, R373). -/
def Obligations.VectorInteger : Prop :=
  ∀ (s : State) (d a b c ty mk w : Nat), ty < 8 → w = 8 * 2 ^ (ty % 4) → (mk = 0 ∨ 8 ≤ mk) →
    s.vecRun [vkey a, vkey b, vkey c] [vkey d] = true →
    let is (i : Instr) (f : BitVec w → BitVec w → BitVec w → BitVec w) : Prop :=
      ∃ r, exec i s = .next (s.wroteV d r) ∧
        s.lanesAre mk w r (s.vreg d) (fun k => f (laneBits (s.vreg a) w k) (laneBits (s.vreg b) w k) (laneBits (s.vreg c) w k))
    let less (x y : BitVec w) : Bool := if ty < 4 then x.slt y else x.ult y
    (∀ sat, is (.vadd d a b ty mk sat) (fun x y _ => BitVec.ofInt w (saturate sat ty w (valueTy ty x + valueTy ty y))) ∧
      is (.vsub d a b ty mk sat) (fun x y _ => BitVec.ofInt w (saturate sat ty w (valueTy ty x - valueTy ty y))) ∧
      is (.vmul d a b ty mk sat) (fun x y _ => BitVec.ofInt w (saturate sat ty w (valueTy ty x * valueTy ty y)))) ∧
    is (.vdiv d a b ty mk) (fun x y _ => if y = 0 then BitVec.allOnes w else if ty < 4 then x.sdiv y else x.udiv y) ∧
    is (.vmin d a b ty mk) (fun x y _ => if less x y then x else y) ∧
    is (.vmax d a b ty mk) (fun x y _ => if less x y then y else x) ∧
    is (.vfma d a b c ty mk) (fun x y z => x * y + z) ∧ is (.vfms d a b c ty mk) (fun x y z => x * y - z) ∧
    is (.vand d a b ty mk) (fun x y _ => x &&& y) ∧ is (.vor d a b ty mk) (fun x y _ => x ||| y) ∧
    is (.vxor d a b ty mk) (fun x y _ => x ^^^ y) ∧ is (.vshl d a b ty mk) (fun x y _ => x <<< (y.toNat % w)) ∧
    is (.vshr d a b ty mk) (fun x y _ => x >>> (y.toNat % w)) ∧ is (.vsra d a b ty mk) (fun x y _ => x.sshiftRight (y.toNat % w)) ∧
    is (.vabs d a ty mk) (fun x _ _ => if ty < 4 ∧ x.slt 0 then -x else x) ∧ is (.vneg d a ty mk) (fun x _ _ => -x)

/-- Floating lane arithmetic: every active lane is the exact result of the sources' values, rounded once into the lane's type (R230,
R239, R372, R373). -/
def Obligations.VectorFloat : Prop :=
  ∀ (s : State) (d a b c ty mk w : Nat), (ty = 8 ∨ ty = 9 ∨ ty = 10) → w = laneW ty → (mk = 0 ∨ 8 ≤ mk) →
    s.vecRun [vkey a, vkey b, vkey c] [vkey d] = true →
    let num (v k : Nat) : Sys2Proof.Num := laneNum ty (laneBits (s.vreg v) w k).toNat
    let is (i : Instr) (f : Sys2Proof.Num → Sys2Proof.Num → Sys2Proof.Num → Sys2Proof.Num) : Prop :=
      ∃ r, exec i s = .next (s.wroteV d r) ∧
        s.lanesAre mk w r (s.vreg d) (fun k => BitVec.ofNat w (laneOf ty (f (num a k) (num b k) (num c k))))
    is (.vadd d a b ty mk false) (fun x y _ => x.add y) ∧ is (.vsub d a b ty mk false) (fun x y _ => x.sub y) ∧
    is (.vmul d a b ty mk false) (fun x y _ => x.mul y) ∧ is (.vdiv d a b ty mk) (fun x y _ => x.div y) ∧
    is (.vmin d a b ty mk) (fun x y _ => x.minN y) ∧ is (.vmax d a b ty mk) (fun x y _ => x.maxN y) ∧
    is (.vfma d a b c ty mk) (fun x y z => (x.mul y).add z) ∧ is (.vfms d a b c ty mk) (fun x y z => (x.mul y).sub z) ∧
    is (.vsqrt d a ty mk) (fun x _ _ => x.sqrt) ∧ is (.vrsq d a ty mk) (fun x _ _ => x.rsqrt) ∧
    is (.vrcp d a ty mk) (fun x _ _ => Sys2Proof.Num.one.div x) ∧ is (.vexp2 d a ty mk) (fun x _ _ => x.exp2) ∧
    is (.vlog2 d a ty mk) (fun x _ _ => x.log2) ∧ is (.vabs d a ty mk) (fun x _ _ => x.abs) ∧
    is (.vneg d a ty mk) (fun x _ _ => x.neg)

/-- Broadcast, compare, select, permute, shuffle, insert, extract, reduce and scan (R373 to R377). VEXT takes one lane to a general
register, and a lane that is not there traps ILL (its EINFO of 0: log entry 61); MKAND, MKOR, MKNOT, MKSET and MKPOP act on mask
registers; the first instruction that names a vector or mask register binds the lowest free window of the core, cleared (R108, R378,
R381). -/
def Obligations.VectorMovesAndMasks : Prop :=
  (∀ (s : State) (d a b c g ty mk w : Nat), ty < 8 → w = 8 * 2 ^ (ty % 4) → (mk = 0 ∨ 8 ≤ mk) →
    s.vecRun [vkey a, vkey b, vkey d, g] [vkey d] = true →
    let x (k : Nat) := laneBits (s.vreg a) w k
    let y (k : Nat) := laneBits (s.vreg b) w k
    let n := 512 / w
    let is (i : Instr) (m : Nat) (f : Nat → BitVec w) : Prop :=
      ∃ r, exec i s = .next (s.wroteV d r) ∧ s.lanesAre m w r (s.vreg d) f
    is (.vbc d g ty mk) mk (fun _ => (s.me.g.get g).setWidth w) ∧
    is (.vsel d a b c ty) 0 (fun k => if (s.mreg c).getLsbD k then x k else y k) ∧
    is (.vperm d a b ty mk) mk (fun k => x ((y k).toNat % n)) ∧
    (∀ p, p % 16 = 4 → n < p / 16 % 256 → exec (.vshuf d a b p ty mk) s = .next (s.trapped 1 0 0)) ∧
    (∀ ln, n ≤ ln → exec (.vins d g ln ty mk) s = .next (s.trapped 1 0 0)) ∧
    (∀ p, p % 16 < 6 → (p % 16 = 4 → p / 16 % 256 ≤ n) → is (.vshuf d a b p ty mk) mk (fun k =>
      let j := match p % 16 with
        | 0 => if k % 2 = 0 then k / 2 else n + k / 2
        | 1 => if k % 2 = 0 then k / 2 + n / 2 else n + k / 2 + n / 2
        | 2 => 2 * k
        | 3 => 2 * k + 1
        | 4 => k + p / 16 % 256
        | _ => n - 1 - k
      if j < n then x j else y (j - n))) ∧
    (∀ ln, ln < n → is (.vins d g ln ty mk) 0 (fun k =>
      if k = ln ∧ s.active mk w ln = true then (s.me.g.get g).setWidth w else laneBits (s.vreg d) w k)) ∧
    (∀ cond m, ∃ r, exec (.vcmp cond m a b ty mk) s = .next (s.wroteM m r) ∧ ∀ k, k < 64 →
      r.getLsbD k =
        if n ≤ k then false
        else if s.active mk w k then
          (match cond with
           | 0 => x k == y k
           | 1 => x k != y k
           | 2 => (x k).slt (y k)
           | 3 => !(x k).slt (y k)
           | 4 => (x k).ult (y k)
           | _ => !(x k).ult (y k))
        else (s.mreg m).getLsbD k) ∧
    (∀ op, op < 6 →
      let f (p q : BitVec w) : BitVec w :=
        match op with
        | 0 => p + q
        | 1 => if (if ty < 4 then q.slt p else q.ult p) then q else p
        | 2 => if (if ty < 4 then p.slt q else p.ult q) then q else p
        | 3 => p &&& q
        | 4 => p ||| q
        | _ => p ^^^ q
      let first : BitVec w :=
        match op with
        | 1 => if ty < 4 then BitVec.intMax w else BitVec.allOnes w
        | 2 => if ty < 4 then BitVec.intMin w else 0
        | 3 => BitVec.allOnes w
        | _ => 0
      let upTo (m : Nat) : List Nat := (List.range m).filter (s.active mk w)
      let fold (m : Nat) : BitVec w := (upTo m).foldl (fun acc k => f acc (x k)) first
      exec (.vred d a op ty mk) s = .next (s.wroteV d ((fold n).setWidth 512)) ∧
        is (.vscan d a op ty mk) mk (fun k => fold (k + 1)))) ∧
  ((∀ (s : State) (d a ln ws : Nat), ws < 4 → s.vecRun [vkey a] [d] = true →
    (ln < 512 / (8 * 2 ^ ws) → exec (.vext d a ln ws) s = .next (s.wrote d ((laneBits (s.vreg a) (8 * 2 ^ ws) ln).setWidth 64))) ∧
    (512 / (8 * 2 ^ ws) ≤ ln → exec (.vext d a ln ws) s = .next (s.trapped 1 0 0))) ∧
  (∀ (s : State) (d a b g : Nat), s.vecRun [g] [g] = true →
    exec (.mkand d a b) s = .next (s.wroteM d (s.mreg a &&& s.mreg b)) ∧
    exec (.mkor d a b) s = .next (s.wroteM d (s.mreg a ||| s.mreg b)) ∧
    exec (.mknot d a) s = .next (s.wroteM d (~~~(s.mreg a))) ∧
    exec (.mkset d g) s = .next (s.wroteM d (s.me.g.get g)) ∧
    exec (.mkpop g a) s = .next (s.wrote g (BitVec.ofNat 64 ((List.range 64).countP (fun k => (s.mreg a).getLsbD k))))) ∧
  (∀ (s : State) (d g w : Nat), s.me.vwin = 0 → s.canRun [g] [] = true → w < 4 → (s.winAt w).used = false →
    (∀ j, j < w → (s.winAt j).used = true) →
    ∃ t, exec (.mkset d g) s = .next t ∧ t.me.vwin = w + 1 ∧ (t.winAt w).used = true ∧ (t.winAt w).m.get d = s.me.g.get g ∧
      (∀ k, k ≠ d → (t.winAt w).m.get k = 0) ∧ (∀ k, (t.winAt w).v.get k = 0) ∧ t.me.g = s.me.g ∧ t.mem = s.mem) ∧
  (∀ (s : State) (d g : Nat), s.me.vwin = 0 → s.canRun [g] [] = true → (∀ j, j < 4 → (s.winAt j).used = true) →
    exec (.mkset d g) s = .next s))

/-- Vector memory with raw elements of the core's own scratchpad: VLD and VST move the lanes contiguously, VLDS and VLDX gather an
element for each active lane, VSTX scatters one, a later lane over an earlier (R368 to R371). -/
def Obligations.VectorMemory : Prop :=
  ∀ (s : State) (d g h off ty w : Nat) (m : MemOp), ty < 8 → w = 8 * 2 ^ (ty % 4) → s.calm →
    s.logInUse s.curPart = false → off % (w / 8) = 0 →
    let n := 512 / w
    let byteLane (o : Int) : BitVec w := BitVec.ofNat w (natOfBytes (s.bytesAt (spadLoc s.curCore o.toNat) (w / 8)))
    let fits (o : Int) : Prop := 0 ≤ o ∧ o + (w / 8 : Nat) ≤ 2 ^ 18
    (spadPtr (s.addrOf m) off → off + 64 ≤ 2 ^ 18 → s.vecRun (memSrcs m) [vkey d] = true →
      ∃ r t, exec (.vld d m ty) s = .next t ∧ t.vreg d = r ∧ t.sameMem s ∧ t.wentOn s s.me.g ∧
        ∀ k, k < n → laneBits r w k = byteLane ((off + w / 8 * k : Nat) : Int)) ∧
    (spadPtr (s.addrOf m) off → off + 64 ≤ 2 ^ 18 → s.vecRun (memSrcs m ++ [vkey d]) [] = true →
      ∃ t, exec (.vst d m ty) s = .next t ∧ t.wentOn s s.me.g ∧
        t.stored s (spadLoc s.curCore off) (bytesOf (s.vreg d).toNat 64)) ∧
    (∀ imm mk, spadPtr (s.me.g.get g + (BitVec.ofNat 16 imm).signExtend 64) off → (mk = 0 ∨ 8 ≤ mk) →
      let at_ (f : Nat → Int) (k : Nat) : Int := (off : Int) + (w / 8 : Nat) * f k
      let loads (i : Instr) (f : Nat → Int) : Prop :=
        (∀ k, k < n → s.active mk w k = true → fits (at_ f k)) →
          ∃ r t, exec i s = .next t ∧ t.vreg d = r ∧ t.sameMem s ∧ t.wentOn s s.me.g ∧
            s.lanesAre mk w r (s.vreg d) (fun k => byteLane (at_ f k))
      (s.vecRun [g, h] [vkey d] = true → loads (.vlds d g h imm ty mk) (fun k => (k : Int) * (s.me.g.get h).toInt)) ∧
      (s.vecRun [g, vkey h] [vkey d] = true → 32 ≤ w →
        loads (.vldx d g h imm ty mk) (fun k => (laneBits (s.vreg h) w k).toInt)) ∧
      (s.vecRun [g, vkey h, vkey d] [] = true → 32 ≤ w →
        let f (k : Nat) : Int := (laneBits (s.vreg h) w k).toInt
        (∀ k, k < n → s.active mk w k = true → fits (at_ f k)) →
          ∃ t, exec (.vstx d g h imm ty mk) s = .next t ∧ t.wentOn s s.me.g ∧
            (∀ k, k < n → s.active mk w k = true → (∀ j, k < j → j < n → s.active mk w j = true → f j ≠ f k) →
              Memory.wf s.mem = true →
              t.bytesAt (spadLoc s.curCore (at_ f k).toNat) (w / 8) = bytesOf (laneBits (s.vreg d) w k).toNat (w / 8)) ∧
            (Memory.wf s.mem = true → ∀ loc, (∀ k, k < n → s.active mk w k = true →
                loc < spadLoc s.curCore (at_ f k).toNat ∨ spadLoc s.curCore (at_ f k).toNat + w / 8 ≤ loc) →
              memRead t.mem loc = memRead s.mem loc)))

/-- VCVT, VENC and VDEC convert between the formats of two codes lane by lane, PART choosing the half or quarter of the narrow side; a
table side that is none traps ILL (R379, R380). TBLLD loads 256 table entries from the scratchpad, which read back by TBLRD once the
sorted index is built; FDTSET and FDTGET write and read a descriptor, codes 0 to 15 being fixed (R229, R238, R248, R382, R383). -/
def Obligations.ConversionsAndTables : Prop :=
  (∀ (s : State) (d a dc sc part mk : Nat) (x y : Desc), s.vecRun [vkey a] [vkey d] = true → (mk = 0 ∨ 8 ≤ mk) →
    let c := s.coreAt s.curCore
    c.elem sc = some (.desc x) → c.elem dc = some (.desc y) → c.building = [] →
    let l := 512 / max x.width y.width
    part < max x.width y.width / min x.width y.width →
    let from_ := if x.width < y.width then part * l else 0
    let to_ := if y.width < x.width then part * l else 0
    let converts (i : Instr) : Prop :=
      ∃ r, exec i s = .next (s.wroteV d r) ∧ ∀ j, j < 512 / y.width → lane r y.width j =
        if to_ ≤ j ∧ j < to_ + l ∧ s.active mk y.width j = true then
          y.encode c.entry (x.decode c.entry (lane (s.vreg a) x.width (j - to_ + from_))) % 2 ^ y.width
        else lane (s.vreg d) y.width j
    converts (.vcvt d a dc sc part mk) ∧
    (sc = 1 → y.kind = 0 → converts (.venc d a dc part mk)) ∧ (dc = 1 → x.kind = 0 → converts (.vdec d a sc part mk)) ∧
    (sc = 1 → y.kind ≠ 0 → exec (.venc d a dc part mk) s = .next (s.trapped 1 0 0))) ∧
  ((∀ (s : State) (t off : Nat) (m : MemOp), t < 4 → s.canRun (memSrcs m) [] = true → s.calm →
    s.logInUse s.curPart = false → spadPtr (s.addrOf m) off → off % 64 = 0 → off + 1024 ≤ 2 ^ 18 → (s.coreAt s.curCore).building = [] →
    s.noJobs →
    ∃ u, exec (.tblld t m) s = .next u ∧ u.wentOn s s.me.g ∧ u.sameMem s ∧ t ∈ (u.coreAt s.curCore).building ∧
      Event.sortedIndexBuilt s.curCore t ∈ u.agenda ∧
      ∀ k, k < 256 → ((u.coreAt s.curCore).entry t k).toNat =
        natOfBytes (s.bytesAt (spadLoc s.curCore (off + 4 * k)) 4) / 2 ^ 13 * 2 ^ 13) ∧
  (∀ (s : State) (core t : Nat), ∃ u, exec (.sortedIndexBuilt core t) s = .next u ∧ t ∉ (u.coreAt core).building ∧
    (∀ x, x ≠ t → (x ∈ (u.coreAt core).building ↔ x ∈ (s.coreAt core).building)) ∧
    ∀ x k, (u.coreAt core).entry x k = (s.coreAt core).entry x k) ∧
  (∀ (s : State) (d t a : Nat), s.canRun [a] [d] = true → t ∉ (s.coreAt s.curCore).building →
    exec (.tblrd d t a) s = .next (s.wrote d
      (BitVec.ofNat 64 (((s.coreAt s.curCore).entry t ((s.me.g.get a).toNat % 256)).toNat / 2 ^ 13 * 2 ^ 13)))) ∧
  (∀ (s : State) (code a : Nat), s.canRun [a] [] = true → s.spec = false →
    (16 ≤ code → descLegal (s.me.g.get a).toNat = true → s.noJobs →
      ∃ u, exec (.fdtset code a) s = .next u ∧ (u.coreAt s.curCore).fdtWord code = (s.me.g.get a).toNat ∧ u.wentOn s s.me.g) ∧
    (code < 16 ∨ descLegal (s.me.g.get a).toNat = false → exec (.fdtset code a) s = .next (s.trapped 1 0 0))) ∧
  (∀ (s : State) (d code : Nat), s.canRun [] [d] = true →
    exec (.fdtget d code) s = .next (s.wrote d (BitVec.ofNat 64 ((s.coreAt s.curCore).fdtWord code % 2 ^ 16)))))

/-- STRM binds a register to the pattern that its block describes, in place of an older pattern, or traps on a count above its limit or a
base that is not a multiple of 8; a read of the register takes the next unit in order, and one past the end reads zero and sets END;
STRMX binds to a buffer whose role matches, else REFUSED, or to a port of a peer core; STRMQ reads the position and releases a finished
pattern and every buffer stream; STREAM_UNIT fetches one unit ahead. One that names a vector register binds a window where the context
has none (R108, R365, R384 to R387). -/
def Obligations.Streams : Prop :=
  (∀ (s : State) (r a b off : Nat) (w v : Bool), s.canRun [a, b] [] = true → s.calm → s.logInUse s.curPart = false →
    spadPtr (s.me.g.get b) off → off + 32 ≤ 2 ^ 18 → (v = true → s.windowed) → (v = false → s.me.pend.getLsbD r = false) →
    let key := if v then 32 + r else r
    (∀ x, s.streamOf key = some x → ∃ base c0 c1 c2 s1 s2, x.src = .pattern base c0 c1 c2 s1 s2) →
    let f (k n : Nat) : Nat := natOfBytes (s.bytesAt (spadLoc s.curCore (off + k)) n)
    (2 ^ 24 < f 0 4 → exec (.strm r a b w v) s = .next (s.trapped 1 0 0)) ∧
    (f 0 4 ≤ 2 ^ 24 → 65535 < f 4 4 → exec (.strm r a b w v) s = .next (s.trapped 1 0 4)) ∧
    (f 0 4 ≤ 2 ^ 24 → f 4 4 ≤ 65535 → f 8 4 ≤ 65535 → f 12 4 = 0 → f 16 8 % 8 = 0 → f 24 8 % 8 = 0 →
      ((s.me.g.get a).toNat % 8 ≠ 0 → exec (.strm r a b w v) s = .next (s.trapped 6 (s.me.g.get a) 8)) ∧
      ((s.me.g.get a).toNat % 8 = 0 → ∃ t, exec (.strm r a b w v) s = .next t ∧ t.me.g = s.me.g ∧
        t.me.pc = nextPc s.me.pc s.me.lineN ∧ t.sameMem s ∧ (v = true → t.me.vwin ≠ 0) ∧
        t.streamOf key = some
          { write := w, vec := v, moved := 0, ended := false, ahead := [],
            src := .pattern (BitVec.ofNat 64 ((s.me.g.get a).toNat % 2 ^ 54)) (f 0 4) (f 4 4) (f 8 4)
              (BitVec.ofNat 64 (f 16 8)).toInt (BitVec.ofNat 64 (f 24 8)).toInt }))) ∧
  (∀ (s : State) (d r off c n : Nat), s.calm → s.logInUse s.curPart = false → s.canRun [] [d] = true → d ≠ r → r < 16 →
    s.me.pend = 0 → s.me.poison = [] →
    s.streamOf r = some
      { write := false, vec := false, moved := c, ended := false, ahead := [],
        src := .pattern (BitVec.ofNat 64 (3 * 2 ^ 52 + off)) n 1 1 0 0 } → off < 2 ^ 18 →
    (c < n → off + 8 * c + 8 ≤ 2 ^ 18 → ∃ t, exec (.mov d r 3) s = .next t ∧
      t.me.g.get d = BitVec.ofNat 64 (natOfBytes (s.bytesAt (spadLoc s.curCore (off + 8 * c)) 8)) ∧
      (t.streamOf r).map (fun x => (x.moved, x.ended)) = some (c + 1, false) ∧ t.sameMem s) ∧
    (n ≤ c → ∃ t, exec (.mov d r 3) s = .next t ∧ t.me.g.get d = 0 ∧
      (t.streamOf r).map (fun x => (x.moved, x.ended)) = some (c, true) ∧ t.sameMem s)) ∧
  (∀ (s : State) (r q g h : Nat) (w v : Bool) (b : CircBuf), s.canRun [] [g] = true → s.spec = false →
    (v = true → s.windowed) → (v = false → s.me.pend.getLsbD r = false) →
    let key := if v then 32 + r else r
    s.handleAt s.curCore s.curCtx q = some (h, b) → s.streamOf key = none → g < 16 → g ≠ key →
    let ok := if w then b.prod = 4 else b.cons = 3
    ∃ t, exec (.strmx r q g w v false) s = .next t ∧ t.me.g = s.me.g.set g (if ok then 0 else 3) ∧ t.mem = s.mem ∧
      t.me.pc = nextPc s.me.pc s.me.lineN ∧
      t.streamOf key = if ok then some { write := w, vec := v, src := .buffer h 0, moved := 0, ended := false, ahead := [] } else none) ∧
  (∀ (s : State) (r a g c : Nat) (v : Bool), s.canRun [a] [g] = true → s.spec = false →
    (v = true → s.windowed) → (v = false → s.me.pend.getLsbD r = false) →
    let key := if v then 32 + r else r
    let p := s.me.g.get a
    s.streamOf key = none → g < 16 → g ≠ key → bits p 53 52 = 1 → bits p 51 40 = s.dev → s.dev < s.devices → bits p 39 28 = c →
    c < 1920 → c ≠ s.curCore → bits p 27 0 < 2 ^ 18 → s.partOfCore c = some s.curPart →
    s.acquireOut s.curCore s.curCtx = false → s.meets = [] →
    let ok := (s.coreAt s.curCore).ports < 8
    ∃ t, exec (.strmx r a g true v true) s = .next t ∧ t.me.g = s.me.g.set g (if ok then 0 else 1) ∧ t.mem = s.mem ∧
      t.streamOf key = if ok then some { write := true, vec := v, src := .port (BitVec.ofNat 64 (p.toNat % 2 ^ 54)), moved := 0,
                                         ended := false, ahead := [] } else none) ∧
  (∀ (s : State) (d r : Nat) (v : Bool) (x : Stream), s.canRun [] [d] = true → (v = true → s.windowed) →
    let key := if v then 32 + r else r
    s.streamOf key = some x → assocSorted s.me.streams = true →
    let gives (w : Word) (y : Option Stream) : Prop := ∃ t, exec (.strmq d r v) s = .next t ∧ t.me.g = s.me.g.set d w ∧
      t.streamOf key = y ∧ t.mem = s.mem ∧ t.me.pc = nextPc s.me.pc s.me.lineN
    (∀ base c0 c1 c2 s1 s2, x.src = .pattern base c0 c1 c2 s1 s2 →
      gives (BitVec.ofNat 64 (x.ended.toNat * 2 ^ 63 + (c0 * c1 * c2 - x.moved) % 2 ^ 56))
        (if c0 * c1 * c2 ≤ x.moved then none else some x)) ∧
    (∀ h, x.src = .buffer h 0 →
      gives (BitVec.ofNat 64 (x.ended.toNat * 2 ^ 63 + 2 ^ 62 + x.moved % 2 ^ 56)) none)) ∧
  (∀ (s : State) (core k key off n : Nat), (s.asCtx core k).calm → (s.asCtx core k).logInUse (s.asCtx core k).curPart = false →
    assocGet (s.ctxAt core k).streams key = some
      { write := false, vec := false, moved := 0, ended := false, ahead := [],
        src := .pattern (BitVec.ofNat 64 (3 * 2 ^ 52 + off)) (n + 1) 1 1 0 0 } → off + 8 ≤ 2 ^ 18 → k < 8 →
    ∃ t, exec (.streamUnit core k key) s = .next t ∧
      (assocGet (t.ctxAt core k).streams key).map (fun x => x.ahead) = some [s.bytesAt (spadLoc core off) 8] ∧ t.mem = s.mem)

/-! ## Engines: jobs, the matrix unit, buffers, copies -/

/-- ENGINE_LINE_RELEASE releases its line and nothing else; ENGINE_FAULT_DELIVER traps the issuing work at its next instruction
boundary; JOB_COMPLETE makes the job complete, publishes, latches and queues the user-level interrupt, and waits while there is no room to
publish, its lines released; USER_INTERRUPT, outside a TVEC handler, enters its handler and ends a SLEEP, and UIRET returns, or traps
ILLTGT where the saved PC may not be entered (R135, R190, R191, R273, R276, R293, R331, R404, R408). -/
def Obligations.EngineEvents : Prop :=
  (∀ (s : State) (job : Word) (line : Nat), ∃ t, exec (.engineLineRelease job line) s = .next t ∧
    (∀ p, p ∈ t.owned ↔ p ∈ s.owned ∧ p ≠ (line, job)) ∧ t = { s with owned := t.owned }) ∧
  (∀ (s : State) (f : EngineFault),
    let c := s.ctxAt f.core f.ctx
    (c.serial ≠ f.work → exec (.engineFaultDeliver f) s = .next s) ∧
    (c.serial = f.work → c.phase = .running → c.heldTrap = none → exec (.engineFaultDeliver f) s = .next
      (s.takeTrap f.core f.ctx { f.trap with epc := c.resumePc }))) ∧
  (∀ (s : State) (job : Word) (j : Job), s.jobOf job = some j → j.state < 4 → j.later < 32 → j.huddles = [] → j.arr = none →
    let core := jobCore job
    let c := s.ctxAt core j.ctx
    (∀ h b, j.buf = some h → s.bufOf (clusterOf core) h = some b → b.room = false →
      exec (.jobComplete job) s = .next ((s.disown job).push (.jobComplete job))) ∧
    ((∀ h b, j.buf = some h → s.bufOf (clusterOf core) h = some b → b.room = true) → c.serial = j.serial → c.phase = .running →
      j.ctx < 8 →
      ∃ t, exec (.jobComplete job) s = .next t ∧ (t.jobOf job).map (fun x => x.state) = some 4 ∧ (∀ p ∈ t.owned, p.2 ≠ job) ∧
        (t.ctxAt core j.ctx).latch.getLsbD 0 = true ∧
        (t.ctxAt core j.ctx).waitIntr = c.waitIntr ++
          (if bit j.cpl 3 = true ∧ c.waitIntr.length < 8 then [{ job := j.id, hpc := j.hpc }] else []) ∧
        (∀ h b, j.buf = some h → s.bufOf (clusterOf core) h = some b →
          (t.bufOf (clusterOf core) h).map (fun x => x.pidx) = some (b.pidx + 1)) ∧ t.mem = s.mem)) ∧
  (∀ (s : State) (core k : Nat) (u : UserIntr) (rest : List UserIntr),
    let c := s.ctxAt core k
    c.waitIntr = u :: rest → c.uie = true → c.intv = false → c.phase = .running → c.heldTrap = none →
    ∃ t, exec (.userInterrupt core k) s = .next t ∧ (t.ctxAt core k).pc = u.hpc ∧ (t.ctxAt core k).uie = false ∧
      (t.ctxAt core k).uiSaved = some (if c.sleep.isSome then nextPc c.pc c.lineN else c.pc) ∧ (t.ctxAt core k).sleep = none ∧
      (t.ctxAt core k).msgr.xferId = u.job ∧ (t.ctxAt core k).waitIntr = rest ∧ (t.ctxAt core k).g = c.g ∧ t.otherCtxs s core k ∧ t.mem = s.mem) ∧
  (∀ s : State,
    (∀ pc u, s.me.uiSaved = some pc → badTarget pc s = .ok (false, u) →
      exec .uiret s = .next (u.modMe (fun c => { c with pc := pc, uie := true, uiSaved := none }))) ∧
    (∀ pc u, s.me.uiSaved = some pc → badTarget pc s = .ok (true, u) → exec .uiret s = .next (s.trapped 3 pc 0)) ∧
    (s.me.uiSaved = none → exec .uiret s = .next (s.trapped 1 0 0)))

/-- The matrix instructions queue their commands and job records and go on: MMA and MMAG an operation, MDRAIN a drain, MZERO a clearing;
a B pointer that names a device register traps ALIGN at issue; MMAG writes FULL when a partner's queue is full; SKIPB binds a bitmap,
MCFG sets weights or discards what is bound, MSTAT reads a job word, MRESUME sends its request (R173, R177, R351, R392 to R396, R398). -/
def Obligations.MatrixInstructions : Prop :=
  (∀ (s : State) (sa off : Nat), s.canRun [sa] [] = true → s.settled → s.blockAt (s.me.g.get sa) 64 64 off →
    (s.coreAt s.curCore).building = [] →
    let b := s.block off 64
    let core := s.curCore
    let elem (p : Word) := (s.coreAt core).elem (bits p 63 58)
    mM b ≤ 64 → mN b ≤ 384 → mFlags b < 2 → (wordAt b 32).toNat < 2 → fieldAt b 56 8 = 0 →
    bits (mAptr b) 53 52 = 3 → bits (mAptr b) 51 48 ≤ 1 →
    ∀ d e x y cls, bits (mAptr b) 57 54 = 0 → bits (mBptr b) 57 54 = 0 → elem (mAptr b) = some (.desc d) →
    elem (mBptr b) = some (.desc e) → classOf (.desc d) false = some x → classOf (.desc e) false = some y →
    pairClass x y = some cls → mAstr b * 8 % d.width = 0 → (s.mqueue core).length < 8 → (s.coreAt core).jobs.length < 32 →
    let reg := bits (mBptr b) 53 52 = 3 ∧ bits (mBptr b) 51 48 = 2
    (reg → exec (.mma sa) s = .next (s.trapped 6 (mBptr b) 0)) ∧
    (¬ reg → ∃ t c, exec (.mma sa) s = .next t ∧ t.passed s s.me.g ∧ t.mqueue core = s.mqueue core ++ [c] ∧ c.kind = .op ∧
      c.block = b ∧ c.cls = cls ∧ c.core = core ∧ c.job = t.me.msgr.jobLast ∧
      ∃ j ∈ (t.coreAt core).jobs, j.id = c.job ∧ j.state = 1 ∧ j.engine = 0 ∧ j.ctx = s.curCtx)) ∧
  (∀ (s : State) (a sa sb off id : Nat) (k : Task) (c : MatCmd) (fmts : List (Nat × Nat)) (cb : Option Nat),
    s.canRun [sa, sb] [a] = true → s.settled → s.blockAt (s.me.g.get sa) 64 64 off →
    let b := s.block off 64
    let mask := s.me.g.get sb
    let ns := (List.range 8).filter (fun n => mask.getLsbD n)
    let ths := ns.filterMap (gangThread k s.curCore)
    s.taskOf s.curCore s.curCtx = some (id, k) → k.gang = true → mask.toNat < 256 → 2 ≤ ns.length → ns.length ≤ 3 →
    s.curCore % 8 ∈ ns → ths.length = ns.length → buildOp b ths true s = .ok ((c, fmts, cb), s) →
    bit (wordAt b 32) 2 = false → ((s.coreAt s.curCore).jobs).length < 32 →
    ((∃ q ∈ ths, 8 ≤ (s.mqueue q.1).length) → exec (.mmag a sa sb) s = .next ((s.setG a 1).modMe
      (fun x => { x with pc := nextPc x.pc x.lineN }))) ∧
    ((∀ q ∈ ths, (s.mqueue q.1).length < 8) → ∃ t, exec (.mmag a sa sb) s = .next t ∧ t.passed s (s.me.g.set a 0) ∧
      ∀ p ∈ c.parts, ∃ x ∈ t.mqueue p.core, x.job = t.me.msgr.jobLast ∧ x.block = c.block ∧
        (p.core = c.core ↔ x.kind = c.kind))) ∧
  (∀ (s u : State) (q sb h : Nat) (b : CircBuf) (e : Elem) (ls : List Nat), s.canRun [sb] [] = true → s.settled → s.uline = [] →
    let iss := (s.clusterAt (clusterOf s.curCore)).mx.issued.get (s.curCore % 8)
    let stride := (s.me.g.get sb).toNat
    s.handleAt s.curCore s.curCtx q = some (h, b) → b.prod = 1 → iss.1 * stride ≤ b.slotb →
    (s.coreAt s.curCore).elem (b.fmtc % 64) = some e → (s.coreAt s.curCore).building = [] → (s.mqueue s.curCore).length < 8 →
    (s.coreAt s.curCore).jobs.length < 32 →
    issueLines (some h) (fmtPtr b.fmtc) (drainRows stride (e.width 32) iss.2 (List.range iss.1)) s = .ok (ls, u) →
    ∃ t c, exec (.mdrain q sb true) s = .next t ∧ t.passed s s.me.g ∧ t.mqueue s.curCore = s.mqueue s.curCore ++ [c] ∧
      c.kind = .drain ∧ c.bbuf = some h ∧ c.stride = stride ∧ c.row = 0 ∧ c.job = t.me.msgr.jobLast ∧
      ∀ l, (l, c.job) ∈ t.owned ↔ (l, c.job) ∈ s.owned ∨ l ∈ ls) ∧
  (∀ (s : State), s.settled → (s.mqueue s.curCore).length < 8 → (s.coreAt s.curCore).jobs.length < 32 →
    ∃ t c, exec .mzero s = .next t ∧ t.passed s s.me.g ∧ t.mqueue s.curCore = s.mqueue s.curCore ++ [c] ∧ c.kind = .zero ∧
      c.job = t.me.msgr.jobLast ∧ (t.clusterAt (clusterOf s.curCore)).mx.issued.get (s.curCore % 8) = (64, 384)) ∧
  (∀ (s : State) (sa sb off : Nat), s.canRun [sa, sb] [] = true → s.spec = false → (s.me.g.get sb).toNat ≤ 4096 →
    let n := (s.me.g.get sb).toNat
    let bytes := (n + 63) / 64 * 8
    s.blockAt (s.me.g.get sa) 8 bytes off →
    ∃ t, exec (.skipb sa sb) s = .next t ∧ t.wentOn s s.me.g ∧ t.sameMem s ∧
      ∃ ws, assocGet (t.clusterAt (clusterOf s.curCore)).mx.skip s.curCore = some (n, ws) ∧
        ∀ k, k < bytes / 8 → ws[k]? = some (wordAt (s.block off bytes) (8 * k))) ∧
  (∀ s : State, s.spec = false →
    assocSorted (s.clusterAt (clusterOf s.curCore)).mx.gather = true → assocSorted (s.clusterAt (clusterOf s.curCore)).mx.skip = true →
    ∃ t, exec .mcfgDiscard s = .next t ∧ t.wentOn s s.me.g ∧ t.sameMem s ∧
      assocGet (t.clusterAt (clusterOf s.curCore)).mx.gather s.curCore = none ∧
      assocGet (t.clusterAt (clusterOf s.curCore)).mx.skip s.curCore = none) ∧
  (∀ (s : State) (sa : Nat), s.canRun [sa] [] = true →
    let g := s.me.g.get sa
    let cl := bits g 47 40
    (s.privS = true → bits g 39 32 = 0 → bits g 63 48 = 0 → cl < 240 → s.partOfCluster cl = s.partOfCore s.curCore →
      ∃ t, exec (.mcfgWeights sa) s = .next t ∧ t.wentOn s s.me.g ∧ t.sameMem s ∧
        (∀ c, c < 8 → (t.clusterAt cl).mx.weight.get c = bits g (4 * c + 3) (4 * c)) ∧
        ∀ x, x ≠ cl → t.clusterAt x = s.clusterAt x) ∧
    (s.privS = false → ∃ info, exec (.mcfgWeights sa) s = .next (s.trapped 1 0 info))) ∧
  (∀ (s : State) (a sa : Nat), s.canRun [sa] [a] = true →
    let id := s.me.g.get sa
    (∀ j, s.jobHere id = some j → j.engine = 0 → ∃ t, exec (.mstat a sa) s = .next t ∧ t.wentOn s (s.me.g.set a j.word) ∧
      t.sameMem s ∧ (j.state ≠ 4 → t.jobHere id = some j) ∧ (j.state = 4 → t.jobHere id = none)) ∧
    (s.jobHere id = none → ∃ t, exec (.mstat a sa) s = .next t ∧ t.wentOn s (s.me.g.set a 0) ∧ t.sameMem s) ∧
    (s.spec = false → (s.coreAt s.curCore).slots < 64 → a < 16 → ∃ t, exec (.mresume a sa) s = .next t ∧ t.passed s s.me.g ∧
      t.me.pend.getLsbD a = true ∧ ∃ r, t.agenda = s.agenda ++ [.mresumeAtUnit r] ∧ r.job = id ∧ r.dest.reg = a))

/-- MATRIX_GRAIN adds to each accumulator word of its 64-column block the sum of the K-step's products, modulo 2^32 in the INT8 class,
and changes no other word; a clearing zeroes the core's accumulator; DRAIN_ROW writes the next valid row of binary32 words, and
after the last completes the job; MRESUME_AT_UNIT restarts a stopped job and answers OK, or EMPTY (R174, R190, R243, R395, R396, R408). -/
def Obligations.MatrixUnitWorks : Prop :=
  (∀ (s : State) (cl n : Nat) (c : MatCmd) (rest : List MatCmd) (p : Partner) (rows : List (Nat × List Int)),
    s.idleHead cl = none → s.nextCore cl = some n → n < 8 → s.mqueue (8 * cl + n) = c :: rest → c.core = 8 * cl + n →
    c.started = true → c.cls = 1 → c.parts = [p] → p.core = c.core → p.failed = 0 → c.step < mSteps c.block → c.blk ≠ 0 →
    mN c.block ≤ 384 → c.avals = [(c.core, rows)] → (rows.map (fun r => r.1)).Nodup → (∀ r ∈ rows, r.1 < 64) →
    ∃ t, exec (.matrixGrain cl) s = .next t ∧ t.mem = s.mem ∧
      (∀ r ∈ rows, ∀ j, 64 * c.blk ≤ j → j < 64 * c.blk + 64 → j < mN c.block →
        (t.clusterAt cl).mx.acc.get (accAt c.core r.1 j) = (s.clusterAt cl).mx.acc.get (accAt c.core r.1 j) +
          BitVec.ofInt 32 ((r.2.zip (c.bvals.map (fun b => b.getD j 0))).map (fun q => q.1 * q.2)).sum) ∧
      ∀ k, (∀ r ∈ rows, ∀ j, 64 * c.blk ≤ j → j < 64 * c.blk + 64 → j < mN c.block → k ≠ accAt c.core r.1 j) →
        (t.clusterAt cl).mx.acc.get k = (s.clusterAt cl).mx.acc.get k) ∧
  (∀ (s : State) (cl : Nat) (c : MatCmd), s.idleHead cl = some c → c.kind = .zero → clusterOf c.core = cl →
    (s.clusterAt cl).mx.acc.dflt = 0 →
    ∃ t, exec (.matrixGrain cl) s = .next t ∧ t.mem = s.mem ∧ (s.openJob c.job → t.jobDone c.job 0) ∧ c ∉ t.mqueue c.core ∧
      ∀ r j, r < 64 → j < 384 → (t.clusterAt cl).mx.acc.get (accAt c.core r j) = 0) ∧
  (∀ (s : State) (core off : Nat) (c : MatCmd) (rest : List MatCmd), s.still → Memory.wf s.mem = true →
    s.mqueue core = c :: rest → c.core = core → c.kind = .drain → c.stopped = false → c.bbuf = none → spadPtr c.dest off →
    let mx := (s.clusterAt (clusterOf core)).mx
    let sh := mx.shape.get (core % 8)
    (∀ r, r < sh.m → c.row ≤ r → sh.valid / 2 ^ r % 2 = 1 → (∀ j, c.row ≤ j → j < r → sh.valid / 2 ^ j % 2 = 0) →
      let at_ := spadLoc core (off + r * c.stride)
      (off + r * c.stride) % 4 = 0 → off + r * c.stride + 4 * sh.n ≤ 2 ^ 18 →
      ∃ t, exec (.drainRow (clusterOf core) core) s = .next t ∧
        (∀ k, k < sh.n → natOfBytes (t.bytesAt (at_ + 4 * k) 4) = (mx.acc.get (accAt core r k)).toNat) ∧
        (∀ loc, loc < at_ ∨ at_ + 4 * sh.n ≤ loc → memRead t.mem loc = memRead s.mem loc) ∧
        (t.mqueue core).head?.map (fun x => x.row) = some (r + 1)) ∧
    ((∀ r, r < sh.m → c.row ≤ r → sh.valid / 2 ^ r % 2 = 0) →
      ∃ t, exec (.drainRow (clusterOf core) core) s = .next t ∧ t.mem = s.mem ∧ (s.openJob c.job → t.jobDone c.job 0) ∧
        c ∉ t.mqueue core)) ∧
  (∀ (s : State) (r : ResumeReq),
    (∀ j, s.jobOf r.job = some j → j.state = 3 → j.engine ≤ 2 → r.dest.core = jobCore r.job →
      ∃ t, exec (.mresumeAtUnit r) s = .next t ∧ (t.jobOf r.job).map (fun x => x.state) = some 2 ∧
        t.agenda = s.agenda ++ [.pendingValueArrive r.dest (.value 0)] ∧ t.mem = s.mem) ∧
    (s.jobOf r.job = none → exec (.mresumeAtUnit r) s = .next (s.push (.pendingValueArrive r.dest (.value 2)))))

/-- CBDEF defines a buffer, attaches to an identical one, or writes REFUSED, also for the copy unit as the consumer; a BASE whose slots do
not lie in its space traps XLATE (that LOGN is 0 to 3, and that the space of sub-space 1 is the whole cluster's, is log entry 73); CBWAIT
gives the address of its slot or waits; CBPUB, CBADV and CBFREE move their counter by one, or write FULL or EMPTY; CBQ reads the counters
(R183, R184, R399 to R401). -/
def Obligations.CircularBuffers : Prop :=
  (∀ (s : State) (a sa q off : Nat), s.canRun [sa] [a] = true → s.blockAt (s.me.g.get sa) 32 32 off →
    let d := s.block off 32
    let b : CircBuf := { desc := d, owner := s.me.workId, core := s.curCore, pidx := 0, cidx := 0, fidx := 0 }
    let num := fieldAt d 13 1
    let cl := clusterOf s.curCore
    let total := 2 ^ b.logn * (b.slotb + 64)
    let virtual := bits b.base 53 52 = 0
    let own := bits b.base 53 52 = 3 ∧ bits b.base 51 48 = 0
    let shared := bits b.base 53 52 = 3 ∧ bits b.base 51 48 = 1
    let fits := virtual ∧ bits b.base 51 0 + total ≤ 2 ^ 52 ∨ own ∧ bits b.base 47 18 = 0 ∧ bits b.base 17 0 + total ≤ 2 ^ 18 ∨
      shared ∧ bits b.base 47 21 = 0 ∧ bits b.base 20 0 + total ≤ 2 ^ 21
    (virtual ∨ own ∨ shared) → bits b.base 5 0 = 0 → ((s.coreAt s.curCore).elem (bits b.base 63 58)).isSome = true →
    b.slotb % 64 = 0 → 64 ≤ b.slotb → b.slotb ≤ 262144 →
    fieldAt d 12 1 ≤ 3 → num < 64 → b.prod ≤ 4 → b.cons ≤ 3 → b.fmtc < 64 →
    ((s.coreAt s.curCore).elem b.fmtc).isSome = true → fieldAt d 16 16 = 0 →
    (¬ fits → exec (.cbdef a sa q) s = .next (s.trapped 4 b.base 0)) ∧
    (fits → b.cons = 2 → exec (.cbdef a sa q) s = .next (s.setG a 3).onward) ∧
    (fits → b.cons ≠ 2 → assocGet (s.clusterAt cl).bufs num = none → ∃ t, exec (.cbdef a sa q) s = .next t ∧ t.passed s (s.me.g.set a 0) ∧
      assocGet (t.clusterAt cl).bufs num = some b ∧ t.handleAt s.curCore s.curCtx q = some (mkHandle num b.owner, b)) ∧
    (∀ o, fits → b.cons ≠ 2 → assocGet (s.clusterAt cl).bufs num = some o → ∃ t, exec (.cbdef a sa q) s = .next t ∧ t.cluster = s.cluster ∧
      t.passed s (s.me.g.set a (if o.desc = d then 0 else 3)) ∧ (o.desc ≠ d → t.me.q = s.me.q) ∧
      (o.desc = d → t.handleAt s.curCore s.curCtx q = some (mkHandle num o.owner, o)))) ∧
  (∀ (s : State) (a q h : Nat) (b : CircBuf), s.canRun [] [a] = true → s.spec = false →
    s.handleAt s.curCore s.curCtx q = some (h, b) →
    let cl := clusterOf s.curCore
    (b.prod = 0 → b.room = true → ∃ t, exec (.cbwaitP a q) s = .next t ∧ t.wentOn s (s.me.g.set a (b.slotAddr b.pidx)) ∧
      t.sameMem s ∧ t.cluster = s.cluster) ∧
    (b.prod = 0 → b.room = false → exec (.cbwaitP a q) s = .next s) ∧
    (b.cons = 0 → b.ready = true → ∃ t, exec (.cbwaitC a q) s = .next t ∧ t.wentOn s (s.me.g.set a (b.slotAddr b.cidx)) ∧
      t.sameMem s ∧ t.cluster = s.cluster) ∧
    (b.cons = 0 → b.ready = false → exec (.cbwaitC a q) s = .next s) ∧
    (b.prod ≠ 0 → exec (.cbwaitP a q) s = .next (s.trapped 1 0 2) ∧ exec (.cbpub a q) s = .next (s.trapped 1 0 2)) ∧
    (b.cons ≠ 0 → exec (.cbwaitC a q) s = .next (s.trapped 1 0 2) ∧ exec (.cbadv a q) s = .next (s.trapped 1 0 2) ∧
      exec (.cbfree a q) s = .next (s.trapped 1 0 2)) ∧
    (b.prod = 0 → s.settled → ∃ t, exec (.cbpub a q) s = .next t ∧
      t.passed s (s.me.g.set a (if b.room then 0 else 1)) ∧
      t.bufOf cl h = some (if b.room then { b with pidx := b.pidx + 1 } else b)) ∧
    (b.cons = 0 → (∃ t, exec (.cbadv a q) s = .next t ∧ t.wentOn s (s.me.g.set a (if b.ready then 0 else 2)) ∧ t.sameMem s ∧
        t.bufOf cl h = some (if b.ready then { b with cidx := b.cidx + 1 } else b)) ∧
      ∃ t, exec (.cbfree a q) s = .next t ∧ t.passed s (s.me.g.set a (if b.fidx = b.cidx then 2 else 0)) ∧
        t.bufOf cl h = some (if b.fidx = b.cidx then b else { b with fidx := b.fidx + 1 })) ∧
    (∃ t, exec (.cbq a q) s = .next t ∧ t.wentOn s (s.me.g.set a (BitVec.ofNat 64 (b.pidx.toNat + b.fidx.toNat * 2 ^ 32))) ∧
      t.sameMem s ∧ t.cluster = s.cluster)) ∧
  (∀ (s : State) (a q : Nat), s.canRun [] [a] = true → s.spec = false → s.handleAt s.curCore s.curCtx q = none →
    exec (.cbq a q) s = .next (s.trapped 1 0 0) ∧ exec (.cbpub a q) s = .next (s.trapped 1 0 0) ∧
      exec (.cbwaitC a q) s = .next (s.trapped 1 0 0))

/-- COPY_ROW moves a row of raw bytes, and after the last completes the job; GATHER_ROW fetches an indexed row into its slot, or zeros
for an index out of range; COPY_ARRIVAL_WAIT reserves the arrival entry, or waits (R118, R188, R192, R397, R402). XCOPY and GATH
queue their work, or GATH binds its list to the next command; XPOLL and XWAIT read a job word and drop a complete job, XWAIT waiting
for a stop or the end; JWAIT and JPOLL read a completion status; XCANCEL ends a copy with REFUSED (R188, R391, R397, R402, R403). -/
def Obligations.CopiesAndJobs : Prop :=
  ((∀ (s : State) (core so do_ : Nat) (c : CopyCmd) (rest : List CopyCmd), s.still → Memory.wf s.mem = true →
    s.copyQueue core = c :: rest → c.core = core → c.stopped = false → (s.jobOf c.job).bind (fun j => j.arr) = none →
    c.toBuf = none →
    let b := c.block
    xRows b ≠ 0 → spadPtr (xFrom b) so → spadPtr (xTo b) do_ →
    let i : Int := ((c.row / xC1 b : Nat) : Int)
    let j : Int := ((c.row % xC1 b : Nat) : Int)
    (c.row < xRows b → ∀ (x y : Nat), (x : Int) = so + i * xFs2 b + j * xFs1 b → (y : Int) = do_ + i * xTs2 b + j * xTs1 b →
      x + xC0 b ≤ 2 ^ 18 → y + xC0 b ≤ 2 ^ 18 →
      ∃ t, exec (.copyRow (clusterOf core) core) s = .next t ∧
        (∀ k, k < xC0 b → memRead t.mem (spadLoc core (y + k)) = memRead s.mem (spadLoc core (x + k))) ∧
        (∀ loc, loc < spadLoc core y ∨ spadLoc core y + xC0 b ≤ loc → memRead t.mem loc = memRead s.mem loc) ∧
        (t.copyQueue core).head?.map (fun e => e.row) = some (c.row + 1)) ∧
    (xRows b ≤ c.row → ∃ t, exec (.copyRow (clusterOf core) core) s = .next t ∧ t.mem = s.mem ∧ (s.openJob c.job → t.jobDone c.job 0) ∧
      ∀ e ∈ t.copyQueue core, e.job ≠ c.job)) ∧
  (∀ (s : State) (core so bo x : Nat) (c : GathCmd) (rest : List GathCmd) (b : CircBuf), s.still → Memory.wf s.mem = true →
    s.gatherQueue core = c :: rest → jobCore c.job = core → c.stopped = false →
    s.bufOf (clusterOf core) c.buf = some b → b.room = true → spadPtr b.base bo → spadPtr c.list.src so →
    c.list.idx[c.row]? = some x → (c.list.strict = true → x < c.list.rows ∨ x = 0xFFFF) →
    let from_ := so + x * c.list.stride
    let to_ := bo + b.pidx.toNat % 2 ^ b.logn * (b.slotb + 64) + c.row * c.rowb
    let good := x < c.list.rows ∧ x ≠ 0xFFFF
    (good → from_ + max 1 c.rowb ≤ 2 ^ 18) → to_ + max 1 c.rowb ≤ 2 ^ 18 →
    ∃ t, exec (.gatherRow (clusterOf core) core) s = .next t ∧
      (∀ k, k < c.rowb → (good → memRead t.mem (spadLoc core (to_ + k)) = memRead s.mem (spadLoc core (from_ + k))) ∧
        (¬ good → memRead t.mem (spadLoc core (to_ + k)) = 0)) ∧
      (∀ loc, loc < spadLoc core to_ ∨ spadLoc core to_ + c.rowb ≤ loc → memRead t.mem loc = memRead s.mem loc) ∧
      (t.gatherQueue core).head?.map (fun e => e.row) = some (c.row + 1)) ∧
  (∀ (s : State) (core : Nat) (c : CopyCmd) (rest : List CopyCmd) (a : Arrival), s.copyQueue core = c :: rest → c.core = core →
    (s.jobOf c.job).bind (fun j => j.arr) = some (s.dev, a) → c.reserved = false →
    ((s.coreAt a.core).arrq.length < 8 → ∃ t, exec (.copyArrivalWait (clusterOf core) core) s = .next t ∧ t.mem = s.mem ∧
      (t.copyQueue core).head?.map (fun e => e.reserved) = some true ∧
      ∃ e, (t.coreAt a.core).arrq = (s.coreAt a.core).arrq ++ [e] ∧ e.arr = a ∧ e.ready = false) ∧
    (8 ≤ (s.coreAt a.core).arrq.length → exec (.copyArrivalWait (clusterOf core) core) s = .next s))) ∧
  ((∀ (s : State) (sa off : Nat), s.canRun [sa] [] = true → s.settled → s.blockAt (s.me.g.get sa) 64 64 off →
    (s.coreAt s.curCore).building = [] →
    let b := s.block off 64
    (∃ so, spadPtr (xFrom b) so) → (∃ d, spadPtr (xTo b) d ∧ ∀ r : Nat, r < xRows b →
      let y : Int := d + ((r / xC1 b : Nat) : Int) * xTs2 b + ((r % xC1 b : Nat) : Int) * xTs1 b
      0 ≤ y ∧ y + xC0 b ≤ 2 ^ 18) →
    xC0 b ≤ 2 ^ 24 → xC1 b ≤ 65535 → xC2 b ≤ 65535 → xFlags b < 512 → xToq b = false → (wordAt b 48).toNat < 2 →
    (s.copyQueue s.curCore).length < 8 → (s.coreAt s.curCore).jobs.length < 32 →
    ∃ t c, exec (.xcopy sa) s = .next t ∧ t.passed s s.me.g ∧ t.copyQueue s.curCore = s.copyQueue s.curCore ++ [c] ∧ c.block = b ∧
      c.row = 0 ∧ c.toBuf = none ∧ c.job = t.me.msgr.jobLast) ∧
  (∀ (s : State) (sa off n : Nat), s.canRun [sa] [] = true → n ≤ 192 → s.blockAt (s.me.g.get sa) 64 (32 + 2 * n) off →
    let b := s.block off (32 + 2 * n)
    fieldAt b 16 2 = n → (∃ so, spadPtr (wordAt b 0) so) → fieldAt b 18 1 < 64 → fieldAt b 19 1 = 0 → fieldAt b 24 8 = 0 →
    let l (strict : Bool) : GatherList :=
      { src := wordAt b 0, stride := fieldAt b 8 4, rows := fieldAt b 12 4,
        idx := (List.range n).map (fun k => fieldAt b (32 + 2 * k) 2), strict := strict }
    (fieldAt b 18 1 % 2 = 0 → fieldAt b 20 4 = 0 → ∃ t, exec (.gath sa) s = .next t ∧ t.wentOn s s.me.g ∧ t.sameMem s ∧
      assocGet (t.clusterAt (clusterOf s.curCore)).mx.gather s.curCore = some (l (decide (32 ≤ fieldAt b 18 1)))) ∧
    (∀ h c, fieldAt b 18 1 % 2 = 1 → fieldAt b 20 4 % 64 = 0 →
      s.handleAt s.curCore s.curCtx (fieldAt b 18 1 / 2 % 16) = some (h, c) → c.prod = 3 → n * fieldAt b 20 4 ≤ c.slotb →
      (s.coreAt s.curCore).jobs.length < 32 → s.settled →
      ∀ ls u, issueLines (some h) 0 (gatherRows (fieldAt b 20 4) n 0) s = .ok (ls, u) →
      ∃ t e, exec (.gath sa) s = .next t ∧ t.passed s s.me.g ∧ t.gatherQueue s.curCore = s.gatherQueue s.curCore ++ [e] ∧
        e.list = l (decide (32 ≤ fieldAt b 18 1)) ∧ e.buf = h ∧ e.row = 0 ∧ e.rowb = fieldAt b 20 4)) ∧
  (∀ (s : State) (a sa : Nat), s.canRun [sa] [a] = true →
    let id := s.me.g.get sa
    let gives (i : Instr) (v : Word) (gone : Prop) : Prop := ∃ t, exec i s = .next t ∧ t.wentOn s (s.me.g.set a v) ∧ t.sameMem s ∧
      (gone → t.jobHere id = none) ∧ (¬ gone → t.jobHere id = s.jobHere id)
    (∀ j, s.jobHere id = some j →
      (j.engine ≠ 0 → gives (.xpoll a sa) j.word (j.state = 4)) ∧
      (j.engine ≠ 0 → 3 ≤ j.state → gives (.xwait a sa) j.word (j.state = 4)) ∧
      (j.engine ≠ 0 → j.state < 3 → exec (.xwait a sa) s = .next s) ∧
      (j.state = 4 → gives (.jwait a sa) (BitVec.ofNat 64 j.code) True ∧ gives (.jpoll a sa) (BitVec.ofNat 64 j.code) True) ∧
      (j.state ≠ 4 → exec (.jwait a sa) s = .next s ∧ gives (.jpoll a sa) 8 False)) ∧
    (s.jobHere id = none → gives (.xpoll a sa) 0 False ∧ gives (.xwait a sa) 0 False ∧ gives (.jwait a sa) 2 False ∧
      gives (.jpoll a sa) 2 False) ∧
    (s.spec = false →
      (∀ j c rest, s.jobHere id = some j → j.engine = 1 → s.openJob id → s.copyQueue (jobCore id) = c :: rest → c.job = id →
        ∃ t, exec (.xcancel a sa) s = .next t ∧ t.passed s (s.me.g.set a 0) ∧ t.jobDone id 3 ∧ ∀ e ∈ t.copyQueue (jobCore id), e.job ≠ id) ∧
      (s.jobHere id = none → ∃ t, exec (.xcancel a sa) s = .next t ∧ t.wentOn s (s.me.g.set a 2) ∧ t.sameMem s))))

/-! ## Gaussian messages, crossbar arrays and bounded arithmetic -/

/-- GLD reads a mailbox slot into a key pair and two vectors, zero outside the message's dimension; GST writes one, or REFUSED for a
stale sequence; GADD, GDAMP and GRES compute lane by lane; GELIM eliminates a scalar, or traps SINGULAR with the pivot; GPOST
inserts, merges or turns away a residual (R206 to R211, R215, R430 to R432). -/
def Obligations.GaussianMessages : Prop :=
  (∀ (s : State) (a sa sb sd off : Nat), a ≠ sb → s.vecRun [sa, vkey a, vkey sb] [sd, sd + 1] = true → s.blockAt (s.me.g.get sa) 128 128 off →
    let b := s.block off 128
    let w := fieldAt b 12 4
    let d := w / 2 ^ 25 % 4 + 1
    let valid := w / 2 ^ 24 % 2 = 1
    ∃ t, exec (.gld a sa sb sd) s = .next t ∧ t.passed s ((s.me.g.set sd (wordAt b 0)).set (sd + 1) (wordAt b 8)) ∧
      (∀ k, k < 16 → lane32 (t.vreg sb) k =
        if k < 4 ∧ (valid → k < d) then BitVec.ofNat 32 (fieldAt b (16 + 4 * k) 4) else 0) ∧
      (∀ k, k < 16 → lane32 (t.vreg a) k =
        if valid → k / 4 < d ∧ k % 4 < d then BitVec.ofNat 32 (fieldAt b (32 + 4 * k) 4) else 0)) ∧
  (∀ (s : State) (a sa sb sc sd off : Nat), s.vecRun [sa, sd, sd + 1, vkey sb, vkey sc] [a] = true → s.settled →
    s.blockAt (s.me.g.get sa) 128 128 off →
    let old := s.block off 128
    let k0 := s.me.g.get sd
    let diff := (BitVec.ofNat 32 k0.toNat - BitVec.ofNat 32 (fieldAt old 0 4)).toNat
    let fresh := fieldAt old 12 4 / 2 ^ 24 % 2 = 0 ∨ (1 ≤ diff ∧ diff < 2 ^ 31)
    (fresh → ∃ t, exec (.gst a sa sb sc sd) s = .next t ∧ t.wentOn s (s.me.g.set a 0) ∧
      t.stored s (spadLoc s.curCore off) (slotBytes k0 (s.me.g.get (sd + 1)) (s.vreg sb) (s.vreg sc))) ∧
    (¬ fresh → ∃ t, exec (.gst a sa sb sc sd) s = .next t ∧ t.wentOn s (s.me.g.set a 3) ∧ t.sameMem s)) ∧
  (∀ (s : State) (a sa sb sc sd d : Nat),
    let x := s.vreg sa
    let y := s.vreg sb
    (s.vecRun [vkey sa, vkey sb, vkey a] [] = true → ∃ r, exec (.gadd a sa sb) s = .next (s.putV a r) ∧
      ∀ k, k < 16 → lane32 r k = fadd (lane32 x k) (lane32 y k)) ∧
    (s.vecRun [sc, vkey sa, vkey sb, vkey a] [] = true →
      let al : W32 := (s.me.g.get sc).setWidth 32
      let inRange := (f32 0).le (f32 al) = true ∧ (f32 al).le (f32 0x3F800000#32) = true
      (inRange → ∃ r, exec (.gdamp a sa sb sc) s = .next (s.putV a r) ∧
        ∀ k, k < 16 → lane32 r k = ffma al (lane32 x k) (fmul (fsub 0x3F800000#32 al) (lane32 y k))) ∧
      (¬ inRange → exec (.gdamp a sa sb sc) s = .next (s.trapped 1 0 0))) ∧
    (s.vecRun [vkey sa, vkey sb, vkey sc, vkey sd] [a] = true →
      let diffs := (List.range d).map (fun i => fsub (lane32 (s.vreg sc) i) (lane32 (s.vreg sd) i)) ++
        (List.range d).flatMap (fun i => ((List.range d).filter (fun j => i ≤ j)).map (fun j =>
          fsub (lane32 x (4 * i + j)) (lane32 y (4 * i + j))))
      let r : W32 := if ∃ v ∈ diffs, (f32 v).isNan = true then 0x7F800000#32 else diffs.foldl (fun m v => fmax m (fabs v)) 0
      exec (.gres a sa sb sc sd d) s = .next ((s.setG a (r.setWidth 64)).onward))) ∧
  (∀ (s : State) (a sa sb sc : Nat),
    s.vecRun [vkey sa, vkey (sa + 1), vkey (sa + 2), vkey (sa + 3), vkey sb, vkey a, vkey sc] [] = true →
    let lam (k : Nat) := lane32 (s.vreg sa) k
    let h (k : Nat) := lane32 (s.vreg sb) k
    let p := lam 9
    let thr := fmul ((s.coreAt s.curCore).gcfg.setWidth 32) (fmax 0 (fabs p))
    let good := (f32 thr).lt (f32 p) = true ∧ p ≠ 0x7F800000#32
    let w := fdiv (lam 1) (fsqrt p)
    (good → ∃ t, exec (.gelim a sa sb sc 0 0) s = .next t ∧ t.wentOn s s.me.g ∧ t.sameMem s ∧
      (∀ k, k < 16 → lane32 (t.vreg sc) k = if k = 0 then ffma (fneg w) (fdiv (h 1) (fsqrt p)) (h 0) else 0) ∧
      (a ≠ sc → ∀ k, k < 16 → lane32 (t.vreg a) k = if k = 0 then ffma (fneg w) w (lam 0) else 0)) ∧
    (¬ good → exec (.gelim a sa sb sc 0 0) s = .next (s.trapped 11 0 (BitVec.ofNat 64 (p.toNat * 2 ^ 32))))) ∧
  (∀ (s : State) (a sa sb sc sd : Nat), s.canRun [sa, sb, sc, sd] [a] = true → s.spec = false →
    let e := s.me.g.get sc
    let node := (s.me.g.get sa).toNat % 2 ^ 24
    let r : W32 := (s.me.g.get sb).setWidth 32
    let q := (s.coreAt s.curCore).residq
    let thr := f32 ((s.coreAt s.curCore).gcfg.extractLsb' 32 32)
    let gives (st : Word) (q2 : List ResidEntry) : Prop := ∃ t, exec (.gpost a sa sb sc sd) s = .next t ∧
      t.wentOn s (s.me.g.set a st) ∧ t.sameMem s ∧ (t.coreAt s.curCore).residq = q2
    let r2 := if (f32 r).isNan then 0x7F800000#32 else r
    let here (x : ResidEntry) : Prop := x.node = node
    (bit e 5 = true ∨ bits e 63 52 ≠ 0 → exec (.gpost a sa sb sc sd) s = .next (s.trapped 1 0 0)) ∧
    (bit e 5 = false → bits e 63 52 = 0 →
      ((f32 r2).le thr = true → gives 2 q) ∧
      ((f32 r2).le thr = false → (∃ x ∈ q, here x) → gives 0 (q.map (fun x =>
        if x.node = node then { x with resid := fmax x.resid r2, entry := e, arg := s.me.g.get sd, origq := s.originQueue } else x))) ∧
      ((f32 r2).le thr = false → (∀ x ∈ q, ¬ here x) → q.length < 64 →
        ∃ n, gives 0 (q ++ [{ node := node, resid := r2, entry := e, arg := s.me.g.get sd, seqn := n, origq := s.originQueue }])) ∧
      ((f32 r2).le thr = false → (∀ x ∈ q, ¬ here x) → 64 ≤ q.length → gives 1 q)))

/-- CMV, CPROG and CCAL queue their command at an array, behind all that it does not lead, and make their destination pending; CQRY reads
the array's word and constants; a result read waits for the core's earlier products on the array and gives the bank as they left it, with
its bound, or traps DRIFT (R196, R198, R203, R433, R434). An array runs its commands: a head starts, or ends with ECC where its inputs carry
an error; a product that does not drift writes its readings and its bound to the core's bank and answers OK, one that drifts clears CALOK,
counts, marks its bank and answers DRIFT, CPROG writes a row of weights in -7 to 7, a calibration stores its constants; a gated island ends
each with DRIFT, and an array whose cluster has left its partition is erased after its last command (R23, R194, R196 to R202). -/
def Obligations.CrossbarArrays : Prop :=
  ((∀ (s : State) (a arr sa sb sc : Nat), s.settled → a < 16 →
    (s.arrayAt (clusterOf s.curCore) arr).queue.length < 4 → (s.coreAt s.curCore).slots < 64 →
    let p := s.me.g.get sa
    let r := (s.me.g.get sb).toNat
    let n := (s.me.g.get sc).toNat
    let queues (i : Instr) (c : XbarCmd) : Prop := ∃ t, exec i s = .next t ∧ t.passed s s.me.g ∧ t.me.pend.getLsbD a = true ∧
      (∃ f b, (s.arrayAt (clusterOf s.curCore) arr).queue = f ++ b ∧ (t.arrayAt (clusterOf s.curCore) arr).queue = f ++ c :: b ∧
        (∀ d ∈ f, c.leads d = false) ∧ (∀ d, b.head? = some d → c.leads d = true)) ∧
      (t.coreAt s.curCore).slots = (s.coreAt s.curCore).slots + 1
    (s.canRun [sa, sb, sc] [a] = true → r + n ≤ 512 → (n = 0 ∨ ∃ off, spadPtr p off ∧ off + n ≤ 2 ^ 18) →
      queues (.cmvStart a arr sa sb sc) { s.bareXbar 0 a with ptr := p, r0 := r, count := n }) ∧
    (s.canRun [sa, sb, sc] [a] = true → 0 < n → r + n ≤ 512 → p.toNat % 64 = 0 →
      queues (.cprog a arr sa sb sc) { s.bareXbar 1 a with ptr := p, r0 := r, count := n }) ∧
    (s.canRun [] [a] = true → queues (.ccal a arr) (s.bareXbar 2 a)) ∧
    (s.canRun [sa, sb, sc] [a] = true → 512 < r + n → exec (.cmvStart a arr sa sb sc) s = .next (s.trapped 1 0 0) ∧
      exec (.cprog a arr sa sb sc) s = .next (s.trapped 1 0 0))) ∧
  (∀ (s : State) (a arr : Nat), s.canRun [] [a] = true →
    let x := s.arrayAt (clusterOf s.curCore) arr
    let busy := x.queue.any (fun c => c.started)
    let w : Word := BitVec.ofNat 64 (min x.drifts 0xFFFF * 2 ^ 48 + min x.prods 0xFFFFFFFF * 2 ^ 16 +
      (s.partOfCluster (clusterOf s.curCore)).getD 0 % 16 * 2 ^ 12 + busy.toNat * 8 + x.progDone.toNat * 4 + x.calok.toNat)
    exec (.cqry a arr 0) s = .next ((s.setG a w).onward) ∧
      exec (.cqry a arr 1) s = .next ((s.setG a (x.beta.setWidth 64)).onward) ∧
      exec (.cqry a arr 2) s = .next ((s.setG a (x.gamma.setWidth 64)).onward) ∧
      ∀ sel, 3 ≤ sel → exec (.cqry a arr sel) s = .next (s.trapped 1 0 0)) ∧
  (∀ (s : State) (a arr grp : Nat), s.me.vwin ≠ 0 → (s.heldOf s.curCore s.curCtx).any (fun h => productOn arr h.instr) = false →
    let x := s.arrayAt (clusterOf s.curCore) arr
    let k := s.curCore % 8
    let mine := (x.queue.filter (fun c => c.op == 0 && c.dest.core == s.curCore)).map (fun c => c.id)
    let gives (v : Vec) (w : W32) : Prop := ∃ t, exec (.cmvRead a arr grp) s = .next t ∧ t.wentOn s s.me.g ∧ t.sameMem s ∧
      t.me.xread = none ∧ t.breg a = (v, w)
    let drifts : Prop := exec (.cmvRead a arr grp) s = .next (s.trapped 12 0 (BitVec.ofNat 64 (arr % 8)))
    (s.me.xread = none → mine ≠ [] → ∃ t, exec (.cmvRead a arr grp) s = .next t ∧ t.me.pc = s.me.pc ∧ t.me.g = s.me.g ∧
      t.me.xread = some { key := 32 * arr + grp, wait := mine, got := none } ∧ t.mem = s.mem) ∧
    (s.me.xread = none → mine = [] →
      (x.bankDrift.get k = true → drifts) ∧
      (x.bankDrift.get k = false → ∃ v, gives v (x.bound.get (32 * k + grp)) ∧
        ∀ i, i < 16 → lane32 v i = x.bank.get (512 * k + 16 * grp + i))) ∧
    (∀ ws v w d, s.me.xread = some { key := 32 * arr + grp, wait := ws, got := some (v, w, d) } →
      (d = true → drifts) ∧ (d = false → gives v w)))) ∧
  ((∀ (s : State) (cl arr : Nat) (c : XbarCmd),
    let x := s.arrayAt cl arr
    let ends (t : State) (v : Reply) : Prop :=
      (t.arrayAt cl arr).queue = x.queue.erase c ∧ t.agenda = s.agenda ++ [.pendingValueArrive c.dest v] ∧ t.mem = s.mem
    let drifted (t : State) : Prop := (t.arrayAt cl arr).calok = false ∧ (t.arrayAt cl arr).drifts = x.drifts + 1 ∧
      (t.arrayAt cl arr).bankDrift.get (c.dest.core % 8) = true ∧ (t.arrayAt cl arr).bank = x.bank
    (x.next = some c → x.leaving = true → x.queue = [c] → s.analogOff cl = true →
      ∃ t, exec (.xbarCommandHead cl arr) s = .next t ∧ ends t (driftPoison arr) ∧ (t.arrayAt cl arr).leaving = false ∧
        (t.arrayAt cl arr).prog = false ∧ ∀ j, (t.arrayAt cl arr).weights.get j = 0) ∧
    (x.next = some c → x.leaving = false →
      let loc := spadLoc c.dest.core (bits c.ptr 17 0)
      (s.analogOff cl = true → ∃ t, exec (.xbarCommandHead cl arr) s = .next t ∧ ends t (driftPoison arr) ∧
        (c.op = 0 → c.count ≠ 0 → drifted t)) ∧
      (s.analogOff cl = false → c.op = 0 → c.count = 0 → ∃ t, exec (.xbarCommandHead cl arr) s = .next t ∧ ends t (.value 0) ∧
        (∀ j, j < 512 → (t.arrayAt cl arr).bank.get (512 * (c.dest.core % 8) + j) = 0) ∧
        ∀ g, g < 32 → (t.arrayAt cl arr).bound.get (32 * (c.dest.core % 8) + g) = 0) ∧
      (s.analogOff cl = false → c.op = 0 → c.count ≠ 0 → s.badRange loc c.count = true →
        ∃ t, exec (.xbarCommandHead cl arr) s = .next t ∧ ends t (sourcePoison arr { cause := 7, addr := c.ptr, info := 0 })) ∧
      (s.analogOff cl = false → (c.op ≠ 0 ∨ c.count ≠ 0) → (c.op = 0 → s.badRange loc c.count = false ∧ s.inLog loc c.count = false) →
        ∃ t, exec (.xbarCommandHead cl arr) s = .next t ∧ t.agenda = s.agenda ∧
        ∃ d ∈ (t.arrayAt cl arr).queue, d.started = true ∧ d.dest = c.dest ∧ d.op = c.op ∧ d.id = c.id ∧
          (c.op = 0 → d.xs = drive (s.bytesAt loc c.count)))) ∧
    (∀ readings refA refB, x.queue.find? (fun c => c.started) = some c → c.op = 0 → c.count ≠ 0 → x.leaving = false →
      let go := exec (.xbarProductComplete cl arr readings refA refB) s
      let k := c.dest.core % 8
      (s.analogOff cl = true → ∃ t, go = .next t ∧ ends t (driftPoison arr) ∧ drifted t) ∧
      (s.analogOff cl = false → x.drifted c readings refA refB = true → ∃ t, go = .next t ∧ ends t (driftPoison arr) ∧ drifted t) ∧
      (s.analogOff cl = false → x.drifted c readings refA refB = false → ∃ t, go = .next t ∧ ends t (.value 0) ∧ x.calok = true ∧
        (t.arrayAt cl arr).prods = x.prods + 1 ∧ (t.arrayAt cl arr).bankDrift.get k = false ∧
        ∀ j, j < 512 → (t.arrayAt cl arr).bank.get (512 * k + j) = toF32 ((Sys2Proof.Num.ofInt (readings.getD j 0)).scale (-4)) ∧
          (t.arrayAt cl arr).bound.get (32 * k + j / 16) = BitVec.ofNat 32 (Fmt.b32.round .up (x.exactBound c.xs)) ∧
          within (readings.getD j 0) (rowSum c.xs (fun i => x.weights.get (512 * (c.r0 + i) + j))) (x.exactBound c.xs) = true)) ∧
    (∀ beta gamma, x.queue.find? (fun c => c.started) = some c → c.op = 2 → x.leaving = false →
      let good := (f32 beta).le (f32 0x3E000000#32) && (f32 gamma).le (f32 0x42800000#32)
      (s.analogOff cl = true → ∃ t, exec (.calibrationComplete cl arr beta gamma) s = .next t ∧ ends t (driftPoison arr)) ∧
      (s.analogOff cl = false → ∃ t, exec (.calibrationComplete cl arr beta gamma) s = .next t ∧
        ends t (.value (if good then 0 else 3)) ∧ (t.arrayAt cl arr).calok = good ∧ (t.arrayAt cl arr).beta = beta ∧
        (t.arrayAt cl arr).gamma = gamma ∧ (good = true → (t.arrayAt cl arr).prods = 0)))) ∧
  (∀ (s : State) (cl arr off : Nat) (c : XbarCmd) (rest : List XbarCmd), s.still → (s.arrayAt cl arr).queue = c :: rest →
    c.started = true → c.op = 1 → c.bad = 0 → (s.arrayAt cl arr).leaving = false → s.analogOff cl = false → spadPtr c.ptr off → off + 256 * (c.row + 1) ≤ 2 ^ 18 →
    let row := c.r0 + c.row
    let byte (j : Nat) := (memRead s.mem (spadLoc c.dest.core (off + 256 * c.row + j / 2))).toNat
    ∃ t, exec (.xbarProgramRow cl arr 0) s = .next t ∧ t.mem = s.mem ∧ (t.arrayAt cl arr).prog = true ∧
      (∀ j, j < 512 → (t.arrayAt cl arr).weights.get (512 * row + j) = max (-7) (BitVec.ofNat 4 (byte j / 16 ^ (j % 2))).toInt) ∧
      (∀ k, (k < 512 * row ∨ 512 * row + 512 ≤ k) → (t.arrayAt cl arr).weights.get k = (s.arrayAt cl arr).weights.get k) ∧
      (c.row + 1 = c.count → t.agenda = s.agenda ++ [.pendingValueArrive c.dest (.value 0)])))

/-- Bounded-error arithmetic: EADD, ESUB, EMUL and EFMA compute lane by lane and carry the bound that R246 gives; EMOV copies; ADMIT
copies to a vector register when the bound is within the limit, else writes REFUSED, or traps BOUND under ATRAP; EBND reads the
bound (R204, R246, R435, R436). -/
def Obligations.BoundedArithmetic : Prop :=
  (∀ (s : State) (a sa sb sc : Nat), s.me.vwin ≠ 0 →
    let x := s.breg sa
    let y := s.breg sb
    let z := s.breg sc
    let lanes (i : Instr) (f : Nat → W32) (ops : List (Vec × W32)) (e : Vec → Sys2Proof.Num) : Prop :=
      ∃ r, (∀ k, k < 16 → lane32 r k = f k) ∧ exec i s = .next (s.putB a r (newBound ops r (e r)))
    let sum (r : Vec) := ((f32 x.2).add (f32 y.2)).add (rhoOf r)
    lanes (.eadd a sa sb) (fun k => fadd (lane32 x.1 k) (lane32 y.1 k)) [x, y] sum ∧
    lanes (.esub a sa sb) (fun k => fsub (lane32 x.1 k) (lane32 y.1 k)) [x, y] sum ∧
    lanes (.emul a sa sb) (fun k => fmul (lane32 x.1 k) (lane32 y.1 k)) [x, y] (fun r => (mulBound x y).add (rhoOf r)) ∧
    lanes (.efma a sa sb sc) (fun k => ffma (lane32 x.1 k) (lane32 y.1 k) (lane32 z.1 k)) [x, y, z]
      (fun r => ((mulBound x y).add (f32 z.2)).add (rhoOf r)) ∧
    exec (.emov a sa) s = .next (s.putB a x.1 x.2)) ∧
  (∀ (s : State) (a sa sb sc : Nat), s.vecRun [sc, vkey sb] [a] = true →
    let x := s.breg sa
    let ok := x.2 != 0x7F800000#32 && (f32 x.2).le (f32 ((s.me.g.get sc).setWidth 32))
    (ok = true → ∃ t, exec (.admitB a sa sb sc) s = .next t ∧ t.wentOn s (s.me.g.set a 0) ∧ t.sameMem s ∧ t.vreg sb = x.1 ∧
      ∀ k, k ≠ sb → t.vreg k = s.vreg k) ∧
    (ok = false → s.me.atrap = true → exec (.admitB a sa sb sc) s = .next (s.trapped 17 0 (x.2.setWidth 64))) ∧
    (ok = false → s.me.atrap = false → exec (.admitB a sa sb sc) s = .next ((s.setG a 3).onward))) ∧
  (∀ (s : State) (a sa : Nat), s.vecRun [] [a] = true →
    exec (.ebnd a sa) s = .next ((s.setG a ((s.breg sa).2.setWidth 64)).onward))

/-! ## Reductions, multicast and migration -/

/-- NRED opens a reduction, and writes the first status that R405's checks give; NRWAIT reads a completion; a participant with every child's
partial sends the combined one to its parent; a result that arrives is written and ends the job; the word of a failure ends it without its
result, also where it came before the NRED; one that comes for a use of the identifier still to be opened waits, and one for a use that has
ended is dropped (R47, R48, R51, R405, R406). The uses are counted as log entry 68 says. NMCAST starts a multicast job or writes REFUSED;
the members' answers complete it; a copy at a member is written at its place and answered, one beyond the scratchpad answered with XLATE
(R46, R129, R407). Device registers as operands trap ALIGN (R351). A thread migrates: a target with a free context reserves it and accepts,
the source sends its image, the thread resumes at the target with its registers and PC, and the source frees its context (R122, R123, R364).
-/
def Obligations.FabricOperations : Prop :=
  ((∀ (s : State) (a sa off : Nat), s.canRun [sa] [a] = true → s.blockAt (s.me.g.get sa) 64 64 off →
    let b := s.block off 64
    let k := nredBlock b
    fieldAt b 16 2 < 64 → fieldAt b 18 4 % 2 ^ 32 < 2 ^ 23 → fieldAt b 22 1 < 16 → fieldAt b 23 1 = 0 → (wordAt b 32).toNat < 2 →
    fieldAt b 48 16 = 0 → (s.coreAt s.curCore).jobs.length < 32 → s.settled →
    (isRegister k.src = true → exec (.nred a sa) s = .next (s.trapped 6 k.src 0)) ∧
    (isRegister k.src = false → isRegister k.dst = true → exec (.nred a sa) s = .next (s.trapped 6 k.dst 0)) ∧
    (isRegister k.src = false → isRegister k.dst = false →
    (s.nredStatus k ≠ 0 → ∃ t, exec (.nred a sa) s = .next t ∧ t.wentOn s (s.me.g.set a (BitVec.ofNat 64 (s.nredStatus k))) ∧
      t.sameMem s ∧ t.net = s.net) ∧
    (∀ m, s.nredStatus k = 0 → s.redHeard k = some m → (∃ d, spadPtr k.dst d ∧ d + redBytes k.op k.n ≤ 2 ^ 18) →
      ∃ t, exec (.nred a sa) s = .next t ∧ t.passed s (s.me.g.set a 0) ∧ (s.freshJob → t.jobDone t.me.msgr.jobLast 11)) ∧
    (s.nredStatus k = 0 → s.redHeard k = none →
      (∃ d, spadPtr k.dst d ∧ d + redBytes k.op k.n ≤ 2 ^ 18) →
      ∃ t r, exec (.nred a sa) s = .next t ∧ t.passed s (s.me.g.set a 0) ∧ t.net.open_ = s.net.open_ ++ [r] ∧ r.group = k.grp ∧
        r.rid = k.rid ∧ r.job = t.me.msgr.jobLast ∧ r.sent = false ∧ r.parts = (s.liveMembers k.grp).take k.c))) ∧
  (∀ (s : State) (a sa : Nat), s.canRun [sa] [a] = true →
    let id := s.me.g.get sa
    let gives (v : Word) : Prop := ∃ t, exec (.nrwait a sa) s = .next t ∧ t.wentOn s (s.me.g.set a v) ∧ t.sameMem s
    (s.jobHere id = none → gives 2) ∧
    (∀ j, s.jobHere id = some j → (j.engine < 3 → gives 3) ∧ (3 ≤ j.engine → j.state ≠ 4 → exec (.nrwait a sa) s = .next s) ∧
      (3 ≤ j.engine → j.state = 4 → gives (BitVec.ofNat 64 j.code)))) ∧
  (∀ (s : State) (m : RedMsg), m.status ≠ 11 → m.sender ≠ s.dev →
    (s.redUse m.group m.rid m.sender < m.use → exec (.redr m) s = .next s ∧
      ∃ t, exec (.redc m) s = .next t ∧ t.net.early = s.net.early ++ [m] ∧ t.mem = s.mem) ∧
    (m.use < s.redUse m.group m.rid m.sender → exec (.redc m) s = .next s ∧ exec (.redr m) s = .next s) ∧
    (m.use = s.redUse m.group m.rid m.sender → s.net.open_.find? (fun r => r.group == m.group && r.rid == m.rid) = none →
      exec (.redc m) s = .next s ∧ exec (.redr m) s = .next s) ∧
    (∀ r d so, m.use = s.redUse m.group m.rid m.sender → s.net.open_.find? (fun r => r.group == m.group && r.rid == m.rid) = some r → s.still → r.c ≠ 0 → r.sent = false →
      r.partials = [] → r.op = 6 → m.op = 6 → r.n = 1 → m.n = 1 → m.status = 0 → m.elems.length = 1 →
      childrenOf r.parts r.index = [m.sender] → parentOf r.parts r.index = [d] → spadPtr r.src so → so + 8 ≤ 2 ^ 18 →
      (s.fab.tx.get (streamNo d 4)).held = [] →
      let own := BitVec.ofNat 64 (natOfBytes (s.bytesAt (spadLoc r.core so) 8))
      ∃ t, exec (.redc m) s = .next t ∧ t.mem = s.mem ∧
        ∃ f ∈ (t.fab.tx.get (streamNo d 4)).held, ∃ e, f.1.body = .red e ∧ e.status = 0 ∧ e.sender = s.dev ∧
          e.elems = [if own.ult (m.elems.headD 0) then m.elems.headD 0 else own]) ∧
    (∀ r do_, m.use = s.redUse m.group m.rid m.sender → s.net.open_.find? (fun r => r.group == m.group && r.rid == m.rid) = some r → s.still → m.status = 0 →
      r.op = 6 → m.elems.length = 1 → childrenOf r.parts r.index = [] → spadPtr r.dst do_ → do_ % 8 = 0 → do_ + 8 ≤ 2 ^ 18 →
      ∃ t, exec (.redr m) s = .next t ∧ t.stored s (spadLoc r.core do_) (bytesOf (m.elems.headD 0).toNat 8) ∧
        (s.openJob r.job → t.jobDone r.job 0) ∧ t.net.open_.find? (fun r => r.group == m.group && r.rid == m.rid) = none)) ∧
  (∀ (s : State) (m : RedMsg) (r : Reduction), m.status = 11 → s.redUse m.group m.rid m.sender = m.use →
    s.net.open_.find? (fun r => r.group == m.group && r.rid == m.rid) = some r →
    ∃ t, exec (.redr m) s = .next t ∧ exec (.redc m) s = .next t ∧ t.mem = s.mem ∧ (s.openJob r.job → t.jobDone r.job 11) ∧
      t.net.open_.find? (fun r => r.group == m.group && r.rid == m.rid) = none)) ∧
  ((∀ (s : State) (a sa off : Nat), s.canRun [sa] [a] = true → s.blockAt (s.me.g.get sa) 64 64 off →
    let b := s.block off 64
    fieldAt b 16 2 < 64 → fieldAt b 18 2 < 2 ^ 11 → (wordAt b 32).toNat < 2 → (s.coreAt s.curCore).jobs.length < 32 → s.settled →
    (∀ k ∈ [0, 8, 56], bits (wordAt b k) 57 54 ≠ 1 ∧ bits (wordAt b k) 57 54 ≠ 2 ∧
      ((s.coreAt s.curCore).elem (bits (wordAt b k) 63 58)).isSome = true) →
    (∀ k, [0, 8, 56].find? (fun k => isRegister (wordAt b k)) = some k →
      exec (.nmcast a sa) s = .next (s.trapped 6 (wordAt b k) 0)) ∧
    ((∀ k ∈ [0, 8, 56], isRegister (wordAt b k) = false) →
    (s.nmcastStatus b ≠ 0 → ∃ t, exec (.nmcast a sa) s = .next t ∧ t.wentOn s (s.me.g.set a 3) ∧ t.sameMem s ∧ t.net = s.net) ∧
    (s.nmcastStatus b = 0 → ∃ t m, exec (.nmcast a sa) s = .next t ∧ t.passed s (s.me.g.set a 0) ∧
      t.net.mcasts = s.net.mcasts ++ [m] ∧ m.job = t.me.msgr.jobLast ∧ m.src = wordAt b 0 ∧ m.dst = wordAt b 8 ∧
      m.len = fieldAt b 20 4 ∧ m.started = false))) ∧
  (∀ (s : State) (job st : Word) (member : Nat) (m : McastJob), s.net.mcasts.find? (fun x => x.job == job) = some m →
    m.started = true → member ≠ s.dev → m.waiting = [member] → m.failed = [] → (st = 0 ∨ m.maskp = 0) →
    ∃ t, exec (.mcastStatus job member st) s = .next t ∧ t.mem = s.mem ∧
      (s.openJob job → t.jobDone job (if st = 0 then 0 else 11)) ∧
      t.net.mcasts.find? (fun x => x.job == job) = none) ∧
  (∀ (s : State) (c : McastCopy), s.still → (s.net.groups.get c.group).part = some c.part → c.ahpc = 0 → bits c.dst 53 52 ≠ 0 →
    c.tcore < 1920 → s.swappedCore c.tcore = none → s.partOfCore c.tcore = some c.part → c.bytes.length = 8 → bits c.dst 47 0 % 8 = 0 →
    (s.fab.tx.get (streamNo c.srcDev 4)).held = [] →
    (bits c.dst 47 0 + 8 ≤ 2 ^ 18 →
      ∃ t, exec (.mcastCopy c) s = .next t ∧ t.stored s (spadLoc c.tcore (bits c.dst 47 0)) c.bytes ∧
        ∃ f ∈ (t.fab.tx.get (streamNo c.srcDev 4)).held, f.1.body = .mcastStatus c.job s.dev 0) ∧
    (2 ^ 18 ≤ bits c.dst 47 0 →
      ∃ t, exec (.mcastCopy c) s = .next t ∧ t.mem = s.mem ∧
        ∃ f ∈ (t.fab.tx.get (streamNo c.srcDev 4)).held, f.1.body = .mcastStatus c.job s.dev (st63 4))) ∧
  (∀ (s : State) (m : Migration), m.srcDev = s.dev →
    (∀ k rest, s.freeTaskCtx m.dstCore = k :: rest → s.partOfCore m.dstCore = some m.part →
      ((s.part.get m.part).state = 2 ∨ (s.part.get m.part).state = 3) → s.reservedCl (clusterOf m.dstCore) = false →
      ∃ t, exec (.migrationRequest m) s = .next t ∧ (t.ctxAt m.dstCore k).phase = .moving ∧
        t.agenda = s.agenda ++ [.migrationReply { m with dstDev := s.dev, dstCtx := k } true]) ∧
    (s.freeTaskCtx m.dstCore = [] → exec (.migrationRequest m) s = .next (s.push (.migrationReply m false))) ∧
    ((s.ctxAt m.srcCore m.srcCtx).phase = .moving →
      (∃ t, exec (.migrationReply m false) s = .next t ∧ (t.ctxAt m.srcCore m.srcCtx).phase = .running ∧
        (t.ctxAt m.srcCore m.srcCtx).g = (s.ctxAt m.srcCore m.srcCtx).g ∧ t.agenda = s.agenda) ∧
      (m.dstDev = s.dev → exec (.migrationReply m true) s =
        .next (s.push (.migrationImage { m with image := s.migImage m.srcCore m.srcCtx m.access })))) ∧
    ((s.ctxAt m.dstCore m.dstCtx).phase = .moving → imageClean m.image = true →
      ∃ t, exec (.migrationImage m) s = .next t ∧ (t.ctxAt m.dstCore m.dstCtx).phase = .running ∧
        (t.ctxAt m.dstCore m.dstCtx).pc = wordAt m.image 128 ∧
        (∀ r, r < 16 → (m.access = true ∨ r ≠ m.statusReg) → (t.ctxAt m.dstCore m.dstCtx).g.get r = wordAt m.image (8 * r)) ∧
        (m.access = false → (t.ctxAt m.dstCore m.dstCtx).g.get m.statusReg = 0) ∧
        (t.ctxAt m.dstCore m.dstCtx).ident.vtime = m.vtime ∧
        t.agenda = s.agenda ++ [.migrationImageAck m]) ∧
    ((s.ctxAt m.srcCore m.srcCtx).phase = .moving → m.dstDev = s.dev →
      ∃ t, exec (.migrationImageAck m) s = .next t ∧ (t.ctxAt m.srcCore m.srcCtx).phase = .idle ∧ t.mem = s.mem)))

/-! ## Near-bank units -/

/-- The micro-instructions on registers: the accumulators lane by lane in binary32, the n registers modulo 2^32, the bank mask, the
report; each goes on to PC + 1; a branch goes to its target, or stops the unit with PCRANGE and has no effect; HALT ends the command
with OK and the report (R221, R223 to R225). The micro-instructions on banks: OPEN opens the window's row in each selected bank;
RDCOL reads a column; WRCOL and WBACC write one, or two, and no other byte of memory; MACB adds the sixteen products of each
selected bank to its lane; a closed bank stops the unit with NOROW, a column above 31 with COL, a row above 3 with WINDOW (R224,
R226); that a column above 31 at a closed bank stops with COL is the model's order of the checks (log entry 47). -/
def Obligations.MicroInstructions : Prop :=
  (∀ (s : State) (u : Nat), s.unitRuns u →
    let x := s.unitAt u
    let goes (i : Instr) (pc : Nat) (f : NbUnit → NbUnit) : Prop := ∃ t, exec i s = .next t ∧ t.onlyUnit s u ∧
      t.unitAt u = { f x with steps := x.steps + 1, pc := pc }
    let lanes (i : Instr) (d : Nat) (f : Nat → W32) : Prop := ∃ m, goes i (x.pc + 1) (fun y => { y with a := m }) ∧
      (∀ e, e < 16 → m.get (16 * d + e) = f e) ∧ ∀ k, (k < 16 * d ∨ 16 * d + 16 ≤ k) → m.get k = x.a.get k
    let n (i : Instr) (d : Nat) (v : W32) : Prop := goes i (x.pc + 1) (fun y => { y with n := y.n.set d v })
    let stops (i : Instr) : Prop := ∀ d, x.dest = some d → x.fmode = false → ∃ t, exec i s = .next t ∧
      t.unitAt u = { x with state := 3, dest := none, spc := x.pc, sbank := 0, scol := 0, scause := 6 } ∧ t.mem = s.mem ∧
      t.agenda = s.agenda ++ [.pendingValueArrive d (.poison { cause := 14, addr := 0, info := BitVec.ofNat 64 (u + 6 * 2 ^ 8) })]
    let branch (i : Instr) (taken : Bool) (off : Int) (f : NbUnit → NbUnit) : Prop :=
      let next : Int := (x.pc : Int) + 1 + (if taken then off else 0)
      (∀ p : Nat, next = p → p ≤ 1023 → goes i p f) ∧ (next < 0 ∨ 1023 < next → stops i)
    (x.pc ≠ 1023 → ∀ d a b k : Nat,
      let av (j e : Nat) := x.a.get (16 * j + e)
      let p := x.n.get a
      let q := x.n.get b
      lanes (.nbuClra d) d (fun _ => 0) ∧ lanes (.nbuAdda d a) d (fun e => fadd (av d e) (av a e)) ∧
      lanes (.nbuMaxa d a) d (fun e => fmax (av d e) (av a e)) ∧
      lanes (.nbuScala d a) d (fun e => fmul (av d e) (toF32 (Sys2Proof.Num.ofInt p.toInt))) ∧
      n (.nbuLdi d k) d ((BitVec.ofNat 23 k).signExtend 32) ∧ n (.nbuAddi d a k) d (p + (BitVec.ofNat 15 k).signExtend 32) ∧
      n (.nbuAdd d a b) d (p + q) ∧ n (.nbuSub d a b) d (p - q) ∧ n (.nbuAnd d a b) d (p &&& q) ∧
      n (.nbuShl d a b) d (p <<< (q.toNat % 32)) ∧
      goes (.nbuSetbMask k) (x.pc + 1) (fun y => { y with bm := BitVec.ofNat 16 k }) ∧
      goes (.nbuSetbReg a) (x.pc + 1) (fun y => { y with bm := p.setWidth 16 }) ∧
      goes (.nbuReport a) (x.pc + 1) (fun y => { y with report := p }) ∧
      (∃ m, goes .nbuClose (x.pc + 1) (fun y => { y with rows := m }) ∧
        ∀ j, m.get j = if j < 16 ∧ x.bm.getLsbD j = true then none else x.rows.get j)) ∧
    (x.pc = 1023 → ∀ d a, stops (.nbuClra d) ∧ stops (.nbuReport a) ∧ stops (.nbuAdd d a a)) ∧
    (∀ a b f : Nat,
      let p := x.n.get a
      let q := x.n.get b
      let off15 := (BitVec.ofNat 15 f).toInt
      branch (.nbuBeq a b f) (p == q) off15 id ∧ branch (.nbuBne a b f) (p != q) off15 id ∧
      branch (.nbuBlt a b f) (p.slt q) off15 id ∧
      branch (.nbuLoop a f) (p - 1 != 0) off15 (fun y => { y with n := y.n.set a (p - 1) }) ∧
      branch (.nbuJmp f) true (BitVec.ofNat 23 f).toInt id) ∧
    (∀ d, x.dest = some d → ∃ t, exec .nbuHalt s = .next t ∧ t.mem = s.mem ∧ (t.unitAt u).state = 1 ∧ (t.unitAt u).dest = none ∧
      (∀ b, (t.unitAt u).rows.get b = none) ∧ (t.unitAt u).a = x.a ∧
      t.agenda = s.agenda ++ [.pendingValueArrive d (.value (BitVec.ofNat 64 (x.report.toNat * 2 ^ 32)))])) ∧
  (∀ (s : State) (u : Nat), s.unitRuns u → (s.unitAt u).pc ≠ 1023 → s.badLines = [] → s.uline = [] →
    let x := s.unitAt u
    let goes (t : State) (f : NbUnit → NbUnit) : Prop := t.unitAt u = { f x with steps := x.steps + 1, pc := x.pc + 1 }
    let stops (i : Instr) (code : Nat) : Prop := x.fmode = false → ∃ t, exec i s = .next t ∧ (t.unitAt u).state = 3 ∧
      (t.unitAt u).scause = code ∧ (t.unitAt u).pc = x.pc ∧ t.mem = s.mem
    let elem (r : OpenRow) (b col e : Nat) : BitVec 16 := BitVec.ofNat 16 (natOfBytes (s.bytesAt (groupLoc u r b col + 2 * e) 2))
    let f32of (v : BitVec 16) : W32 := v ++ 0#16
    (∀ w k g, x.win[w]? = some (some g) →
      ((x.n.get k).toNat ≤ 3 → ∃ t m, exec (.nbuOpen w k) s = .next t ∧ t.onlyUnit s u ∧ goes t (fun y => { y with rows := m }) ∧
        ∀ b, m.get b = if b < 16 ∧ x.bm.getLsbD b = true then
          some { base := g.base, row := (x.n.get k).toNat, writable := g.writable } else x.rows.get b) ∧
      (3 < (x.n.get k).toNat → stops (.nbuOpen w k) 2)) ∧
    (∀ k t c,
      let b := (x.n.get k).toNat % 16
      let col := (x.n.get t).toNat + c
      (∀ r, x.rows.get b = some r → col ≤ 31 → ∃ v m, exec (.nbuRdcol k t c) s = .next v ∧ v.onlyUnit s u ∧
        goes v (fun y => { y with x := m }) ∧ ∀ e, e < 16 → m.get e = elem r b col e) ∧
      (x.rows.get b = none → col ≤ 31 → stops (.nbuRdcol k t c) 3) ∧ (31 < col → stops (.nbuRdcol k t c) 4)) ∧
    (∀ t c b r, x.bm = BitVec.twoPow 16 b → b < 16 → x.rows.get b = some r →
      let col := (x.n.get t).toNat + c
      col ≤ 31 → (r.writable = true → ∃ v, exec (.nbuWrcol t c) s = .next v ∧ goes v id ∧
          v.stored s (groupLoc u r b col) ((List.range 16).flatMap (fun e => bytesOf (x.x.get e).toNat 2))) ∧
        (r.writable = false → stops (.nbuWrcol t c) 5)) ∧
    (∀ d t c (r : Nat → OpenRow), (∀ b, b < 16 → x.bm.getLsbD b = true → x.rows.get b = some (r b)) →
      let col := (x.n.get t).toNat + c
      col ≤ 31 → (∃ b, b < 16 ∧ x.bm.getLsbD b = true) →
      let sum (y : Nat → W32) (b : Nat) : W32 := if x.bm.getLsbD b then
        (List.range 16).foldl (fun a e => ffma (f32of (elem (r b) b col e)) (y e) a) (x.a.get (16 * d + b)) else x.a.get (16 * d + b)
      let sums (i : Instr) (y : Nat → W32) : Prop := ∃ v m, exec i s = .next v ∧ v.onlyUnit s u ∧ goes v (fun y => { y with a := m }) ∧
        (∀ b, b < 16 → m.get (16 * d + b) = sum y b) ∧ ∀ k, (k < 16 * d ∨ 16 * d + 16 ≤ k) → m.get k = x.a.get k
      sums (.nbuMacb d t c) (fun e => f32of (x.x.get e)) ∧ sums (.nbuMacbOnes d t c) (fun _ => 0x3F800000#32)) ∧
    (∀ k b t c r, x.rows.get ((x.n.get b).toNat % 16) = some r → r.writable = true → Memory.wf s.mem = true →
      let bank := (x.n.get b).toNat % 16
      let col := (x.n.get t).toNat + c
      let acc (e : Nat) := x.a.get (16 * k + e)
      (col ≤ 30 → ∃ v, exec (.nbuWbacc k b t c) s = .next v ∧ goes v id ∧
        (∀ e, e < 16 → natOfBytes (v.bytesAt (groupLoc u r bank (col + e / 8) + 4 * (e % 8)) 4) = (acc e).toNat) ∧
        ∀ loc, (loc < groupLoc u r bank col ∨ groupLoc u r bank col + 32 ≤ loc) →
          (loc < groupLoc u r bank (col + 1) ∨ groupLoc u r bank (col + 1) + 32 ≤ loc) → memRead v.mem loc = memRead s.mem loc) ∧
      (30 < col → stops (.nbuWbacc k b t c) 4) ∧
      (col ≤ 31 → ∃ v, exec (.nbuWbaccBf k b t c) s = .next v ∧ goes v id ∧
        v.stored s (groupLoc u r bank col) ((List.range 16).flatMap (fun e => bytesOf (Fmt.bf16.round .ne (f32 (acc e))) 2)))))

/-- The cores' requests and the units that answer them: NBC, NBOV, NBMODE and NBSTAT make their destination pending and send their
request; a unit grants a claim, leaves COMPUTE, resumes, loads its overlay, starts a command with four arguments, or answers its
status, or with REFUSED, EMPTY, FULL or SPAN; that a command without windows is refused by a unit that another partition holds in COMPUTE
is the model's reading (log entry 53); NBU_STEP serves what waits and runs the next word, or stops with ILLOP; an ordinary
access waits while a unit runs (R217 to R223, R227, R228, R437 to R439). -/
def Obligations.NearBankRequests : Prop :=
  (∀ (s : State) (a sa sb off u : Nat), s.canRun [sa, sb] [a] = true → a < 16 → (s.me.g.get sa).toNat = u → u < 256 →
    (s.coreAt s.curCore).slots < 64 → s.outOf s.curCore s.curCtx = [] →
    let sends (i : Instr) (r : NbRequest) : Prop := ∃ t, exec i s = .next t ∧ t.passed s s.me.g ∧ t.me.pend.getLsbD a = true ∧
      t.agenda = s.agenda ++ [.nbuRequest u { part := s.curPart, dest := s.dest a, req := r }] ∧
      (t.coreAt s.curCore).slots = (s.coreAt s.curCore).slots + 1
    let block (n : Nat) := s.block off n
    (s.blockAt (s.me.g.get sb) 64 64 off → fieldAt (block 64) 0 2 < 1024 → fieldAt (block 64) 2 6 = 0 → fieldAt (block 64) 56 8 = 0 →
      wordAt (block 64) 48 = 0 →
      let args := (List.range 4).map (fun j => BitVec.ofNat 32 (fieldAt (block 64) (8 + 4 * j) 4))
      (wordAt (block 64) 32 = 0 → sends (.nbc a sa sb) (.command (fieldAt (block 64) 0 2) args [none, none] false)) ∧
      (∀ w span v, bits (wordAt (block 64) 24) 53 52 = 0 →
        nbWindow (wordAt (block 64) 24) (wordAt (block 64) 32) s = .ok ((w, span), v) →
        sends (.nbc a sa sb) (.command (fieldAt (block 64) 0 2) args [w, none] span)) ∧
      (wordAt (block 64) 32 ≠ 0 → bits (wordAt (block 64) 24) 53 52 ≠ 0 →
        exec (.nbc a sa sb) s = .next (s.trapped 4 (wordAt (block 64) 24) 0)) ∧
      (∀ loc leaf v, wordAt (block 64) 32 ≠ 0 → bits (wordAt (block 64) 24) 53 52 = 0 →
        bits (wordAt (block 64) 24) 11 0 + (wordAt (block 64) 32).toNat ≤ 4096 →
        resolve (wordAt (block 64) 24) .read s = .ok (.mem loc leaf, v) →
        nbWindow (wordAt (block 64) 24) (wordAt (block 64) 32) s =
          .ok ((some { base := loc / 2 ^ 21 * 2 ^ 21, writable := bit leaf 2 }, false), v))) ∧
    (s.blockAt (s.me.g.get sb) 16 16 off →
      let o := fieldAt (block 16) 0 2
      let n := fieldAt (block 16) 2 2
      o < 1024 → o + n ≤ 1024 → fieldAt (block 16) 4 4 = 0 →
      (∀ so, spadPtr (wordAt (block 16) 8) so → so % 4 = 0 → so + 4 * n ≤ 2 ^ 18 → s.logInUse s.curPart = false →
        sends (.nbov a sa sb) (.overlay o ((List.range n).map (fun j =>
          BitVec.ofNat 32 (natOfBytes (s.bytesAt (spadLoc s.curCore (so + 4 * j)) 4))))))) ∧
    (s.blockAt (s.me.g.get sb) 32 32 off → fieldAt (block 32) 2 6 = 0 → fieldAt (block 32) 16 8 = 0 → fieldAt (block 32) 24 8 = 0 →
      let op := fieldAt (block 32) 0 1
      let fl := fieldAt (block 32) 1 1
      (op = 0 → fl = 0 → sends (.nbmodeNormal a sa sb) .normal) ∧ (op = 2 → fl = 0 → sends (.nbmodeResume a sa sb) .resume) ∧
      (∀ loc leaf v, op = 1 → fl < 2 → bits (wordAt (block 32) 8) 53 52 = 0 →
        resolve (wordAt (block 32) 8) .read s = .ok (.mem loc leaf, v) →
        sends (.nbmodeCompute a sa sb) (.compute (fl == 1) (if bit leaf 6 then [loc / 2 ^ 21 * 2 ^ 21] else [])))) ∧
    (s.spec = false → ∀ sel, sel < 2 → sends (.nbstat a sa sel) (.status sel)) ∧
    (∀ sel, 2 ≤ sel → exec (.nbstat a sa sel) s = .next (s.trapped 1 0 0))) ∧
  (∀ (s : State) (u part : Nat) (d : RegDest),
    let x := s.unitAt u
    let ask (r : NbRequest) := exec (.nbuRequest u { part := part, dest := d, req := r }) s
    let answers (r : NbRequest) (v : Word) (f : NbUnit → NbUnit) : Prop := ∃ t, ask r = .next t ∧
      t.agenda = s.agenda ++ [.pendingValueArrive d (.value v)] ∧ t.unitAt u = f x ∧ t.mem = s.mem
    (∀ sticky rs, s.uline = [] → x.state = 0 → (s.nbClaimable u rs = true → ∃ t, ask (.compute sticky rs) = .next t ∧
          t.agenda = s.agenda ++ [.pendingValueArrive d (.value 0)] ∧ (t.unitAt u).state = 1 ∧ (t.unitAt u).owner = part ∧
          (t.unitAt u).fmode = sticky ∧ (∀ r, r ∈ (t.unitAt u).regions ↔ r ∈ rs) ∧ (t.unitAt u).bm = 0xFFFF#16 ∧ t.mem = s.mem) ∧
        (s.nbClaimable u rs = false → answers (.compute sticky rs) 3 id)) ∧
    (∀ sticky rs, x.state ≠ 0 → answers (.compute sticky rs) 3 id) ∧
    (x.state = 0 → answers .normal 2 id ∧ answers .resume 2 id) ∧
    (x.state ≠ 0 → x.owner ≠ part → answers .normal 3 id ∧ answers .resume 3 id) ∧
    (x.state = 1 → x.owner = part → x.dest = none → x.normals = [] → x.waiting = [] → ∃ t, ask .normal = .next t ∧ (t.unitAt u).state = 0 ∧
      (t.unitAt u).regions = [] ∧ t.agenda = s.agenda ++ [.pendingValueArrive d (.value 0)]) ∧
    (x.state = 3 → x.owner = part → ∃ t, ask .resume = .next t ∧ t.unitAt u = { x with state := 2, dest := some d } ∧
      t.agenda = s.agenda) ∧
    (∀ off ws, (x.state = 1 → x.owner = part → ∃ m, answers (.overlay off ws) 0 (fun y => { y with overlay := m }) ∧
          (∀ k v, ws[k]? = some v → m.get (off + k) = v) ∧ ∀ k, (k < off ∨ off + ws.length ≤ k) → m.get k = x.overlay.get k) ∧
        (x.state ≠ 1 ∨ x.owner ≠ part → answers (.overlay off ws) 3 id)) ∧
    (∀ pc a0 a1 a2 a3 ws, (∀ w ∈ ws, ∀ g, w = some g → x.state ≠ 0 ∧ x.owner = part ∧ g.base ∈ x.regions) →
      (x.state = 1 → x.owner ≠ part → answers (.command pc [a0, a1, a2, a3] ws false) 3 id) ∧
      (x.state = 1 → x.owner = part → ∃ t, ask (.command pc [a0, a1, a2, a3] ws false) = .next t ∧ t.agenda = s.agenda ∧ (t.unitAt u).state = 2 ∧
        (t.unitAt u).pc = pc ∧ (t.unitAt u).steps = 0 ∧ (t.unitAt u).win = ws ∧ (t.unitAt u).bm = 0xFFFF#16 ∧
        (t.unitAt u).dest = some d ∧ (t.unitAt u).a = x.a ∧
        ∀ j, (t.unitAt u).n.get j = if j < 4 then [a0, a1, a2, a3].getD j 0 else 0) ∧
      (x.state ≠ 1 → answers (.command pc [a0, a1, a2, a3] ws false) 1 id)) ∧
    (∀ pc args ws, answers (.command pc args ws true) 7 id) ∧
    answers (.status 0) (x.status part) id ∧
    (x.state ≠ 0 → x.owner = part → answers (.status 1) (BitVec.ofNat 64 (x.summary % 2 ^ 17)) (fun y => { y with summary := 0 })) ∧
    (x.state = 0 ∨ x.owner ≠ part → answers (.status 1) (BitVec.ofNat 64 (x.summary % 2 ^ 17)) id)) ∧
  (∀ (s : State) (u : Nat),
    let s1 : State := { s.serveWaiting u with curUnit := u }
    (∀ m, decodeMicroOp ((s.unitAt u).overlay.get (s.unitAt u).pc) = some m → exec (.nbuStep u) s = .next (microAct m s1)) ∧
    (decodeMicroOp ((s.unitAt u).overlay.get (s.unitAt u).pc) = none → s1.unitRuns u → (s.unitAt u).fmode = false →
      ∃ t, exec (.nbuStep u) s = .next t ∧ (t.unitAt u).state = 3 ∧ (t.unitAt u).scause = 1) ∧
    (∀ a, (s.unitAt u).state = 2 → ∃ t, exec (.nbuOrdinaryAccess u a) s = .next t ∧ t.onlyUnit s u ∧
      t.unitAt u = { s.unitAt u with waiting := (s.unitAt u).waiting ++ [a] }) ∧
    (∀ pa n d, (s.unitAt u).state ≠ 2 → s.uline = [] → s.badLines = [] → exec (.nbuOrdinaryAccess u (.read pa n d)) s =
      .next (s.push (.pendingValueArrive d (.value (BitVec.ofNat 64 (natOfBytes (s.bytesAt pa n))))))) ∧
    (∀ pa bs, (s.unitAt u).state ≠ 2 → s.uline = [] → ∃ t, exec (.nbuOrdinaryAccess u (.write pa bs)) s = .next t ∧ t.stored s pa bs))

/-! ## The fabric -/

/-- Port events and the fabric's registers: a lost lane lock or a control-word timeout takes a port from UP to DEAD; training words bring it
UP with the common features, or set VMISMATCH for another major version; RETRAIN, DISABLE and VMISMATCH clear act on one port, or as port 6
on the Cidan Link (log entry 20), which RETRAIN takes from DEAD alone; that DISABLE takes a DEAD port, or the DEAD link, DOWN is the model's
choice (log entries 64 and 75); FAB.DIM stands while a port is TRAINING or UP, a retry base below 1,024 is stored as 1,024, and a write of
FAB.ERR clears its counters (R25, R34, R35, R52). The router: a flit for this device leaves to its stream, an ACK or ARESP with its tag to
what it acknowledges, one for another device takes its first productive live port, one with a bad CRC is counted, the eighth in 2^20 ac
makes the port DEAD, and it goes no further; a head that has waited 64 ac takes a passing flit's slot, which waits in the swap register
(R28, R31, R32, R34, R40, R42). The sending side of a stream: ACK and RESPONSE_ACK free what they cover; an expiry marks every sent flit for
replay and doubles the timeout, the one that reaches LIMIT makes the stream UNREACH, and from then on the timeout is the longest; PAD
completes an open group that holds a flit in mode AEAD after 32 ac without further traffic (R37, R38, R40 to R42, R46; groups whose flits
belong to different partitions are as log entry 75 says). -/
def Obligations.FabricPortsAndStreams : Prop :=
  (∀ (s : State) (p : Nat) (v : Word),
    let x := s.fab.port.get p
    let port (i : Instr) (f : Port → Port) : Prop := ∃ t, exec i s = .next t ∧ t = { s with fab := { s.fab with port := t.fab.port } } ∧
      t.fab.port.get p = f x ∧ ∀ q, q ≠ p → t.fab.port.get q = s.fab.port.get q
    let dead (y : Port) : Port := { y with state := if y.state = 2 then 3 else y.state }
    let busy := (List.range 6).any (fun q => (s.fab.port.get q).state == 1 || (s.fab.port.get q).state == 2)
    port (.laneLockLoss p) dead ∧ port (.controlWordTimeout p) dead ∧
    (∀ version : BitVec 32, ∀ features : Word,
      (x.state = 1 → version.toNat / 2 ^ 24 = 1 →
        port (.linkTrainingWords p version features) (fun y => { y with state := 2, ver := 0, pfeat := features &&& 0x1F })) ∧
      (x.state = 1 → version.toNat / 2 ^ 24 ≠ 1 → port (.linkTrainingWords p version features) (fun y => { y with vmismatch := true })) ∧
      (x.state ≠ 1 → exec (.linkTrainingWords p version features) s = .next s)) ∧
    (p < 6 → port (.vmismatchClear p) (fun y => { y with vmismatch := false }) ∧
      port (.retrain p) (fun y => { y with
        crccnt := 0, crcTimes := [],
        state := if y.disable = false ∧ (y.state = 0 ∨ y.state = 3) ∧ bits s.fab.dim (4 * (p / 2) + 3) (4 * (p / 2)) ≠ 0 then 1 else y.state }) ∧
      port (.disable p true) (fun y => { y with disable := true, state := 0 }) ∧
      port (.disable p false) (fun y => { y with disable := false })) ∧
    exec (.vmismatchClear 6) s = .next { s with link := { s.link with vmismatch := false } } ∧
    exec (.disable 6 true) s = .next { s with link := { s.link with state := 0, failed := 0, idle := false } } ∧
    exec (.disable 6 false) s = .next s ∧
    (s.link.state = 4 → exec (.retrain 6) s = .next { s with link := { s.link with state := 1 } }) ∧
    (s.link.state ≠ 4 → exec (.retrain 6) s = .next s) ∧
    (busy = true → exec (.fabDimWrite v) s = .next s) ∧
    (busy = false → exec (.fabDimWrite v) s = .next { s with fab := { s.fab with dim := (v.extractLsb' 0 24).setWidth 64 } }) ∧
    exec (.fabRtoWrite v) s = .next { s with fab := { s.fab with
      rto := BitVec.ofNat 64 (v.toNat / 2 ^ 20 % 2 ^ 8 * 2 ^ 20 + max 1024 (v.toNat % 2 ^ 20)) } } ∧
    exec (.fabErrWrite v) s = .next { s with fab := { s.fab with badf := 0, agesat := 0, intfail := 0, pooldrop := 0 } }) ∧
  (∀ (s : State) (a : ArrivingFlit), s.live a.port = true → a.port < 6 → a.flit.age < 1023 → s.fab.headWait < 64 →
    let g : Flit := { a.flit with age := a.flit.age + 1 }
    let x := s.fab.port.get a.port
    (a.crcOk = true → g.dst = s.dev → g.type ≠ 5 → g.type ≠ 6 →
      ∃ t, exec (.flitArrive [a]) s = .next t ∧ t.agenda = s.agenda ++ [.flitDeliver g] ∧ t.mem = s.mem) ∧
    (a.crcOk = true → g.dst = s.dev → s.tagOk g = true → malformedFlit g = false →
      (g.type = 5 → ∃ t, exec (.flitArrive [a]) s = .next t ∧ t.agenda = s.agenda ++ [.aresp g] ∧ t.mem = s.mem) ∧
      (∀ ps, g.type = 6 → g.body = .ackPairs ps false →
        ∃ t, exec (.flitArrive [a]) s = .next t ∧ t.agenda = s.agenda ++ [.ack g.src ps] ∧ t.mem = s.mem)) ∧
    (∀ p, a.crcOk = true → g.dst ≠ s.dev → (s.productive g.dst).find? (fun q => decide (q < 6) && s.live q) = some p →
      ∃ t, exec (.flitArrive [a]) s = .next t ∧ (p, g) ∈ t.fab.wire ∧ t.agenda = s.agenda) ∧
    (a.crcOk = false → x.crccnt < 0xFFFF →
      ∃ t, exec (.flitArrive [a]) s = .next t ∧ t.agenda = s.agenda ∧ (t.fab.port.get a.port).crccnt = x.crccnt + 1 ∧
        ((t.fab.port.get a.port).state = 3 ↔ 7 ≤ (x.crcTimes.filter (fun t0 => decide (s.time < t0 + 2 ^ 20))).length))) ∧
  (∀ (s : State) (p v : Nat) (k : Option Nat) (f : Flit) (a b : ArrivingFlit), p < 6 → (∀ q, q < 6 → (s.live q = true ↔ q = p)) →
    a.port = p → b.port = p → a.crcOk = true → b.crcOk = true → a.flit.age < 1023 → b.flit.age < a.flit.age →
    a.flit.dst ≠ s.dev → b.flit.dst ≠ s.dev → s.fab.swap = none → s.nextInject = some (v, k, f) →
    ∃ t, exec (.swapInject [a, b]) s = .next t ∧ t.fab.swap = some { b.flit with age := b.flit.age + 1 } ∧
      t.fab.wire = [(p, { a.flit with age := a.flit.age + 1 }), (p, { f with age := 0 })]) ∧
  (∀ (s : State) (fs : List ArrivingFlit), s.nextInject = none → exec (.swapInject fs) s = exec (.flitArrive fs) s) ∧
  (∀ (s : State) (src vc : Nat) (n : BitVec 32),
    (∃ t, exec (.ack src [(vc, n)]) s = .next t ∧ t.agenda = s.agenda ∧
      (∀ e, e ∈ (t.fab.tx.get (streamNo src vc)).held ↔ e ∈ (s.fab.tx.get (streamNo src vc)).held ∧
        ¬ (e.2 ≠ 0 ∧ e.1.type ≠ 3 ∧ (n - e.1.seq).toNat < 2 ^ 31)) ∧
      ∀ j, j ≠ streamNo src vc → t.fab.tx.get j = s.fab.tx.get j) ∧
    (∃ t, exec (.responseAck src 2 n) s = .next t ∧ t = { s with fab := { s.fab with cache := t.fab.cache } } ∧
      ∀ c, c ∈ t.fab.cache ↔ c ∈ s.fab.cache ∧ ¬ (c.src = src ∧ (n - c.seq).toNat < 2 ^ 31)) ∧
    (vc ≠ 2 → exec (.responseAck src vc n) s = .next s)) ∧
  (∀ (s : State) (dst vc t0 : Nat),
    let st := s.fab.tx.get (streamNo dst vc)
    let base := bits s.fab.rto 19 0
    let limit := if bits s.fab.rto 23 20 = 0 then 16 else bits s.fab.rto 23 20
    let longest := base * 2 ^ bits s.fab.rto 27 24
    let again : TxStream := { st with held := st.held.map (fun e => if e.2 = 1 then (e.1, 2) else e), expiries := st.expiries + 1,
                                      deadline := none }
    let put (st' : TxStream) : State := { s with fab := { s.fab with tx := s.fab.tx.set (streamNo dst vc) st' } }
    let due := st.deadline = some t0 ∧ t0 ≤ s.time ∧ st.held ≠ []
    (due → st.expiries + 1 < limit → st.unreach = false → exec (.replayTimerExpiry dst vc) s = .next
      (put { again with timeout := min (2 * (if st.timeout = 0 then base else st.timeout)) longest })) ∧
    (due → limit ≤ st.expiries + 1 → st.unreach = false → vc ≠ 3 → vc ≠ 4 → exec (.replayTimerExpiry dst vc) s = .next
      { put { again with timeout := longest, unreach := true } with mgmtLog := s.mgmtLog ++ [.memberLoss dst] }) ∧
    (due → limit ≤ st.expiries + 1 → st.unreach = false → vc = 4 → s.net.open_ = [] → ∃ t, exec (.replayTimerExpiry dst vc) s = .next t ∧
      t.fab.tx.get (streamNo dst vc) = { again with timeout := longest, unreach := true } ∧ t.mgmtLog = s.mgmtLog ++ [.memberLoss dst] ∧
      ∀ m ∈ s.net.mcasts, dst ∈ m.waiting → .mcastStatus m.job s.dev 0 ∈ t.agenda ∧
        { m with waiting := m.waiting.filter (fun d => d != dst), failed := m.failed ++ [dst] } ∈ t.net.mcasts) ∧
    (due → st.unreach = true → exec (.replayTimerExpiry dst vc) s = .next (put { again with timeout := longest })) ∧
    ((∀ u, st.deadline = some u → s.time < u) → exec (.replayTimerExpiry dst vc) s = .next s) ∧
    (∀ f sent, (f, sent) ∈ st.held → f.seq.toNat / 4 = st.next.toNat / 4 → PartEntry.mode (s.part.get f.part) f.vc = 2 →
      st.next.toNat % 4 ≠ 0 →
      (st.last + 32 ≤ s.time → ∃ t, exec (.aeadPad dst vc) s = .next t ∧ t.agenda = s.agenda ∧
        (t.fab.tx.get (streamNo dst vc)).held.length = st.held.length + (4 - st.next.toNat % 4) ∧
        (t.fab.tx.get (streamNo dst vc)).next.toNat % 4 = 0) ∧
      (s.time < st.last + 32 → exec (.aeadPad dst vc) s = .next s)))

/-- The receiving side of a stream: a flit whose tag is not the one its key gives is counted and goes no further, and INTTHR of them within
2^20 ac are an INTEGRITY event; a sequenced flit is delivered in order, held, or discarded as a duplicate and acknowledged; a malformed one is
counted and consumed; a flit of an AEAD group waits for its whole group; an ACK goes 64 ac after the first delivery that it acknowledges
(R29, R37, R39, R40). ARESP completes the atomic that it matches and frees its request (R42). An access is performed at its owning core and
answered (R119, R121, R127); a lost device's operations end in MEMBERLOSS (R43). That the tag is checked before the flit's form, and that the
alarm of an INTEGRITY event names die 3, are the model's choices (log entry 45). -/
def Obligations.FabricDeliveries : Prop :=
  (∀ (s : State) (f : Flit),
    let k := streamNo f.src f.vc
    let x := s.fab.rx.get k
    let d := (f.seq - x.b).toNat
    let mode := PartEntry.mode (s.part.get f.part) f.vc
    (mode ≠ 2 → s.tagOk f = true →
      (∀ r, f.body = .access r → r.op = .load → d = 0 → x.pool = [] → malformedFlit f = false →
        ∃ t, exec (.flitDeliver f) s = .next t ∧ t.agenda = s.agenda ++ [.peerAccessServe r] ∧ (t.fab.rx.get k).b = x.b + 1 ∧
          t.mem = s.mem) ∧
      (malformedFlit f = true → d = 0 → x.pool = [] → s.fab.badf < 0xFFFF → ∃ t, exec (.flitDeliver f) s = .next t ∧
        t.agenda = s.agenda ∧ t.fab.badf = s.fab.badf + 1 ∧ (t.fab.rx.get k).b = x.b + 1) ∧
      (0 < d → d < 512 → x.pool = [] → s.pooled < 47662 →
        ∃ t, exec (.flitDeliver f) s = .next t ∧ t.agenda = s.agenda ∧ (t.fab.rx.get k).pool = [f] ∧ (t.fab.rx.get k).b = x.b) ∧
      (2 ^ 31 ≤ d → f.type ≠ 3 → f.vc < 8 → ∃ t, exec (.flitDeliver f) s = .next t ∧ t.agenda = s.agenda ∧ (t.fab.rx.get k).b = x.b ∧
        ∃ y ps, t.fab.sentAcks = s.fab.sentAcks ++ [y] ∧ y.dst = f.src ∧ y.type = 6 ∧ y.body = .ackPairs ps false ∧
          (f.vc, x.b - 1) ∈ ps) ∧
      (512 ≤ d → d < 2 ^ 31 → exec (.flitDeliver f) s = .next s)) ∧
    (mode = 2 → d = 0 → x.pool = [] → f.seq.toNat % 4 = 0 → x.verified ≠ some (f.seq.toNat / 4) →
      ∃ t, exec (.flitDeliver f) s = .next t ∧ t.agenda = s.agenda ∧ (t.fab.rx.get k).pool = [f] ∧ (t.fab.rx.get k).b = x.b) ∧
    (mode ≠ 2 → s.tagOk f = false → s.fab.intfail < 0xFFFF →
      ∃ t, exec (.flitDeliver f) s = .next t ∧ t.fab.intfail = s.fab.intfail + 1 ∧ t.fab.sentAcks = s.fab.sentAcks ∧ t.mem = s.mem ∧
        (t.fab.rx.get k).b = x.b ∧ (t.fab.rx.get k).pool = x.pool ∧
        (s.fab.intthr ≤ (x.failTimes.filter (fun t0 => decide (s.time < t0 + 2 ^ 20))).length + 1 →
          t.mgmtLog = s.mgmtLog ++ [.integrity f.src f.vc] ∧ t.agenda = s.agenda ++ [.alarmRaise .integrity 3]) ∧
        ((x.failTimes.filter (fun t0 => decide (s.time < t0 + 2 ^ 20))).length + 1 < s.fab.intthr →
          t.mgmtLog = s.mgmtLog ∧ t.agenda = s.agenda))) ∧
  (∀ (s : State) (src vc : Nat),
    (∀ t0, vc < 8 → (s.fab.rx.get (streamNo src vc)).first = some t0 → t0 + 64 ≤ s.time →
      ∃ t, exec (.ackTimer src vc) s = .next t ∧ (t.fab.rx.get (streamNo src vc)).since = 0 ∧ (t.fab.rx.get (streamNo src vc)).first = none ∧
        ∃ y ps, t.fab.sentAcks = s.fab.sentAcks ++ [y] ∧ y.dst = src ∧ y.type = 6 ∧ y.vc = 5 ∧ y.body = .ackPairs ps false ∧
          (vc, (s.fab.rx.get (streamNo src vc)).b - 1) ∈ ps) ∧
    ((∀ t0, (s.fab.rx.get (streamNo src vc)).first = some t0 → s.time < t0 + 64) → exec (.ackTimer src vc) s = .next s)) ∧
  (∀ (s : State) (f : Flit),
    let m := s.fab.out.find? (fun o => o.dev == f.src && o.vc == 2 && o.seq == f.seq && o.xid == f.xid)
    (m = none → exec (.aresp f) s = .next s) ∧
    (∀ o d v, m = some o → f.body = .reply d v → o.store = false → ∃ t, exec (.aresp f) s = .next t ∧
      t.agenda = s.agenda ++ [.pendingValueArrive o.dest v] ∧ t.fab.out = s.fab.out.erase o ∧ t.mem = s.mem ∧
      ∀ e ∈ (t.fab.tx.get (streamNo f.src 2)).held, ¬ (e.1.type = 3 ∧ e.1.seq = f.seq))) ∧
  (∀ (s : State) (r : RemoteAccess) (c off : Nat), bits r.ptr 53 52 = 1 → bits r.ptr 39 28 = c → c < 1920 → bits r.ptr 27 0 = off →
    off + 8 ≤ 2 ^ 18 → (r.ty = 3 ∨ r.ty = 7) →
    let w := BitVec.ofNat 64 (natOfBytes (s.bytesAt (spadLoc c off) 8))
    (∀ o, s.partOfCore c ≠ some r.part → r.op = .load → r.srcDev = s.dev → s.fab.out = [o] → o.dev = s.dev → o.xid = r.xid →
      o.store = false → exec (.peerAccessServe r) s = .next { s with
        fab := { s.fab with out := [] },
        agenda := s.agenda ++ [.pendingValueArrive o.dest (.poison { cause := 5, addr := r.ptr, info := 0 })] }) ∧
    (s.partOfCore c = some r.part → s.swappedCore c = none → s.owned = [] → s.uline = [] → s.badLines = [] →
      (∀ cl, (s.clusterAt cl).ord = []) →
      (∀ o, r.op = .load → r.srcDev = s.dev → s.fab.out = [o] → o.dev = s.dev → o.xid = r.xid → o.store = false →
        ∃ t, exec (.peerAccessServe r) s = .next t ∧ t.mem = s.mem ∧ t.fab.out = [] ∧
          t.agenda = s.agenda ++ [.pendingValueArrive o.dest (.value w)]) ∧
      (r.op = .load → r.src.reg ≠ 16 → r.srcDev ≠ s.dev → (s.fab.tx.get (streamNo r.srcDev 1)).held = [] →
        ∃ t, exec (.peerAccessServe r) s = .next t ∧ t.mem = s.mem ∧ t.agenda = s.agenda ∧
          ∃ e, (t.fab.tx.get (streamNo r.srcDev 1)).held = [e] ∧ e.1.body = .reply r.src (.value w) ∧ e.1.xid = r.xid ∧ e.1.type = 4) ∧
      (∀ o v, r.op = .store v → r.srcDev = s.dev → s.fab.out = [o] → o.dev = s.dev → o.xid = r.xid → o.store = true → o.dest.reg ≤ 16 →
        ∃ t, exec (.peerAccessServe r) s = .next t ∧ t.fab.out = [] ∧ t.stored s (spadLoc c off) (bytesOf v.toNat 8) ∧
          t.agenda = s.agenda ++ [.storeAcknowledge o.dest.core o.dest.ctx]))) ∧
  (∀ (s : State) (dev : Nat),
    (dev = s.dev ∨ dev ∈ s.fab.lost → exec (.deviceLostDeclare dev) s = .next s) ∧
    (dev ≠ s.dev → dev ∉ s.fab.lost → ∃ t, exec (.deviceLostDeclare dev) s = .next t ∧ dev ∈ t.fab.lost ∧ t.mem = s.mem ∧
      (∀ o ∈ t.fab.out, o.dev ≠ dev) ∧ (∀ v, v < 8 → (t.fab.tx.get (streamNo dev v)).held = []) ∧
      ∀ o ∈ s.fab.out, o.dev = dev → o.store = false → .pendingValueArrive o.dest
        (.poison { cause := 15, addr := o.ptr, info := BitVec.ofNat 64 dev }) ∈ t.agenda))

/-! ## The host -/

/-- A link that is UP counts failed flits and enters RECOVERY at the eighth failed replay in a row of one flit; training that succeeds with
the same major version takes the link UP with the low four feature bits, and writes the completions that it held, and another major
version sets VMISMATCH; a recovery that fails, or lane lock lost too long, leaves the link DEAD. A link that is not UP answers reads with
ones and drops and counts writes; the PF reads the count; a peer's access is an Unsupported Request; low-power idle needs feature bit 3
(R35, R53 to R56). The host's aperture reads and writes memory; a closed byte reads zero and is not written, and the access is counted
(R57; the sealed regions are closed by log entry 33), and one that comes while another of its service core still waits goes behind it (R61).
The accesses of BAR0 while the link is UP, and the numbers of its functions, are the model's (log entry 69). -/
def Obligations.HostLinkAndAperture : Prop :=
  ∀ s : State,
    let dropped : State := { s with link := { s.link with drop := min (2 ^ 32 - 1) (s.link.drop + 1) } }
    let answered (tag : Word) (bs : List Byte) : State := { s with aperture := s.aperture ++ [(tag, some bs)] }
    (s.linkUp = true → exec (.cidanLinkFlit true) s = .next { s with link := { s.link with failed := 0, idle := false } } ∧
      (s.link.failed < 8 → exec (.cidanLinkFlit false) s = .next { s with link := { s.link with failed := s.link.failed + 1 } }) ∧
      (8 ≤ s.link.failed →
        exec (.cidanLinkFlit false) s = .next { s with link := { s.link with state := 3, failed := 0, idle := false } })) ∧
    (s.linkUp = false → ∀ ok, exec (.cidanLinkFlit ok) s = .next s) ∧
    ((s.link.state = 1 ∨ s.link.state = 3) → ∀ version features,
      (version.toNat / 2 ^ 24 = 1 → ∃ t, exec (.cidanLinkTrainingDone true version features) s = .next t ∧
        t.link = { s.link with state := 2, failed := 0, idle := false, ver := 0, feat := features &&& 15 } ∧ t.mem = s.mem ∧
        (s.sec.silent = false → ∀ k c, k < 64 → (s.ring.get k).held = [c] → c.idx = (s.ring.get k).written → c ∈ t.hostOut)) ∧
      (version.toNat / 2 ^ 24 ≠ 1 → s.link.state = 1 →
        exec (.cidanLinkTrainingDone true version features) s = .next { s with link := { s.link with vmismatch := true } }) ∧
      (version.toNat / 2 ^ 24 ≠ 1 → s.link.state = 3 → exec (.cidanLinkTrainingDone true version features) s = .next { s with
        link := { s.link with state := 4, failed := 0, idle := false, vmismatch := true }, mgmtLog := s.mgmtLog ++ [.linkDead] }) ∧
      (s.link.state = 3 → exec (.cidanLinkTrainingDone false version features) s = .next { s with
        link := { s.link with state := 4, failed := 0, idle := false }, mgmtLog := s.mgmtLog ++ [.linkDead] }) ∧
      (s.link.state = 1 → exec (.cidanLinkTrainingDone false version features) s = .next s)) ∧
    (s.link.state ≠ 0 → s.link.state ≠ 4 → exec .cidanLaneLockTimeout s = .next { s with
      link := { s.link with state := 4, failed := 0, idle := false }, mgmtLog := s.mgmtLog ++ [.linkDead] }) ∧
    (s.linkUp = true → bit s.link.feat 3 = true →
      exec .lowPowerIdle s = .next { s with link := { s.link with idle := true } }) ∧
    (s.linkUp = false ∨ bit s.link.feat 3 = false → exec .lowPowerIdle s = .next s) ∧
    exec .lowPowerIdleExit s = .next { s with link := { s.link with idle := false } } ∧
    (∀ tag, exec (.peerToPeerReject tag) s = .next { s with aperture := s.aperture ++ [(tag, none)] }) ∧
    (s.linkUp = false → ∀ fn off v tag pa n (bs : List Byte),
      exec (.barAccessLinkDown true ⟨fn, off, v, tag⟩) s = .next dropped ∧
      exec (.barAccessLinkDown false ⟨fn, off, v, tag⟩) s = .next (answered tag (List.replicate 8 255)) ∧
      exec (.apertureRead pa n tag) s = .next (answered tag (List.replicate n 255)) ∧
      exec (.apertureWrite pa bs) s = .next dropped) ∧
    (s.linkUp = true → ∀ fn v tag, fn % 32 = 0 →
      exec (.barAccessLinkDown false ⟨fn, 8, v, tag⟩) s = .next (answered tag (bytesOf (BitVec.ofNat 64 s.link.drop).toNat 8))) ∧
    (s.linkUp = true → ∀ pa a m n tag tag' (bs : List Byte), apertureCore a = apertureCore pa → .apertureRead a m tag' ∈ s.agenda →
      (s.turn ≠ .event (.apertureRead pa n tag) → exec (.apertureRead pa n tag) s = .next (s.push (.apertureRead pa n tag))) ∧
      (s.turn ≠ .event (.apertureWrite pa bs) → exec (.apertureWrite pa bs) s = .next (s.push (.apertureWrite pa bs)))) ∧
    (s.linkUp = true → (∀ a m tag (bs : List Byte), .apertureRead a m tag ∉ s.agenda ∧ .apertureWrite a bs ∉ s.agenda) →
      ∀ pa n tag (bs : List Byte),
      (s.still → s.apertureClosed pa n = false → exec (.apertureRead pa n tag) s = .next (answered tag (s.bytesAt pa n))) ∧
      (s.still → s.apertureClosed pa n = true → exec (.apertureRead pa n tag) s = .next { dropped with
        aperture := s.aperture ++ [(tag, some ((List.range n).map (fun j =>
          if s.byteClosed (pa + j) then 0 else memRead s.mem (pa + j))))] }) ∧
      (s.still → s.apertureClosed pa bs.length = false →
        ∃ t, exec (.apertureWrite pa bs) s = .next t ∧ t.stored s pa bs ∧ t.aperture = s.aperture ∧ t.core = s.core) ∧
      (s.still → s.apertureClosed pa bs.length = true → ∃ t, exec (.apertureWrite pa bs) s = .next t ∧
        t.link.drop = min (2 ^ 32 - 1) (s.link.drop + 1) ∧
        t.stored s pa ((List.range bs.length).map (fun j =>
          if s.byteClosed (pa + j) then memRead s.mem (pa + j) else bs.getD j 0))))

/-- The physical form of a command, its length limit and the alignment of its addresses are as log entry 24 reads them; the reads of the
rings' registers are accesses of BAR0 as log entry 69 has them. A completion is written in its turn while the link is UP, and held while it
is not (R56, R60). A ring's function enables it with SIZE 4 to 12, and any other SIZE sets BADCFG; disabling resets HEAD and TAIL; an
enabled ring ignores any other change, and a doorbell more than 2^SIZE ahead of HEAD stops it; another function changes nothing and reads
zero; while the link is not UP a write is dropped and counted (R56, R58). A command that its service core may take is taken: it is refused
with REFUSED, or has its effect on memory, and completes (R59, R60). -/
def Obligations.HostRingsAndCommands : Prop :=
  ∀ s : State,
    (∀ c : HostCompletion, (s.ring.get c.ring).held = [] → ∃ t, exec (.hostCmdComplete c) s = .next t ∧ t.mem = s.mem ∧
      (s.linkUp = true → c.idx = (s.ring.get c.ring).written →
        t.hostOut = s.hostOut ++ [c] ∧ (t.ring.get c.ring).written = c.idx + 1 ∧ (t.ring.get c.ring).held = []) ∧
      (s.linkUp = false ∨ c.idx ≠ (s.ring.get c.ring).written → t.hostOut = s.hostOut ∧ (t.ring.get c.ring).held = [c])) ∧
    (∀ fn ring v, ring < 64 →
      let r := s.ring.get ring
      (s.linkUp = false → exec (.hrCtlWrite fn ring v) s = .next { s with link := { s.link with drop := min (2 ^ 32 - 1) (s.link.drop + 1) } } ∧
        exec (.hrTailWrite fn ring v) s = .next { s with link := { s.link with drop := min (2 ^ 32 - 1) (s.link.drop + 1) } }) ∧
      (s.linkUp = true → r.owner ≠ fn → exec (.hrCtlWrite fn ring v) s = .next s ∧ exec (.hrTailWrite fn ring v) s = .next s) ∧
      (s.linkUp = true → ∀ tag,
        let reads (k : Nat) (w : Word) : Prop := exec (.barAccessLinkDown false ⟨fn, 0x10000 + 0x40 * ring + k, v, tag⟩) s =
          .next { s with aperture := s.aperture ++ [(tag, some (bytesOf w.toNat 8))] }
        (r.owner = fn → reads 0 r.base ∧ reads 0x10 (BitVec.ofNat 64 r.tail) ∧ reads 0x18 (BitVec.ofNat 64 r.head) ∧
          reads 0x20 (BitVec.ofNat 64 (r.badcfg.toNat * 2 + r.stopped.toNat)) ∧
          reads 8 (BitVec.ofNat 64 (r.en.toNat * 2 ^ 63 + r.sc * 2 ^ 20 + r.size * 2 ^ 11 + r.vec))) ∧
        (r.owner ≠ fn → reads 0 0 ∧ reads 8 0 ∧ reads 0x10 0 ∧ reads 0x18 0 ∧ reads 0x20 0)) ∧
      (s.linkUp = true → r.owner = fn →
        (∃ t, exec (.hrCtlWrite fn ring v) s = .next t ∧ t.mem = s.mem ∧
          let q := t.ring.get ring
          (r.en = false → bit v 63 = true → 4 ≤ bits v 14 11 → bits v 14 11 ≤ 12 →
            q.en = true ∧ q.sc = bits v 23 20 ∧ q.size = bits v 14 11 ∧ q.vec = bits v 10 0 ∧ q.stopped = false) ∧
          (r.en = false → bit v 63 = true → (bits v 14 11 < 4 ∨ 12 < bits v 14 11) → q.en = false ∧ q.badcfg = true) ∧
          (r.en = true → bits v 23 20 = r.sc → bits v 14 11 = r.size → bits v 10 0 = r.vec → bit v 63 = false →
            q.en = false ∧ q.head = 0 ∧ q.tail = 0) ∧
          (r.en = true → (bits v 23 20 ≠ r.sc ∨ bits v 14 11 ≠ r.size ∨ bits v 10 0 ≠ r.vec) → t = s)) ∧
        ∃ t, exec (.hrTailWrite fn ring v) s = .next t ∧ t.mem = s.mem ∧
          let q := t.ring.get ring
          q.tail = bits v 15 0 ∧ q.head = r.head ∧
            (2 ^ r.size < (bits v 15 0 + 2 ^ 16 - r.head) % 2 ^ 16 → q.badcfg = true ∧ q.stopped = true) ∧
            ((bits v 15 0 + 2 ^ 16 - r.head) % 2 ^ 16 ≤ 2 ^ r.size → q.badcfg = r.badcfg ∧ q.stopped = r.stopped))) ∧
    (∀ c : HostCmd,
      let ends (st : Nat) (data : List Byte) : State := (s.take c).push (.hostCmdComplete (s.completion c st 0 data))
      (s.canTake c = false → exec (.hostNop c) s = .next s ∧ exec (.hostWrite c) s = .next s ∧ exec (.hostRead c) s = .next s ∧
        exec (.hostLaunch c) s = .next s ∧ exec (.hostSignal c) s = .next s ∧ exec (.attest c) s = .next s) ∧
      (s.canTake c = true →
        (6 < c.op ∨ c.op = 0 ∧ c.reservedZero = false → exec (.hostNop c) s = .next (ends 3 [])) ∧
        (c.op = 0 → s.cmdBad c false true = false → exec (.hostNop c) s = .next (ends 0 [])) ∧
        (c.op = 1 → c.daddr.toNat % 64 ≠ 0 → exec (.hostWrite c) s = .next (ends 3 [])) ∧
        (c.op = 2 → 2 ^ 32 < c.len → exec (.hostRead c) s = .next (ends 3 [])) ∧
        (s.cmdBad c false true = false → s.cmdVf c = none → bit c.arg1 63 = true → s.still →
          let a := c.daddr.toNat
          a + c.len ≤ 2 ^ 39 - 2 ^ 26 → (∀ j, j < c.len → s.sealedAt (a + j) = none) → c.len ≠ 0 →
          (c.op = 1 → a % 64 = 0 → c.haddr.toNat % 64 = 0 → ∃ t, exec (.hostWrite c) s = .next t ∧ t.stored s a (c.data.take c.len) ∧
            t.agenda = s.agenda ++ [.hostCmdComplete (s.completion c 0 0 [])]) ∧
          (c.op = 2 → a % 64 = 0 → c.haddr.toNat % 64 = 0 → exec (.hostRead c) s = .next (ends 0 (s.bytesAt a c.len))) ∧
          (c.op = 4 → c.len = 8 → a % 8 = 0 → ∃ t, exec (.hostSignal c) s = .next t ∧ t.stored s a (bytesOf c.arg0.toNat 8) ∧
            t.agenda = s.agenda ++ [.hostCmdComplete (s.completion c 0 0 [])])) ∧
        (∀ p, c.op = 3 → (s.cmdVf c = some p ∨ s.cmdVf c = none ∧ c.part = p) → s.cmdBad c true true = false →
          (s.partOfQueue (bits c.arg0 5 0) = some p → ∃ x, exec (.hostLaunch c) s = .next ((s.take c).push (.launchSubmit x)) ∧
            x.q = bits c.arg0 5 0 ∧ x.part = p ∧ x.record = c.body ∧ x.reply = none ∧ x.host = some (s.completion c 0 0 [])) ∧
          (s.partOfQueue (bits c.arg0 5 0) ≠ some p → exec (.hostLaunch c) s = .next (ends 3 [])))))

/-- GATE closes a sealed region: the command waits until no bound task is left, and completes at once on a drained region; GATE opens
one, with a check only where its digest agrees, and ends the closes that still wait with REFUSED; either is refused where it asks for the
digest without the link's feature (R55, R67, R68). ATTEST answers with the report and its signature, and is refused without
the feature, the room or the key (R71). A write of a partition entry takes effect as a whole or not at all; building an entry writes
the partition's range table, and a cluster whose arrays are still to be erased is waited for (R64, R154, R194). That a refused write is a
command of the management core, and what a write from FREE or into BUILDING may do, are as log entries 25 and 34 say. -/
def Obligations.GatesAndPartitions : Prop :=
  ∀ s : State,
    (∀ c : HostCmd, s.canTake c = true → s.cmdBad c false true = false →
      let r := bits c.arg0 2 0
      let g := s.sealed_.get r
      let ok := s.completion c 0 0 []
      (c.op = 5 → bit c.arg1 0 = false →
        (bit c.arg1 1 = true → s.linkFeature 1 = false → ∃ t, exec (.gateClose c) s = .next t ∧ t.sealed_ = s.sealed_ ∧
          t.agenda = s.agenda ++ [.hostCmdComplete (s.completion c 3 0 [])]) ∧
        (bit c.arg1 1 = false ∨ s.linkFeature 1 = true → g.gate = 2 →
          ∃ t, exec (.gateClose c) s = .next t ∧ t.agenda = s.agenda ++ [.hostCmdComplete ok] ∧ t.sealed_ = s.sealed_) ∧
        (bit c.arg1 1 = false ∨ s.linkFeature 1 = true → g.gate ≠ 2 →
          ∃ t, exec (.gateClose c) s = .next t ∧ (t.sealed_.get r).gate = 1 ∧ t.mem = s.mem ∧
          (t.sealed_.get r).waiting = g.waiting ++ [ok] ∧
          t.agenda = s.agenda ++ (if g.count = 0 then [.gateDrained r] else []))) ∧
      (c.op = 5 → bit c.arg1 0 = true →
        (bit c.arg1 1 = false → g.gate ≠ 1 → ∃ t, exec (.gateOpen c) s = .next t ∧ (t.sealed_.get r).gate = 0 ∧
          (t.sealed_.get r).base = g.base ∧ (t.sealed_.get r).size = g.size ∧ t.agenda = s.agenda ++ [.hostCmdComplete ok]) ∧
        (bit c.arg1 1 = false ∨ s.linkFeature 1 = true → g.gate = 1 → ∃ t, exec (.gateOpen c) s = .next t ∧ (t.sealed_.get r).gate = 0 ∧
          (t.sealed_.get r).waiting = [] ∧
          t.agenda = s.agenda ++ g.waiting.map (fun k => .hostCmdComplete { k with status := 3 }) ++ [.hostCmdComplete ok]) ∧
        (bit c.arg1 1 = true → s.linkFeature 1 = false → ∃ t, exec (.gateOpen c) s = .next t ∧ t.sealed_ = s.sealed_ ∧
          t.agenda = s.agenda ++ [.hostCmdComplete (s.completion c 3 0 [])]) ∧
        (bit c.arg1 1 = true → s.linkFeature 1 = true → g.gate = 2 →
          (Config.sha3 (s.bytesAt g.base g.size) = c.body.take 32 → ∃ t, exec (.gateOpen c) s = .next t ∧
            (t.sealed_.get r).gate = 0 ∧ t.agenda = s.agenda ++ [.hostCmdComplete ok]) ∧
          (Config.sha3 (s.bytesAt g.base g.size) ≠ c.body.take 32 → ∃ t, exec (.gateOpen c) s = .next t ∧
            t.sealed_ = s.sealed_ ∧ t.agenda = s.agenda ++ [.hostCmdComplete (s.completion c 9 0 [])]))) ∧
      (c.op = 6 →
        (s.linkFeature 0 = true → 2676 ≤ c.len → s.sec.recovery = false → s.sec.idKey = true →
          ∃ t sig, exec (.attest c) s = .next t ∧ sig.length = 2420 ∧ sig.take 2420 = padTo 2420 (Config.sign s.sec.xi (s.reportBody c)) ∧
            t.agenda = s.agenda ++ [.hostCmdComplete (s.completion c 0 0 (s.reportBody c ++ sig))]) ∧
        ((s.linkFeature 0 = false ∨ c.len < 2676 ∨ s.sec.recovery = true ∨ s.sec.idKey = false) →
          ∃ t, exec (.attest c) s = .next t ∧ t.agenda = s.agenda ++ [.hostCmdComplete (s.completion c 3 0 [])]))) ∧
    (∀ r, (s.sealed_.get r).gate = 1 → (s.sealed_.get r).count = 0 → ∃ t, exec (.gateDrained r) s = .next t ∧
      (t.sealed_.get r).gate = 2 ∧ (t.sealed_.get r).waiting = [] ∧
      t.agenda = s.agenda ++ (s.sealed_.get r).waiting.map Event.hostCmdComplete) ∧
    (∀ p e,
      ((16 ≤ p ∨ 5 < e.state ∨ 1920 ≤ e.supv ∨ e.key ∉ s.sec.keys ∨ s.devices ≤ e.tanch) →
        exec (.partitionEntryWrite p e) s = .next { s with mgmtCmds := s.mgmtCmds + 1 }) ∧
      (e.clmask.toNat < 2 ^ 240 → bits e.ptroot 11 0 = 0 → bits e.ptroot 63 52 = 0 → s.entryBad p e = false →
        (∃ c, c < 240 ∧ e.clmask.getLsbD c = true ∧ s.erasing c = true) →
        exec (.partitionEntryWrite p e) s = .next { s with agenda := s.agenda ++ [.partitionEntryWrite p e] }) ∧
      (e.clmask.toNat < 2 ^ 240 → bits e.ptroot 11 0 = 0 → bits e.ptroot 63 52 = 0 → s.entryBad p e = false →
        (∀ c, c < 240 → e.clmask.getLsbD c = true → s.erasing c = false) →
        ∃ t, exec (.partitionEntryWrite p e) s = .next t ∧ t.part = s.part.set p e ∧ t.mem = s.mem ∧ t.core = s.core ∧
          (e.state = 1 → (t.range.get p).entries = [RangeEntry.mk 0 0xFFFFFFFF e.tanch false] ∧ (t.range.get p).tver = 0) ∧
          (e.state ≠ 1 → t.range = s.range)))

/-! ## Reset, islands, power, alarms, error protection -/

/-- DEVICE_RESET keeps memory, fuse map and keys, clears everything else and begins the bring-up; each step of it that completes starts
the next, under the limits of R21 and a grade-2 hold; an image that fails gives way to the recovery image and then to boot ROM, and
another failure stops the sequence (R24, R69, R73). ISL.CTL takes a legal request and refuses with BADREQ a reserved one, OP 0 where it is
not allowed, and OP 0 for a quadrant that is busy; EFF follows when the change is done, and an analogue island at OP 0 loses its calibration
(R16 to R18). Which step checks which image, and that the recovery image starts again at step 1, are the model's choices (log entry 21). -/
def Obligations.ResetAndIslands : Prop :=
  (∀ s : State, ∃ t b, exec .deviceReset s = .next t ∧ t.mem = s.mem ∧ t.fuse = s.fuse ∧ t.sec.keys = s.sec.keys ∧
    t.sec.slots = s.sec.slots ∧ t.sec.gen = s.sec.gen ∧ t.sec.recovery = !s.sec.idKey ∧
    t.sec.boot = 0 ∧ t.core = State.reset.core ∧ t.part = State.reset.part ∧ t.link.state = 0 ∧
    (∀ k, (t.island.get k).eff = if k = 31 then 3 else 0) ∧ t.agenda = [.bringUpStepComplete 1 b]) ∧
  (∀ (s : State) (n : Nat), s.sec.boot + 1 = n → n ≤ 7 → s.imageFails n = false → ∃ t, exec (.bringUpStepComplete n true) s = .next t ∧ t.sec.boot = n ∧
    t.core = s.core ∧ t.part = s.part ∧ (n < 7 → ∃ b, t.agenda = s.agenda ++ [.bringUpStepComplete (n + 1) b]) ∧
    (n ≠ 3 → t.mem = s.mem) ∧
    (n = 3 → Memory.wf s.mem = true → (∀ a, a < 2 ^ 39 → memRead t.mem a = 0) ∧
      (∀ a, 2 ^ 39 ≤ a → memRead t.mem a = memRead s.mem a)) ∧
    (n = 6 → t.link.state = 1) ∧
    ∀ die k, die < 4 → (n = 2 ∧ k ∈ [4, 6, 7] ∨ n = 5 ∧ k ∈ [0, 1, 2, 3, 5]) →
      (t.island.get (8 * die + k)).req = 3 ∧ (t.island.get (8 * die + k)).eff =
        min (if k < 4 ∧ s.held2 die = true then 1 else 3) (s.island.get (8 * die + k)).limit) ∧
  (∀ (s : State) (n : Nat) (ok : Bool), s.sec.boot + 1 = n → n ≤ 7 → (s.imageFails n = true ∨ n = 1 ∧ ok = false) →
    (s.sec.recovery = false → ∃ t b, exec (.bringUpStepComplete n ok) s = .next t ∧ t.sec.recovery = true ∧ t.sec.failed = s.sec.failed ∧
      t.sec.boot = 0 ∧ t.agenda = s.agenda ++ [.bringUpStepComplete 1 b]) ∧
    (s.sec.recovery = true → exec (.bringUpStepComplete n ok) s = .next { s with sec := { s.sec with failed := true } })) ∧
  (∀ (s : State) (n : Nat), s.sec.boot + 1 = n → 1 < n → n ≤ 7 → s.imageFails n = false →
    exec (.bringUpStepComplete n false) s = .next { s with sec := { s.sec with recovery := true } }) ∧
  (∀ (s : State) (i : Nat) (v : Word), i < 32 →
    (1 ≤ bits v 2 0 → bits v 2 0 ≤ 3 → exec (.islCtlWrite i v) s = .next { s with
      island := s.island.set i { s.island.get i with req := bits v 2 0, badreq := false, changing := true },
      agenda := s.agenda ++ [.operatingPointChangeDone i] }) ∧
    (bits v 2 0 = 0 → (i % 8 = 5 ∨ i % 8 < 4 ∧ s.quadrantBusy (i / 8) (i % 8) = false) → exec (.islCtlWrite i v) s = .next { s with
      island := s.island.set i { s.island.get i with req := 0, badreq := false, changing := true },
      agenda := s.agenda ++ [.operatingPointChangeDone i] }) ∧
    ((4 ≤ bits v 2 0 ∨ bits v 2 0 = 0 ∧ (i % 8 ∈ [4, 6, 7] ∨ i % 8 < 4 ∧ s.quadrantBusy (i / 8) (i % 8) = true)) → exec (.islCtlWrite i v) s = .next { s with
      island := s.island.set i { s.island.get i with badreq := true } })) ∧
  (∀ (s : State) (i : Nat), ∃ t, exec (.operatingPointChangeDone i) s = .next t ∧ t.mem = s.mem ∧
    (t.island.get i).changing = false ∧ (t.island.get i).req = (s.island.get i).req ∧
    (t.island.get i).eff = (if i % 8 < 4 ∧ s.held2 (i / 8) = true then min (min (s.island.get i).req (s.island.get i).limit) 1
      else min (s.island.get i).req (s.island.get i).limit) ∧
    (∀ j, j ≠ i → t.island.get j = s.island.get j) ∧ (i % 8 ≠ 5 → t.cluster = s.cluster ∧ t.core = s.core) ∧
    (i % 8 = 5 → (t.island.get i).eff = 0 → (s.island.get i).eff ≠ 0 → ∀ n a, n < 60 → a < 8 →
      (t.arrayAt (60 * (i / 8) + n) a).calok = false))

/-- A window above 1,800 W lowers LIMIT of the hottest core-quadrant island, and no LIMIT rises in it; another window lowers none, and raises
that of an island that has been quiet for 16 windows, unless a LIMIT has fallen in this one (R19, R21); heat flux above
200 W/cm² gates the matrix unit a step more, then lowers LIMIT, below 180 W/cm² a step less, and from then on a step less in each window up
to 200 W/cm² (R20). An alarm is logged; grade 1 lowers LIMIT of its die's quadrants, grade 2 holds them, grade 3 ends every partition, and
grade 4 erases the keys, which leaves zeros, and resets the device; when an alarm ends, one that it outranked has its action (R72 to R74).
ECC counts and marks what it finds: a corrected error in ECC.CORR, an uncorrectable one with no consumer in ECC.UNC; one that an access meets
marks its line, or is met by the next access of that agent; one in the shared tables, firmware state or the hidden region ends every partition
(R22, R23, R65), and a register that is written takes the write under its Access column (R7). That LIMIT stops at OP 1 is log entry 22, what
the finding of an access does is log entry 31. -/
def Obligations.PowerAlarmsAndErrors : Prop :=
  ∀ s : State,
    (∀ i mw heat, 1800000 < mw → i < 32 → i % 8 < 4 → 1 < (s.island.get i).limit →
      (∀ j, j < 32 → j % 8 < 4 → 1 < (s.island.get j).limit → j ≠ i → heatOf heat j < heatOf heat i) →
      ∃ t, exec (.powerWindow mw heat) s = .next t ∧ (t.island.get i).limit = (s.island.get i).limit - 1 ∧
        .operatingPointChangeDone i ∈ t.agenda ∧ t.mem = s.mem ∧ ∀ j, (t.island.get j).limit ≤ (s.island.get j).limit) ∧
    (∀ mw heat, mw ≤ 1800000 → ∃ t, exec (.powerWindow mw heat) s = .next t ∧ t.mem = s.mem ∧ t.stepped = false ∧
      (∀ j, (s.island.get j).limit ≤ (t.island.get j).limit) ∧
      (s.stepped = true → ∀ j, (t.island.get j).limit = (s.island.get j).limit) ∧
      (∀ i, s.stepped = false → mw ≤ 1710000 → i < 32 → (∀ j, j < 32 → j ≠ i → 3 ≤ (s.island.get j).limit) →
        (s.island.get i).limit < 3 → 15 ≤ (s.island.get i).quietWindows → 15 ≤ (s.island.get i).sinceRise →
        (s.island.get i).gated = false → (s.island.get i).noisy = false → s.alarmed (i / 8) = false →
        (t.island.get i).limit = (s.island.get i).limit + 1 ∧ .operatingPointChangeDone i ∈ t.agenda)) ∧
    (∀ cl mw,
      let n := (s.clusterAt cl).throttle
      let easing := (s.clusterAt cl).easing
      let i := s.islandOf cl
      let gates (k : Nat) (e : Bool) : Prop := ∃ t, exec (.heatFluxWindow cl mw) s = .next t ∧ (t.clusterAt cl).throttle = k ∧
        (t.clusterAt cl).easing = e ∧ ∀ c, c ≠ cl → t.clusterAt c = s.clusterAt c
      (200000 < mw → n < 3 → gates (n + 1) false) ∧
      (200000 < mw → 3 ≤ n → gates n false) ∧
      (200000 < mw → 3 ≤ n → 1 < (s.island.get i).limit → ∃ t, exec (.heatFluxWindow cl mw) s = .next t ∧
        (t.island.get i).limit = (s.island.get i).limit - 1) ∧
      (mw < 180000 → n ≠ 0 → gates (n - 1) true) ∧
      (mw ≤ 200000 → easing = true → n ≠ 0 → gates (n - 1) true) ∧
      (180000 ≤ mw → mw ≤ 200000 → easing = false → n ≠ 0 → gates (min 3 (n + 1)) false) ∧
      (mw ≤ 200000 → n = 0 → exec (.heatFluxWindow cl mw) s = .next s)) ∧
    (∀ die, s.sec.alarms = [] →
      (∃ t, exec (.alarmRaise .tempAbove105 die) s = .next t ∧ t.mgmtLog = s.mgmtLog ++ [.alarm .tempAbove105 die] ∧
        t.sec.flag = s.sec.flag ∧ t.mem = s.mem ∧ ∀ k, k < 4 →
          (t.island.get (8 * die + k)).limit = if (s.island.get (8 * die + k)).limit ≤ 1 then (s.island.get (8 * die + k)).limit
            else (s.island.get (8 * die + k)).limit - 1) ∧
      (∃ t, exec (.alarmRaise .tempAbove115 die) s = .next t ∧ t.mgmtLog = s.mgmtLog ++ [.alarm .tempAbove115 die] ∧
        t.sec.flag = true ∧ t.mem = s.mem ∧ t.held2 die = true ∧ t.agenda = s.agenda ++
          [.operatingPointChangeDone (8 * die), .operatingPointChangeDone (8 * die + 1), .operatingPointChangeDone (8 * die + 2),
           .operatingPointChangeDone (8 * die + 3)]) ∧
      (∃ t, exec (.alarmRaise .supplyOutside die) s = .next t ∧ MgmtEvent.alarm .supplyOutside die ∈ t.mgmtLog ∧ t.sec.flag = true ∧
        t.sec.noNewParts = true ∧ ∀ p, p < 16 → (t.part.get p).state = 0) ∧
      (∃ t, exec (.alarmRaise .packageOpening die) s = .next t ∧ MgmtEvent.alarm .packageOpening die ∈ t.mgmtLog ∧ t.sec.flag = true ∧
        t.sec.silent = true ∧ t.sec.erasing = true ∧ t.agenda = s.agenda ++ [.keyErasureDone] ∧ t.mem = s.mem)) ∧
    (∀ source die, ∃ t, exec (.alarmConditionEnd source die) s = .next t ∧ (source, die) ∉ t.sec.alarms ∧
      (∀ a, a ∈ s.sec.alarms → a ≠ (source, die) → a ∈ t.sec.alarms) ∧
      ((∀ a ∈ s.sec.alarms, AlarmGrade a.1 ≤ 2) → t.mem = s.mem) ∧
      (∀ d, s.sec.alarms = [(.tempAbove115, d), (source, die)] → (.tempAbove115, d) ≠ (source, die) → (.tempAbove115, d) ∉ s.sec.acted →
        t.held2 d = true ∧ ∀ k, k < 4 → .operatingPointChangeDone (8 * d + k) ∈ t.agenda)) ∧
    (s.sec.erasing = true → ∃ t, exec .keyErasureDone s = .next t ∧ t.sec.keys = [] ∧ t.sec.idKey = false ∧ t.sec.recovery = true ∧
      t.sec.xi = List.replicate 32 0 ∧ (∀ n, t.sec.slots.get n = List.replicate 32 0) ∧
      t.sec.boot = 0 ∧ t.mem = s.mem ∧ t.core = State.reset.core) ∧
    (s.sec.erasing = false → exec .keyErasureDone s = .next s) ∧
    (∀ (site : EccSite) (line : Nat),
      let corr (d : Nat) : Prop := ∃ t, exec (.patrolScrub site .corrected) s = .next t ∧
        t = { s with ecc := t.ecc } ∧ (t.ecc.get d).corr = min (2 ^ 32 - 1) ((s.ecc.get d).corr + 1) ∧ (t.ecc.get d).unc = (s.ecc.get d).unc ∧
        ∀ e, e ≠ d → t.ecc.get e = s.ecc.get e
      exec (.patrolScrub site .clean) s = .next s ∧
      (∀ d arr, site = .sram d arr → corr (min 3 d) ∧
        (arr ≠ .tuples → arr ≠ .firmware →
          (∀ agent, exec (.patrolScrub site (.met agent)) s = .next { s with meets := s.meets ++ [agent] }) ∧
          ∃ t, exec (.patrolScrub site .uncorrectable) s = .next t ∧ t = { s with ecc := t.ecc } ∧
            (t.ecc.get (min 3 d)).unc = (s.ecc.get (min 3 d)).unc + 1 ∧ (t.ecc.get (min 3 d)).corr = (s.ecc.get (min 3 d)).corr ∧
            ∀ e, e ≠ min 3 d → t.ecc.get e = s.ecc.get e) ∧
        (arr = .tuples ∨ arr = .firmware → ∃ t, exec (.patrolScrub site .uncorrectable) s = .next t ∧ t.sec.noNewParts = true ∧
          ∀ p, p < 16 → (t.part.get p).state = 0)) ∧
      (site = .line line → line * 64 < 2 ^ 39 → corr (line * 64 / 2 ^ 37)) ∧
      (site = .line line → line ∉ s.badLines → line * 64 < 2 ^ 39 - 2 ^ 26 →
        (∀ agent, exec (.patrolScrub site (.met agent)) s = .next { s with badLines := s.badLines ++ [line] }) ∧
        ∃ t, exec (.patrolScrub site .uncorrectable) s = .next t ∧ t.badLines = s.badLines ++ [line] ∧ t.mem = s.mem ∧
          (t.ecc.get (line * 64 / 2 ^ 37)).unc = (s.ecc.get (line * 64 / 2 ^ 37)).unc + 1)) ∧
    (∀ die v, (∃ t, exec (.eccCorrWrite die v) s = .next t ∧ (t.ecc.get die).corr = 0 ∧ (t.ecc.get die).unc = (s.ecc.get die).unc ∧
        t.mem = s.mem) ∧
      (die < 4 → exec (.registerWrite (0x100000 * die + 0x300) v) s = exec (.eccCorrWrite die v) s)) ∧
    (∀ v, ∃ t, exec (.registerWrite 0x400200 v) s = .next t ∧ t.fab.badf = 0 ∧ t.fab.agesat = 0 ∧ t.fab.intfail = 0 ∧
      t.fab.pooldrop = 0 ∧ t.fab.port = s.fab.port ∧ t.mem = s.mem)

/-! ## Launching, scheduling, swapping -/

/-- A launch record that is well formed joins its queue, one that is not is REFUSED and one too many gets FULL, and its submitter is
answered (R60, R63, R81); one of a partition that PKILL has ended meanwhile is dropped (R283). LQ.CFG sets the queue up, starts its first
period if PERIOD is not 0 and ignores a change while EN is 1; a period begins at the end of the last, and sets LEFT and DL (R82, R84).
CORE.MQCAP holds its fields (R457). A record with no task leaves its queue; a dependence in memory is met when its word is zero, and one on
a job when the job has completed (R62, R76, R85); that bits [62:52] of a counter dependence are not used is log entry 75. -/
def Obligations.LaunchQueues : Prop :=
  ∀ s : State,
    (∀ (r : Submission) (d : RegDest), r.reply = some d → r.host = none → ((s.part.get r.part).state = 0 ∨ (s.part.get r.part).state = 5) →
      exec (.launchSubmit r) s = .next { s with agenda := s.agenda ++ [.pendingValueArrive d (.value 3)] }) ∧
    (∀ (r : Submission) (d : RegDest), r.reply = some d → r.host = none → (s.part.get r.part).state ≠ 0 → (s.part.get r.part).state ≠ 5 →
      (s.recordBad r.part r.record = true →
        exec (.launchSubmit r) s = .next { s with agenda := s.agenda ++ [.pendingValueArrive d (.value 3)] }) ∧
      (s.recordBad r.part r.record = false → 256 ≤ (s.launch.get r.q).recs.length →
        exec (.launchSubmit r) s = .next { s with agenda := s.agenda ++ [.pendingValueArrive d (.value 1)] }) ∧
      (s.recordBad r.part r.record = false → (s.launch.get r.q).recs.length < 256 → ∃ t x, exec (.launchSubmit r) s = .next t ∧
        (t.launch.get r.q).recs = (s.launch.get r.q).recs ++ [x] ∧ x.bytes = r.record ∧ x.placed = 0 ∧ t.mem = s.mem ∧
        (∀ q, q ≠ r.q → t.launch.get q = s.launch.get q) ∧ t.agenda = s.agenda ++ [.pendingValueArrive d (.value 0)])) ∧
    (∀ (r : Submission) (c : HostCompletion), r.reply = none → r.host = some c → s.recordBad r.part r.record = true →
      exec (.launchSubmit r) s = .next { s with agenda := s.agenda ++ [.hostCmdComplete { c with status := 3 }] }) ∧
    (∀ part (b : List Byte), (fieldAt b 0 4 % 4 = 3 ∨ 8 < fieldAt b 0 4 / 2 ^ 16 % 16 ∨ fieldAt b 32 4 = 0 ∨ fieldAt b 36 4 = 0 ∨
      bit (wordAt b 8) 5 = true ∨ fieldAt b 40 1 % 8 ≠ 0) → s.recordBad part b = true) ∧
    (∀ q v,
      let l := s.launch.get q
      (l.en = true → (bits v 48 28 ≠ l.budget ∨ bits v 19 0 ≠ l.period) → exec (.launchQueueCfgWrite q v) s = .next s) ∧
      (l.en = false → bit v 63 = true → s.tasks = [] → ∃ t, exec (.launchQueueCfgWrite q v) s = .next t ∧
        let m := t.launch.get q
        m.en = true ∧ m.budget = bits v 48 28 ∧ m.period = bits v 19 0 ∧ m.recs = l.recs ∧
          m.left = (if bits v 19 0 = 0 then l.left else (bits v 48 28 : Int) * 8192 + min l.left 0) ∧
          m.dl = (if bits v 19 0 = 0 then l.dl else BitVec.ofNat 64 (s.time + bits v 19 0 * 1024))) ∧
      (bit v 63 = false → bits v 48 28 = l.budget → bits v 19 0 = l.period → ∃ t, exec (.launchQueueCfgWrite q v) s = .next t ∧
        (t.launch.get q).en = false ∧ (t.launch.get q).dl = BitVec.allOnes 64 ∧ (t.launch.get q).recs = l.recs ∧
        ∀ r ∈ t.reserved, r.2.1 ≠ q)) ∧
    (∀ core v, ∃ t, exec (.coreMqcapWrite core v) s = .next t ∧ (t.coreAt core).mqcap = BitVec.ofNat 64 (bits v 6 0) ∧
      (t.coreAt core).lowq = (s.coreAt core).lowq ∧ t.mem = s.mem) ∧
    (∀ q, ((s.launch.get q).en = false ∨ (s.launch.get q).period = 0 → exec (.periodStart q) s = .next s) ∧
      ((s.launch.get q).en = true → (s.launch.get q).period ≠ 0 → s.tasks = [] → ∃ t, exec (.periodStart q) s = .next t ∧
        (t.launch.get q).left = ((s.launch.get q).budget : Int) * 8192 + min (s.launch.get q).left 0 ∧
        (t.launch.get q).raised = false ∧ (t.launch.get q).dl =
          BitVec.ofNat 64 ((if (s.launch.get q).dl = BitVec.allOnes 64 then s.time else (s.launch.get q).dl.toNat) +
            (s.launch.get q).period * 1024))) ∧
    (∀ q p r rest, (s.launch.get q).recs = r :: rest → s.partOfQueue q = some p →
      (r.tasks = 0 → ∃ t, exec (.dependenceTest q) s = .next t ∧ (t.launch.get q).recs = rest ∧ t.mem = s.mem) ∧
      (r.tasks ≠ 0 → s.shapeBad p r = false → r.dep0 = false → r.dep1 = true → (∀ y ∈ rest, y.uid ≠ r.uid) →
        let d := wordAt r.bytes 48
        let id := BitVec.ofNat 64 (bits d 62 0)
        bit d 63 = true → ∃ t, exec (.dependenceTest q) s = .next t ∧ t.mem = s.mem ∧
          (t.launch.get q).recs = { r with dep0 := match s.jobOf id with
            | some j => j.state == 4
            | none => s.jobIssued id } :: rest) ∧
      (∀ l u, r.tasks ≠ 0 → s.shapeBad p r = false → r.dep0 = false → r.dep1 = true → (∀ y ∈ rest, y.uid ≠ r.uid) →
        let d := wordAt r.bytes 48
        d ≠ 0 → bit d 63 = false → s.holdOn p (bits d 51 0) = none → s.walk devWalker p (bits d 51 0) = (.ok l, u) →
        s.allows p 0 l.entry (l.phys (bits d 51 0)) .read = true → s.still →
        ∃ t, exec (.dependenceTest q) s = .next t ∧ t.mem = s.mem ∧
          (t.launch.get q).recs = { r with dep0 := s.wordAtLoc (l.phys (bits d 51 0)) == 0 } :: rest))

/-- At most one task is placed: a thread task joins the shortest task queue of its partition outside reserved clusters, and a squad
starts all its threads at once (R86 to R88). A free task context starts the residual entry, else the earliest ordered task, else the
tail of its queue, with g1 = ARG and every other register 0 (R77, R93). A task that ends decrements its counter and frees its
context (R76). An expired shot clock parks the thread with SHOTCLOCK (R103, R117). A partition that is quiescing and quiet becomes
QUIET (R104). The umpire publishes the key it sampled, and GVT (R101). -/
def Obligations.Scheduling : Prop :=
  ∀ s : State,
    (∀ q p r rest, q < 64 → (∀ x, x < 64 → (s.candidate x = true ↔ x = q)) → (s.launch.get q).recs = r :: rest →
      s.partOfQueue q = some p →
      let fit (c : Nat) : Prop := c < 1920 ∧ (s.part.get p).clmask.getLsbD (c / 8) = true ∧ s.reservedCl (c / 8) = false
      (r.kind = 0 → (∃ c, fit c ∧ (s.coreAt c).taskq.length < 128) → ∃ t c e, exec .taskPlace s = .next t ∧ fit c ∧
        (t.coreAt c).taskq = (s.coreAt c).taskq ++ [e] ∧ e.entry = r.entry ∧ e.arg = r.arg ∧ e.cnt = r.cnt ∧
        e.record = some r.uid ∧ (∀ x, fit x → (s.coreAt c).taskq.length ≤ (s.coreAt x).taskq.length) ∧
        (∀ x, x ≠ c → t.coreAt x = s.coreAt x) ∧ (r.tasks ≤ r.placed + 1 → (t.launch.get q).recs = rest)) ∧
      (∀ cl, r.kind = 1 → s.partReserved p = none → (s.qualifying p r.sqw).head? = some cl → ∃ t, exec .taskPlace s = .next t ∧
        (t.clusterAt cl).gang.isSome = true ∧ ∀ c ∈ (s.openCores cl).take r.sqw, ∃ k, k < 4 ∧ (s.ctxAt c k).phase = .idle ∧
          (t.ctxAt c k).phase = .running ∧ (t.ctxAt c k).pc = r.entry ∧ (t.ctxAt c k).g.get 1 = r.arg)) ∧
    (∀ core p k ks, s.partOfCore core = some p → s.freeTaskCtx core = k :: ks → s.mayStart p = true →
      s.reservedCl (clusterOf core) = false →
      let starts (entry arg : Word) (t : State) : Prop := exec (.taskStart core) s = .next t ∧ (t.ctxAt core k).phase = .running ∧
        (t.ctxAt core k).pc = entry ∧ (t.ctxAt core k).g.get 1 = arg ∧ (∀ j, j ≠ 1 → (t.ctxAt core k).g.get j = 0) ∧
        (t.ctxAt core k).vwin = 0 ∧ t.otherCtxs s core k ∧ t.mem = s.mem
      (∀ e, (s.coreAt core).residq = [e] → ∃ t, starts e.entry e.arg t ∧ (t.coreAt core).residq = []) ∧
      (∀ o, (s.coreAt core).residq = [] → (s.clusterAt (clusterOf core)).ord = [o] → o.state = .queued →
        ∃ t, starts o.entry.entry o.entry.arg t ∧ (t.ctxAt core k).ident.vtime = o.ts) ∧
      (∀ es e, (s.coreAt core).residq = [] → (∀ o ∈ (s.clusterAt (clusterOf core)).ord, o.state ≠ .queued) →
        (s.coreAt core).taskq = es ++ [e] → ∃ t, starts e.entry e.arg t ∧ (t.coreAt core).taskq = es)) ∧
    (∀ id (x : Task) core k, s.tasks = [(id, x)] → x.threads = [(core, k)] → x.ordered = none → x.homeDev = s.dev →
      (s.ctxAt core k).pend = 0 → (s.ctxAt core k).streams = [] → (s.ctxAt core k).sendBuf = [] → (s.ctxAt core k).stores = 0 → s.outOf core k = [] → s.openJobs core k = [] →
      (s.coreAt core).outq.length ≤ 32 →
      (x.cnt = 0 → ∃ t, exec (.taskEnd id) s = .next t ∧ (t.ctxAt core k).phase = .idle ∧ t.tasks = [] ∧ t.mem = s.mem) ∧
      (∀ off, spadPtr x.cnt off → off + 8 ≤ 2 ^ 18 → s.still → ∃ t, exec (.taskEnd id) s = .next t ∧
        (t.ctxAt core k).phase = .idle ∧ t.tasks = [] ∧
        t.stored s (spadLoc core off) (bytesOf (s.wordAtLoc (spadLoc core off) - 1).toNat 8))) ∧
    (∀ id (x : Task) core k e, assocGet s.tasks id = some x → x.threads = [(core, k)] → x.clockEnd = some e →
      (s.ctxAt core k).phase = .running → (s.ctxAt core k).heldTrap = none → (s.ctxAt core k).sleep = none →
      (s.ctxAt core k).pend = 0 → s.specAt core k = false → s.heldBack core k = false →
      (s.coreAc core < e → exec (.shotclock id) s = .next s) ∧
      (e ≤ s.coreAc core → ∃ t, exec (.shotclock id) s = .next t ∧ (t.ctxAt core k).phase = .parked ∧
        bits (t.ctxAt core k).trap.ecause 7 0 = 8 ∧ (t.ctxAt core k).trap.epc = (s.ctxAt core k).pc ∧ t.mem = s.mem)) ∧
    (∀ core k e, (s.ctxAt core k).shotEnd = some e → (s.ctxAt core k).phase = .running → (s.ctxAt core k).heldTrap = none →
      (s.ctxAt core k).sleep = none → (s.ctxAt core k).pend = 0 → s.specAt core k = false →
      (s.coreAc core < e → exec (.handlerShotclock core k) s = .next s) ∧
      (e ≤ s.coreAc core → ∃ t, exec (.handlerShotclock core k) s = .next t ∧ (t.ctxAt core k).phase = .parked ∧
        bits (t.ctxAt core k).trap.ecause 7 0 = 8 ∧ (t.ctxAt core k).shotEnd = none ∧ t.mem = s.mem)) ∧
    (∀ p, ((s.part.get p).state = 2 → p ∉ s.quiescing →
        exec (.quiesceRequest p) s = .next { s with quiescing := s.quiescing ++ [p] }) ∧
      (p ∈ s.quiescing → s.quiet p = true → ∃ t, exec (.partitionQuiet p) s = .next t ∧ (t.part.get p).state = 3 ∧
        p ∉ t.quiescing ∧ (∀ r ∈ t.reserved, r.1 ≠ p) ∧ t.mem = s.mem ∧ t.core = s.core) ∧
      ((p ∉ s.quiescing ∨ s.quiet p = false) → exec (.partitionQuiet p) s = .next s)) ∧
    (∀ p, (∀ cl, (s.clusterAt cl).ord = []) →
      (∀ key, (s.umpire.get p).tick < s.time / 1024 → (s.umpire.get p).sampled = some (some key) →
        ∃ t, exec (.umpireTick p) s = .next t ∧ (t.umpire.get p).published = some (some key) ∧
          (t.umpire.get p).gvt = BitVec.ofNat 64 key.1 ∧ (t.umpire.get p).sampled = some none ∧
          (t.umpire.get p).tick = s.time / 1024 ∧ t.mem = s.mem) ∧
      (s.time / 1024 ≤ (s.umpire.get p).tick → exec (.umpireTick p) s = .next s))

/-- CTXSV, CTXLD and PKILL need the management core; a context that is not its traps ILL with reason 7, and a register in stream mode traps
with reason 6, the lowest (R324). CTXSV saves a QUIET partition at an aligned place and leaves it SWAPPED, and refuses any other, and a
place over a sealed or hidden region or beyond memory (log entry 40); CTXLD restores an image and leaves the partition RUNNING, or SWAPPED
while its scorebook replays; PKILL ends a partition, its scratchpads zero, and finds nothing in a FREE entry. Each answers by a status that
arrives at its pending destination (R279 to R283, R444). That GCFG is 0x35800000 after PKILL is the model's reading of R214 and R283 (log
entry 35). -/
def Obligations.SwappingPartitions : Prop :=
  ∀ (s : State) (a sa sb : Nat),
    (let ill (n : Nat) := s.trapped 1 0 (BitVec.ofNat 64 (2 ^ 63 + 0xFD * 256 + n));
      ((assocGet s.me.streams sa).isSome = true → exec (.ctxsv a sa sb) s = .next (ill 6) ∧ exec (.ctxld a sa sb) s = .next (ill 6) ∧
        exec (.pkill a sa) s = .next (ill 6)) ∧
      (s.privM = false → (∀ k ∈ [sa, sb, a], assocGet s.me.streams k = none) → exec (.ctxsv a sa sb) s = .next (ill 7) ∧
        exec (.ctxld a sa sb) s = .next (ill 7) ∧ exec (.pkill a sa) s = .next (ill 7))) ∧
    (s.privM = true → s.canRun [sa, sb] [a] = true → a < 16 → (s.coreAt s.curCore).slots < 64 →
      let v := s.me.g.get sa
      let p := bits v 3 0
      let img := s.me.g.get sb
      let x := s.asked a
      let answer (st : Word) : Event := .pendingValueArrive (s.dest a) (.value st)
      (s.swapOf p).any (fun w => w.loaded) = false → s.owned = [] →
      (bits v 63 4 ≠ 0 → exec (.ctxsv a sa sb) s = .next (x.push (answer 3)).onward ∧
        exec (.ctxld a sa sb) s = .next (x.push (answer 3)).onward ∧ exec (.pkill a sa) s = .next (x.push (answer 3)).onward) ∧
      ((s.part.get p).state ≠ 3 ∨ img.toNat % 4096 ≠ 0 ∨ x.keptFrom img.toNat (x.imageSize p) = true →
        exec (.ctxsv a sa sb) s = .next (x.push (answer 3)).onward) ∧
      (bits v 63 4 = 0 → (s.part.get p).state = 3 → img.toNat % 4096 = 0 → x.keptFrom img.toNat (x.imageSize p) = false →
        (∀ c, (s.coreAt c).jobs = []) → ∃ t, exec (.ctxsv a sa sb) s = .next t ∧
        (t.part.get p).state = 4 ∧ answer 0 ∈ t.agenda ∧ t.me.g = s.me.g ∧ t.me.pend.getLsbD a = true ∧
        t.me.pc = nextPc s.me.pc s.me.lineN ∧ (∀ c, c / 8 < 240 → (s.part.get p).clmask.getLsbD (c / 8) = true →
          (t.coreAt c).taskq = [] ∧ (t.coreAt c).lowq = [] ∧ ∀ k, k < 8 → (t.ctxAt c k).phase = .idle)) ∧
      (bits v 63 4 = 0 → fieldAt (s.bytesAt img.toNat 4) 0 4 ≠ 1 →
        exec (.ctxld a sa sb) s = .next (x.push (answer 3)).onward) ∧
      (∀ y, bits v 63 4 = 0 → x.loadPart p img.toNat (s.dest a) = some y → exec (.ctxld a sa sb) s = .next y.onward ∧
        ((y.part.get p).state = 2 ∧ answer 0 ∈ y.agenda ∨ (y.part.get p).state = 4)) ∧
      (bits v 63 4 = 0 → (s.part.get p).state = 0 → exec (.pkill a sa) s = .next (x.push (answer 2)).onward) ∧
      (bits v 63 4 = 0 → (s.part.get p).state ≠ 0 → ∃ t, exec (.pkill a sa) s = .next t ∧ (t.part.get p).state = 0 ∧
        answer 0 ∈ t.agenda ∧ t.me.g = s.me.g ∧ t.me.pc = nextPc s.me.pc s.me.lineN ∧
        (∀ c, c / 8 < 240 → (s.part.get p).clmask.getLsbD (c / 8) = true → (t.coreAt c).taskq = [] ∧ (t.coreAt c).lowq = [] ∧
          (t.coreAt c).gcfg = 0x35800000#64 ∧ ∀ k, (t.ctxAt c k).phase = .idle) ∧
        (Memory.wf s.mem = true → s.uline = [] → ∀ c off, c / 8 < 240 → (s.part.get p).clmask.getLsbD (c / 8) = true →
          off < 2 ^ 18 → memRead t.mem (spadLoc c off) = 0)))

/-! ## System instructions -/

/-- MFS writes the special register of its number, and CSW from its fields, and waits for JOB.LAST while a held instruction is to issue a job
(R390); MTS writes a writable one, ignores a read-only one, traps
ILL on a value that is no PC, and stores of GCFG only the fields that pass (R7, R79, R107, R214, R298, R440). The numbers that the management
core reads in CORE.ID, CLUS.ID and DIE.ID are log entry 12. SYSC completes and
then raises SYSCALL with its number (R442). TRET leaves the TVEC handler for EPC with INTV cleared, and traps ILL outside one (R273,
R441). HALT stops the context unless its wake latch is set, and a wake lets it go on (R445). -/
def Obligations.SystemRegisters : Prop :=
  ∀ s : State,
    (∀ a, s.canRun [] [a] = true →
      let c := s.me
      let n (x : Nat) : Word := BitVec.ofNat 64 x
      let words : List (Nat × Word) :=
        [(0x001, c.trap.epc), (0x002, c.trap.ecause), (0x003, c.trap.eaddr), (0x004, c.trap.einfo), (0x005, c.trap.ejob),
         (0x006, c.trap.tvec), (0x007, (s.coreAt s.curCore).svec), (0x008, c.msgr.jobLast), (0x009, c.msgr.xferId),
         (0x00A, c.msgr.id), (0x00B, c.msgr.src), (0x00C, c.msgr.len), (0x00D, (s.coreAt s.curCore).gcfg),
         (0x00E, (s.part.get s.curPart).ssb), (0x010, n c.ident.org0), (0x011, n c.ident.org1), (0x012, n c.ident.ext0),
         (0x013, n c.ident.ext1), (0x014, n c.ident.nom0), (0x015, n c.ident.nom1), (0x016, n c.ident.gext0),
         (0x017, n c.ident.gext1), (0x018, n c.ident.squadRank), (0x019, n c.ident.crewRank), (0x01A, n s.curCore),
         (0x01B, n (s.curCore / 8)), (0x01C, n (min 3 (s.curCore / 480))), (0x01D, n s.dev), (0x01E, n s.curPart),
         (0x01F, c.ident.taskId), (0x020, c.ident.vtime), (0x021, (s.umpire.get s.curPart).gvt), (0x022, n s.time), (0x030, 1)]
      (∀ p ∈ words, (p.1 = 0x008 → s.holdsOp issuesJob = false) → exec (.mfs a p.1) s = .next (s.setG a p.2).onward) ∧
      (s.holdsOp issuesJob = true → exec (.mfs a 0x008) s = .next s) ∧
      ∃ v, exec (.mfs a 0) s = .next (s.setG a v).onward ∧ bits v 47 32 = c.pend.toNat ∧ bits v 18 16 = c.vwin % 8 ∧
        bit v 11 = c.uie ∧ bit v 10 = c.atrap ∧ bit v 3 = s.spec ∧ bits v 2 0 = s.curCtx % 8) ∧
    (∀ a, s.canRun [a] [] = true → s.spec = false →
      let v := s.me.g.get a
      let legal := bit v 5 = false ∧ bits v 63 52 = 0
      exec (.mts 0 a) s = .next (s.modMe (fun c => { c with uie := bit v 11, atrap := bit v 10 })).onward ∧
      (legal → exec (.mts 1 a) s = .next (s.modMe (fun c => { c with trap := { c.trap with epc := v } })).onward ∧
        exec (.mts 6 a) s = .next (s.modMe (fun c => { c with trap := { c.trap with tvec := v } })).onward ∧
        exec (.mts 7 a) s = .next (s.modCore s.curCore (fun c => { c with svec := v })).onward) ∧
      (¬ legal → exec (.mts 1 a) s = .next (s.trapped 1 0 0) ∧ exec (.mts 6 a) s = .next (s.trapped 1 0 0) ∧
        exec (.mts 7 a) s = .next (s.trapped 1 0 0)) ∧
      (bits v 31 0 < 0x3F800000 → bits v 63 32 < 0x7F800000 →
        exec (.mts 0xD a) s = .next (s.modCore s.curCore (fun c => { c with gcfg := v })).onward) ∧
      (0x3F800000 ≤ bits v 31 0 → bits v 31 0 < 2 ^ 31 → ∃ t, exec (.mts 0xD a) s = .next t ∧ t.me.pc = s.nextOf ∧
        bits (t.coreAt s.curCore).gcfg 31 0 = bits (s.coreAt s.curCore).gcfg 31 0) ∧
      ∀ num, num ∈ specialRegs → num ∉ [0, 1, 6, 7, 0xD] → exec (.mts num a) s = .next s.onward) ∧
    (∀ n, exec (.sysc n) s = .next (s.onward.takeTrap s.curCore s.curCtx
      { cause := 19, epc := s.nextOf, eaddr := 0, einfo := BitVec.ofNat 64 (n % 1024), pois := false, eng := false, job := 0 })) ∧
    (bit s.me.trap.ecause 12 = false → exec .tret s = .next (s.trapped 1 0 0)) ∧
    (∀ u, bit s.me.trap.ecause 12 = true → badTarget s.me.trap.epc s = .ok (false, u) → ∃ t, exec .tret s = .next t ∧
      t.me.pc = s.me.trap.epc ∧ bit t.me.trap.ecause 12 = false ∧ t.me.trap.epc = s.me.trap.epc ∧ t.me.g = s.me.g ∧ t.mem = u.mem) ∧
    (∀ u, bit s.me.trap.ecause 12 = true → badTarget s.me.trap.epc s = .ok (true, u) →
      exec .tret s = .next (s.trapped 3 s.me.trap.epc 0)) ∧
    (s.privM = false → exec .halt s = .next (s.trapped 1 0 (BitVec.ofNat 64 (2 ^ 63 + 0xFE * 256 + 7)))) ∧
    (s.privM = true → s.spec = false →
      (s.me.wakeSeen < s.wakes → exec .halt s = .next (s.modMe (fun c => { c with wakeSeen := s.wakes })).onward) ∧
      (s.wakes ≤ s.me.wakeSeen → exec .halt s = .next (s.modMe (fun c => { c with phase := .halted })))) ∧
    (∀ k c, assocGet (s.coreAt mgmtCore).ctx.cells k = some c → c.phase = .halted → c.wakeSeen < s.wakes →
      ∃ t, exec .haltWake s = .next t ∧ (t.ctxAt mgmtCore k).phase = .running ∧
        (t.ctxAt mgmtCore k).pc = nextPc c.pc c.lineN ∧ (t.ctxAt mgmtCore k).g = c.g ∧ t.mem = s.mem)

/-- TRET with a handle sends its request; the core that holds the named parked context resumes it, skips its instruction or ends its
task, and answers OK, or EMPTY where no parked context has that handle and park count (R275, R441). A trap record enters the
supervisor's high queue for its SVEC, is sent again later when that is full, and ends the partition where SVEC is 0; a held trap is
delivered once nothing holds it back (R97, R119, R273, R274). The event that the ended partition logs is the model's (log entry 30). -/
def Obligations.TrapHandlesAndRecords : Prop :=
  ∀ s : State,
    (∀ a sa,
      let ill := s.trapped 1 0 (BitVec.ofNat 64 (2 ^ 63 + 0xFA * 256 + 7))
      let sent (n : Nat) : State :=
        ((s.asked a).push (.tretHandleArrive { dest := s.dest a, handle := s.me.g.get sa, action := n })).onward
      (s.privS = false → (∀ k ∈ [sa, a], assocGet s.me.streams k = none) → exec (.tretResume a sa) s = .next ill ∧ exec (.tretSkip a sa) s = .next ill ∧
        exec (.tretEnd a sa) s = .next ill) ∧
      (s.privS = true → s.canAsk [sa] a → exec (.tretResume a sa) s = .next (sent 1) ∧ exec (.tretSkip a sa) s = .next (sent 2) ∧
        exec (.tretEnd a sa) s = .next (sent 3))) ∧
    (∀ (t : TretReq) core k n p, core < 1920 → k < 4 → n < 2 ^ 32 → t.handle = BitVec.ofNat 64 (core + k * 2 ^ 11 + n * 2 ^ 16) →
      let c := s.ctxAt core k
      let answer (st : Word) : Event := .pendingValueArrive t.dest (.value st)
      (c.phase ≠ .parked ∨ c.parkCount ≠ n → exec (.tretHandleArrive t) s = .next (s.push (answer 2))) ∧
      (c.phase = .parked → c.parkCount = n → s.partOfCore core = some p → s.partOfCore t.dest.core = some p →
        (t.action = 1 → ∃ x, exec (.tretHandleArrive t) s = .next x ∧ (x.ctxAt core k).phase = .running ∧
          (x.ctxAt core k).pc = c.trap.epc ∧ (x.ctxAt core k).g = c.g ∧ x.agenda = s.agenda ++ [answer 0] ∧ x.mem = s.mem) ∧
        (∀ cs u, t.action = 2 → fetchLine c.trap.epc (s.asCtx core k) = .ok (.line cs, u) →
          ∃ x, exec (.tretHandleArrive t) s = .next x ∧ (x.ctxAt core k).phase = .running ∧
            (x.ctxAt core k).pc = nextPc c.trap.epc cs.length ∧ x.agenda = s.agenda ++ [answer 0] ∧ x.mem = s.mem) ∧
        (∀ id y, t.action = 3 → s.taskOf core k = some (id, y) → y.threads = [(core, k)] →
          ∃ x, exec (.tretHandleArrive t) s = .next x ∧ (x.ctxAt core k).phase = .ended ∧ (x.ctxAt core k).sendBuf = [] ∧
            Event.taskEnd id ∈ x.agenda ∧ answer 0 ∈ x.agenda ∧ x.mem = s.mem))) ∧
    (∀ (r : TrapRecord),
      let e := s.part.get r.part
      let c := s.coreAt e.supv
      e.state = 2 → r.score ≠ mgmtCore → trapsSupervisor e.supv r = false →
      (c.svec ≠ 0 → c.highq.length < c.highCap → ∃ t x, exec (.trapDeliverSupervisor r) s = .next t ∧
        x ∈ (t.coreAt e.supv).highq ∧ x.msg.payload = bytesOfWords r.words ∧ x.msg.hpc = bits c.svec 51 0 ∧ x.msg.hi = true ∧
        x.state = 0 ∧ (t.coreAt e.supv).highq.length = c.highq.length + 1 ∧ t.agenda = s.agenda ∧ t.mem = s.mem) ∧
      (c.svec ≠ 0 → c.highCap ≤ c.highq.length → exec (.trapDeliverSupervisor r) s = .next (s.push (.trapRecordResend
        { r with notBefore := s.coreAc r.score + r.backoff, backoff := min 8192 (2 * r.backoff) }))) ∧
      (c.svec = 0 → ∃ t, exec (.trapDeliverSupervisor r) s = .next t ∧ (t.part.get r.part).state = 0 ∧
        MgmtEvent.partitionEnded r.part ∈ t.mgmtLog)) ∧
    (∀ r : TrapRecord, (s.coreAc r.score < r.notBefore → exec (.trapRecordResend r) s = .next (s.push (.trapRecordResend r))) ∧
      (r.notBefore ≤ s.coreAc r.score → exec (.trapRecordResend r) s = exec (.trapDeliverSupervisor r) s)) ∧
    (∀ core k (t : Trap),
      let c := s.ctxAt core k
      (c.heldTrap = some t → c.pend = 0 → s.specAt core k = false → s.heldBack core k = false → c.phase = .running → exec (.trapDeliverTvec core k t) s =
        .next ((s.modCtx core k (fun x => { x with heldTrap := none })).takeTrap core k t)) ∧
      (c.heldTrap ≠ some t ∨ c.pend ≠ 0 ∨ s.specAt core k = true ∨ s.heldBack core k = true → exec (.trapDeliverTvec core k t) s = .next s))

/-- TLBI needs the supervisor; it sends a message to every cluster of the partition, UNMAP, MOVE and MOVEF hold the page and unpin it,
REL ends a hold; a page without a leaf is NOMATCH. A walker drops the matching translations of its cluster and acknowledges, and the
last acknowledgement answers. A walk that its page's hold no longer stops fills the second-level TLB (R145, R147 to R150, R443). A
home counts the requests of a node and moves the line to the node of the fourth in a row (R131, R132). The order of the answers of TLBI, a
near-bank unit's hold before a pinned line before FULL, is the model's (log entry 27). -/
def Obligations.ShootdownAndHomes : Prop :=
  ∀ s : State,
    (∀ a sa,
      let ill := s.trapped 1 0 (BitVec.ofNat 64 (2 ^ 63 + 0xFC * 256 + 7))
      s.privS = false → (∀ k ∈ [sa, a], assocGet s.me.streams k = none) → exec (.tlbiInv a sa) s = .next ill ∧ exec (.tlbiInvall a sa) s = .next ill ∧
        exec (.tlbiUnmap a sa) s = .next ill ∧ exec (.tlbiMove a sa) s = .next ill ∧ exec (.tlbiMovef a sa) s = .next ill ∧
        exec (.tlbiRel a sa) s = .next ill) ∧
    (∀ a sa p, s.privS = true → s.canAsk [sa] a → s.partOfCore s.curCore = some p → bits (s.me.g.get sa) 53 52 = 0 →
      let v := s.me.g.get sa
      let va := bits v 51 0
      let x := s.asked a
      let msg (kind : Nat) (w st : Word) : TlbiMsg := { part := p, kind := kind, va := w, dest := s.dest a, status := st }
      let sent (t : State) (m : TlbiMsg) : Prop :=
        t.agenda = s.agenda ++ (s.clustersOf p).map (fun c => .tlbiWalkerMessage m c) ∧
          t.tlbis = s.tlbis ++ [{ msg := m, clusters := s.clustersOf p }] ∧ t.me.g = s.me.g ∧ t.me.pc = nextPc s.me.pc s.me.lineN ∧
          (s.uline = [] → t.sameMem s) ∧ t.me.pend.getLsbD a = true
      (∃ t, exec (.tlbiInv a sa) s = .next t ∧ sent t (msg 0 v 0) ∧ t.holds = s.holds) ∧
      (∃ t, exec (.tlbiInvall a sa) s = .next t ∧ sent t (msg 1 0 0) ∧ t.holds = s.holds) ∧
      (∀ h, s.holdOn p va = some h → ∃ t, exec (.tlbiRel a sa) s = .next t ∧ sent t (msg 5 v 0) ∧
        t.holds = s.holds.filter (fun y => y != h)) ∧
      (s.holdOn p va = none → ∃ t, exec (.tlbiRel a sa) s = .next t ∧ sent t (msg 5 v 2) ∧ t.holds = s.holds) ∧
      (∀ i kind, (i, kind) ∈ [(Instr.tlbiUnmap a sa, 2), (.tlbiMove a sa, 3), (.tlbiMovef a sa, 4)] →
        (∀ f u, x.walk (clusterOf s.curCore) p va = (.error (.fault f), u) → s.walkBusy (clusterOf s.curCore) p va = false →
          exec i s = .next (u.push (.pendingValueArrive (s.dest a) (.value 9))).onward) ∧
        (∀ l u, x.walk (clusterOf s.curCore) p va = (.ok l, u) → s.walkBusy (clusterOf s.curCore) p va = false →
          let vbase := va / 2 ^ l.logSize * 2 ^ l.logSize
          let busy := bit l.entry 6 && s.unitHolds l.frame
          let pinned := s.pins.any (pinOn p vbase l.logSize)
          let ends (st : Word) : Prop := exec i s = .next (u.push (.pendingValueArrive (s.dest a) (.value st))).onward
          (busy = true → ends (BitVec.ofNat 64 (2 ^ 63 + 3))) ∧
          (busy = false → kind = 3 → pinned = true → ends 3) ∧
          (busy = false → (kind = 3 → pinned = false) →
            (s.holdOn p va = none → s.holds.length < 8 → ∃ t h, exec i s = .next t ∧ sent t (msg kind v 0) ∧ t.holds = s.holds ++ [h] ∧
              h.part = p ∧ h.vbase = vbase ∧ h.logSize = l.logSize ∧ h.core = s.curCore ∧ h.ctx = s.curCtx ∧
              t.pins = s.pins.filter (fun y => !pinOn p vbase l.logSize y)) ∧
            ((s.holdOn p va).isSome = true ∨ 8 ≤ (s.holds.filter (fun h => h.part == p)).length → ends 1))))) ∧
    (∀ (t : TlbiMsg) cl, ∃ u, exec (.tlbiWalkerMessage t cl) s = .next u ∧ u.agenda = s.agenda ++ [.tlbiAcknowledge t cl] ∧
      u.mem = s.mem ∧ (∀ e, e ∈ (u.clusterAt cl).tlb2 ↔ e ∈ (s.clusterAt cl).tlb2 ∧ tlbiHits t e = false) ∧
      ∀ core, core / 8 = cl → ∀ e, e ∈ (u.coreAt core).tlb ↔ e ∈ (s.coreAt core).tlb ∧ tlbiHits t e = false) ∧
    (∀ (m : TlbiMsg) c,
      (s.tlbis = [{ msg := m, clusters := [c] }] → exec (.tlbiAcknowledge m c) s =
        .next { s with tlbis := [], agenda := s.agenda ++ [.pendingValueArrive m.dest (.value m.status)] }) ∧
      (∀ d, c ≠ d → s.tlbis = [{ msg := m, clusters := [c, d] }] → exec (.tlbiAcknowledge m c) s =
        .next { s with tlbis := [{ msg := m, clusters := [d] }] }) ∧
      (s.tlbis = [] → exec (.tlbiAcknowledge m c) s = .next s)) ∧
    (∀ cl (va : Word) p, (s.clusterAt cl).walkq = [(p, bits va 51 12)] →
      let x := s.modCluster cl (fun c => { c with walkq := [] })
      (∀ l u, s.holdOn p (bits va 51 12 * 4096) = none → x.walk cl p (bits va 51 12 * 4096) = (.ok l, u) →
        ∃ t e, exec (.walkComplete cl va) s = .next t ∧ (t.clusterAt cl).walkq = [] ∧
          e ∈ (t.clusterAt cl).tlb2 ∧ e.logSize = l.logSize ∧ e.vbase = bits va 51 12 * 4096 / 2 ^ l.logSize * 2 ^ l.logSize ∧
          t.mem = u.mem) ∧
      (∀ f u, s.holdOn p (bits va 51 12 * 4096) = none → x.walk cl p (bits va 51 12 * 4096) = (.error (.fault f), u) →
        exec (.walkComplete cl va) s = .next u) ∧
      (∀ h, s.holdOn p (bits va 51 12 * 4096) = some h → exec (.walkComplete cl va) s = .next s)) ∧
    (∀ line node, s.pins = [] → s.uline = [] →
      let h := s.home.get line
      let home := homeSlice (line * 64)
      (h.node = node → h.run < 3 → ∃ t, exec (.homeRequest line node) s = .next t ∧ t.home.get line = { h with run := h.run + 1 }) ∧
      (h.node ≠ node → ∃ t, exec (.homeRequest line node) s = .next t ∧ t.home.get line = { h with node := node, run := 1 }) ∧
      (h.node = node → 3 ≤ h.run → node < 64 → node ≠ home.2 → s.holderOf line = home.2 →
        s.forwards.get (home.1 * 64 + home.2) < 2048 → ∃ t, exec (.homeRequest line node) s = .next t ∧
          t.holderOf line = node ∧ t.forwards.get (home.1 * 64 + home.2) = s.forwards.get (home.1 * 64 + home.2) + 1 ∧ t.mem = s.mem))

/-! ## Messages and tasks -/

/-- MSEND buffers a message with its payload, handler and sender, and traps on the ninth; MSENDA sends one at once and awaits its
acknowledgement; MREPLY answers MSG.SRC; MDEFER marks the handler's entry (R111, R115, R116, R416 to R420). A message for this
core's partition with room enters its queue and is accepted, is refused FULL without room and PART for another partition, and is
counted and discarded when malformed (R111, R112). An acknowledgement answers its MSENDA or frees or delays its outgoing entry, and one
with outcome 3 is malformed (R111, R115). -/
def Obligations.Messages : Prop :=
  ∀ s : State,
    (∀ a sa sb sc len hi ch off (bs : List Byte), s.canRun [sa, sb, sc] [] = true →
      let d := s.me.g.get sa
      let h := s.me.g.get sb
      (8 ≤ s.me.sendBuf.length → exec (.msend sa sb sc len hi ch) s = .next (s.trapped 1 0 1)) ∧
      (bits h 63 52 = 0 → bit h 5 = false → bits d 53 52 = 1 → bits d 51 40 < s.devices → bits d 39 28 < 1920 →
      (len = 0 ∧ bs = [] ∨ 0 < len ∧ s.blockAt (s.me.g.get sc) 8 len off ∧ bs = s.block off len) →
      (s.me.sendBuf.length < 8 → ∃ t o, exec (.msend sa sb sc len hi ch) s = .next t ∧ t.me.sendBuf = s.me.sendBuf ++ [o] ∧
        o.msg.payload = bs ∧ o.msg.hpc = bits h 51 0 ∧ o.msg.kind = 0 ∧ o.msg.len = len ∧ o.msg.hi = hi ∧
        o.msg.score = s.curCore ∧ o.msg.sdev = s.dev ∧ o.msg.part = s.curPart ∧ bits o.dest 51 28 = bits d 51 28 ∧ o.sent = false ∧
        t.passed s s.me.g) ∧
      (s.curCtx < 4 → s.canAsk [sa, sb, sc] a → bits d 51 40 = s.dev → ∃ t m, exec (.msenda a sa sb sc len hi ch) s = .next t ∧
        t.agenda = s.agenda ++ [.messageArrive (bits d 39 28) m] ∧ m.ackreq = true ∧ m.payload = bs ∧ m.hpc = bits h 51 0 ∧
        m.seqn = (s.coreAt s.curCore).seqn ∧ (t.coreAt s.curCore).seqn = m.seqn + 1 ∧
        (t.coreAt s.curCore).sendaPend = (s.coreAt s.curCore).sendaPend ++ [(m.seqn, s.dest a, d)] ∧
        t.me.pend.getLsbD a = true ∧ t.passed s s.me.g))) ∧
    (∀ sa len off, s.canRun [sa] [] = true →
      (s.curCtx < 6 → exec (.mreply sa len) s = .next (s.trapped 1 0 0) ∧ exec .mdefer s = .next (s.trapped 1 0 0)) ∧
      (6 ≤ s.curCtx → exec .mdefer s = .next (s.modMe (fun c => { c with deferred := true })).onward) ∧
      (6 ≤ s.curCtx → 8 ≤ len → len ≤ 64 → s.blockAt (s.me.g.get sa) 8 len off → s.me.sendBuf.length < 8 →
        let h := wordAt (s.block off len) 0
        bits h 63 52 = 0 → bit h 5 = false → ∃ t o, exec (.mreply sa len) s = .next t ∧ t.me.sendBuf = s.me.sendBuf ++ [o] ∧
          o.msg.kind = 1 ∧ o.msg.payload = s.block off len ∧ o.msg.hpc = bits h 51 0 ∧
          bits o.dest 51 40 = bits s.me.msgr.src 22 11 ∧ bits o.dest 39 28 = bits s.me.msgr.src 10 0 ∧ t.passed s s.me.g)) ∧
    (∀ core (m : Msg) p, m.sdev = s.dev → s.partOfCore core = some p → (s.part.get p).state = 2 →
      let c := s.coreAt core
      let q (x : Core) : List MsgEntry := if m.hi then x.highq else x.lowq
      let cap := if m.hi then c.highCap else c.lowCap
      let ack (n : Nat) : Event := .acknowledgementArrive m.score { outcome := n, seqn := m.seqn, sdev := s.dev, score := core }
      (malformedMsg m = true → ∃ t, exec (.messageArrive core m) s = .next t ∧ (t.coreAt core).merr = min 65535 (c.merr + 1) ∧
        q (t.coreAt core) = q c ∧ t.agenda = s.agenda) ∧
      (malformedMsg m = false → m.kind = 2 → exec (.messageArrive core m) s = .next (s.push (.acknowledgementArrive core
        { outcome := m.hpc % 4, seqn := m.seqn, sdev := s.dev, score := m.score }))) ∧
      (malformedMsg m = false → m.kind < 2 →
        (m.part ≠ p → ∃ t, exec (.messageArrive core m) s = .next t ∧ (t.coreAt core).merr = min 65535 (c.merr + 1) ∧
          q (t.coreAt core) = q c ∧ t.agenda = s.agenda ++ [ack 2]) ∧
        (m.part = p → (q c).length < cap → ∃ t e, exec (.messageArrive core m) s = .next t ∧ e ∈ q (t.coreAt core) ∧ e.msg = m ∧
          e.state = 0 ∧ (∀ x ∈ q c, x ∈ q (t.coreAt core)) ∧ (q (t.coreAt core)).length = (q c).length + 1 ∧
          t.agenda = s.agenda ++ [ack 0] ∧ t.mem = s.mem) ∧
        (m.part = p → cap ≤ (q c).length → exec (.messageArrive core m) s = .next ((s.noteArrival core m).push (ack 1))))) ∧
    (∀ core (a : Ack), a.outcome = 3 → ∃ t, exec (.acknowledgementArrive core a) s = .next t ∧
      (t.coreAt core).merr = min 65535 ((s.coreAt core).merr + 1) ∧ (t.coreAt core).sendaPend = (s.coreAt core).sendaPend ∧
      (t.coreAt core).outq = (s.coreAt core).outq ∧ t.agenda = s.agenda) ∧
    (∀ core (a : Ack) d w, a.outcome < 3 → (s.coreAt core).sendaPend = [(a.seqn, d, w)] → bits w 51 40 = a.sdev → bits w 39 28 = a.score →
      ∃ t, exec (.acknowledgementArrive core a) s = .next t ∧
      (t.coreAt core).sendaPend = [] ∧ t.agenda = s.agenda ++ [.pendingValueArrive d (.value
        (if a.outcome = 0 then 0 else if a.outcome = 1 then 3 else BitVec.ofNat 64 (2 ^ 63 + 3)))]) ∧
    (∀ core (a : Ack) o, a.outcome < 3 → (s.coreAt core).sendaPend = [] → (s.coreAt core).outq = [o] → o.sent = true → o.msg.seqn = a.seqn →
      bits o.dest 51 40 = a.sdev → bits o.dest 39 28 = a.score → ∃ t, exec (.acknowledgementArrive core a) s = .next t ∧
        t.agenda = s.agenda ∧ (t.coreAt core).outq = if a.outcome = 1 then
          [{ o with sent := false, notBefore := s.coreAc core + o.backoff, backoff := min 8192 (2 * o.backoff) }] else []) ∧
    (∀ core o, (s.coreAt core).outq = [o] → o.sent = false → bits o.dest 51 40 = s.dev →
      (o.backoff = 64 → ∃ t,
        let m := { o.msg with seqn := (s.coreAt core).seqn }
        exec (.outgoingSend core) s = .next t ∧ t.agenda = s.agenda ++ [.messageArrive (bits o.dest 39 28) m] ∧
          (t.coreAt core).outq = [{ o with sent := true, msg := m }] ∧ (t.coreAt core).seqn = (s.coreAt core).seqn + 1) ∧
      (64 < o.backoff → o.notBefore ≤ s.coreAc core → ∃ t, exec (.outgoingResend core o.msg.seqn) s = .next t ∧
        t.agenda = s.agenda ++ [.messageArrive (bits o.dest 39 28) o.msg] ∧ (t.coreAt core).outq = [{ o with sent := true }]))

/-- An idle handler context takes a message: g8 to g15 hold its payload, g7 its time or all ones, the PC its handler, and MSG.ID,
MSG.SRC and MSG.LEN its header (R114). An arrival reserves an entry, its payload is written, the entry becomes ready, and an idle
arrival context takes it with g8 to g11 and all ones in g7 (R118); a full queue makes the delivery wait. A queue with an aborted entry
starts no other (R117, R118). -/
def Obligations.HandlersAndArrivals : Prop :=
  ∀ s : State,
    (∀ core ctx e, (ctx = 6 ∨ ctx = 7) → (s.ctxAt core ctx).phase = .idle → e.state = 0 →
      let q (c : Core) : List MsgEntry := if ctx = 7 then c.highq else c.lowq
      q (s.coreAt core) = [e] → ∃ t, exec (.handlerStart core ctx) s = .next t ∧
        let c := t.ctxAt core ctx
        c.phase = .running ∧ c.pc = BitVec.ofNat 64 e.msg.hpc ∧ c.work = .message e.uid ∧
        (∀ j, j < 8 → c.g.get (8 + j) = wordAt (e.msg.payload ++ List.replicate (64 - e.msg.payload.length) 0) (8 * j)) ∧
        c.g.get 7 = (if e.msg.timed then e.msg.ts else BitVec.allOnes 64) ∧ (∀ j, j < 7 → c.g.get j = 0) ∧
        c.msgr.src = BitVec.ofNat 64 (e.msg.sdev * 2 ^ 11 + e.msg.score) ∧ c.msgr.len = BitVec.ofNat 64 e.msg.len ∧
        c.msgr.id = msgId e.msg ∧ c.vwin = 0 ∧ c.shotEnd = some (s.coreAc core + 2 ^ 16) ∧ q (t.coreAt core) = [{ e with state := 1 }] ∧
        t.otherCtxs s core ctx ∧ t.mem = s.mem) ∧
    (∀ (d : Arrival) p, s.partOfCore d.core = some p → (s.part.get p).state = 2 →
      (8 ≤ (s.coreAt d.core).arrq.length →
        exec (.arrivalEntryReserve d) s = .next { s with agenda := .arrivalEntryReserve d :: s.agenda }) ∧
      ((s.coreAt d.core).arrq.length < 8 → s.still → ∃ t e, exec (.arrivalEntryReserve d) s = .next t ∧
        (t.coreAt d.core).arrq = (s.coreAt d.core).arrq ++ [e] ∧ e.arr = d ∧ e.ready = false ∧ e.state = 0 ∧
        t.agenda = s.agenda ++ [.arrivalReady d] ∧ t.stored s (spadLoc d.core (bits d.addr 17 0)) d.bytes)) ∧
    (∀ (d : Arrival) e, (s.coreAt d.core).arrq = [e] → e.ready = false → e.arr.addr = d.addr → e.arr.tag = d.tag → e.arr.src = d.src →
      ∃ t, exec (.arrivalReady d) s = .next t ∧ (t.coreAt d.core).arrq = [{ e with ready := true, arr := d }] ∧ t.mem = s.mem ∧
        ∀ k, k < 8 → (s.ctxAt d.core k).phase ≠ .idle → (t.ctxAt d.core k).latch.getLsbD 3 = true) ∧
    (∀ core ctx e, (s.ctxAt core ctx).phase = .idle → (s.coreAt core).arrq = [e] → e.ready = true → e.state = 0 →
      ∃ t, exec (.arrivalHandlerStart core ctx) s = .next t ∧
        let c := t.ctxAt core ctx
        c.phase = .running ∧ c.pc = e.arr.hpc ∧ c.work = .arrival e.uid ∧ c.g.get 8 = e.arr.addr ∧ c.g.get 9 = e.arr.len ∧
        c.g.get 10 = e.arr.tag ∧ c.g.get 11 = e.arr.extra ∧ c.g.get 7 = BitVec.allOnes 64 ∧ (∀ j, j < 7 → c.g.get j = 0) ∧
        c.msgr.src = e.arr.src ∧ c.shotEnd = some (s.coreAc core + 2 ^ 16) ∧ (t.coreAt core).arrq = [{ e with state := 1 }] ∧ t.otherCtxs s core ctx ∧ t.mem = s.mem) ∧
    (∀ core ctx,
      ((∃ e ∈ (if ctx = 7 then (s.coreAt core).highq else (s.coreAt core).lowq), e.state = 2) → exec (.handlerStart core ctx) s = .next s) ∧
      ((∃ e ∈ (s.coreAt core).arrq, e.state = 2) → exec (.arrivalHandlerStart core ctx) s = .next s))

/-- SPAWN appends an entry to the own task queue, or answers FULL; SPAWNT places an ordered task at its own cluster when there is room, and
is REFUSED below the spawner's time or GVT; POPT takes the tail of the own queue and STEAL the head of another's, and the entry taken counts
no more as bound to its sealed region (R67); TABORT ends the task; LNCH submits a record to a queue of the partition (R92 to R96, R421 to
R426). -/
def Obligations.SpawnsAndSteals : Prop :=
  ∀ s : State,
    (∀ a sa sb off, s.canRun [sa] [a] = true → s.blockAt (s.me.g.get sa) 32 32 off →
      let b := s.block off 32
      let q := (s.coreAt s.curCore).taskq
      let isEntry (e : TaskEntry) : Prop := e.entry = wordAt b 0 ∧ e.arg = wordAt b 8 ∧ e.cnt = wordAt b 16 ∧
        e.shot = fieldAt b 24 1 % 32 ∧ e.idx = fieldAt b 28 4
      ((bit (wordAt b 0) 5 = true ∨ bits (wordAt b 0) 63 52 ≠ 0) → exec (.spawn a sa) s = .next (s.trapped 1 0 0)) ∧
      (bit (wordAt b 0) 5 = false → bits (wordAt b 0) 63 52 = 0 → bits (wordAt b 16) 2 0 = 0 →
        (fieldAt b 24 1 % 32 = 0 ∨ 10 ≤ fieldAt b 24 1 % 32 ∧ fieldAt b 24 1 % 32 ≤ 30) → fieldAt b 24 2 / 32 % 32 = 0 →
        fieldAt b 26 2 = 0 →
        (q.length < 128 → ∃ t e, exec (.spawn a sa) s = .next t ∧ t.wentOn s (s.me.g.set a 0) ∧ t.sameMem s ∧
          (t.coreAt s.curCore).taskq = q ++ [e] ∧ isEntry e) ∧
        (128 ≤ q.length → exec (.spawn a sa) s = .next (s.setG a 1).onward) ∧
        (s.canAsk [sa, sb] a →
          let ts := s.me.g.get sb
          let cl := clusterOf s.curCore
          let early := (s.me.ident.vtime ≠ BitVec.allOnes 64 ∧ ts.toNat < s.me.ident.vtime.toNat) ∨
            ts.toNat < (s.umpire.get s.curPart).gvt.toNat
          (early → exec (.spawnt a sa sb) s = .next (s.setG a 3).onward) ∧
          (¬ early → (s.clusterAt cl).ord.length < 64 → ∃ t o, exec (.spawnt a sa sb) s = .next t ∧
            (t.clusterAt cl).ord = (s.clusterAt cl).ord ++ [o] ∧ o.ts = ts ∧ o.spCore = s.curCore ∧ o.state = .queued ∧
            isEntry o.entry ∧ t.agenda = s.agenda ++ [.pendingValueArrive (s.dest a) (.value 0)] ∧
            t.me.pend.getLsbD a = true ∧ t.passed s s.me.g)))) ∧
    (∀ a sa off, s.canRun [sa] [a] = true → s.blockAt (s.me.g.get sa) 32 32 off →
      ((s.coreAt s.curCore).taskq = [] → exec (.popt a sa) s = .next (s.setG a 2).onward) ∧
      (∀ es e, (s.coreAt s.curCore).taskq = es ++ [e] → ∃ t, exec (.popt a sa) s = .next t ∧ t.wentOn s (s.me.g.set a 0) ∧
        (t.coreAt s.curCore).taskq = es ∧
        (e.sreg ≠ 0 → (t.sealed_.get (e.sreg - 1)).count = (s.sealed_.get (e.sreg - 1)).count - 1) ∧ t.stored s (spadLoc s.curCore off)
          (bytesOf e.entry.toNat 8 ++ bytesOf e.arg.toNat 8 ++ bytesOf e.cnt.toNat 8 ++
            bytesOf (e.shot % 32 + e.origq % 64 * 2 ^ 10 + e.idx % 2 ^ 32 * 2 ^ 32) 8))) ∧
    (∀ a sa sb off, s.canAsk [sa, sb] a → s.blockAt (s.me.g.get sb) 32 32 off → (s.me.g.get sa).toNat < 1920 →
      let v := (s.me.g.get sa).toNat
      (s.partOfCore v = s.partOfCore s.curCore → exec (.steal a sa sb) s =
        .next ((s.asked a).push (.victimQueueSteal { dest := s.dest a, victim := v, block := off })).onward) ∧
      (s.partOfCore v ≠ s.partOfCore s.curCore → exec (.steal a sa sb) s = .next (s.setG a 3).onward)) ∧
    (∀ q : StealReq, s.still →
      ((s.coreAt q.victim).taskq = [] → exec (.victimQueueSteal q) s = .next (s.push (.pendingValueArrive q.dest (.value 2)))) ∧
      (∀ e r, (s.coreAt q.victim).taskq = e :: r → ∃ t, exec (.victimQueueSteal q) s = .next t ∧
        (t.coreAt q.victim).taskq = r ∧ .pendingValueArrive q.dest (.value 0) ∈ t.agenda ∧
        (e.sreg = 0 → t.agenda = s.agenda ++ [.pendingValueArrive q.dest (.value 0)]) ∧
        (e.sreg ≠ 0 → (t.sealed_.get (e.sreg - 1)).count = (s.sealed_.get (e.sreg - 1)).count - 1) ∧
        t.stored s (spadLoc q.dest.core q.block) e.bytes)) ∧
    ((4 ≤ s.curCtx ∨ s.taskOf s.curCore s.curCtx = none) → exec .tabort s = .next (s.trapped 1 0 0)) ∧
    (∀ id x, s.curCtx < 4 → s.taskOf s.curCore s.curCtx = some (id, x) → s.ordOf s.curCore s.curCtx = none →
      x.threads = [(s.curCore, s.curCtx)] → ∃ t, exec .tabort s = .next t ∧ t.me.phase = .ended ∧ t.me.sendBuf = [] ∧
        Event.taskEnd id ∈ t.agenda ∧ t.mem = s.mem) ∧
    (∀ a sa sb off, s.canAsk [sa, sb] a → s.blockAt (s.me.g.get sa) 64 64 off →
      let q := (s.me.g.get sb).toNat
      (q < 64 → bit (s.part.get s.curPart).qmask q = true → exec (.lnch a sa sb) s = .next ((s.asked a).push (.launchSubmit
        { q := q, part := s.curPart, record := s.block off 64, reply := some (s.dest a), host := none })).onward) ∧
      ((64 ≤ q ∨ bit (s.part.get s.curPart).qmask q = false) → exec (.lnch a sa sb) s = .next (s.setG a 3).onward))

/-! ## The tuple space -/

/-- PUTK, RDK, TAKK and KCANCEL send their request to the home of f0, here or at another device, and make their destination pending; a
payload that is too long, a template without f0, or a span that the table does not hold is REFUSED at once; a misaligned payload traps
ALIGN, one that no address of device memory names XLATE, and a blocking request in a handler ILL (R151, R153, R154, R159, R165, R171, R410 to
R413). KRANGE writes the range table entry and TVER (R414), and KSPLIT, a supervisor's, sends its handoff (R415). -/
def Obligations.TupleRequests : Prop :=
  ∀ s : State,
    -- the core has no request of the span of `e` out at another device than `e` names
    let open_ (e : RangeEntry) : Prop := ∀ t ∈ s.sentTuples, t.1.core = s.curCore → e.lo ≤ t.2.1 → t.2.1 ≤ e.last → t.2.2 = e.dev
    -- the request `q`, the event `ev` at a home on this device, goes to the device that `e` names
    let goes (i : Instr) (a : Nat) (e : RangeEntry) (ev : TupleReq → Event) (ok : State → TupleReq → Prop) : Prop :=
      (e.dev = s.dev → ∃ t q, exec i s = .next t ∧ t.agenda = s.agenda ++ [ev q] ∧ ok t q ∧ q.part = s.curPart ∧ q.src = s.dest a ∧
        q.srcDev = s.dev ∧ t.me.pend.getLsbD a = true ∧ t.passed s s.me.g) ∧
      (e.dev ≠ s.dev → (s.fab.tx.get (streamNo e.dev 3)).held = [] → ∃ t q x, exec i s = .next t ∧ t.agenda = s.agenda ∧
        (t.fab.tx.get (streamNo e.dev 3)).held = [x] ∧ x.1.body = .tuple q ∧ x.1.type = 7 ∧ x.1.dst = e.dev ∧ ok t q ∧
        q.part = s.curPart ∧ q.src = s.dest a ∧ q.srcDev = s.dev ∧ t.me.pend.getLsbD a = true ∧ t.passed s s.me.g)
    (∀ a k r l, s.canAsk [k, k + 1, r, l] a →
      let key : Key := BitVec.ofNat 128 ((s.me.g.get k).toNat + (s.me.g.get (k + 1)).toNat * 2 ^ 64)
      let p := s.me.g.get r
      let len := (s.me.g.get l).toNat
      let legal := len = 0 ∨ bits p 5 0 = 0 ∧ (bits p 53 52 = 0 ∧ bits p 51 40 = 0 ∨ bits p 53 52 = 2)
      let ref : Word := if len = 0 then 0 else if bits p 53 52 = 2 then p else
        BitVec.ofNat 64 (bits p 63 54 * 2 ^ 54 + 2 * 2 ^ 52 + s.dev * 2 ^ 40 + bits p 39 0)
      (262144 < len → exec (.putk a k r l) s = .next (s.setG a 3).onward) ∧
      (len ≤ 262144 → legal → s.rangeOf s.curPart (f0Of key) = none → exec (.putk a k r l) s = .next (s.setG a 3).onward) ∧
      (0 < len → len ≤ 262144 → bits p 5 0 ≠ 0 → exec (.putk a k r l) s = .next (s.trapped 6 p 64)) ∧
      (0 < len → len ≤ 262144 → bits p 5 0 = 0 → (bits p 53 52 = 0 ∧ bits p 51 40 ≠ 0 ∨ bits p 53 52 = 1 ∨ bits p 53 52 = 3) →
        exec (.putk a k r l) s = .next (s.trapped 4 p 0)) ∧
      (∀ e, len ≤ 262144 → legal → s.rangeOf s.curPart (f0Of key) = some e → open_ e →
        goes (.putk a k r l) a e .tuplePut (fun _ q => q.kind = .put ∧ q.key = key ∧ q.ref = ref ∧ q.len = len))) ∧
    (∀ a sa, s.canAsk [sa] a → 4 ≤ s.curCtx →
      exec (.rdkB a sa) s = .next (s.trapped 1 0 0) ∧ exec (.takkB a sa) s = .next (s.trapped 1 0 0)) ∧
    (∀ a sa off, s.canAsk [sa] a → s.blockAt (s.me.g.get sa) 64 64 off →
      let b := s.block off 64
      let doff := fieldAt b 32 4
      let cap := fieldAt b 36 4
      let tcore := fieldAt b 40 2
      let key : Key := BitVec.ofNat 128 (fieldAt b 0 16)
      let hpc := wordAt b 56
      doff % 32 = 0 → cap ≤ 262144 → fieldAt b 42 6 = 0 → doff + 32 + cap ≤ 2 ^ 18 →
        (0x3C000 < doff + 32 + cap → s.logInUse s.curPart = false) →
        let here := tcore = 0 ∧ wordAt b 48 = 0 ∧ hpc = 0
        let there := tcore < 1920 ∧ s.partOfCore tcore = s.partOfCore s.curCore ∧ hpc ≠ 0 ∧ bit hpc 5 = false ∧ bits hpc 63 52 = 0
        (fieldAt b 16 4 ≠ 0xFFFFFFFF ∨ s.rangeOf s.curPart (f0Of key) = none →
          (here → exec (.rdkP a sa) s = .next (s.setG a 3).onward ∧ exec (.takkP a sa) s = .next (s.setG a 3).onward) ∧
          (here → s.curCtx < 4 →
            exec (.rdkB a sa) s = .next (s.setG a 3).onward ∧ exec (.takkB a sa) s = .next (s.setG a 3).onward) ∧
          (there → exec (.rdkC a sa) s = .next (s.setG a 3).onward ∧ exec (.takkC a sa) s = .next (s.setG a 3).onward)) ∧
        (∀ e, fieldAt b 16 4 = 0xFFFFFFFF → s.rangeOf s.curPart (f0Of key) = some e → open_ e →
          let asks (kind : TupleKind) (mode : Nat) (q : TupleReq) : Prop := q.kind = kind ∧ q.mode = mode ∧ q.key = key ∧
            q.mask = BitVec.ofNat 128 (fieldAt b 16 16) ∧ q.doff = doff ∧ q.cap = cap ∧ q.tcore = tcore ∧ q.tag = wordAt b 48 ∧
            q.hpc = if mode = 0 then s.me.pc else hpc
          (here → goes (.rdkP a sa) a e .tupleReadTake (fun t q => asks .read 1 q ∧ t.me.blocked = s.me.blocked) ∧
            goes (.takkP a sa) a e .tupleReadTake (fun t q => asks .take 1 q ∧ t.me.blocked = s.me.blocked)) ∧
          (here → s.curCtx < 4 →
            goes (.rdkB a sa) a e .tupleReadTake (fun t q => asks .read 0 q ∧ t.me.blocked = s.me.blocked ++ [q]) ∧
            goes (.takkB a sa) a e .tupleReadTake (fun t q => asks .take 0 q ∧ t.me.blocked = s.me.blocked ++ [q])) ∧
          (there → goes (.rdkC a sa) a e .tupleReadTake (fun t q => asks .read 2 q ∧ t.me.blocked = s.me.blocked) ∧
            goes (.takkC a sa) a e .tupleReadTake (fun t q => asks .take 2 q ∧ t.me.blocked = s.me.blocked)))) ∧
    (∀ a sa sb, s.canAsk [sa, sb] a →
      let f := bits (s.me.g.get sa) 31 0
      (s.rangeOf s.curPart f = none → exec (.kcancel a sa sb) s = .next (s.setG a 3).onward) ∧
      (∀ e, s.rangeOf s.curPart f = some e → open_ e →
        goes (.kcancel a sa sb) a e .tupleCancel (fun _ q => q.kind = .cancel ∧ f0Of q.key = f ∧ q.tag = s.me.g.get sb))) ∧
    (∀ a sa sb off, s.canRun [sa, sb] [a] = true → s.blockAt (s.me.g.get sb) 32 32 off →
      let f := bits (s.me.g.get sa) 31 0
      let tail := bytesOf (s.range.get s.curPart).tver.toNat 4 ++ List.replicate 12 0
      (∀ e, s.rangeOf s.curPart f = some e → ∃ t, exec (.krange a sa sb) s = .next t ∧
        t.wentOn s (s.me.g.set a (if e.moving then 10 else 0)) ∧ t.stored s (spadLoc s.curCore off)
          (bytesOf (e.lo * 2 ^ 96 + e.last * 2 ^ 64 + e.dev * 2 ^ 52 + e.moving.toNat * 2 + 1) 16 ++ tail)) ∧
      (s.rangeOf s.curPart f = none → ∃ t, exec (.krange a sa sb) s = .next t ∧ t.wentOn s (s.me.g.set a 0) ∧
        t.stored s (spadLoc s.curCore off) (List.replicate 16 0 ++ tail))) ∧
    (∀ a sa off,
      (s.privS = false → (∀ k ∈ [sa, a], assocGet s.me.streams k = none) → exec (.ksplit a sa) s = .next (s.trapped 1 0 (BitVec.ofNat 64 (2 ^ 63 + 0xD5 * 256 + 7)))) ∧
      (s.privS = true → s.canAsk [sa] a → s.blockAt (s.me.g.get sa) 32 32 off →
        let b := s.block off 32
        let h : Handoff := { part := fieldAt b 12 1, lo := fieldAt b 0 4, last := fieldAt b 4 4, a := fieldAt b 8 2, b := fieldAt b 10 2,
                             src := s.dest a, srcDev := s.dev }
        fieldAt b 8 2 < 2 ^ 12 → fieldAt b 10 2 < 2 ^ 12 → fieldAt b 12 1 < 16 → fieldAt b 13 19 = 0 →
        let legal := h.lo ≤ h.last ∧ (s.privM = true ∨ h.part = s.curPart) ∧ h.a < s.devices ∧ h.b < s.devices
        (¬ legal → exec (.ksplit a sa) s = .next (s.setG a 3).onward) ∧
        (legal → h.a = s.dev → exec (.ksplit a sa) s =
          .next (({ s.asked a with splits := s.splits ++ [h] } : State).push (.handoffSplit h)).onward) ∧
        (legal → h.a ≠ s.dev → (s.fab.tx.get (streamNo h.a 3)).held = [] → ∃ t x, exec (.ksplit a sa) s = .next t ∧
          t.splits = s.splits ++ [h] ∧ t.agenda = s.agenda ∧ (t.fab.tx.get (streamNo h.a 3)).held = [x] ∧ x.1.body = .ksplit h ∧
          x.1.dst = h.a ∧ t.me.pend.getLsbD a = true ∧ t.passed s s.me.g)))

/-- At its home a put is stored, or handed to the take that waits for it, or answered FULL; a read or take is handed the tuple that matches,
which a take removes; without one a poll is EMPTY, a blocking request waits and a continuation stands and answers OK; KCANCEL removes a
continuation, and a withdrawal its waiter, whose destination is no longer pending (R157, R159 to R161, R164, R165). A delivery to a blocking
or polling request writes the payload and then the record into the requester's scratchpad and makes its destination available; one to a
continuation starts an arrival with the record and payload; a payload that could not be read poisons the destination, and one to work that
has gone writes nothing (R162, R165). A MOVED notice makes the span name the other device (R171). -/
def Obligations.TupleHomesAndDeliveries : Prop :=
  (∀ (s : State) (r : TupleReq) (e : RangeEntry), s.rangeOf r.part (f0Of r.key) = some e → e.dev = s.dev → s.handoffs = [] →
    r.srcDev = s.dev →
    let n := sliceOf (f0Of r.key)
    let k := s.slice.get n
    let answer (st : Word) : Event := .pendingValueArrive r.src (.value st)
    (s.built r.part = false → exec (.tuplePut r) s = .next (s.push (answer 3)) ∧ exec (.tupleReadTake r) s = .next (s.push (answer 3)) ∧
      exec (.tupleCancel r) s = .next (s.push (answer 3))) ∧
    (s.built r.part = true →
      ((∀ w, w ∈ k.waiters ++ k.conts → w.req.part ≠ r.part ∨ (r.key ^^^ w.req.key) &&& w.req.mask ≠ 0) →
        (k.tuples.length + k.shadow.length + k.resIndex < 16384 → ∃ t x, exec (.tuplePut r) s = .next t ∧
          (t.slice.get n).tuples = k.tuples ++ [x] ∧ x.key = r.key ∧ x.part = r.part ∧ x.ref = r.ref ∧ x.len = r.len ∧
          t.agenda = s.agenda ++ [answer 0] ∧ t.mem = s.mem) ∧
        (16384 ≤ k.tuples.length + k.shadow.length + k.resIndex → exec (.tuplePut r) s = .next (s.push (answer 1)))) ∧
      (∀ w, k.waiters = [w] → k.conts = [] → w.req.kind = .take → w.req.part = r.part →
        (r.key ^^^ w.req.key) &&& w.req.mask = 0 → ∃ t d, exec (.tuplePut r) s = .next t ∧ (t.slice.get n).waiters = [] ∧
          (t.slice.get n).tuples = k.tuples ∧ t.agenda = s.agenda ++ [.tupleDeliveryComplete d, answer 0] ∧ d.req = w.req ∧
          d.tuple.key = r.key ∧ d.tuple.ref = r.ref ∧ d.tuple.len = r.len ∧ d.isTake = true) ∧
      (∀ x, (r.kind = .read ∨ r.kind = .take) → k.tuples = [x] → tplMatches r x = true → ∃ t d, exec (.tupleReadTake r) s = .next t ∧
        d.req = r ∧ d.tuple = x ∧ (d.isTake = true ↔ r.kind = .take) ∧ d.source = .memory ∧
        (t.slice.get n).tuples = (if r.kind = .take then [] else [x]) ∧
        t.agenda = s.agenda ++ .tupleDeliveryComplete d :: (if r.mode = 2 then [answer 0] else [])) ∧
      ((∀ x ∈ k.tuples, tplMatches r x = false) →
        (r.mode = 1 → exec (.tupleReadTake r) s = .next (s.push (answer 2))) ∧
        (r.mode = 0 → k.waiters.length + k.resWait < 4096 → ∃ t w, exec (.tupleReadTake r) s = .next t ∧
          (t.slice.get n).waiters = k.waiters ++ [w] ∧ w.req = r ∧ t.agenda = s.agenda ∧ t.mem = s.mem) ∧
        (r.mode = 2 → k.conts.length + k.resCont < 4096 → ∃ t w, exec (.tupleReadTake r) s = .next t ∧
          (t.slice.get n).conts = k.conts ++ [w] ∧ w.req = r ∧ t.agenda = s.agenda ++ [answer 0] ∧ t.mem = s.mem)) ∧
      (∀ w, k.conts = [w] → w.req.part = r.part → f0Of w.req.key = f0Of r.key → w.req.tag = r.tag → w.req.srcDev = r.srcDev →
        w.req.src.core = r.src.core → ∃ t, exec (.tupleCancel r) s = .next t ∧ (t.slice.get n).conts = [] ∧
          (t.slice.get n).tuples = k.tuples ∧ t.agenda = s.agenda ++ [answer 0]) ∧
      (k.conts = [] → exec (.tupleCancel r) s = .next (s.push (answer 2))) ∧
      (∀ w, k.waiters = [w] → w.req.src = r.src → w.req.srcDev = r.srcDev → w.req.key = r.key → r.mode ≠ 3 → r.src.reg < 16 →
        (∃ b ∈ (s.ctxAt r.src.core r.src.ctx).blocked, b.src = r.src) → ∃ t, exec (.tupleWithdraw r) s = .next t ∧
          (t.slice.get n).waiters = [] ∧ (t.ctxAt r.src.core r.src.ctx).pend.getLsbD r.src.reg = false ∧
          (t.ctxAt r.src.core r.src.ctx).g = (s.ctxAt r.src.core r.src.ctx).g ∧ t.mem = s.mem))) ∧
  (∀ s : State,
    (∀ (d : Delivery) (bs : List Byte) p, d.req.srcDev = s.dev →
      let r := d.req
      let loc := spadLoc r.src.core r.doff
      let record : List Byte := bytesOf d.tuple.key.toNat 16 ++ bytesOf d.tuple.ref.toNat 8 ++ bytesOf d.tuple.len 4 ++
        bytesOf ((if r.cap < d.tuple.len then 1 else 0) + (if d.isTake then 2 else 0)) 2 ++ bytesOf d.home 2
      (s.still → r.mode ≠ 2 → (s.ctxAt r.src.core r.src.ctx).pend.getLsbD r.src.reg = true → (s.ctxAt r.src.core r.src.ctx).serial = r.src.work →
        d.source = .bytes bs → bs ≠ [] →
        ∃ t, exec (.tupleDeliveryComplete d) s = .next t ∧ t.agenda = s.agenda ++ [.pendingValueArrive r.src (.value 0)] ∧
          t.mem = memWriteBytes (memWriteBytes s.mem (loc + 32) bs) loc record ∧ t.core = s.core) ∧
      (s.still → r.mode ≠ 2 → (s.ctxAt r.src.core r.src.ctx).pend.getLsbD r.src.reg = true → (s.ctxAt r.src.core r.src.ctx).serial = r.src.work →
        d.source = .memory → d.tuple.len = 0 →
        ∃ t, exec (.tupleDeliveryComplete d) s = .next t ∧ t.agenda = s.agenda ++ [.pendingValueArrive r.src (.value 0)] ∧
          t.stored s loc record ∧ t.core = s.core) ∧
      (r.mode = 2 → d.source = .bytes bs → ∃ t a, exec (.tupleDeliveryComplete d) s = .next t ∧
        t.agenda = s.agenda ++ [.arrivalEntryReserve a] ∧ a.core = r.tcore ∧ a.addr = BitVec.ofNat 64 (3 * 2 ^ 52 + r.doff) ∧
        a.len = BitVec.ofNat 64 (32 + bs.length) ∧ a.tag = r.tag ∧ a.hpc = r.hpc ∧ a.bytes = record ++ bs ∧ t.mem = s.mem) ∧
      (r.mode ≠ 2 → (s.ctxAt r.src.core r.src.ctx).serial ≠ r.src.work → d.source = .bytes bs →
        exec (.tupleDeliveryComplete d) s = .next (s.push (.pendingValueArrive r.src (.value 0)))) ∧
      (r.mode ≠ 2 → (s.ctxAt r.src.core r.src.ctx).pend.getLsbD r.src.reg = true →
        (s.ctxAt r.src.core r.src.ctx).serial = r.src.work → d.source = .fault p →
        exec (.tupleDeliveryComplete d) s = .next (s.push (.pendingValueArrive r.src (.poison p)))) ∧
      (r.mode ≠ 2 → (s.ctxAt r.src.core r.src.ctx).pend.getLsbD r.src.reg = false →
        (s.ctxAt r.src.core r.src.ctx).serial = r.src.work → d.source = .bytes bs →
        exec (.tupleDeliveryComplete d) s = .next s)) ∧
    (∀ part lo last dev e, (s.range.get part).entries = [e] → e.lo ≤ lo → lo ≤ last → last ≤ e.last →
      ∃ t, exec (.moved part lo last dev) s = .next t ∧ (t.range.get part).tver = (s.range.get part).tver + 1 ∧ t.mem = s.mem ∧
        (∀ f, lo ≤ f → f ≤ last → ∃ x, t.rangeOf part f = some x ∧ x.dev = dev) ∧
        ∀ f, (e.lo ≤ f ∧ f < lo ∨ last < f ∧ f ≤ e.last) → ∃ x, t.rangeOf part f = some x ∧ x.dev = e.dev))

/-- A handoff splits the entry that holds its span, marks it MOVING and copies the tuples to B, is refused where no entry does, then freezes
the span and asks B to reserve entries, cuts it over, and switches it to B, with its tuples, waiters and continuations gone from A, and OK;
given up, it restores the entry, serves what it queued, and answers its status. B gives up a handoff of a partition in which it already takes
part in one (log entry 66). B keeps the copies as shadows until the marker, gives up
with REFUSED or FULL what it cannot hold, accepts what it can, and takes the waiters and continuations (R168 to R172). -/
def Obligations.TupleHandoffs : Prop :=
  (∀ (s : State) (h : Handoff) (e : RangeEntry), (s.range.get h.part).entries = [e] → e.lo ≤ h.lo → h.lo ≤ h.last → h.last ≤ e.last →
    h.a = s.dev → h.b ≠ s.dev →
    let answer (st : Word) : Event := .pendingValueArrive h.src (.value st)
    let names (t : State) (dev : Nat) : Prop := ∀ f, h.lo ≤ f → f ≤ h.last → ∃ x, t.rangeOf h.part f = some x ∧ x.dev = dev
    let sent (t : State) (n : Nat) : Prop :=
      (t.fab.tx.get (streamNo h.b 3)).next = (s.fab.tx.get (streamNo h.b 3)).next + BitVec.ofNat 32 n
    let refused := s.built h.part = false ∨ e.dev ≠ s.dev ∨ s.devices ≤ h.b
    (s.handoffs = [] →
      (¬ refused → ∃ t x, exec (.handoffSplit h) s = .next t ∧ t.handoffs = [x] ∧
        x.h = h ∧ x.step = 2 ∧ x.source = true ∧ x.queued = [] ∧ t.agenda = s.agenda ++ [.handoffFreeze h] ∧ names t s.dev ∧
        (∀ f, h.lo ≤ f → f ≤ h.last → ∃ y, t.rangeOf h.part f = some y ∧ y.moving = true) ∧ t.slice = s.slice ∧
        sent t (1 + (s.spanTuples h).length)) ∧
      (refused → h.srcDev = s.dev → exec (.handoffSplit h) s = .next (s.push (answer 3))) ∧
      (refused → h.srcDev ≠ s.dev → (s.fab.tx.get (streamNo h.srcDev 3)).held = [] → ∃ t x, exec (.handoffSplit h) s = .next t ∧
        t.agenda = s.agenda ∧ (t.fab.tx.get (streamNo h.srcDev 3)).held = [x] ∧ x.1.body = .reply h.src (.value 3))) ∧
    (∀ x, s.handoffs = [x] → x.h = h → x.source = true →
      (x.step ≠ 9 → h.srcDev = s.dev → exec (.handoffSplit h) s = .next (s.push (answer 3))) ∧
      (x.step = 2 → ∃ t, exec (.handoffFreeze h) s = .next t ∧ t.handoffs = [{ x with step := 3 }] ∧ t.agenda = s.agenda ∧
        t.slice = s.slice ∧ sent t 1) ∧
      (x.step = 3 → ∃ t, exec (.handoffCutover h) s = .next t ∧ t.handoffs = [{ x with step := 4 }] ∧
        t.agenda = s.agenda ++ [.handoffSwitch h] ∧ t.slice = s.slice ∧
        sent t (1 + ((List.range 32).flatMap (fun n => (s.slice.get n).spanParked h)).length)) ∧
      (x.step ≠ 9 → h.srcDev = s.dev → ∃ t, exec (.handoffSwitch h) s = .next t ∧ t.handoffs = [] ∧ t.agenda = s.agenda ++ [answer 0] ∧
        names t h.b ∧ ∀ n, n < 32 →
          (∀ y, y ∈ (t.slice.get n).tuples ↔ y ∈ (s.slice.get n).tuples ∧
            ¬ (y.part = h.part ∧ h.lo ≤ f0Of y.key ∧ f0Of y.key ≤ h.last)) ∧
          (∀ w, w ∈ (t.slice.get n).waiters ↔ w ∈ (s.slice.get n).waiters ∧ inSpan h w.req = false) ∧
          (∀ w, w ∈ (t.slice.get n).conts ↔ w ∈ (s.slice.get n).conts ∧ inSpan h w.req = false)) ∧
      (h.srcDev = s.dev → ∀ st, ∃ t, exec (.handoffAbandon h st) s = .next t ∧ t.handoffs = [] ∧ answer st ∈ t.agenda ∧ names t s.dev ∧
        (x.queued = [] → t.agenda = s.agenda ++ [answer st] ∧ t.slice = s.slice) ∧
        (∀ r, x.queued = [r] → r.kind = .put → h.lo ≤ f0Of r.key → f0Of r.key ≤ h.last → r.part = h.part → s.built h.part = true →
          let k := s.slice.get (sliceOf (f0Of r.key))
          k.waiters = [] → k.conts = [] → k.indexFull = false →
          ∃ y, (t.slice.get (sliceOf (f0Of r.key))).tuples = k.tuples ++ [y] ∧ y.key = r.key ∧ y.ref = r.ref)))) ∧
  (∀ (s : State) (h : Handoff),
    exec (.handoffCopyReceive h .accept) s = .next (s.push (.handoffCutover h)) ∧
    exec (.handoffCopyReceive h .switch) s = .next (s.push (.handoffSwitch h)) ∧
    (∀ st, exec (.handoffCopyReceive h (.abandon st)) s = .next (s.push (.handoffAbandon h st))) ∧
    (s.handoffs = [] → exec (.handoffFreeze h) s = .next s ∧ exec (.handoffCutover h) s = .next s ∧ exec (.handoffSwitch h) s = .next s ∧
      (∀ st, exec (.handoffAbandon h st) s = .next s) ∧ exec (.handoffCopyReceive h .killed) s = .next s) ∧
    (∀ key n, ∃ t, exec (.handoffCopyReceive h (.delete key n)) s = .next t ∧ t.agenda = s.agenda ∧
      ∀ y, y ∈ (t.slice.get (sliceOf (f0Of key))).shadow ↔ y ∈ (s.slice.get (sliceOf (f0Of key))).shadow ∧
        ¬ (y.key = key ∧ y.arrival = n ∧ y.part = h.part)) ∧
    (∀ y : Tuple, s.handoffs = [] →
      let n := sliceOf (f0Of y.key)
      let k := s.slice.get n
      let drops (st : Word) : Prop := (s.fab.tx.get (streamNo (if h.a = s.dev then h.b else h.a) 3)).held = [] →
        ∃ t x, exec (.handoffCopyReceive h (.copy y)) s = .next t ∧ t.agenda = s.agenda ∧
        t.handoffs = [{ h := h, step := 9, queued := [], reserved := [], source := false }] ∧
        (t.fab.tx.get (streamNo (if h.a = s.dev then h.b else h.a) 3)).held = [x] ∧ x.1.body = .handoff h (.abandon st)
      (s.built h.part = true → k.indexFull = false → ∃ t, exec (.handoffCopyReceive h (.copy y)) s = .next t ∧ t.agenda = s.agenda ∧
        (t.slice.get n).shadow = k.shadow ++ [y] ∧ (t.slice.get n).tuples = k.tuples ∧
        t.handoffs = [{ h := h, step := 2, queued := [], reserved := [], source := false }]) ∧
      (s.built h.part = true → exec (.handoffCopyReceive h .start) s =
        .next { s with handoffs := [{ h := h, step := 2, queued := [], reserved := [], source := false }] }) ∧
      (s.built h.part = false → drops 3) ∧
      (s.built h.part = true → k.indexFull = true → drops 1)) ∧
    (∀ x, s.handoffs = [x] → x.h.part = h.part → sameHandoff x.h h = false → x.step ≠ 9 →
      ∃ t, exec (.handoffCopyReceive h .start) s = .next t ∧
        t.handoffs = [x, { h := h, step := 9, queued := [], reserved := [], source := false }]) ∧
    (∀ x, s.handoffs = [x] → x.h = h → x.source = false →
      (∀ st, ∃ t, exec (.handoffAbandon h st) s = .next t ∧ t.handoffs = [] ∧ t.agenda = s.agenda ∧ ∀ n, n < 32 →
        ∀ y ∈ (t.slice.get n).shadow, ¬ (y.part = h.part ∧ h.lo ≤ f0Of y.key ∧ f0Of y.key ≤ h.last)) ∧
      (x.step = 9 → ∀ y w, exec (.handoffCopyReceive h (.copy y)) s = .next s ∧ exec (.handoffCopyReceive h .marker) s = .next s ∧
        exec (.handoffCopyReceive h (.waiter w)) s = .next s ∧ exec (.handoffSwitch h) s = .next s) ∧
      (x.step ≠ 9 →
        (∀ e, h.b = s.dev → (s.range.get h.part).entries = [e] → e.lo ≤ h.lo → h.lo ≤ h.last → h.last ≤ e.last →
          ∃ t, exec (.handoffSwitch h) s = .next t ∧ t.handoffs = [] ∧ t.agenda = s.agenda ∧ t.slice = s.slice ∧
            ∀ f, h.lo ≤ f → f ≤ h.last → ∃ y, t.rangeOf h.part f = some y ∧ y.dev = s.dev) ∧
        (∃ t, exec (.handoffCopyReceive h .marker) s = .next t ∧ t.agenda = s.agenda ∧ ∀ n, n < 32 →
          (∀ y, y ∈ (t.slice.get n).shadow ↔ y ∈ (s.slice.get n).shadow ∧ y.part ≠ h.part) ∧
          (∀ y ∈ (s.slice.get n).tuples, y ∈ (t.slice.get n).tuples) ∧
          (t.slice.get n).tuples.length = (s.slice.get n).tuples.length +
            ((s.slice.get n).shadow.filter (fun y => y.part == h.part)).length ∧
          ∀ y ∈ (s.slice.get n).shadow, y.part = h.part → ∃ z ∈ (t.slice.get n).tuples,
            z.key = y.key ∧ z.part = y.part ∧ z.ref = y.ref ∧ z.len = y.len ∧ z.putter = y.putter) ∧
        (∀ w : Waiter,
          let n := sliceOf (f0Of w.req.key)
          let k := s.slice.get n
          ∃ t, exec (.handoffCopyReceive h (.waiter w)) s = .next t ∧ t.agenda = s.agenda ∧
            (w.req.mode = 2 → (t.slice.get n).conts = k.conts ++ [{ w with arrival := k.next }] ∧ (t.slice.get n).resCont = k.resCont - 1) ∧
            (w.req.mode ≠ 2 → (t.slice.get n).waiters = k.waiters ++ [{ w with arrival := k.next }] ∧
              (t.slice.get n).resWait = k.resWait - 1)) ∧
        (∀ n w c, s.built h.part = true → s.handoffRoom h [(n, w, c)] = true →
          (s.fab.tx.get (streamNo (if h.a = s.dev then h.b else h.a) 3)).held = [] →
          ∃ t m, exec (.handoffCopyReceive h (.reserve [(n, w, c)])) s = .next t ∧ t.agenda = s.agenda ∧
            t.handoffs = [{ x with step := 3, reserved := [(n, w, c)] }] ∧ (t.slice.get n).resWait = (s.slice.get n).resWait + w ∧
            (t.slice.get n).resCont = (s.slice.get n).resCont + c ∧ (t.slice.get n).resIndex = (s.slice.get n).resIndex + (w + c) ∧
            (t.fab.tx.get (streamNo (if h.a = s.dev then h.b else h.a) 3)).held = [m] ∧ m.1.body = .handoff h .accept))))
end

