-- ==== Sys2Proof/Laws/State.lean ====
section
/-! SUPPORT. The sparse maps, and one lemma for each field of State under each named update. -/

namespace Sys2Proof

/-! ## Sparse maps -/

theorem assocGet_set_same {α : Type} (l : List (Nat × α)) (k : Nat) (x : α) : assocGet (assocSet l k x) k = some x := by
  induction l with
  | nil => simp [assocSet, assocGet]
  | cons p r ih =>
    obtain ⟨j, y⟩ := p
    unfold assocSet
    split
    · simp [assocGet]
    · split
      · simp [assocGet]
      · rename_i h1 h2
        simp [assocGet, h1, h2, ih]

theorem assocGet_set_ne {α : Type} (l : List (Nat × α)) (j k : Nat) (x : α) (h : j ≠ k) :
    assocGet (assocSet l k x) j = assocGet l j := by
  induction l with
  | nil => simp [assocSet, assocGet, h]
  | cons p r ih =>
    obtain ⟨i, y⟩ := p
    unfold assocSet
    split
    · rename_i h1
      by_cases h2 : j < k
      · simp [assocGet, h, h2, show ¬ j = i by omega, show j < i by omega]
      · simp [assocGet, h, h2]
    · split
      · rename_i h1 h2
        subst h2
        by_cases h3 : j < k <;> simp [assocGet, h, h3]
      · by_cases h3 : j = i
        · simp [assocGet, h3]
        · by_cases h4 : j < i
          · simp [assocGet, h3, h4]
          · simp [assocGet, h3, h4, ih]

@[simp] theorem Tab.get_set_same {α : Type} (t : Tab α) (k : Nat) (x : α) : (t.set k x).get k = x := by
  simp [Tab.get, Tab.set, assocGet_set_same]

theorem Tab.get_set_ne {α : Type} (t : Tab α) (j k : Nat) (x : α) (h : j ≠ k) : (t.set k x).get j = t.get j := by
  simp [Tab.get, Tab.set, assocGet_set_ne _ _ _ _ h]

theorem Tab.get_set {α : Type} (t : Tab α) (j k : Nat) (x : α) : (t.set k x).get j = if j = k then x else t.get j := by
  split
  · rename_i h
    rw [h, Tab.get_set_same]
  · rename_i h
    rw [Tab.get_set_ne _ _ _ _ h]

@[simp] theorem Tab.get_modify_same {α : Type} (t : Tab α) (k : Nat) (f : α → α) : (t.modify k f).get k = f (t.get k) := by
  simp [Tab.modify]

theorem Tab.get_modify_ne {α : Type} (t : Tab α) (j k : Nat) (f : α → α) (h : j ≠ k) : (t.modify k f).get j = t.get j := by
  simp [Tab.modify, Tab.get_set_ne _ _ _ _ h]

theorem Tab.get_modify {α : Type} (t : Tab α) (j k : Nat) (f : α → α) :
    (t.modify k f).get j = if j = k then f (t.get k) else t.get j := by
  simp [Tab.modify, Tab.get_set]

@[simp] theorem Tab.get_const {α : Type} (x : α) (k : Nat) : (Tab.const x).get k = x := rfl

end Sys2Proof

namespace Sys2Proof.Machine

/-! ## modCore -/

@[simp] theorem State.modCore_turn (s : State) (c : Nat) (f : Core → Core) : (s.modCore c f).turn = s.turn := rfl
@[simp] theorem State.modCore_agenda (s : State) (c : Nat) (f : Core → Core) : (s.modCore c f).agenda = s.agenda := rfl
@[simp] theorem State.modCore_free (s : State) (c : Nat) (f : Core → Core) : (s.modCore c f).free = s.free := rfl
@[simp] theorem State.modCore_uid (s : State) (c : Nat) (f : Core → Core) : (s.modCore c f).uid = s.uid := rfl
@[simp] theorem State.modCore_curCore (s : State) (c : Nat) (f : Core → Core) : (s.modCore c f).curCore = s.curCore := rfl
@[simp] theorem State.modCore_curCtx (s : State) (c : Nat) (f : Core → Core) : (s.modCore c f).curCtx = s.curCtx := rfl
@[simp] theorem State.modCore_curUnit (s : State) (c : Nat) (f : Core → Core) : (s.modCore c f).curUnit = s.curUnit := rfl
@[simp] theorem State.modCore_curJob (s : State) (c : Nat) (f : Core → Core) : (s.modCore c f).curJob = s.curJob := rfl
@[simp] theorem State.modCore_time (s : State) (c : Nat) (f : Core → Core) : (s.modCore c f).time = s.time := rfl
@[simp] theorem State.modCore_mem (s : State) (c : Nat) (f : Core → Core) : (s.modCore c f).mem = s.mem := rfl
@[simp] theorem State.modCore_badLines (s : State) (c : Nat) (f : Core → Core) : (s.modCore c f).badLines = s.badLines := rfl
@[simp] theorem State.modCore_fuse (s : State) (c : Nat) (f : Core → Core) : (s.modCore c f).fuse = s.fuse := rfl
@[simp] theorem State.modCore_island (s : State) (c : Nat) (f : Core → Core) : (s.modCore c f).island = s.island := rfl
@[simp] theorem State.modCore_ecc (s : State) (c : Nat) (f : Core → Core) : (s.modCore c f).ecc = s.ecc := rfl
@[simp] theorem State.modCore_fab (s : State) (c : Nat) (f : Core → Core) : (s.modCore c f).fab = s.fab := rfl
@[simp] theorem State.modCore_net (s : State) (c : Nat) (f : Core → Core) : (s.modCore c f).net = s.net := rfl
@[simp] theorem State.modCore_link (s : State) (c : Nat) (f : Core → Core) : (s.modCore c f).link = s.link := rfl
@[simp] theorem State.modCore_ring (s : State) (c : Nat) (f : Core → Core) : (s.modCore c f).ring = s.ring := rfl
@[simp] theorem State.modCore_part (s : State) (c : Nat) (f : Core → Core) : (s.modCore c f).part = s.part := rfl
@[simp] theorem State.modCore_sealed_ (s : State) (c : Nat) (f : Core → Core) : (s.modCore c f).sealed_ = s.sealed_ := rfl
@[simp] theorem State.modCore_sec (s : State) (c : Nat) (f : Core → Core) : (s.modCore c f).sec = s.sec := rfl
@[simp] theorem State.modCore_mgmtLog (s : State) (c : Nat) (f : Core → Core) : (s.modCore c f).mgmtLog = s.mgmtLog := rfl
@[simp] theorem State.modCore_mgmtCmds (s : State) (c : Nat) (f : Core → Core) : (s.modCore c f).mgmtCmds = s.mgmtCmds := rfl
@[simp] theorem State.modCore_hostOut (s : State) (c : Nat) (f : Core → Core) : (s.modCore c f).hostOut = s.hostOut := rfl
@[simp] theorem State.modCore_ringNext (s : State) (c : Nat) (f : Core → Core) : (s.modCore c f).ringNext = s.ringNext := rfl
@[simp] theorem State.modCore_aperture (s : State) (c : Nat) (f : Core → Core) : (s.modCore c f).aperture = s.aperture := rfl
@[simp] theorem State.modCore_stepped (s : State) (c : Nat) (f : Core → Core) : (s.modCore c f).stepped = s.stepped := rfl
@[simp] theorem State.modCore_launch (s : State) (c : Nat) (f : Core → Core) : (s.modCore c f).launch = s.launch := rfl
@[simp] theorem State.modCore_reserved (s : State) (c : Nat) (f : Core → Core) : (s.modCore c f).reserved = s.reserved := rfl
@[simp] theorem State.modCore_records (s : State) (c : Nat) (f : Core → Core) : (s.modCore c f).records = s.records := rfl
@[simp] theorem State.modCore_tasks (s : State) (c : Nat) (f : Core → Core) : (s.modCore c f).tasks = s.tasks := rfl
@[simp] theorem State.modCore_cluster (s : State) (c : Nat) (f : Core → Core) : (s.modCore c f).cluster = s.cluster := rfl
@[simp] theorem State.modCore_crew (s : State) (c : Nat) (f : Core → Core) : (s.modCore c f).crew = s.crew := rfl
@[simp] theorem State.modCore_umpire (s : State) (c : Nat) (f : Core → Core) : (s.modCore c f).umpire = s.umpire := rfl
@[simp] theorem State.modCore_quiescing (s : State) (c : Nat) (f : Core → Core) : (s.modCore c f).quiescing = s.quiescing := rfl
@[simp] theorem State.modCore_swaps (s : State) (c : Nat) (f : Core → Core) : (s.modCore c f).swaps = s.swaps := rfl
@[simp] theorem State.modCore_range (s : State) (c : Nat) (f : Core → Core) : (s.modCore c f).range = s.range := rfl
@[simp] theorem State.modCore_slice (s : State) (c : Nat) (f : Core → Core) : (s.modCore c f).slice = s.slice := rfl
@[simp] theorem State.modCore_handoffs (s : State) (c : Nat) (f : Core → Core) : (s.modCore c f).handoffs = s.handoffs := rfl
@[simp] theorem State.modCore_sentTuples (s : State) (c : Nat) (f : Core → Core) : (s.modCore c f).sentTuples = s.sentTuples := rfl
@[simp] theorem State.modCore_splits (s : State) (c : Nat) (f : Core → Core) : (s.modCore c f).splits = s.splits := rfl
@[simp] theorem State.modCore_unit (s : State) (c : Nat) (f : Core → Core) : (s.modCore c f).unit = s.unit := rfl
@[simp] theorem State.modCore_home (s : State) (c : Nat) (f : Core → Core) : (s.modCore c f).home = s.home := rfl
@[simp] theorem State.modCore_forwards (s : State) (c : Nat) (f : Core → Core) : (s.modCore c f).forwards = s.forwards := rfl
@[simp] theorem State.modCore_uline (s : State) (c : Nat) (f : Core → Core) : (s.modCore c f).uline = s.uline := rfl
@[simp] theorem State.modCore_owned (s : State) (c : Nat) (f : Core → Core) : (s.modCore c f).owned = s.owned := rfl
@[simp] theorem State.modCore_pins (s : State) (c : Nat) (f : Core → Core) : (s.modCore c f).pins = s.pins := rfl
@[simp] theorem State.modCore_holds (s : State) (c : Nat) (f : Core → Core) : (s.modCore c f).holds = s.holds := rfl
@[simp] theorem State.modCore_tlbis (s : State) (c : Nat) (f : Core → Core) : (s.modCore c f).tlbis = s.tlbis := rfl
@[simp] theorem State.modCore_counts (s : State) (c : Nat) (f : Core → Core) : (s.modCore c f).counts = s.counts := rfl
@[simp] theorem State.modCore_meets (s : State) (c : Nat) (f : Core → Core) : (s.modCore c f).meets = s.meets := rfl
@[simp] theorem State.modCore_stale (s : State) (c : Nat) (f : Core → Core) : (s.modCore c f).stale = s.stale := rfl
@[simp] theorem State.modCore_far (s : State) (c : Nat) (f : Core → Core) : (s.modCore c f).far = s.far := rfl

/-! ## modCtx -/

@[simp] theorem State.modCtx_turn (s : State) (c k : Nat) (f : Ctx → Ctx) : (s.modCtx c k f).turn = s.turn := rfl
@[simp] theorem State.modCtx_agenda (s : State) (c k : Nat) (f : Ctx → Ctx) : (s.modCtx c k f).agenda = s.agenda := rfl
@[simp] theorem State.modCtx_free (s : State) (c k : Nat) (f : Ctx → Ctx) : (s.modCtx c k f).free = s.free := rfl
@[simp] theorem State.modCtx_uid (s : State) (c k : Nat) (f : Ctx → Ctx) : (s.modCtx c k f).uid = s.uid := rfl
@[simp] theorem State.modCtx_curCore (s : State) (c k : Nat) (f : Ctx → Ctx) : (s.modCtx c k f).curCore = s.curCore := rfl
@[simp] theorem State.modCtx_curCtx (s : State) (c k : Nat) (f : Ctx → Ctx) : (s.modCtx c k f).curCtx = s.curCtx := rfl
@[simp] theorem State.modCtx_curUnit (s : State) (c k : Nat) (f : Ctx → Ctx) : (s.modCtx c k f).curUnit = s.curUnit := rfl
@[simp] theorem State.modCtx_curJob (s : State) (c k : Nat) (f : Ctx → Ctx) : (s.modCtx c k f).curJob = s.curJob := rfl
@[simp] theorem State.modCtx_time (s : State) (c k : Nat) (f : Ctx → Ctx) : (s.modCtx c k f).time = s.time := rfl
@[simp] theorem State.modCtx_mem (s : State) (c k : Nat) (f : Ctx → Ctx) : (s.modCtx c k f).mem = s.mem := rfl
@[simp] theorem State.modCtx_badLines (s : State) (c k : Nat) (f : Ctx → Ctx) : (s.modCtx c k f).badLines = s.badLines := rfl
@[simp] theorem State.modCtx_fuse (s : State) (c k : Nat) (f : Ctx → Ctx) : (s.modCtx c k f).fuse = s.fuse := rfl
@[simp] theorem State.modCtx_island (s : State) (c k : Nat) (f : Ctx → Ctx) : (s.modCtx c k f).island = s.island := rfl
@[simp] theorem State.modCtx_ecc (s : State) (c k : Nat) (f : Ctx → Ctx) : (s.modCtx c k f).ecc = s.ecc := rfl
@[simp] theorem State.modCtx_fab (s : State) (c k : Nat) (f : Ctx → Ctx) : (s.modCtx c k f).fab = s.fab := rfl
@[simp] theorem State.modCtx_net (s : State) (c k : Nat) (f : Ctx → Ctx) : (s.modCtx c k f).net = s.net := rfl
@[simp] theorem State.modCtx_link (s : State) (c k : Nat) (f : Ctx → Ctx) : (s.modCtx c k f).link = s.link := rfl
@[simp] theorem State.modCtx_ring (s : State) (c k : Nat) (f : Ctx → Ctx) : (s.modCtx c k f).ring = s.ring := rfl
@[simp] theorem State.modCtx_part (s : State) (c k : Nat) (f : Ctx → Ctx) : (s.modCtx c k f).part = s.part := rfl
@[simp] theorem State.modCtx_sealed_ (s : State) (c k : Nat) (f : Ctx → Ctx) : (s.modCtx c k f).sealed_ = s.sealed_ := rfl
@[simp] theorem State.modCtx_sec (s : State) (c k : Nat) (f : Ctx → Ctx) : (s.modCtx c k f).sec = s.sec := rfl
@[simp] theorem State.modCtx_mgmtLog (s : State) (c k : Nat) (f : Ctx → Ctx) : (s.modCtx c k f).mgmtLog = s.mgmtLog := rfl
@[simp] theorem State.modCtx_mgmtCmds (s : State) (c k : Nat) (f : Ctx → Ctx) : (s.modCtx c k f).mgmtCmds = s.mgmtCmds := rfl
@[simp] theorem State.modCtx_hostOut (s : State) (c k : Nat) (f : Ctx → Ctx) : (s.modCtx c k f).hostOut = s.hostOut := rfl
@[simp] theorem State.modCtx_ringNext (s : State) (c k : Nat) (f : Ctx → Ctx) : (s.modCtx c k f).ringNext = s.ringNext := rfl
@[simp] theorem State.modCtx_aperture (s : State) (c k : Nat) (f : Ctx → Ctx) : (s.modCtx c k f).aperture = s.aperture := rfl
@[simp] theorem State.modCtx_stepped (s : State) (c k : Nat) (f : Ctx → Ctx) : (s.modCtx c k f).stepped = s.stepped := rfl
@[simp] theorem State.modCtx_launch (s : State) (c k : Nat) (f : Ctx → Ctx) : (s.modCtx c k f).launch = s.launch := rfl
@[simp] theorem State.modCtx_reserved (s : State) (c k : Nat) (f : Ctx → Ctx) : (s.modCtx c k f).reserved = s.reserved := rfl
@[simp] theorem State.modCtx_records (s : State) (c k : Nat) (f : Ctx → Ctx) : (s.modCtx c k f).records = s.records := rfl
@[simp] theorem State.modCtx_tasks (s : State) (c k : Nat) (f : Ctx → Ctx) : (s.modCtx c k f).tasks = s.tasks := rfl
@[simp] theorem State.modCtx_cluster (s : State) (c k : Nat) (f : Ctx → Ctx) : (s.modCtx c k f).cluster = s.cluster := rfl
@[simp] theorem State.modCtx_crew (s : State) (c k : Nat) (f : Ctx → Ctx) : (s.modCtx c k f).crew = s.crew := rfl
@[simp] theorem State.modCtx_umpire (s : State) (c k : Nat) (f : Ctx → Ctx) : (s.modCtx c k f).umpire = s.umpire := rfl
@[simp] theorem State.modCtx_quiescing (s : State) (c k : Nat) (f : Ctx → Ctx) : (s.modCtx c k f).quiescing = s.quiescing := rfl
@[simp] theorem State.modCtx_swaps (s : State) (c k : Nat) (f : Ctx → Ctx) : (s.modCtx c k f).swaps = s.swaps := rfl
@[simp] theorem State.modCtx_range (s : State) (c k : Nat) (f : Ctx → Ctx) : (s.modCtx c k f).range = s.range := rfl
@[simp] theorem State.modCtx_slice (s : State) (c k : Nat) (f : Ctx → Ctx) : (s.modCtx c k f).slice = s.slice := rfl
@[simp] theorem State.modCtx_handoffs (s : State) (c k : Nat) (f : Ctx → Ctx) : (s.modCtx c k f).handoffs = s.handoffs := rfl
@[simp] theorem State.modCtx_sentTuples (s : State) (c k : Nat) (f : Ctx → Ctx) : (s.modCtx c k f).sentTuples = s.sentTuples := rfl
@[simp] theorem State.modCtx_splits (s : State) (c k : Nat) (f : Ctx → Ctx) : (s.modCtx c k f).splits = s.splits := rfl
@[simp] theorem State.modCtx_unit (s : State) (c k : Nat) (f : Ctx → Ctx) : (s.modCtx c k f).unit = s.unit := rfl
@[simp] theorem State.modCtx_home (s : State) (c k : Nat) (f : Ctx → Ctx) : (s.modCtx c k f).home = s.home := rfl
@[simp] theorem State.modCtx_forwards (s : State) (c k : Nat) (f : Ctx → Ctx) : (s.modCtx c k f).forwards = s.forwards := rfl
@[simp] theorem State.modCtx_uline (s : State) (c k : Nat) (f : Ctx → Ctx) : (s.modCtx c k f).uline = s.uline := rfl
@[simp] theorem State.modCtx_owned (s : State) (c k : Nat) (f : Ctx → Ctx) : (s.modCtx c k f).owned = s.owned := rfl
@[simp] theorem State.modCtx_pins (s : State) (c k : Nat) (f : Ctx → Ctx) : (s.modCtx c k f).pins = s.pins := rfl
@[simp] theorem State.modCtx_holds (s : State) (c k : Nat) (f : Ctx → Ctx) : (s.modCtx c k f).holds = s.holds := rfl
@[simp] theorem State.modCtx_tlbis (s : State) (c k : Nat) (f : Ctx → Ctx) : (s.modCtx c k f).tlbis = s.tlbis := rfl
@[simp] theorem State.modCtx_counts (s : State) (c k : Nat) (f : Ctx → Ctx) : (s.modCtx c k f).counts = s.counts := rfl
@[simp] theorem State.modCtx_meets (s : State) (c k : Nat) (f : Ctx → Ctx) : (s.modCtx c k f).meets = s.meets := rfl
@[simp] theorem State.modCtx_stale (s : State) (c k : Nat) (f : Ctx → Ctx) : (s.modCtx c k f).stale = s.stale := rfl
@[simp] theorem State.modCtx_far (s : State) (c k : Nat) (f : Ctx → Ctx) : (s.modCtx c k f).far = s.far := rfl

/-! ## modMe -/

@[simp] theorem State.modMe_turn (s : State) (f : Ctx → Ctx) : (s.modMe f).turn = s.turn := rfl
@[simp] theorem State.modMe_agenda (s : State) (f : Ctx → Ctx) : (s.modMe f).agenda = s.agenda := rfl
@[simp] theorem State.modMe_free (s : State) (f : Ctx → Ctx) : (s.modMe f).free = s.free := rfl
@[simp] theorem State.modMe_uid (s : State) (f : Ctx → Ctx) : (s.modMe f).uid = s.uid := rfl
@[simp] theorem State.modMe_curCore (s : State) (f : Ctx → Ctx) : (s.modMe f).curCore = s.curCore := rfl
@[simp] theorem State.modMe_curCtx (s : State) (f : Ctx → Ctx) : (s.modMe f).curCtx = s.curCtx := rfl
@[simp] theorem State.modMe_curUnit (s : State) (f : Ctx → Ctx) : (s.modMe f).curUnit = s.curUnit := rfl
@[simp] theorem State.modMe_curJob (s : State) (f : Ctx → Ctx) : (s.modMe f).curJob = s.curJob := rfl
@[simp] theorem State.modMe_time (s : State) (f : Ctx → Ctx) : (s.modMe f).time = s.time := rfl
@[simp] theorem State.modMe_mem (s : State) (f : Ctx → Ctx) : (s.modMe f).mem = s.mem := rfl
@[simp] theorem State.modMe_badLines (s : State) (f : Ctx → Ctx) : (s.modMe f).badLines = s.badLines := rfl
@[simp] theorem State.modMe_fuse (s : State) (f : Ctx → Ctx) : (s.modMe f).fuse = s.fuse := rfl
@[simp] theorem State.modMe_island (s : State) (f : Ctx → Ctx) : (s.modMe f).island = s.island := rfl
@[simp] theorem State.modMe_ecc (s : State) (f : Ctx → Ctx) : (s.modMe f).ecc = s.ecc := rfl
@[simp] theorem State.modMe_fab (s : State) (f : Ctx → Ctx) : (s.modMe f).fab = s.fab := rfl
@[simp] theorem State.modMe_net (s : State) (f : Ctx → Ctx) : (s.modMe f).net = s.net := rfl
@[simp] theorem State.modMe_link (s : State) (f : Ctx → Ctx) : (s.modMe f).link = s.link := rfl
@[simp] theorem State.modMe_ring (s : State) (f : Ctx → Ctx) : (s.modMe f).ring = s.ring := rfl
@[simp] theorem State.modMe_part (s : State) (f : Ctx → Ctx) : (s.modMe f).part = s.part := rfl
@[simp] theorem State.modMe_sealed_ (s : State) (f : Ctx → Ctx) : (s.modMe f).sealed_ = s.sealed_ := rfl
@[simp] theorem State.modMe_sec (s : State) (f : Ctx → Ctx) : (s.modMe f).sec = s.sec := rfl
@[simp] theorem State.modMe_mgmtLog (s : State) (f : Ctx → Ctx) : (s.modMe f).mgmtLog = s.mgmtLog := rfl
@[simp] theorem State.modMe_mgmtCmds (s : State) (f : Ctx → Ctx) : (s.modMe f).mgmtCmds = s.mgmtCmds := rfl
@[simp] theorem State.modMe_hostOut (s : State) (f : Ctx → Ctx) : (s.modMe f).hostOut = s.hostOut := rfl
@[simp] theorem State.modMe_ringNext (s : State) (f : Ctx → Ctx) : (s.modMe f).ringNext = s.ringNext := rfl
@[simp] theorem State.modMe_aperture (s : State) (f : Ctx → Ctx) : (s.modMe f).aperture = s.aperture := rfl
@[simp] theorem State.modMe_stepped (s : State) (f : Ctx → Ctx) : (s.modMe f).stepped = s.stepped := rfl
@[simp] theorem State.modMe_launch (s : State) (f : Ctx → Ctx) : (s.modMe f).launch = s.launch := rfl
@[simp] theorem State.modMe_reserved (s : State) (f : Ctx → Ctx) : (s.modMe f).reserved = s.reserved := rfl
@[simp] theorem State.modMe_records (s : State) (f : Ctx → Ctx) : (s.modMe f).records = s.records := rfl
@[simp] theorem State.modMe_tasks (s : State) (f : Ctx → Ctx) : (s.modMe f).tasks = s.tasks := rfl
@[simp] theorem State.modMe_cluster (s : State) (f : Ctx → Ctx) : (s.modMe f).cluster = s.cluster := rfl
@[simp] theorem State.modMe_crew (s : State) (f : Ctx → Ctx) : (s.modMe f).crew = s.crew := rfl
@[simp] theorem State.modMe_umpire (s : State) (f : Ctx → Ctx) : (s.modMe f).umpire = s.umpire := rfl
@[simp] theorem State.modMe_quiescing (s : State) (f : Ctx → Ctx) : (s.modMe f).quiescing = s.quiescing := rfl
@[simp] theorem State.modMe_swaps (s : State) (f : Ctx → Ctx) : (s.modMe f).swaps = s.swaps := rfl
@[simp] theorem State.modMe_range (s : State) (f : Ctx → Ctx) : (s.modMe f).range = s.range := rfl
@[simp] theorem State.modMe_slice (s : State) (f : Ctx → Ctx) : (s.modMe f).slice = s.slice := rfl
@[simp] theorem State.modMe_handoffs (s : State) (f : Ctx → Ctx) : (s.modMe f).handoffs = s.handoffs := rfl
@[simp] theorem State.modMe_sentTuples (s : State) (f : Ctx → Ctx) : (s.modMe f).sentTuples = s.sentTuples := rfl
@[simp] theorem State.modMe_splits (s : State) (f : Ctx → Ctx) : (s.modMe f).splits = s.splits := rfl
@[simp] theorem State.modMe_unit (s : State) (f : Ctx → Ctx) : (s.modMe f).unit = s.unit := rfl
@[simp] theorem State.modMe_home (s : State) (f : Ctx → Ctx) : (s.modMe f).home = s.home := rfl
@[simp] theorem State.modMe_forwards (s : State) (f : Ctx → Ctx) : (s.modMe f).forwards = s.forwards := rfl
@[simp] theorem State.modMe_uline (s : State) (f : Ctx → Ctx) : (s.modMe f).uline = s.uline := rfl
@[simp] theorem State.modMe_owned (s : State) (f : Ctx → Ctx) : (s.modMe f).owned = s.owned := rfl
@[simp] theorem State.modMe_pins (s : State) (f : Ctx → Ctx) : (s.modMe f).pins = s.pins := rfl
@[simp] theorem State.modMe_holds (s : State) (f : Ctx → Ctx) : (s.modMe f).holds = s.holds := rfl
@[simp] theorem State.modMe_tlbis (s : State) (f : Ctx → Ctx) : (s.modMe f).tlbis = s.tlbis := rfl
@[simp] theorem State.modMe_counts (s : State) (f : Ctx → Ctx) : (s.modMe f).counts = s.counts := rfl
@[simp] theorem State.modMe_meets (s : State) (f : Ctx → Ctx) : (s.modMe f).meets = s.meets := rfl
@[simp] theorem State.modMe_stale (s : State) (f : Ctx → Ctx) : (s.modMe f).stale = s.stale := rfl
@[simp] theorem State.modMe_far (s : State) (f : Ctx → Ctx) : (s.modMe f).far = s.far := rfl

/-! ## setG -/

@[simp] theorem State.setG_turn (s : State) (k : Nat) (v : Word) : (s.setG k v).turn = s.turn := rfl
@[simp] theorem State.setG_agenda (s : State) (k : Nat) (v : Word) : (s.setG k v).agenda = s.agenda := rfl
@[simp] theorem State.setG_free (s : State) (k : Nat) (v : Word) : (s.setG k v).free = s.free := rfl
@[simp] theorem State.setG_uid (s : State) (k : Nat) (v : Word) : (s.setG k v).uid = s.uid := rfl
@[simp] theorem State.setG_curCore (s : State) (k : Nat) (v : Word) : (s.setG k v).curCore = s.curCore := rfl
@[simp] theorem State.setG_curCtx (s : State) (k : Nat) (v : Word) : (s.setG k v).curCtx = s.curCtx := rfl
@[simp] theorem State.setG_curUnit (s : State) (k : Nat) (v : Word) : (s.setG k v).curUnit = s.curUnit := rfl
@[simp] theorem State.setG_curJob (s : State) (k : Nat) (v : Word) : (s.setG k v).curJob = s.curJob := rfl
@[simp] theorem State.setG_time (s : State) (k : Nat) (v : Word) : (s.setG k v).time = s.time := rfl
@[simp] theorem State.setG_mem (s : State) (k : Nat) (v : Word) : (s.setG k v).mem = s.mem := rfl
@[simp] theorem State.setG_badLines (s : State) (k : Nat) (v : Word) : (s.setG k v).badLines = s.badLines := rfl
@[simp] theorem State.setG_fuse (s : State) (k : Nat) (v : Word) : (s.setG k v).fuse = s.fuse := rfl
@[simp] theorem State.setG_island (s : State) (k : Nat) (v : Word) : (s.setG k v).island = s.island := rfl
@[simp] theorem State.setG_ecc (s : State) (k : Nat) (v : Word) : (s.setG k v).ecc = s.ecc := rfl
@[simp] theorem State.setG_fab (s : State) (k : Nat) (v : Word) : (s.setG k v).fab = s.fab := rfl
@[simp] theorem State.setG_net (s : State) (k : Nat) (v : Word) : (s.setG k v).net = s.net := rfl
@[simp] theorem State.setG_link (s : State) (k : Nat) (v : Word) : (s.setG k v).link = s.link := rfl
@[simp] theorem State.setG_ring (s : State) (k : Nat) (v : Word) : (s.setG k v).ring = s.ring := rfl
@[simp] theorem State.setG_part (s : State) (k : Nat) (v : Word) : (s.setG k v).part = s.part := rfl
@[simp] theorem State.setG_sealed_ (s : State) (k : Nat) (v : Word) : (s.setG k v).sealed_ = s.sealed_ := rfl
@[simp] theorem State.setG_sec (s : State) (k : Nat) (v : Word) : (s.setG k v).sec = s.sec := rfl
@[simp] theorem State.setG_mgmtLog (s : State) (k : Nat) (v : Word) : (s.setG k v).mgmtLog = s.mgmtLog := rfl
@[simp] theorem State.setG_mgmtCmds (s : State) (k : Nat) (v : Word) : (s.setG k v).mgmtCmds = s.mgmtCmds := rfl
@[simp] theorem State.setG_hostOut (s : State) (k : Nat) (v : Word) : (s.setG k v).hostOut = s.hostOut := rfl
@[simp] theorem State.setG_ringNext (s : State) (k : Nat) (v : Word) : (s.setG k v).ringNext = s.ringNext := rfl
@[simp] theorem State.setG_aperture (s : State) (k : Nat) (v : Word) : (s.setG k v).aperture = s.aperture := rfl
@[simp] theorem State.setG_stepped (s : State) (k : Nat) (v : Word) : (s.setG k v).stepped = s.stepped := rfl
@[simp] theorem State.setG_launch (s : State) (k : Nat) (v : Word) : (s.setG k v).launch = s.launch := rfl
@[simp] theorem State.setG_reserved (s : State) (k : Nat) (v : Word) : (s.setG k v).reserved = s.reserved := rfl
@[simp] theorem State.setG_records (s : State) (k : Nat) (v : Word) : (s.setG k v).records = s.records := rfl
@[simp] theorem State.setG_tasks (s : State) (k : Nat) (v : Word) : (s.setG k v).tasks = s.tasks := rfl
@[simp] theorem State.setG_cluster (s : State) (k : Nat) (v : Word) : (s.setG k v).cluster = s.cluster := rfl
@[simp] theorem State.setG_crew (s : State) (k : Nat) (v : Word) : (s.setG k v).crew = s.crew := rfl
@[simp] theorem State.setG_umpire (s : State) (k : Nat) (v : Word) : (s.setG k v).umpire = s.umpire := rfl
@[simp] theorem State.setG_quiescing (s : State) (k : Nat) (v : Word) : (s.setG k v).quiescing = s.quiescing := rfl
@[simp] theorem State.setG_swaps (s : State) (k : Nat) (v : Word) : (s.setG k v).swaps = s.swaps := rfl
@[simp] theorem State.setG_range (s : State) (k : Nat) (v : Word) : (s.setG k v).range = s.range := rfl
@[simp] theorem State.setG_slice (s : State) (k : Nat) (v : Word) : (s.setG k v).slice = s.slice := rfl
@[simp] theorem State.setG_handoffs (s : State) (k : Nat) (v : Word) : (s.setG k v).handoffs = s.handoffs := rfl
@[simp] theorem State.setG_sentTuples (s : State) (k : Nat) (v : Word) : (s.setG k v).sentTuples = s.sentTuples := rfl
@[simp] theorem State.setG_splits (s : State) (k : Nat) (v : Word) : (s.setG k v).splits = s.splits := rfl
@[simp] theorem State.setG_unit (s : State) (k : Nat) (v : Word) : (s.setG k v).unit = s.unit := rfl
@[simp] theorem State.setG_home (s : State) (k : Nat) (v : Word) : (s.setG k v).home = s.home := rfl
@[simp] theorem State.setG_forwards (s : State) (k : Nat) (v : Word) : (s.setG k v).forwards = s.forwards := rfl
@[simp] theorem State.setG_uline (s : State) (k : Nat) (v : Word) : (s.setG k v).uline = s.uline := rfl
@[simp] theorem State.setG_owned (s : State) (k : Nat) (v : Word) : (s.setG k v).owned = s.owned := rfl
@[simp] theorem State.setG_pins (s : State) (k : Nat) (v : Word) : (s.setG k v).pins = s.pins := rfl
@[simp] theorem State.setG_holds (s : State) (k : Nat) (v : Word) : (s.setG k v).holds = s.holds := rfl
@[simp] theorem State.setG_tlbis (s : State) (k : Nat) (v : Word) : (s.setG k v).tlbis = s.tlbis := rfl
@[simp] theorem State.setG_counts (s : State) (k : Nat) (v : Word) : (s.setG k v).counts = s.counts := rfl
@[simp] theorem State.setG_meets (s : State) (k : Nat) (v : Word) : (s.setG k v).meets = s.meets := rfl
@[simp] theorem State.setG_stale (s : State) (k : Nat) (v : Word) : (s.setG k v).stale = s.stale := rfl
@[simp] theorem State.setG_far (s : State) (k : Nat) (v : Word) : (s.setG k v).far = s.far := rfl

/-! ## modCluster -/

@[simp] theorem State.modCluster_turn (s : State) (c : Nat) (f : Cluster → Cluster) : (s.modCluster c f).turn = s.turn := rfl
@[simp] theorem State.modCluster_agenda (s : State) (c : Nat) (f : Cluster → Cluster) : (s.modCluster c f).agenda = s.agenda := rfl
@[simp] theorem State.modCluster_free (s : State) (c : Nat) (f : Cluster → Cluster) : (s.modCluster c f).free = s.free := rfl
@[simp] theorem State.modCluster_uid (s : State) (c : Nat) (f : Cluster → Cluster) : (s.modCluster c f).uid = s.uid := rfl
@[simp] theorem State.modCluster_curCore (s : State) (c : Nat) (f : Cluster → Cluster) : (s.modCluster c f).curCore = s.curCore := rfl
@[simp] theorem State.modCluster_curCtx (s : State) (c : Nat) (f : Cluster → Cluster) : (s.modCluster c f).curCtx = s.curCtx := rfl
@[simp] theorem State.modCluster_curUnit (s : State) (c : Nat) (f : Cluster → Cluster) : (s.modCluster c f).curUnit = s.curUnit := rfl
@[simp] theorem State.modCluster_curJob (s : State) (c : Nat) (f : Cluster → Cluster) : (s.modCluster c f).curJob = s.curJob := rfl
@[simp] theorem State.modCluster_time (s : State) (c : Nat) (f : Cluster → Cluster) : (s.modCluster c f).time = s.time := rfl
@[simp] theorem State.modCluster_mem (s : State) (c : Nat) (f : Cluster → Cluster) : (s.modCluster c f).mem = s.mem := rfl
@[simp] theorem State.modCluster_badLines (s : State) (c : Nat) (f : Cluster → Cluster) : (s.modCluster c f).badLines = s.badLines := rfl
@[simp] theorem State.modCluster_fuse (s : State) (c : Nat) (f : Cluster → Cluster) : (s.modCluster c f).fuse = s.fuse := rfl
@[simp] theorem State.modCluster_island (s : State) (c : Nat) (f : Cluster → Cluster) : (s.modCluster c f).island = s.island := rfl
@[simp] theorem State.modCluster_ecc (s : State) (c : Nat) (f : Cluster → Cluster) : (s.modCluster c f).ecc = s.ecc := rfl
@[simp] theorem State.modCluster_fab (s : State) (c : Nat) (f : Cluster → Cluster) : (s.modCluster c f).fab = s.fab := rfl
@[simp] theorem State.modCluster_net (s : State) (c : Nat) (f : Cluster → Cluster) : (s.modCluster c f).net = s.net := rfl
@[simp] theorem State.modCluster_link (s : State) (c : Nat) (f : Cluster → Cluster) : (s.modCluster c f).link = s.link := rfl
@[simp] theorem State.modCluster_ring (s : State) (c : Nat) (f : Cluster → Cluster) : (s.modCluster c f).ring = s.ring := rfl
@[simp] theorem State.modCluster_part (s : State) (c : Nat) (f : Cluster → Cluster) : (s.modCluster c f).part = s.part := rfl
@[simp] theorem State.modCluster_sealed_ (s : State) (c : Nat) (f : Cluster → Cluster) : (s.modCluster c f).sealed_ = s.sealed_ := rfl
@[simp] theorem State.modCluster_sec (s : State) (c : Nat) (f : Cluster → Cluster) : (s.modCluster c f).sec = s.sec := rfl
@[simp] theorem State.modCluster_mgmtLog (s : State) (c : Nat) (f : Cluster → Cluster) : (s.modCluster c f).mgmtLog = s.mgmtLog := rfl
@[simp] theorem State.modCluster_mgmtCmds (s : State) (c : Nat) (f : Cluster → Cluster) : (s.modCluster c f).mgmtCmds = s.mgmtCmds := rfl
@[simp] theorem State.modCluster_hostOut (s : State) (c : Nat) (f : Cluster → Cluster) : (s.modCluster c f).hostOut = s.hostOut := rfl
@[simp] theorem State.modCluster_ringNext (s : State) (c : Nat) (f : Cluster → Cluster) : (s.modCluster c f).ringNext = s.ringNext := rfl
@[simp] theorem State.modCluster_aperture (s : State) (c : Nat) (f : Cluster → Cluster) : (s.modCluster c f).aperture = s.aperture := rfl
@[simp] theorem State.modCluster_stepped (s : State) (c : Nat) (f : Cluster → Cluster) : (s.modCluster c f).stepped = s.stepped := rfl
@[simp] theorem State.modCluster_launch (s : State) (c : Nat) (f : Cluster → Cluster) : (s.modCluster c f).launch = s.launch := rfl
@[simp] theorem State.modCluster_reserved (s : State) (c : Nat) (f : Cluster → Cluster) : (s.modCluster c f).reserved = s.reserved := rfl
@[simp] theorem State.modCluster_records (s : State) (c : Nat) (f : Cluster → Cluster) : (s.modCluster c f).records = s.records := rfl
@[simp] theorem State.modCluster_tasks (s : State) (c : Nat) (f : Cluster → Cluster) : (s.modCluster c f).tasks = s.tasks := rfl
@[simp] theorem State.modCluster_core (s : State) (c : Nat) (f : Cluster → Cluster) : (s.modCluster c f).core = s.core := rfl
@[simp] theorem State.modCluster_crew (s : State) (c : Nat) (f : Cluster → Cluster) : (s.modCluster c f).crew = s.crew := rfl
@[simp] theorem State.modCluster_umpire (s : State) (c : Nat) (f : Cluster → Cluster) : (s.modCluster c f).umpire = s.umpire := rfl
@[simp] theorem State.modCluster_quiescing (s : State) (c : Nat) (f : Cluster → Cluster) : (s.modCluster c f).quiescing = s.quiescing := rfl
@[simp] theorem State.modCluster_swaps (s : State) (c : Nat) (f : Cluster → Cluster) : (s.modCluster c f).swaps = s.swaps := rfl
@[simp] theorem State.modCluster_range (s : State) (c : Nat) (f : Cluster → Cluster) : (s.modCluster c f).range = s.range := rfl
@[simp] theorem State.modCluster_slice (s : State) (c : Nat) (f : Cluster → Cluster) : (s.modCluster c f).slice = s.slice := rfl
@[simp] theorem State.modCluster_handoffs (s : State) (c : Nat) (f : Cluster → Cluster) : (s.modCluster c f).handoffs = s.handoffs := rfl
@[simp] theorem State.modCluster_sentTuples (s : State) (c : Nat) (f : Cluster → Cluster) : (s.modCluster c f).sentTuples = s.sentTuples := rfl
@[simp] theorem State.modCluster_splits (s : State) (c : Nat) (f : Cluster → Cluster) : (s.modCluster c f).splits = s.splits := rfl
@[simp] theorem State.modCluster_unit (s : State) (c : Nat) (f : Cluster → Cluster) : (s.modCluster c f).unit = s.unit := rfl
@[simp] theorem State.modCluster_home (s : State) (c : Nat) (f : Cluster → Cluster) : (s.modCluster c f).home = s.home := rfl
@[simp] theorem State.modCluster_forwards (s : State) (c : Nat) (f : Cluster → Cluster) : (s.modCluster c f).forwards = s.forwards := rfl
@[simp] theorem State.modCluster_uline (s : State) (c : Nat) (f : Cluster → Cluster) : (s.modCluster c f).uline = s.uline := rfl
@[simp] theorem State.modCluster_owned (s : State) (c : Nat) (f : Cluster → Cluster) : (s.modCluster c f).owned = s.owned := rfl
@[simp] theorem State.modCluster_pins (s : State) (c : Nat) (f : Cluster → Cluster) : (s.modCluster c f).pins = s.pins := rfl
@[simp] theorem State.modCluster_holds (s : State) (c : Nat) (f : Cluster → Cluster) : (s.modCluster c f).holds = s.holds := rfl
@[simp] theorem State.modCluster_tlbis (s : State) (c : Nat) (f : Cluster → Cluster) : (s.modCluster c f).tlbis = s.tlbis := rfl
@[simp] theorem State.modCluster_counts (s : State) (c : Nat) (f : Cluster → Cluster) : (s.modCluster c f).counts = s.counts := rfl
@[simp] theorem State.modCluster_meets (s : State) (c : Nat) (f : Cluster → Cluster) : (s.modCluster c f).meets = s.meets := rfl
@[simp] theorem State.modCluster_stale (s : State) (c : Nat) (f : Cluster → Cluster) : (s.modCluster c f).stale = s.stale := rfl
@[simp] theorem State.modCluster_far (s : State) (c : Nat) (f : Cluster → Cluster) : (s.modCluster c f).far = s.far := rfl

/-! ## push -/

@[simp] theorem State.push_turn (s : State) (e : Event) : (s.push e).turn = s.turn := rfl
@[simp] theorem State.push_free (s : State) (e : Event) : (s.push e).free = s.free := rfl
@[simp] theorem State.push_uid (s : State) (e : Event) : (s.push e).uid = s.uid := rfl
@[simp] theorem State.push_curCore (s : State) (e : Event) : (s.push e).curCore = s.curCore := rfl
@[simp] theorem State.push_curCtx (s : State) (e : Event) : (s.push e).curCtx = s.curCtx := rfl
@[simp] theorem State.push_curUnit (s : State) (e : Event) : (s.push e).curUnit = s.curUnit := rfl
@[simp] theorem State.push_curJob (s : State) (e : Event) : (s.push e).curJob = s.curJob := rfl
@[simp] theorem State.push_time (s : State) (e : Event) : (s.push e).time = s.time := rfl
@[simp] theorem State.push_mem (s : State) (e : Event) : (s.push e).mem = s.mem := rfl
@[simp] theorem State.push_badLines (s : State) (e : Event) : (s.push e).badLines = s.badLines := rfl
@[simp] theorem State.push_fuse (s : State) (e : Event) : (s.push e).fuse = s.fuse := rfl
@[simp] theorem State.push_island (s : State) (e : Event) : (s.push e).island = s.island := rfl
@[simp] theorem State.push_ecc (s : State) (e : Event) : (s.push e).ecc = s.ecc := rfl
@[simp] theorem State.push_fab (s : State) (e : Event) : (s.push e).fab = s.fab := rfl
@[simp] theorem State.push_net (s : State) (e : Event) : (s.push e).net = s.net := rfl
@[simp] theorem State.push_link (s : State) (e : Event) : (s.push e).link = s.link := rfl
@[simp] theorem State.push_ring (s : State) (e : Event) : (s.push e).ring = s.ring := rfl
@[simp] theorem State.push_part (s : State) (e : Event) : (s.push e).part = s.part := rfl
@[simp] theorem State.push_sealed_ (s : State) (e : Event) : (s.push e).sealed_ = s.sealed_ := rfl
@[simp] theorem State.push_sec (s : State) (e : Event) : (s.push e).sec = s.sec := rfl
@[simp] theorem State.push_mgmtLog (s : State) (e : Event) : (s.push e).mgmtLog = s.mgmtLog := rfl
@[simp] theorem State.push_mgmtCmds (s : State) (e : Event) : (s.push e).mgmtCmds = s.mgmtCmds := rfl
@[simp] theorem State.push_hostOut (s : State) (e : Event) : (s.push e).hostOut = s.hostOut := rfl
@[simp] theorem State.push_ringNext (s : State) (e : Event) : (s.push e).ringNext = s.ringNext := rfl
@[simp] theorem State.push_aperture (s : State) (e : Event) : (s.push e).aperture = s.aperture := rfl
@[simp] theorem State.push_stepped (s : State) (e : Event) : (s.push e).stepped = s.stepped := rfl
@[simp] theorem State.push_launch (s : State) (e : Event) : (s.push e).launch = s.launch := rfl
@[simp] theorem State.push_reserved (s : State) (e : Event) : (s.push e).reserved = s.reserved := rfl
@[simp] theorem State.push_records (s : State) (e : Event) : (s.push e).records = s.records := rfl
@[simp] theorem State.push_tasks (s : State) (e : Event) : (s.push e).tasks = s.tasks := rfl
@[simp] theorem State.push_core (s : State) (e : Event) : (s.push e).core = s.core := rfl
@[simp] theorem State.push_cluster (s : State) (e : Event) : (s.push e).cluster = s.cluster := rfl
@[simp] theorem State.push_crew (s : State) (e : Event) : (s.push e).crew = s.crew := rfl
@[simp] theorem State.push_umpire (s : State) (e : Event) : (s.push e).umpire = s.umpire := rfl
@[simp] theorem State.push_quiescing (s : State) (e : Event) : (s.push e).quiescing = s.quiescing := rfl
@[simp] theorem State.push_swaps (s : State) (e : Event) : (s.push e).swaps = s.swaps := rfl
@[simp] theorem State.push_range (s : State) (e : Event) : (s.push e).range = s.range := rfl
@[simp] theorem State.push_slice (s : State) (e : Event) : (s.push e).slice = s.slice := rfl
@[simp] theorem State.push_handoffs (s : State) (e : Event) : (s.push e).handoffs = s.handoffs := rfl
@[simp] theorem State.push_sentTuples (s : State) (e : Event) : (s.push e).sentTuples = s.sentTuples := rfl
@[simp] theorem State.push_splits (s : State) (e : Event) : (s.push e).splits = s.splits := rfl
@[simp] theorem State.push_unit (s : State) (e : Event) : (s.push e).unit = s.unit := rfl
@[simp] theorem State.push_home (s : State) (e : Event) : (s.push e).home = s.home := rfl
@[simp] theorem State.push_forwards (s : State) (e : Event) : (s.push e).forwards = s.forwards := rfl
@[simp] theorem State.push_uline (s : State) (e : Event) : (s.push e).uline = s.uline := rfl
@[simp] theorem State.push_owned (s : State) (e : Event) : (s.push e).owned = s.owned := rfl
@[simp] theorem State.push_pins (s : State) (e : Event) : (s.push e).pins = s.pins := rfl
@[simp] theorem State.push_holds (s : State) (e : Event) : (s.push e).holds = s.holds := rfl
@[simp] theorem State.push_tlbis (s : State) (e : Event) : (s.push e).tlbis = s.tlbis := rfl
@[simp] theorem State.push_counts (s : State) (e : Event) : (s.push e).counts = s.counts := rfl
@[simp] theorem State.push_meets (s : State) (e : Event) : (s.push e).meets = s.meets := rfl
@[simp] theorem State.push_stale (s : State) (e : Event) : (s.push e).stale = s.stale := rfl
@[simp] theorem State.push_far (s : State) (e : Event) : (s.push e).far = s.far := rfl

/-! ## putBytes -/

@[simp] theorem State.putBytes_turn (s : State) (loc : Nat) (bs : List Byte) : (s.putBytes loc bs).turn = s.turn := rfl
@[simp] theorem State.putBytes_agenda (s : State) (loc : Nat) (bs : List Byte) : (s.putBytes loc bs).agenda = s.agenda := rfl
@[simp] theorem State.putBytes_free (s : State) (loc : Nat) (bs : List Byte) : (s.putBytes loc bs).free = s.free := rfl
@[simp] theorem State.putBytes_uid (s : State) (loc : Nat) (bs : List Byte) : (s.putBytes loc bs).uid = s.uid := rfl
@[simp] theorem State.putBytes_curCore (s : State) (loc : Nat) (bs : List Byte) : (s.putBytes loc bs).curCore = s.curCore := rfl
@[simp] theorem State.putBytes_curCtx (s : State) (loc : Nat) (bs : List Byte) : (s.putBytes loc bs).curCtx = s.curCtx := rfl
@[simp] theorem State.putBytes_curUnit (s : State) (loc : Nat) (bs : List Byte) : (s.putBytes loc bs).curUnit = s.curUnit := rfl
@[simp] theorem State.putBytes_curJob (s : State) (loc : Nat) (bs : List Byte) : (s.putBytes loc bs).curJob = s.curJob := rfl
@[simp] theorem State.putBytes_time (s : State) (loc : Nat) (bs : List Byte) : (s.putBytes loc bs).time = s.time := rfl
@[simp] theorem State.putBytes_fuse (s : State) (loc : Nat) (bs : List Byte) : (s.putBytes loc bs).fuse = s.fuse := rfl
@[simp] theorem State.putBytes_island (s : State) (loc : Nat) (bs : List Byte) : (s.putBytes loc bs).island = s.island := rfl
@[simp] theorem State.putBytes_ecc (s : State) (loc : Nat) (bs : List Byte) : (s.putBytes loc bs).ecc = s.ecc := rfl
@[simp] theorem State.putBytes_fab (s : State) (loc : Nat) (bs : List Byte) : (s.putBytes loc bs).fab = s.fab := rfl
@[simp] theorem State.putBytes_net (s : State) (loc : Nat) (bs : List Byte) : (s.putBytes loc bs).net = s.net := rfl
@[simp] theorem State.putBytes_link (s : State) (loc : Nat) (bs : List Byte) : (s.putBytes loc bs).link = s.link := rfl
@[simp] theorem State.putBytes_ring (s : State) (loc : Nat) (bs : List Byte) : (s.putBytes loc bs).ring = s.ring := rfl
@[simp] theorem State.putBytes_part (s : State) (loc : Nat) (bs : List Byte) : (s.putBytes loc bs).part = s.part := rfl
@[simp] theorem State.putBytes_sealed_ (s : State) (loc : Nat) (bs : List Byte) : (s.putBytes loc bs).sealed_ = s.sealed_ := rfl
@[simp] theorem State.putBytes_sec (s : State) (loc : Nat) (bs : List Byte) : (s.putBytes loc bs).sec = s.sec := rfl
@[simp] theorem State.putBytes_mgmtLog (s : State) (loc : Nat) (bs : List Byte) : (s.putBytes loc bs).mgmtLog = s.mgmtLog := rfl
@[simp] theorem State.putBytes_mgmtCmds (s : State) (loc : Nat) (bs : List Byte) : (s.putBytes loc bs).mgmtCmds = s.mgmtCmds := rfl
@[simp] theorem State.putBytes_hostOut (s : State) (loc : Nat) (bs : List Byte) : (s.putBytes loc bs).hostOut = s.hostOut := rfl
@[simp] theorem State.putBytes_ringNext (s : State) (loc : Nat) (bs : List Byte) : (s.putBytes loc bs).ringNext = s.ringNext := rfl
@[simp] theorem State.putBytes_aperture (s : State) (loc : Nat) (bs : List Byte) : (s.putBytes loc bs).aperture = s.aperture := rfl
@[simp] theorem State.putBytes_stepped (s : State) (loc : Nat) (bs : List Byte) : (s.putBytes loc bs).stepped = s.stepped := rfl
@[simp] theorem State.putBytes_launch (s : State) (loc : Nat) (bs : List Byte) : (s.putBytes loc bs).launch = s.launch := rfl
@[simp] theorem State.putBytes_reserved (s : State) (loc : Nat) (bs : List Byte) : (s.putBytes loc bs).reserved = s.reserved := rfl
@[simp] theorem State.putBytes_records (s : State) (loc : Nat) (bs : List Byte) : (s.putBytes loc bs).records = s.records := rfl
@[simp] theorem State.putBytes_tasks (s : State) (loc : Nat) (bs : List Byte) : (s.putBytes loc bs).tasks = s.tasks := rfl
@[simp] theorem State.putBytes_core (s : State) (loc : Nat) (bs : List Byte) : (s.putBytes loc bs).core = s.core := rfl
@[simp] theorem State.putBytes_cluster (s : State) (loc : Nat) (bs : List Byte) : (s.putBytes loc bs).cluster = s.cluster := rfl
@[simp] theorem State.putBytes_crew (s : State) (loc : Nat) (bs : List Byte) : (s.putBytes loc bs).crew = s.crew := rfl
@[simp] theorem State.putBytes_umpire (s : State) (loc : Nat) (bs : List Byte) : (s.putBytes loc bs).umpire = s.umpire := rfl
@[simp] theorem State.putBytes_quiescing (s : State) (loc : Nat) (bs : List Byte) : (s.putBytes loc bs).quiescing = s.quiescing := rfl
@[simp] theorem State.putBytes_swaps (s : State) (loc : Nat) (bs : List Byte) : (s.putBytes loc bs).swaps = s.swaps := rfl
@[simp] theorem State.putBytes_range (s : State) (loc : Nat) (bs : List Byte) : (s.putBytes loc bs).range = s.range := rfl
@[simp] theorem State.putBytes_slice (s : State) (loc : Nat) (bs : List Byte) : (s.putBytes loc bs).slice = s.slice := rfl
@[simp] theorem State.putBytes_handoffs (s : State) (loc : Nat) (bs : List Byte) : (s.putBytes loc bs).handoffs = s.handoffs := rfl
@[simp] theorem State.putBytes_sentTuples (s : State) (loc : Nat) (bs : List Byte) : (s.putBytes loc bs).sentTuples = s.sentTuples := rfl
@[simp] theorem State.putBytes_splits (s : State) (loc : Nat) (bs : List Byte) : (s.putBytes loc bs).splits = s.splits := rfl
@[simp] theorem State.putBytes_unit (s : State) (loc : Nat) (bs : List Byte) : (s.putBytes loc bs).unit = s.unit := rfl
@[simp] theorem State.putBytes_home (s : State) (loc : Nat) (bs : List Byte) : (s.putBytes loc bs).home = s.home := rfl
@[simp] theorem State.putBytes_forwards (s : State) (loc : Nat) (bs : List Byte) : (s.putBytes loc bs).forwards = s.forwards := rfl
@[simp] theorem State.putBytes_uline (s : State) (loc : Nat) (bs : List Byte) : (s.putBytes loc bs).uline = s.uline := rfl
@[simp] theorem State.putBytes_owned (s : State) (loc : Nat) (bs : List Byte) : (s.putBytes loc bs).owned = s.owned := rfl
@[simp] theorem State.putBytes_pins (s : State) (loc : Nat) (bs : List Byte) : (s.putBytes loc bs).pins = s.pins := rfl
@[simp] theorem State.putBytes_holds (s : State) (loc : Nat) (bs : List Byte) : (s.putBytes loc bs).holds = s.holds := rfl
@[simp] theorem State.putBytes_tlbis (s : State) (loc : Nat) (bs : List Byte) : (s.putBytes loc bs).tlbis = s.tlbis := rfl
@[simp] theorem State.putBytes_counts (s : State) (loc : Nat) (bs : List Byte) : (s.putBytes loc bs).counts = s.counts := rfl
@[simp] theorem State.putBytes_meets (s : State) (loc : Nat) (bs : List Byte) : (s.putBytes loc bs).meets = s.meets := rfl
@[simp] theorem State.putBytes_stale (s : State) (loc : Nat) (bs : List Byte) : (s.putBytes loc bs).stale = s.stale := rfl
@[simp] theorem State.putBytes_far (s : State) (loc : Nat) (bs : List Byte) : (s.putBytes loc bs).far = s.far := rfl

/-! ## modWin -/

@[simp] theorem State.modWin_turn (s : State) (w : Nat) (f : Window → Window) : (s.modWin w f).turn = s.turn := rfl
@[simp] theorem State.modWin_agenda (s : State) (w : Nat) (f : Window → Window) : (s.modWin w f).agenda = s.agenda := rfl
@[simp] theorem State.modWin_free (s : State) (w : Nat) (f : Window → Window) : (s.modWin w f).free = s.free := rfl
@[simp] theorem State.modWin_uid (s : State) (w : Nat) (f : Window → Window) : (s.modWin w f).uid = s.uid := rfl
@[simp] theorem State.modWin_curCore (s : State) (w : Nat) (f : Window → Window) : (s.modWin w f).curCore = s.curCore := rfl
@[simp] theorem State.modWin_curCtx (s : State) (w : Nat) (f : Window → Window) : (s.modWin w f).curCtx = s.curCtx := rfl
@[simp] theorem State.modWin_curUnit (s : State) (w : Nat) (f : Window → Window) : (s.modWin w f).curUnit = s.curUnit := rfl
@[simp] theorem State.modWin_curJob (s : State) (w : Nat) (f : Window → Window) : (s.modWin w f).curJob = s.curJob := rfl
@[simp] theorem State.modWin_time (s : State) (w : Nat) (f : Window → Window) : (s.modWin w f).time = s.time := rfl
@[simp] theorem State.modWin_mem (s : State) (w : Nat) (f : Window → Window) : (s.modWin w f).mem = s.mem := rfl
@[simp] theorem State.modWin_badLines (s : State) (w : Nat) (f : Window → Window) : (s.modWin w f).badLines = s.badLines := rfl
@[simp] theorem State.modWin_fuse (s : State) (w : Nat) (f : Window → Window) : (s.modWin w f).fuse = s.fuse := rfl
@[simp] theorem State.modWin_island (s : State) (w : Nat) (f : Window → Window) : (s.modWin w f).island = s.island := rfl
@[simp] theorem State.modWin_ecc (s : State) (w : Nat) (f : Window → Window) : (s.modWin w f).ecc = s.ecc := rfl
@[simp] theorem State.modWin_fab (s : State) (w : Nat) (f : Window → Window) : (s.modWin w f).fab = s.fab := rfl
@[simp] theorem State.modWin_net (s : State) (w : Nat) (f : Window → Window) : (s.modWin w f).net = s.net := rfl
@[simp] theorem State.modWin_link (s : State) (w : Nat) (f : Window → Window) : (s.modWin w f).link = s.link := rfl
@[simp] theorem State.modWin_ring (s : State) (w : Nat) (f : Window → Window) : (s.modWin w f).ring = s.ring := rfl
@[simp] theorem State.modWin_part (s : State) (w : Nat) (f : Window → Window) : (s.modWin w f).part = s.part := rfl
@[simp] theorem State.modWin_sealed_ (s : State) (w : Nat) (f : Window → Window) : (s.modWin w f).sealed_ = s.sealed_ := rfl
@[simp] theorem State.modWin_sec (s : State) (w : Nat) (f : Window → Window) : (s.modWin w f).sec = s.sec := rfl
@[simp] theorem State.modWin_mgmtLog (s : State) (w : Nat) (f : Window → Window) : (s.modWin w f).mgmtLog = s.mgmtLog := rfl
@[simp] theorem State.modWin_mgmtCmds (s : State) (w : Nat) (f : Window → Window) : (s.modWin w f).mgmtCmds = s.mgmtCmds := rfl
@[simp] theorem State.modWin_hostOut (s : State) (w : Nat) (f : Window → Window) : (s.modWin w f).hostOut = s.hostOut := rfl
@[simp] theorem State.modWin_ringNext (s : State) (w : Nat) (f : Window → Window) : (s.modWin w f).ringNext = s.ringNext := rfl
@[simp] theorem State.modWin_aperture (s : State) (w : Nat) (f : Window → Window) : (s.modWin w f).aperture = s.aperture := rfl
@[simp] theorem State.modWin_stepped (s : State) (w : Nat) (f : Window → Window) : (s.modWin w f).stepped = s.stepped := rfl
@[simp] theorem State.modWin_launch (s : State) (w : Nat) (f : Window → Window) : (s.modWin w f).launch = s.launch := rfl
@[simp] theorem State.modWin_reserved (s : State) (w : Nat) (f : Window → Window) : (s.modWin w f).reserved = s.reserved := rfl
@[simp] theorem State.modWin_records (s : State) (w : Nat) (f : Window → Window) : (s.modWin w f).records = s.records := rfl
@[simp] theorem State.modWin_tasks (s : State) (w : Nat) (f : Window → Window) : (s.modWin w f).tasks = s.tasks := rfl
@[simp] theorem State.modWin_cluster (s : State) (w : Nat) (f : Window → Window) : (s.modWin w f).cluster = s.cluster := rfl
@[simp] theorem State.modWin_crew (s : State) (w : Nat) (f : Window → Window) : (s.modWin w f).crew = s.crew := rfl
@[simp] theorem State.modWin_umpire (s : State) (w : Nat) (f : Window → Window) : (s.modWin w f).umpire = s.umpire := rfl
@[simp] theorem State.modWin_quiescing (s : State) (w : Nat) (f : Window → Window) : (s.modWin w f).quiescing = s.quiescing := rfl
@[simp] theorem State.modWin_swaps (s : State) (w : Nat) (f : Window → Window) : (s.modWin w f).swaps = s.swaps := rfl
@[simp] theorem State.modWin_range (s : State) (w : Nat) (f : Window → Window) : (s.modWin w f).range = s.range := rfl
@[simp] theorem State.modWin_slice (s : State) (w : Nat) (f : Window → Window) : (s.modWin w f).slice = s.slice := rfl
@[simp] theorem State.modWin_handoffs (s : State) (w : Nat) (f : Window → Window) : (s.modWin w f).handoffs = s.handoffs := rfl
@[simp] theorem State.modWin_sentTuples (s : State) (w : Nat) (f : Window → Window) : (s.modWin w f).sentTuples = s.sentTuples := rfl
@[simp] theorem State.modWin_splits (s : State) (w : Nat) (f : Window → Window) : (s.modWin w f).splits = s.splits := rfl
@[simp] theorem State.modWin_unit (s : State) (w : Nat) (f : Window → Window) : (s.modWin w f).unit = s.unit := rfl
@[simp] theorem State.modWin_home (s : State) (w : Nat) (f : Window → Window) : (s.modWin w f).home = s.home := rfl
@[simp] theorem State.modWin_forwards (s : State) (w : Nat) (f : Window → Window) : (s.modWin w f).forwards = s.forwards := rfl
@[simp] theorem State.modWin_uline (s : State) (w : Nat) (f : Window → Window) : (s.modWin w f).uline = s.uline := rfl
@[simp] theorem State.modWin_owned (s : State) (w : Nat) (f : Window → Window) : (s.modWin w f).owned = s.owned := rfl
@[simp] theorem State.modWin_pins (s : State) (w : Nat) (f : Window → Window) : (s.modWin w f).pins = s.pins := rfl
@[simp] theorem State.modWin_holds (s : State) (w : Nat) (f : Window → Window) : (s.modWin w f).holds = s.holds := rfl
@[simp] theorem State.modWin_tlbis (s : State) (w : Nat) (f : Window → Window) : (s.modWin w f).tlbis = s.tlbis := rfl
@[simp] theorem State.modWin_counts (s : State) (w : Nat) (f : Window → Window) : (s.modWin w f).counts = s.counts := rfl
@[simp] theorem State.modWin_meets (s : State) (w : Nat) (f : Window → Window) : (s.modWin w f).meets = s.meets := rfl
@[simp] theorem State.modWin_stale (s : State) (w : Nat) (f : Window → Window) : (s.modWin w f).stale = s.stale := rfl
@[simp] theorem State.modWin_far (s : State) (w : Nat) (f : Window → Window) : (s.modWin w f).far = s.far := rfl

/-! ## Contexts under updates -/

@[simp] theorem State.coreAt_modCore_same (s : State) (c : Nat) (f : Core → Core) : (s.modCore c f).coreAt c = f (s.coreAt c) := by
  simp [State.coreAt, State.modCore]

theorem State.coreAt_modCore_ne (s : State) (d c : Nat) (f : Core → Core) (h : d ≠ c) : (s.modCore c f).coreAt d = s.coreAt d := by
  simp [State.coreAt, State.modCore, Tab.get_modify_ne _ _ _ _ h]

@[simp] theorem State.ctxAt_modCtx_same (s : State) (c k : Nat) (f : Ctx → Ctx) : (s.modCtx c k f).ctxAt c k = f (s.ctxAt c k) := by
  simp [State.ctxAt, State.modCtx, State.modCore]

theorem State.ctxAt_modCtx_ne (s : State) (c k d j : Nat) (f : Ctx → Ctx) (h : ¬ (d = c ∧ j = k)) :
    (s.modCtx c k f).ctxAt d j = s.ctxAt d j := by
  by_cases hd : d = c
  · have hj : j ≠ k := fun e => h ⟨hd, e⟩
    simp [State.ctxAt, State.modCtx, State.modCore, hd, Tab.get_modify_ne _ _ _ _ hj]
  · simp [State.ctxAt, State.modCtx, State.modCore, Tab.get_modify_ne _ _ _ _ hd]

@[simp] theorem State.me_modMe (s : State) (f : Ctx → Ctx) : (s.modMe f).me = f s.me := by
  simp [State.me, State.modMe]

@[simp] theorem State.me_setG (s : State) (k : Nat) (v : Word) : (s.setG k v).me = s.me.setG k v := by
  simp [State.setG]


@[simp] theorem Ctx.setG_g (c : Ctx) (k : Nat) (v : Word) : (c.setG k v).g = c.g.set k v := rfl

@[simp] theorem Ctx.setG_phase (c : Ctx) (k : Nat) (v : Word) : (c.setG k v).phase = c.phase := rfl
@[simp] theorem Ctx.setG_work (c : Ctx) (k : Nat) (v : Word) : (c.setG k v).work = c.work := rfl
@[simp] theorem Ctx.setG_serial (c : Ctx) (k : Nat) (v : Word) : (c.setG k v).serial = c.serial := rfl
@[simp] theorem Ctx.setG_pend (c : Ctx) (k : Nat) (v : Word) : (c.setG k v).pend = c.pend := rfl
@[simp] theorem Ctx.setG_pc (c : Ctx) (k : Nat) (v : Word) : (c.setG k v).pc = c.pc := rfl
@[simp] theorem Ctx.setG_lineN (c : Ctx) (k : Nat) (v : Word) : (c.setG k v).lineN = c.lineN := rfl
@[simp] theorem Ctx.setG_uie (c : Ctx) (k : Nat) (v : Word) : (c.setG k v).uie = c.uie := rfl
@[simp] theorem Ctx.setG_atrap (c : Ctx) (k : Nat) (v : Word) : (c.setG k v).atrap = c.atrap := rfl
@[simp] theorem Ctx.setG_vwin (c : Ctx) (k : Nat) (v : Word) : (c.setG k v).vwin = c.vwin := rfl
@[simp] theorem Ctx.setG_q (c : Ctx) (k : Nat) (v : Word) : (c.setG k v).q = c.q := rfl
@[simp] theorem Ctx.setG_trap (c : Ctx) (k : Nat) (v : Word) : (c.setG k v).trap = c.trap := rfl
@[simp] theorem Ctx.setG_ident (c : Ctx) (k : Nat) (v : Word) : (c.setG k v).ident = c.ident := rfl
@[simp] theorem Ctx.setG_msgr (c : Ctx) (k : Nat) (v : Word) : (c.setG k v).msgr = c.msgr := rfl
@[simp] theorem Ctx.setG_latch (c : Ctx) (k : Nat) (v : Word) : (c.setG k v).latch = c.latch := rfl
@[simp] theorem Ctx.setG_sleep (c : Ctx) (k : Nat) (v : Word) : (c.setG k v).sleep = c.sleep := rfl
@[simp] theorem Ctx.setG_sendBuf (c : Ctx) (k : Nat) (v : Word) : (c.setG k v).sendBuf = c.sendBuf := rfl
@[simp] theorem Ctx.setG_streams (c : Ctx) (k : Nat) (v : Word) : (c.setG k v).streams = c.streams := rfl
@[simp] theorem Ctx.setG_parkCount (c : Ctx) (k : Nat) (v : Word) : (c.setG k v).parkCount = c.parkCount := rfl
@[simp] theorem Ctx.setG_heldTrap (c : Ctx) (k : Nat) (v : Word) : (c.setG k v).heldTrap = c.heldTrap := rfl
@[simp] theorem Ctx.setG_waitIntr (c : Ctx) (k : Nat) (v : Word) : (c.setG k v).waitIntr = c.waitIntr := rfl
@[simp] theorem Ctx.setG_uiSaved (c : Ctx) (k : Nat) (v : Word) : (c.setG k v).uiSaved = c.uiSaved := rfl
@[simp] theorem Ctx.setG_retStack (c : Ctx) (k : Nat) (v : Word) : (c.setG k v).retStack = c.retStack := rfl
@[simp] theorem Ctx.setG_lastIssue (c : Ctx) (k : Nat) (v : Word) : (c.setG k v).lastIssue = c.lastIssue := rfl
@[simp] theorem Ctx.setG_stores (c : Ctx) (k : Nat) (v : Word) : (c.setG k v).stores = c.stores := rfl
@[simp] theorem Ctx.setG_shotEnd (c : Ctx) (k : Nat) (v : Word) : (c.setG k v).shotEnd = c.shotEnd := rfl
@[simp] theorem Ctx.setG_deferred (c : Ctx) (k : Nat) (v : Word) : (c.setG k v).deferred = c.deferred := rfl
@[simp] theorem Ctx.setG_blocked (c : Ctx) (k : Nat) (v : Word) : (c.setG k v).blocked = c.blocked := rfl
@[simp] theorem Ctx.setG_stay (c : Ctx) (k : Nat) (v : Word) : (c.setG k v).stay = c.stay := rfl
@[simp] theorem Ctx.setG_wakeSeen (c : Ctx) (k : Nat) (v : Word) : (c.setG k v).wakeSeen = c.wakeSeen := rfl
@[simp] theorem Ctx.setG_moveDev (c : Ctx) (k : Nat) (v : Word) : (c.setG k v).moveDev = c.moveDev := rfl
@[simp] theorem Ctx.setG_blk (c : Ctx) (k : Nat) (v : Word) : (c.setG k v).blk = c.blk := rfl

end Sys2Proof.Machine
end

