-- ==== Sys2Proof/Laws/Act.lean ====
section
/-! SUPPORT. How actions compose, and what the operand checks, the register accesses and the completion of an instruction answer. -/

namespace Sys2Proof.Machine

/-! ## Composition -/

theorem Act.bind_ok {α β : Type} {x : Act α} {f : α → Act β} {s s' : State} {a : α} (h : x s = .ok (a, s')) :
    (x >>= f) s = f a s' := by
  simp [bind, StateT.bind, Except.bind, h]

theorem Act.bind_error {α β : Type} {x : Act α} {f : α → Act β} {s : State} {e : Stop} (h : x s = .error e) :
    (x >>= f) s = .error e := by
  simp [bind, StateT.bind, Except.bind, h]

@[simp] theorem Act.get_apply (s : State) : (get : Act State) s = .ok (s, s) := rfl
@[simp] theorem Act.set_apply (s t : State) : (set t : Act PUnit) s = .ok (⟨⟩, t) := rfl
@[simp] theorem Act.modify_apply (f : State → State) (s : State) : (modify f : Act PUnit) s = .ok (⟨⟩, f s) := rfl
@[simp] theorem Act.pure_apply {α : Type} (a : α) (s : State) : (pure a : Act α) s = .ok (a, s) := rfl
@[simp] theorem Act.stall_apply {α : Type} (s : State) : (stall : Act α) s = .error .stall := rfl
@[simp] theorem Act.stop_apply {α : Type} (x : Stop) (s : State) : (stop x : Act α) s = .error x := rfl
@[simp] theorem Act.wait_apply {α : Type} (s : State) : (waitHere : Act α) s = .error (.wait s) := rfl

theorem Act.get_bind {β : Type} (f : State → Act β) (s : State) : ((get : Act State) >>= f) s = f s s := rfl
theorem Act.modify_bind {β : Type} (g : State → State) (f : PUnit → Act β) (s : State) :
    ((modify g : Act PUnit) >>= f) s = f ⟨⟩ (g s) := rfl
theorem Act.set_bind {β : Type} (t : State) (f : PUnit → Act β) (s : State) : ((set t : Act PUnit) >>= f) s = f ⟨⟩ t := rfl
theorem Act.pure_bind' {α β : Type} (a : α) (f : α → Act β) (s : State) : ((pure a : Act α) >>= f) s = f a s := rfl

theorem Act.ite_apply {α : Type} (c : Prop) [Decidable c] (x y : Act α) (s : State) :
    (if c then x else y) s = if c then x s else y s := by
  split <;> rfl

/-- A core instruction whose meaning answers a state leaves that state. -/
theorem runAct_ok {m : Act Unit} {s s' : State} (h : m s = .ok ((), s')) : runAct m s = .next s' := by
  simp [runAct, h]

theorem runAct_stall {m : Act Unit} {s : State} (h : m s = .error .stall) : runAct m s = .next s := by
  simp [runAct, h]

theorem runAct_trap {m : Act Unit} {s : State} {t : Trap} (h : m s = .error (.trap t none)) :
    runAct m s = .next ((s.farClear (8 * s.curCore + s.curCtx)).takeTrap s.curCore s.curCtx t) := by
  simp [runAct, h]

/-! ## Operand checks -/

theorem Ctx.plain_mem {c : Ctx} {ks : List Nat} (h : c.plain ks = true) {k : Nat} (m : k ∈ ks) :
    assocGet c.streams k = none ∧ c.pend.getLsbD k = false := by
  have := List.all_eq_true.mp h k m
  simp only [Bool.and_eq_true, Option.isNone_iff_eq_none, Bool.not_eq_true'] at this
  exact this

theorem Ctx.plain_of_subset {c : Ctx} {ks js : List Nat} (h : c.plain ks = true) (hs : ∀ j ∈ js, j ∈ ks) : c.plain js = true := by
  refine List.all_eq_true.mpr fun j m => ?_
  have := Ctx.plain_mem h (hs j m)
  simp [this.1, this.2]

theorem Ctx.poison_find {c : Ctx} {ks js : List Nat} (h : c.unpoisoned ks = true) (hs : ∀ j ∈ js, j ∈ ks) :
    c.poison.find? (fun p => js.contains p.1 && !c.seen.getLsbD p.1) = none := by
  refine List.find?_eq_none.mpr fun p m => ?_
  have := List.all_eq_true.mp h p m
  intro hc
  have h1 : p.1 ∈ js ∧ c.seen.getLsbD p.1 = false := by simpa using hc
  have h2 : p.1 ∉ ks ∨ c.seen.getLsbD p.1 = true := by simpa [Decidable.not_or_of_imp] using this
  rcases h2 with h2 | h2
  · exact h2 (hs _ h1.1)
  · rw [h1.2] at h2
    cases h2

theorem State.canRun_plain {s : State} {srcs dsts : List Nat} (h : s.canRun srcs dsts = true) :
    s.me.plain (srcs ++ dsts) = true := (Bool.and_eq_true _ _ ▸ h).1

theorem State.canRun_unpoisoned {s : State} {srcs dsts : List Nat} (h : s.canRun srcs dsts = true) :
    s.me.unpoisoned srcs = true := (Bool.and_eq_true _ _ ▸ h).2

theorem State.canRun_stream {s : State} {srcs dsts : List Nat} (h : s.canRun srcs dsts = true) {k : Nat}
    (m : k ∈ srcs ∨ k ∈ dsts) : s.streamOf k = none :=
  (Ctx.plain_mem (State.canRun_plain h) (List.mem_append.mpr m)).1

theorem waitPend_ok {s : State} {ks : List Nat} (h : ∀ k ∈ ks, s.me.pend.getLsbD k = false) :
    waitPend ks s = .ok ((), s) := by
  have : ks.any (fun k => s.me.pend.getLsbD k) = false := by
    simpa using h
  unfold waitPend
  rw [Act.get_bind]
  simp only [this]
  rfl

theorem poisonCheck_ok {s : State} {ks js : List Nat} (h : s.me.unpoisoned ks = true) (hs : ∀ j ∈ js, j ∈ ks) :
    poisonCheck js s = .ok ((), s) := by
  unfold poisonCheck
  rw [Ctx.poison_find h hs]

/-- Operands that can be read at once pass the checks of chapters 17 and 19. -/
theorem prepS_ok {s : State} {op : Nat} {srcs dsts both : List Nat} (h : s.canRun (srcs ++ both) (dsts ++ both) = true) :
    prepS op srcs dsts both s = .ok ((), s) := by
  have st : ∀ k, k ∈ srcs ∨ k ∈ dsts ∨ k ∈ both → s.streamOf k = none := by
    intro k m
    refine State.canRun_stream h ?_
    rcases m with m | m | m <;> simp [m]
  have hp : ∀ k ∈ (srcs ++ dsts ++ both).filter (fun k => decide (k < 16)), s.me.pend.getLsbD k = false := by
    intro k m
    have m1 := (List.mem_filter.mp m).1
    refine (Ctx.plain_mem (State.canRun_plain h) ?_).2
    simp only [List.mem_append] at m1 ⊢
    tauto
  have hq : ∀ j ∈ (srcs ++ both).filter (fun k => decide (k < 16)), j ∈ srcs ++ both := fun j m => (List.mem_filter.mp m).1
  unfold prepS
  rw [Act.get_bind]
  dsimp only
  rw [if_neg (by
    simp only [Bool.or_eq_true, List.any_eq_true, not_or, not_exists, not_and]
    exact ⟨⟨fun k m => by simp [st k (.inl m)], fun k m => by simp [st k (.inr (.inl m))]⟩,
      fun k m => by simp [st k (.inr (.inr m))]⟩)]
  rw [Act.bind_ok (waitPend_ok hp), poisonCheck_ok (State.canRun_unpoisoned h) hq]

/-- Operands that can be read at once pass the checks of chapters 18 and 20 to 22. -/
theorem prep_ok {s : State} {op : Nat} {srcs dsts : List Nat} (h : s.canRun srcs dsts = true) :
    prep op srcs dsts s = .ok ((), s) := by
  have h1 : ((srcs ++ dsts).any fun k => (s.streamOf k).isSome) = false := by
    simp only [List.any_eq_false]
    intro k m
    simp [State.canRun_stream h (List.mem_append.mp m)]
  have hn : noStream op (srcs ++ dsts) s = .ok ((), s) := by
    unfold noStream
    rw [Act.get_bind]
    simp only [h1]
    rfl
  unfold prep
  rw [Act.bind_ok hn, Act.bind_ok (waitPend_ok fun k m => (Ctx.plain_mem (State.canRun_plain h) m).2),
    poisonCheck_ok (State.canRun_unpoisoned h) fun j m => m]

theorem readG_ok {s : State} {k : Nat} (h : s.streamOf k = none) : readG k s = .ok (s.me.g.get k, s) := by
  simp [readG, Act.get_bind, h]

theorem writeG_ok {s : State} {k : Nat} {v : Word} (h : s.streamOf k = none) : writeG k v s = .ok ((), s.setG k v) := by
  simp [writeG, Act.get_bind, h]

@[simp] theorem State.streamOf_setG (s : State) (k j : Nat) (v : Word) : (s.setG k v).streamOf j = s.streamOf j := by
  simp [State.streamOf]

@[simp] theorem advance_ok (s : State) : advance s = .ok ((), s.modMe (fun c => { c with pc := nextPc c.pc c.lineN })) := rfl

/-- Completing an instruction never fails. -/
theorem finish_ok (s : State) : finish s = .ok ((), s.completed) := by
  unfold finish State.completed
  rw [Act.get_bind]
  split <;> rfl

theorem goto_ok (s : State) (t : Word) : goto t s = .ok ((), s.jumped t) := by
  unfold goto State.jumped
  rw [Act.get_bind]
  split
  · rename_i h
    have : s.me.streams.isEmpty = false := by simpa using h
    simp only [this]
    rfl
  · rename_i h
    have : s.me.streams.isEmpty = true := by simpa using h
    simp only [this]
    rfl

/-- A three-register instruction whose operands can be read writes its result. -/
theorem binary_ok {s : State} {op d a b : Nat} {f : Word → Word → Word} (h : s.canRun [a, b] [d] = true) :
    binary op d a b f s = .ok ((), s.wrote d (f (s.me.g.get a) (s.me.g.get b))) := by
  unfold binary
  rw [Act.bind_ok (prepS_ok (by simpa using h)), Act.bind_ok (readG_ok (State.canRun_stream h (by simp))),
    Act.bind_ok (readG_ok (State.canRun_stream h (by simp))), Act.bind_ok (writeG_ok (State.canRun_stream h (by simp))),
    finish_ok, State.wrote]

theorem unary_ok {s : State} {op d a : Nat} {f : Word → Word} (h : s.canRun [a] [d] = true) :
    unary op d a f s = .ok ((), s.wrote d (f (s.me.g.get a))) := by
  unfold unary
  rw [Act.bind_ok (prepS_ok (by simpa using h)), Act.bind_ok (readG_ok (State.canRun_stream h (by simp))),
    Act.bind_ok (writeG_ok (State.canRun_stream h (by simp))), finish_ok, State.wrote]

end Sys2Proof.Machine
end

