-- ==== Sys2Proof/Laws/Translate.lean ====
section
/-! SUPPORT. What translating an address, resolving a pointer and fetching a line may change: TLBs, the count of
free values, and memory only by the recall of update-only partials. -/

namespace Sys2Proof.Machine

theorem State.sameMem_refl (s : State) : s.sameMem s := ⟨rfl, rfl, rfl⟩

theorem State.sameButWalk_refl (s : State) : s.sameButWalk s := ⟨fun _ => rfl, fun _ => rfl, rfl, fun _ => s.sameMem_refl⟩

theorem State.sameButWalk_trans {r s t : State} (h : t.sameButWalk s) (g : s.sameButWalk r) : t.sameButWalk r := by
  refine ⟨fun c => ?_, fun c => ?_, ?_, fun e => ?_⟩
  · rw [h.1 c, g.1 c]
  · rw [h.2.1 c, g.2.1 c]
  · rw [h.2.2.1, g.2.2.1]
  · have a := g.2.2.2 e
    have b := h.2.2.2 (a.2.2.trans e)
    exact ⟨b.1.trans a.1, b.2.1.trans a.2.1, b.2.2.trans a.2.2⟩

/-- A translation leaves every context as it was. -/
theorem State.sameButWalk_ctxAt {s t : State} (h : t.sameButWalk s) (c k : Nat) : t.ctxAt c k = s.ctxAt c k := by
  have := congrArg Core.ctx (h.1 c)
  simp only [State.coreAt] at this
  simp [State.ctxAt, this]

theorem State.sameButWalk_cur {s t : State} (h : t.sameButWalk s) :
    t.curCore = s.curCore ∧ t.curCtx = s.curCtx ∧ t.part = s.part ∧ t.fab = s.fab ∧ t.tasks = s.tasks ∧ t.agenda = s.agenda ∧
      t.owned = s.owned ∧ t.time = s.time := by
  rw [h.2.2.1]
  simp

theorem State.sameButWalk_me {s t : State} (h : t.sameButWalk s) : t.me = s.me := by
  unfold State.me
  rw [(State.sameButWalk_cur h).1, (State.sameButWalk_cur h).2.1, State.sameButWalk_ctxAt h]

theorem State.sameButWalk_modTlb (s : State) (c : Nat) (f : Core → Core)
    (hf : ∀ x, f x = { x with tlb := (f x).tlb, tlbUse := (f x).tlbUse }) : (s.modCore c f).sameButWalk s := by
  refine ⟨fun d => ?_, fun _ => rfl, rfl, fun _ => s.sameMem_refl⟩
  by_cases h : d = c
  · subst h
    rw [State.coreAt_modCore_same]
    exact hf _
  · rw [State.coreAt_modCore_ne _ _ _ _ h]

theorem State.sameButWalk_modTlb2 (s : State) (c : Nat) (f : Cluster → Cluster)
    (hf : ∀ x, f x = { x with tlb2 := (f x).tlb2 }) : (s.modCluster c f).sameButWalk s := by
  refine ⟨fun _ => rfl, fun d => ?_, rfl, fun _ => s.sameMem_refl⟩
  by_cases h : d = c
  · subst h
    simp only [State.clusterAt, State.modCluster, Tab.get_modify_same]
    exact hf _
  · simp only [State.clusterAt, State.modCluster, Tab.get_modify_ne _ _ _ _ h]

theorem State.sameButWalk_free (s : State) (n : Nat) : ({ s with free := n } : State).sameButWalk s :=
  ⟨fun _ => rfl, fun _ => rfl, rfl, fun _ => s.sameMem_refl⟩

theorem combine_eq (s : State) (u : ULine) : s.combine u = { s with mem := (s.combine u).mem, badLines := (s.combine u).badLines } := by
  unfold State.combine
  dsimp only
  generalize (List.range u.parts.length).zip u.parts = ps
  induction ps generalizing s with
  | nil => rfl
  | cons p r ih =>
    rw [List.foldl_cons, ih]
    rfl

theorem combineAll_eq (s : State) (us : List ULine) :
    us.foldl State.combine s = { s with mem := (us.foldl State.combine s).mem, badLines := (us.foldl State.combine s).badLines } := by
  induction us generalizing s with
  | nil => rfl
  | cons u r ih =>
    rw [List.foldl_cons, ih, combine_eq]

theorem recall_eq (s : State) (l : Nat) :
    s.recall l = { s with mem := (s.recall l).mem, badLines := (s.recall l).badLines, uline := (s.recall l).uline } := by
  unfold State.recall
  split
  · rfl
  · dsimp only
    rw [combineAll_eq]

theorem recallRange_eq (s : State) (loc n : Nat) :
    s.recallRange loc n = { s with mem := (s.recallRange loc n).mem, badLines := (s.recallRange loc n).badLines,
                                   uline := (s.recallRange loc n).uline } := by
  unfold State.recallRange
  split
  · rfl
  · rename_i h
    clear h
    generalize List.range ((loc + n - 1) / 64 - loc / 64 + 1) = js
    induction js generalizing s with
    | nil => rfl
    | cons j r ih =>
      rw [List.foldl_cons, ih, recall_eq]

/-- A recall changes memory and partials, and nothing where no partials stand (R137). -/
theorem State.sameButWalk_recall (s : State) (loc n : Nat) : (s.recallRange loc n).sameButWalk s := by
  have h := recallRange_eq s loc n
  refine ⟨fun c => ?_, fun c => ?_, ?_, fun e => ?_⟩
  · rw [h]
    rfl
  · rw [h]
    rfl
  · rw [h]
  · simp [State.recallRange, e, State.sameMem]

theorem entryAt_frame (s : State) (cl loc : Nat) : (s.entryAt cl loc).2.sameButWalk s := by
  have h := State.sameButWalk_recall s loc 8
  unfold State.entryAt
  dsimp only
  split
  · exact h
  · exact State.sameButWalk_trans (State.sameButWalk_free _ _) h

theorem tableEntries_frame (cl loc n : Nat) (s : State) : (State.tableEntries cl loc n s).2.sameButWalk s := by
  induction n generalizing loc s with
  | zero => exact State.sameButWalk_refl s
  | succ n ih => exact State.sameButWalk_trans (ih _ _) (entryAt_frame s cl loc)

theorem walkFrom_frame (cl va : Nat) (n table shift : Nat) (s : State) : (walkFrom cl va n table shift s).2.sameButWalk s := by
  induction n generalizing table shift s with
  | zero => exact State.sameButWalk_refl s
  | succ n ih =>
    unfold walkFrom
    dsimp only
    generalize va / 2 ^ shift % 2 ^ (if 4 - n = 1 then 13 else 9) = idx
    split
    · exact State.sameButWalk_refl s
    · split
      · exact State.sameButWalk_refl s
      · have h1 := entryAt_frame s cl (table + 8 * idx)
        split
        · exact h1
        · split
          · split
            · split
              · exact h1
              · split
                · exact h1
                · have h2 := tableEntries_frame cl (table + 128 * (idx / 16)) 16 (s.entryAt cl (table + 8 * idx)).2
                  generalize State.tableEntries cl (table + 128 * (idx / 16)) 16 (s.entryAt cl (table + 8 * idx)).2 = r at h2 ⊢
                  exact State.sameButWalk_trans h2 h1
            · exact h1
          · exact State.sameButWalk_trans (ih _ _ _) h1

/-- A walk changes at most what a translation may. -/
theorem walk_frame (s : State) (cl part va : Nat) : (s.walk cl part va).2.sameButWalk s := walkFrom_frame ..

theorem missFor_frame {core part va : Nat} {s t : State} {r : Except AccFault Leaf} (h : missFor core part va s = .ok (r, t)) :
    t.sameButWalk s := by
  unfold missFor at h
  dsimp only at h
  split at h
  · cases h
  · split at h
    · cases h
    · split at h
      · cases h
      · have w := walk_frame s (clusterOf core) part va
        split at h
        · cases h
        · rename_i e
          rw [e] at w
          cases h
          exact w
        · rename_i e
          rw [e] at w
          cases h
          refine State.sameButWalk_trans (State.sameButWalk_modTlb2 _ _ _ fun _ => rfl) ?_
          refine State.sameButWalk_trans (State.sameButWalk_modTlb _ _ _ fun _ => rfl) ?_
          split
          · exact State.sameButWalk_trans (State.sameButWalk_free _ _) w
          · exact w

/-- A leaf found changes at most what a translation may. -/
theorem leafFor_frame {core part va : Nat} {s t : State} {r : Except AccFault Leaf} (h : leafFor core part va s = .ok (r, t)) :
    t.sameButWalk s := by
  unfold leafFor at h
  dsimp only at h
  split at h
  · cases h
    exact State.sameButWalk_refl s
  · split at h
    · cases h
      exact State.sameButWalk_modTlb _ _ _ fun _ => rfl
    · split at h
      · cases h
        exact State.sameButWalk_modTlb _ _ _ fun _ => rfl
      · exact missFor_frame h

theorem Act.bind_ok_inv {α β : Type} {x : Act α} {f : α → Act β} {s t : State} {b : β} (h : (x >>= f) s = .ok (b, t)) :
    ∃ a u, x s = .ok (a, u) ∧ f a u = .ok (b, t) := by
  cases hx : x s with
  | error e => rw [Act.bind_error hx] at h; cases h
  | ok p =>
    obtain ⟨a, u⟩ := p
    rw [Act.bind_ok hx] at h
    exact ⟨a, u, rfl, h⟩

/-- A translation changes at most what a translation may. -/
theorem translate_frame {core part sreg va : Nat} {a : Access} {s t : State} {r : Except AccFault Target}
    (h : translate core part sreg va a s = .ok (r, t)) : t.sameButWalk s := by
  unfold translate at h
  split at h
  · rw [Act.get_bind] at h
    simp only [Act.ite_apply] at h
    repeat' split at h
    all_goals (cases h; exact State.sameButWalk_refl _)
  · obtain ⟨l, u, h1, h2⟩ := Act.bind_ok_inv h
    have hf := leafFor_frame h1
    cases l with
    | error f => cases h2; exact hf
    | ok l =>
      dsimp only at h2
      rw [Act.get_bind] at h2
      split at h2 <;> (cases h2; exact hf)

/-- Resolving a pointer changes at most what a translation may. -/
theorem resolveAt_frame {core part sreg : Nat} {p : Word} {a : Access} {s t : State} {r : Except AccFault Target}
    (h : resolveAt core part sreg p a s = .ok (r, t)) : t.sameButWalk s := by
  unfold resolveAt at h
  rw [Act.get_bind] at h
  dsimp only at h
  generalize bits p 53 52 = n at h
  match n with
  | 0 => exact translate_frame h
  | 1 =>
    simp only [Act.ite_apply] at h
    repeat' split at h
    all_goals (cases h; exact State.sameButWalk_refl _)
  | 2 =>
    simp only [Act.ite_apply] at h
    split at h
    · cases h; exact State.sameButWalk_refl _
    · split at h
      · cases h; exact State.sameButWalk_refl _
      · exact translate_frame h
  | n + 3 =>
    generalize bits p 51 48 = m at h
    match m with
    | 0 =>
      simp only [Act.ite_apply] at h
      split at h <;> (cases h; exact State.sameButWalk_refl _)
    | 1 =>
      simp only [Act.ite_apply] at h
      split at h <;> (cases h; exact State.sameButWalk_refl _)
    | 2 => cases h; exact State.sameButWalk_refl _
    | m + 3 => cases h; exact State.sameButWalk_refl _

theorem resolve_frame {p : Word} {a : Access} {s t : State} {r : Target} (h : resolve p a s = .ok (r, t)) : t.sameButWalk s := by
  unfold resolve at h
  obtain ⟨_, u, h1, h2⟩ := Act.bind_ok_inv h
  have hu : u = s := by
    unfold acquireWait at h1
    rw [Act.get_bind] at h1
    split at h1
    · cases h1
    · cases h1; rfl
  subst hu
  rw [Act.get_bind, Act.ite_apply] at h2
  split at h2
  · cases h2
  · obtain ⟨x, v, h3, h4⟩ := Act.bind_ok_inv h2
    cases x with
    | error f => cases h4
    | ok x => cases h4; exact resolveAt_frame h3

/-- Fetching a line changes at most what a translation may. -/
theorem fetchLine_frame {pc : Word} {s t : State} {r : Fetched} (h : fetchLine pc s = .ok (r, t)) : t.sameButWalk s := by
  unfold fetchLine at h
  rw [Act.get_bind, Act.ite_apply] at h
  split at h
  · cases h; exact State.sameButWalk_refl _
  · obtain ⟨x, u, h1, h2⟩ := Act.bind_ok_inv h
    have hf := translate_frame h1
    cases x with
    | error f => cases h2; exact hf
    | ok y =>
      cases y with
      | far d => cases h2; exact hf
      | reg d => cases h2; exact hf
      | mem loc leaf =>
        dsimp only at h2
        rw [Act.get_bind, Act.ite_apply] at h2
        split at h2
        · cases h2
        · have hg := State.sameButWalk_trans (State.sameButWalk_recall u loc 64) hf
          rw [Act.modify_bind, Act.get_bind, Act.ite_apply] at h2
          split at h2
          · cases h2; exact hg
          · cases hp : parseLine ((u.recallRange loc 64).bytesAt loc 64) with
            | none => rw [hp] at h2; cases h2; exact hg
            | some cs => rw [hp] at h2; cases h2; exact hg

theorem badTarget_frame {pc : Word} {s t : State} {b : Bool} (h : badTarget pc s = .ok (b, t)) : t.sameButWalk s := by
  unfold badTarget at h
  rw [Act.ite_apply] at h
  split at h
  · cases h; exact State.sameButWalk_refl _
  · obtain ⟨x, u, h1, h2⟩ := Act.bind_ok_inv h
    have hf := fetchLine_frame h1
    cases x <;> (cases h2; exact hf)

end Sys2Proof.Machine
end

