-- ==== Sys2Proof/Laws/Engines.lean ====
section
/-! SUPPORT. What finding the lines that a command will own may change (R135). -/

namespace Sys2Proof.Machine

/-- A computation each of whose steps changes at most what a translation may, changes no more. -/
theorem mapM_frame {α β : Type} {f : α → Act β} (hf : ∀ x s r t, f x s = .ok (r, t) → t.sameButWalk s) :
    ∀ (xs : List α) {s t : State} {r : List β}, xs.mapM f s = .ok (r, t) → t.sameButWalk s := by
  intro xs
  induction xs with
  | nil => intro s t r h; rw [List.mapM_nil] at h; cases h; exact State.sameButWalk_refl _
  | cons x xs ih =>
    intro s t r h
    rw [List.mapM_cons] at h
    obtain ⟨y, u, h1, h2⟩ := Act.bind_ok_inv h
    obtain ⟨ys, v, h3, h4⟩ := Act.bind_ok_inv h2
    cases h4
    exact State.sameButWalk_trans (ih h3) (hf x s y u h1)

/-- An access that faults changes nothing, and another what it changes. -/
theorem catchFault_frame {α : Type} {m : Act α} (hm : ∀ s r t, m s = .ok (r, t) → t.sameButWalk s) {s t : State}
    {r : Except Poison α} (h : catchFault m s = .ok (r, t)) : t.sameButWalk s := by
  unfold catchFault at h
  cases e : m s with
  | ok p => rw [e] at h; cases h; exact hm _ _ _ e
  | error x =>
    rw [e] at h
    cases x <;> first | (cases h; exact State.sameButWalk_refl _) | cases h

theorem lineMap_frame {p : Word} {n : Nat} {s t : State} {r : List (Nat × Nat)} (h : lineMap p n s = .ok (r, t)) :
    t.sameButWalk s := by
  obtain ⟨xs, u, h1, h2⟩ := Act.bind_ok_inv h
  cases h2
  refine mapM_frame (fun x s r t h => ?_) _ h1
  obtain ⟨y, u, h3, h4⟩ := Act.bind_ok_inv h
  have hf := catchFault_frame (fun _ _ _ h => resolve_frame h) h3
  rcases y with _ | ⟨_ | _ | _⟩ <;> (cases h4; exact hf)

theorem linesAt_frame {p : Word} {n : Nat} {s t : State} {r : List Nat} (h : linesAt p n s = .ok (r, t)) : t.sameButWalk s := by
  obtain ⟨xs, u, h1, h2⟩ := Act.bind_ok_inv h
  cases h2
  exact lineMap_frame h1

theorem linesOf_frame {rs : List (Word × Nat)} {s t : State} {r : List Nat} (h : linesOf rs s = .ok (r, t)) : t.sameButWalk s := by
  obtain ⟨xs, u, h1, h2⟩ := Act.bind_ok_inv h
  cases h2
  exact mapM_frame (fun x s r t h => linesAt_frame h) _ h1

/-- Finding the lines that a command will own changes at most what a translation may. -/
theorem issueLines_frame {buf : Option Nat} {dest : Word} {rows : Word → List (Word × Nat)} {s t : State} {r : List Nat}
    (h : issueLines buf dest rows s = .ok (r, t)) : t.sameButWalk s := by
  unfold issueLines at h
  rw [Act.get_bind] at h
  cases buf with
  | none => exact linesOf_frame h
  | some k =>
    dsimp only at h
    cases e : s.slotAhead (clusterOf s.curCore) k with
    | none => rw [e] at h; cases h; exact State.sameButWalk_refl _
    | some q => rw [e] at h; exact linesOf_frame h

end Sys2Proof.Machine
end

