-- ==== Sys2Proof/Laws/Memory.lean ====
section
/-! SUPPORT. Every operation on memory keeps its canonical form (R24, DESIGN CHOICE, log entry 14): a write of a byte or of bytes,
the clearing of a
range, the copy of a range; and the memory after reset has it. What a byte reads as after each of them. -/

namespace Sys2Proof.Machine

/-- The canonical form of a list is that of its tail, with a first entry below it that is not zero. -/
theorem Memory.wf_cons (a : Nat) (b : Byte) (r : List Host.Cell) :
    Memory.wf ((a, b) :: r) = true ↔ b ≠ 0 ∧ (∀ c ∈ r, a < c.1) ∧ Memory.wf r = true := by
  induction r generalizing a b with
  | nil => simp [Memory.wf]
  | cons c r ih =>
    obtain ⟨k, d⟩ := c
    have split : Memory.wf ((a, b) :: (k, d) :: r) = true ↔ b ≠ 0 ∧ a < k ∧ Memory.wf ((k, d) :: r) = true := by
      simp [Memory.wf, and_assoc]
    rw [split]
    refine and_congr_right fun _ => ⟨fun ⟨lt, w⟩ => ⟨?_, w⟩, fun ⟨low, w⟩ => ⟨low (k, d) (.head _), w⟩⟩
    intro c m
    rcases List.mem_cons.mp m with rfl | m
    · exact lt
    · exact Nat.lt_trans lt (((ih k d).mp w).2.1 c m)

/-- The entries of a written list are the old ones and the new one. -/
theorem memWrite_mem {m : List Host.Cell} {a : Nat} {b : Byte} {c : Host.Cell} (h : c ∈ memWrite m a b) : c = (a, b) ∨ c ∈ m := by
  induction m with
  | nil =>
    simp only [memWrite] at h
    split at h <;> simp_all
  | cons p r ih =>
    obtain ⟨j, d⟩ := p
    simp only [memWrite] at h
    split at h
    · split at h
      · exact .inr h
      · exact (List.mem_cons.mp h).imp id id
    · split at h
      · split at h
        · exact .inr (.tail _ h)
        · exact (List.mem_cons.mp h).imp id (.tail _)
      · rcases List.mem_cons.mp h with rfl | h
        · exact .inr (.head _)
        · exact (ih h).imp id (.tail _)

theorem memWrite_wf {m : List Host.Cell} (h : Memory.wf m = true) (a : Nat) (b : Byte) : Memory.wf (memWrite m a b) = true := by
  induction m with
  | nil =>
    simp only [memWrite]
    split
    · rfl
    · next n => simpa [Memory.wf] using n
  | cons p r ih =>
    obtain ⟨j, d⟩ := p
    obtain ⟨nz, low, w⟩ := (Memory.wf_cons j d r).mp h
    simp only [memWrite]
    split
    · next lt =>
      split
      · exact h
      · next n =>
        refine (Memory.wf_cons _ _ _).mpr ⟨n, fun c m => ?_, h⟩
        rcases List.mem_cons.mp m with rfl | m
        · exact lt
        · exact Nat.lt_trans lt (low c m)
    · split
      · next e =>
        split
        · exact w
        · next n => exact (Memory.wf_cons _ _ _).mpr ⟨n, fun c m => e ▸ low c m, w⟩
      · next nlt ne =>
        refine (Memory.wf_cons _ _ _).mpr ⟨nz, fun c m => ?_, ih w⟩
        rcases memWrite_mem m with rfl | m
        · exact Nat.lt_of_le_of_ne (Nat.le_of_not_lt nlt) (Ne.symm ne)
        · exact low c m

theorem memWriteBytes_wf {m : List Host.Cell} (h : Memory.wf m = true) (a : Nat) (bs : List Byte) :
    Memory.wf (memWriteBytes m a bs) = true := by
  induction bs generalizing m a with
  | nil => exact h
  | cons b r ih => exact ih (memWrite_wf h a b) (a + 1)

theorem putBytes_wf {s : State} (h : Memory.wf s.mem = true) (loc : Nat) (bs : List Byte) : Memory.wf (s.putBytes loc bs).mem = true :=
  memWriteBytes_wf h loc bs

/-- A part of a canonical list is canonical. -/
theorem filter_wf {m : List Host.Cell} (h : Memory.wf m = true) (p : Host.Cell → Bool) : Memory.wf (m.filter p) = true := by
  induction m with
  | nil => rfl
  | cons c r ih =>
    obtain ⟨j, d⟩ := c
    obtain ⟨nz, low, w⟩ := (Memory.wf_cons j d r).mp h
    rw [List.filter_cons]
    split
    · exact (Memory.wf_cons _ _ _).mpr ⟨nz, fun c m => low c (List.mem_of_mem_filter m), ih w⟩
    · exact ih w

theorem clearRange_wf {m : List Host.Cell} (h : Memory.wf m = true) (a n : Nat) : Memory.wf (clearRange m a n) = true :=
  filter_wf h _

/-- Writing every cell of a list keeps the form. -/
theorem foldl_memWrite_wf {m : List Host.Cell} (h : Memory.wf m = true) (cs : List Host.Cell) (f : Host.Cell → Nat) :
    Memory.wf (cs.foldl (fun x c => memWrite x (f c) c.2) m) = true := by
  induction cs generalizing m with
  | nil => exact h
  | cons c r ih => exact ih (memWrite_wf h (f c) c.2)

theorem copyRange_wf {m : List Host.Cell} (h : Memory.wf m = true) (src dst n : Nat) : Memory.wf (copyRange m src dst n) = true :=
  foldl_memWrite_wf (clearRange_wf h dst n) _ _

theorem copyMem_wf {s : State} (h : Memory.wf s.mem = true) (src dst n : Nat) : Memory.wf (s.copyMem src dst n).mem = true :=
  copyRange_wf h src dst n

theorem reset_mem_wf : Memory.wf State.reset.mem = true := rfl

/-! ## What is read after a change -/

/-- Below every entry, memory reads zero. -/
theorem memRead_below {m : List Host.Cell} {a : Nat} (h : ∀ c ∈ m, a < c.1) : memRead m a = 0 := by
  cases m with
  | nil => rfl
  | cons p r =>
    have lt : a < p.1 := h p (.head _)
    simp [memRead, Nat.ne_of_lt lt, lt]

/-- A listed byte reads as its entry says, in a canonical memory. -/
theorem memRead_of_mem {m : List Host.Cell} (h : Memory.wf m = true) {a : Nat} {b : Byte} (i : (a, b) ∈ m) : memRead m a = b := by
  induction m with
  | nil => cases i
  | cons p r ih =>
    obtain ⟨j, d⟩ := p
    obtain ⟨_, low, w⟩ := (Memory.wf_cons j d r).mp h
    rcases List.mem_cons.mp i with e | i
    · cases e; simp [memRead]
    · have lt : j < a := low (a, b) i
      simp [memRead, Nat.ne_of_gt lt, Nat.not_lt_of_lt lt, ih w i]

/-- A byte that reads other than zero is listed. -/
theorem mem_of_memRead {m : List Host.Cell} {a : Nat} (h : memRead m a ≠ 0) : (a, memRead m a) ∈ m := by
  induction m with
  | nil => exact (h rfl).elim
  | cons p r ih =>
    obtain ⟨j, d⟩ := p
    simp only [memRead] at h ⊢
    split
    · next e => exact e ▸ .head _
    · next ne =>
      rw [if_neg ne] at h
      split
      · next lt => rw [if_pos lt] at h; exact (h rfl).elim
      · next nlt => rw [if_neg nlt] at h; exact .tail _ (ih h)

end Sys2Proof.Machine
end

