-- ==== Sys2Proof/Laws/PerInstr.lean ====
section
/-! SUPPORT. For every constructor of Instr: the raw fields that carry it are the fields from which it is built (R309 to R322). -/

/-- What an instruction's raw fields carry is read back from them. The three operations of NBMODE share their words. -/
def Sys2Proof.Laws.Encodable.Statement (i : Sys2Proof.Instr) : Prop :=
  i.wellFormed = true → ∀ r, Sys2Proof.rawOf i = some r →
    Sys2Proof.build r = some i ∨ ∃ a x y, (i = .nbmodeCompute a x y ∨ i = .nbmodeResume a x y) ∧
      Sys2Proof.build r = some (.nbmodeNormal a x y)

theorem Sys2Proof.Laws.Encodable.of_raw (i : Sys2Proof.Instr) (r : Sys2Proof.Raw) (h : Sys2Proof.rawOf i = some r)
    (b : Sys2Proof.build r = some i) : Sys2Proof.Laws.Encodable.Statement i := by
  intro _ x hx
  rw [h] at hx
  cases hx
  exact .inl b

/-- The parts of a shared immediate are read back. -/
theorem Sys2Proof.Laws.Encodable.of_part (i : Sys2Proof.Instr) (r : Sys2Proof.Raw) (h : Sys2Proof.rawOf i = some r)
    (p : Prop) (hp : Sys2Proof.partFits i = true → p) (b : p → Sys2Proof.build r = some i) :
    Sys2Proof.Laws.Encodable.Statement i := by
  intro w x hx
  have q : Sys2Proof.partFits i = true := by
    unfold Sys2Proof.Instr.wellFormed at w
    rw [h] at w
    dsimp only at w
    cases hf : Sys2Proof.formOf r.op with
    | none => rw [hf] at w; cases w
    | some f =>
      rw [hf] at w
      simp only [Bool.and_eq_true] at w
      exact w.2
  rw [h] at hx
  cases hx
  exact .inl (b (hp q))

theorem Sys2Proof.Laws.Encodable.of_none (i : Sys2Proof.Instr) (h : Sys2Proof.rawOf i = none) :
    Sys2Proof.Laws.Encodable.Statement i := by
  intro _ x hx
  rw [h] at hx
  cases hx

namespace Sys2Proof.Laws.Encodable

open Sys2Proof

theorem deviceReset : Statement .deviceReset := of_none _ rfl
theorem bringUpStepComplete (x0 : Nat) (x1 : Bool) : Statement (.bringUpStepComplete x0 x1) := of_none _ rfl
theorem islCtlWrite (x0 : Nat) (x1 : Word) : Statement (.islCtlWrite x0 x1) := of_none _ rfl
theorem operatingPointChangeDone (x0 : Nat) : Statement (.operatingPointChangeDone x0) := of_none _ rfl
theorem powerWindow (x0 : Nat) (x1 : List Nat) : Statement (.powerWindow x0 x1) := of_none _ rfl
theorem heatFluxWindow (x0 x1 : Nat) : Statement (.heatFluxWindow x0 x1) := of_none _ rfl
theorem alarmRaise (x0 : AlarmSource) (x1 : Nat) : Statement (.alarmRaise x0 x1) := of_none _ rfl
theorem keyErasureDone : Statement .keyErasureDone := of_none _ rfl
theorem patrolScrub (x0 : EccSite) (x1 : ScrubFinding) : Statement (.patrolScrub x0 x1) := of_none _ rfl
theorem eccCorrWrite (x0 : Nat) (x1 : Word) : Statement (.eccCorrWrite x0 x1) := of_none _ rfl
theorem registerWrite (x0 : Nat) (x1 : Word) : Statement (.registerWrite x0 x1) := of_none _ rfl
theorem fabDimWrite (x0 : Word) : Statement (.fabDimWrite x0) := of_none _ rfl
theorem fabRtoWrite (x0 : Word) : Statement (.fabRtoWrite x0) := of_none _ rfl
theorem fabErrWrite (x0 : Word) : Statement (.fabErrWrite x0) := of_none _ rfl
theorem retrain (x0 : Nat) : Statement (.retrain x0) := of_none _ rfl
theorem disable (x0 : Nat) (x1 : Bool) : Statement (.disable x0 x1) := of_none _ rfl
theorem vmismatchClear (x0 : Nat) : Statement (.vmismatchClear x0) := of_none _ rfl
theorem linkTrainingWords (x0 : Nat) (x1 : BitVec 32) (x2 : Word) : Statement (.linkTrainingWords x0 x1 x2) := of_none _ rfl
theorem laneLockLoss (x0 : Nat) : Statement (.laneLockLoss x0) := of_none _ rfl
theorem controlWordTimeout (x0 : Nat) : Statement (.controlWordTimeout x0) := of_none _ rfl
theorem flitArrive (x0 : List ArrivingFlit) : Statement (.flitArrive x0) := of_none _ rfl
theorem swapInject (x0 : List ArrivingFlit) : Statement (.swapInject x0) := of_none _ rfl
theorem flitDeliver (x0 : Flit) : Statement (.flitDeliver x0) := of_none _ rfl
theorem aeadPad (x0 x1 : Nat) : Statement (.aeadPad x0 x1) := of_none _ rfl
theorem ackTimer (x0 x1 : Nat) : Statement (.ackTimer x0 x1) := of_none _ rfl
theorem ack (x0 : Nat) (x1 : List (Nat × BitVec 32)) : Statement (.ack x0 x1) := of_none _ rfl
theorem responseAck (x0 x1 : Nat) (x2 : BitVec 32) : Statement (.responseAck x0 x1 x2) := of_none _ rfl
theorem aresp (x0 : Flit) : Statement (.aresp x0) := of_none _ rfl
theorem replayTimerExpiry (x0 x1 : Nat) : Statement (.replayTimerExpiry x0 x1) := of_none _ rfl
theorem deviceLostDeclare (x0 : Nat) : Statement (.deviceLostDeclare x0) := of_none _ rfl
theorem mcastCopy (x0 : McastCopy) : Statement (.mcastCopy x0) := of_none _ rfl
theorem mcastStatus (x0 : Word) (x1 : Nat) (x2 : Word) : Statement (.mcastStatus x0 x1 x2) := of_none _ rfl
theorem redc (x0 : RedMsg) : Statement (.redc x0) := of_none _ rfl
theorem redr (x0 : RedMsg) : Statement (.redr x0) := of_none _ rfl
theorem cidanLinkFlit (x0 : Bool) : Statement (.cidanLinkFlit x0) := of_none _ rfl
theorem cidanLinkTrainingDone (x0 : Bool) (x1 : BitVec 32) (x2 : Word) : Statement (.cidanLinkTrainingDone x0 x1 x2) := of_none _ rfl
theorem cidanLaneLockTimeout : Statement .cidanLaneLockTimeout := of_none _ rfl
theorem lowPowerIdle : Statement .lowPowerIdle := of_none _ rfl
theorem apertureRead (x0 x1 : Nat) (x2 : Word) : Statement (.apertureRead x0 x1 x2) := of_none _ rfl
theorem apertureWrite (x0 : Nat) (x1 : List Byte) : Statement (.apertureWrite x0 x1) := of_none _ rfl
theorem peerToPeerReject (x0 : Word) : Statement (.peerToPeerReject x0) := of_none _ rfl
theorem barAccessLinkDown (x0 : Bool) (x1 : BarAccess) : Statement (.barAccessLinkDown x0 x1) := of_none _ rfl
theorem hrCtlWrite (x0 x1 : Nat) (x2 : Word) : Statement (.hrCtlWrite x0 x1 x2) := of_none _ rfl
theorem hrTailWrite (x0 x1 : Nat) (x2 : Word) : Statement (.hrTailWrite x0 x1 x2) := of_none _ rfl
theorem hostNop (x0 : HostCmd) : Statement (.hostNop x0) := of_none _ rfl
theorem hostWrite (x0 : HostCmd) : Statement (.hostWrite x0) := of_none _ rfl
theorem hostRead (x0 : HostCmd) : Statement (.hostRead x0) := of_none _ rfl
theorem hostLaunch (x0 : HostCmd) : Statement (.hostLaunch x0) := of_none _ rfl
theorem hostSignal (x0 : HostCmd) : Statement (.hostSignal x0) := of_none _ rfl
theorem gateClose (x0 : HostCmd) : Statement (.gateClose x0) := of_none _ rfl
theorem gateOpen (x0 : HostCmd) : Statement (.gateOpen x0) := of_none _ rfl
theorem attest (x0 : HostCmd) : Statement (.attest x0) := of_none _ rfl
theorem hostCmdComplete (x0 : HostCompletion) : Statement (.hostCmdComplete x0) := of_none _ rfl
theorem gateDrained (x0 : Nat) : Statement (.gateDrained x0) := of_none _ rfl
theorem partitionEntryWrite (x0 : Nat) (x1 : PartEntry) : Statement (.partitionEntryWrite x0 x1) := of_none _ rfl
theorem launchQueueCfgWrite (x0 : Nat) (x1 : Word) : Statement (.launchQueueCfgWrite x0 x1) := of_none _ rfl
theorem periodStart (x0 : Nat) : Statement (.periodStart x0) := of_none _ rfl
theorem dependenceTest (x0 : Nat) : Statement (.dependenceTest x0) := of_none _ rfl
theorem taskPlace : Statement .taskPlace := of_none _ rfl
theorem taskStart (x0 : Nat) : Statement (.taskStart x0) := of_none _ rfl
theorem taskEnd (x0 : Nat) : Statement (.taskEnd x0) := of_none _ rfl
theorem shotclock (x0 : Nat) : Statement (.shotclock x0) := of_none _ rfl
theorem handlerShotclock (x0 x1 : Nat) : Statement (.handlerShotclock x0 x1) := of_none _ rfl
theorem quiesceRequest (x0 : Nat) : Statement (.quiesceRequest x0) := of_none _ rfl
theorem partitionQuiet (x0 : Nat) : Statement (.partitionQuiet x0) := of_none _ rfl
theorem umpireTick (x0 : Nat) : Statement (.umpireTick x0) := of_none _ rfl
theorem messageArrive (x0 : Nat) (x1 : Msg) : Statement (.messageArrive x0 x1) := of_none _ rfl
theorem acknowledgementArrive (x0 : Nat) (x1 : Ack) : Statement (.acknowledgementArrive x0 x1) := of_none _ rfl
theorem handlerStart (x0 x1 : Nat) : Statement (.handlerStart x0 x1) := of_none _ rfl
theorem outgoingSend (x0 : Nat) : Statement (.outgoingSend x0) := of_none _ rfl
theorem outgoingResend (x0 : Nat) (x1 : BitVec 32) : Statement (.outgoingResend x0 x1) := of_none _ rfl
theorem trapRecordResend (x0 : TrapRecord) : Statement (.trapRecordResend x0) := of_none _ rfl
theorem arrivalEntryReserve (x0 : Arrival) : Statement (.arrivalEntryReserve x0) := of_none _ rfl
theorem arrivalReady (x0 : Arrival) : Statement (.arrivalReady x0) := of_none _ rfl
theorem arrivalHandlerStart (x0 x1 : Nat) : Statement (.arrivalHandlerStart x0 x1) := of_none _ rfl
theorem pendingValueArrive (x0 : RegDest) (x1 : Reply) : Statement (.pendingValueArrive x0 x1) := of_none _ rfl
theorem remoteFaultDeliver (x0 x1 : Nat) (x2 : Poison) : Statement (.remoteFaultDeliver x0 x1 x2) := of_none _ rfl
theorem peerAccessServe (x0 : RemoteAccess) : Statement (.peerAccessServe x0) := of_none _ rfl
theorem migrationRequest (x0 : Migration) : Statement (.migrationRequest x0) := of_none _ rfl
theorem migrationReply (x0 : Migration) (x1 : Bool) : Statement (.migrationReply x0 x1) := of_none _ rfl
theorem migrationImage (x0 : Migration) : Statement (.migrationImage x0) := of_none _ rfl
theorem migrationImageAck (x0 : Migration) : Statement (.migrationImageAck x0) := of_none _ rfl
theorem homeRequest (x0 x1 : Nat) : Statement (.homeRequest x0 x1) := of_none _ rfl
theorem engineLineRelease (x0 : Word) (x1 : Nat) : Statement (.engineLineRelease x0 x1) := of_none _ rfl
theorem walkComplete (x0 : Nat) (x1 : Word) : Statement (.walkComplete x0 x1) := of_none _ rfl
theorem tlbiWalkerMessage (x0 : TlbiMsg) (x1 : Nat) : Statement (.tlbiWalkerMessage x0 x1) := of_none _ rfl
theorem tlbiAcknowledge (x0 : TlbiMsg) (x1 : Nat) : Statement (.tlbiAcknowledge x0 x1) := of_none _ rfl
theorem tuplePut (x0 : Sys2Proof.TupleReq) : Statement (.tuplePut x0) := of_none _ rfl
theorem tupleReadTake (x0 : Sys2Proof.TupleReq) : Statement (.tupleReadTake x0) := of_none _ rfl
theorem tupleCancel (x0 : Sys2Proof.TupleReq) : Statement (.tupleCancel x0) := of_none _ rfl
theorem tupleWithdraw (x0 : Sys2Proof.TupleReq) : Statement (.tupleWithdraw x0) := of_none _ rfl
theorem tupleDeliveryComplete (x0 : Delivery) : Statement (.tupleDeliveryComplete x0) := of_none _ rfl
theorem handoffSplit (x0 : Handoff) : Statement (.handoffSplit x0) := of_none _ rfl
theorem handoffCopyReceive (x0 : Handoff) (x1 : HandoffItem) : Statement (.handoffCopyReceive x0 x1) := of_none _ rfl
theorem handoffFreeze (x0 : Handoff) : Statement (.handoffFreeze x0) := of_none _ rfl
theorem handoffCutover (x0 : Handoff) : Statement (.handoffCutover x0) := of_none _ rfl
theorem handoffSwitch (x0 : Handoff) : Statement (.handoffSwitch x0) := of_none _ rfl
theorem handoffAbandon (x0 : Handoff) (x1 : Word) : Statement (.handoffAbandon x0 x1) := of_none _ rfl
theorem moved (x0 x1 x2 x3 : Nat) : Statement (.moved x0 x1 x2 x3) := of_none _ rfl
theorem matrixGrain (x0 : Nat) : Statement (.matrixGrain x0) := of_none _ rfl
theorem jobComplete (x0 : Word) : Statement (.jobComplete x0) := of_none _ rfl
theorem userInterrupt (x0 x1 : Nat) : Statement (.userInterrupt x0 x1) := of_none _ rfl
theorem engineFaultDeliver (x0 : EngineFault) : Statement (.engineFaultDeliver x0) := of_none _ rfl
theorem copyRow (x0 x1 : Nat) : Statement (.copyRow x0 x1) := of_none _ rfl
theorem copyArrivalWait (x0 x1 : Nat) : Statement (.copyArrivalWait x0 x1) := of_none _ rfl
theorem gatherRow (x0 x1 : Nat) : Statement (.gatherRow x0 x1) := of_none _ rfl
theorem drainRow (x0 x1 : Nat) : Statement (.drainRow x0 x1) := of_none _ rfl
theorem streamUnit (x0 x1 x2 : Nat) : Statement (.streamUnit x0 x1 x2) := of_none _ rfl
theorem xbarCommandHead (x0 x1 : Nat) : Statement (.xbarCommandHead x0 x1) := of_none _ rfl
theorem xbarProductComplete (x0 x1 : Nat) (x2 : List Int) (x3 x4 : Int) : Statement (.xbarProductComplete x0 x1 x2 x3 x4) := of_none _ rfl
theorem xbarProgramRow (x0 x1 : Nat) (x2 : Nat) : Statement (.xbarProgramRow x0 x1 x2) := of_none _ rfl
theorem calibrationComplete (x0 x1 : Nat) (x2 x3 : BitVec 32) : Statement (.calibrationComplete x0 x1 x2 x3) := of_none _ rfl
theorem nbuStep (x0 : Nat) : Statement (.nbuStep x0) := of_none _ rfl
theorem nbuOrdinaryAccess (x0 : Nat) (x1 : OrdinaryAccess) : Statement (.nbuOrdinaryAccess x0 x1) := of_none _ rfl
theorem nbuRequest (x0 : Nat) (x1 : NbEnvelope) : Statement (.nbuRequest x0 x1) := of_none _ rfl
theorem trapDeliverSupervisor (x0 : TrapRecord) : Statement (.trapDeliverSupervisor x0) := of_none _ rfl
theorem trapDeliverTvec (x0 x1 : Nat) (x2 : Trap) : Statement (.trapDeliverTvec x0 x1 x2) := of_none _ rfl
theorem coreMqcapWrite (x0 : Nat) (x1 : Word) : Statement (.coreMqcapWrite x0 x1) := of_none _ rfl
theorem nop : Statement .nop := of_raw _ _ rfl rfl
theorem br (x0 : Nat) : Statement (.br x0) := of_raw _ _ rfl rfl
theorem endWork : Statement .endWork := of_raw _ _ rfl rfl
theorem bcc (x0 x1 x2 x3 : Nat) : Statement (.bcc x0 x1 x2 x3) := of_raw _ _ rfl rfl
theorem bz (x0 x1 : Nat) : Statement (.bz x0 x1) := of_raw _ _ rfl rfl
theorem bnz (x0 x1 : Nat) : Statement (.bnz x0 x1) := of_raw _ _ rfl rfl
theorem call (x0 x1 : Nat) : Statement (.call x0 x1) := of_raw _ _ rfl rfl
theorem calli (x0 x1 : Nat) : Statement (.calli x0 x1) := of_raw _ _ rfl rfl
theorem ret (x0 : Nat) : Statement (.ret x0) := of_raw _ _ rfl rfl
theorem jmpi (x0 : Nat) : Statement (.jmpi x0) := of_raw _ _ rfl rfl
theorem loop (x0 x1 : Nat) : Statement (.loop x0 x1) := of_raw _ _ rfl rfl
theorem sleep (x0 x1 : Nat) : Statement (.sleep x0 x1) := of_raw _ _ rfl rfl
theorem sleepWake (x0 x1 : Nat) (x2 : Bool) : Statement (.sleepWake x0 x1 x2) := of_none _ rfl
theorem brk (x0 : Nat) : Statement (.brk x0) := of_raw _ _ rfl rfl
theorem trapi (x0 : Nat) : Statement (.trapi x0) := of_raw _ _ rfl rfl
theorem ldi (x0 : Nat) (x1 : Word) : Statement (.ldi x0 x1) := of_raw _ _ rfl (by simp [build, rI])
theorem add (x0 x1 x2 x3 : Nat) (x4 : Bool) : Statement (.add x0 x1 x2 x3 x4) := of_raw _ _ rfl rfl
theorem sub (x0 x1 x2 x3 : Nat) (x4 : Bool) : Statement (.sub x0 x1 x2 x3 x4) := of_raw _ _ rfl rfl
theorem mul (x0 x1 x2 x3 : Nat) (x4 : Bool) : Statement (.mul x0 x1 x2 x3 x4) := of_raw _ _ rfl rfl
theorem mulh (x0 x1 x2 x3 : Nat) : Statement (.mulh x0 x1 x2 x3) := of_raw _ _ rfl rfl
theorem mulhn (x0 x1 x2 x3 : Nat) : Statement (.mulhn x0 x1 x2 x3) := of_raw _ _ rfl rfl
theorem div (x0 x1 x2 x3 : Nat) : Statement (.div x0 x1 x2 x3) := of_raw _ _ rfl rfl
theorem divn (x0 x1 x2 x3 : Nat) : Statement (.divn x0 x1 x2 x3) := of_raw _ _ rfl rfl
theorem rem (x0 x1 x2 x3 : Nat) : Statement (.rem x0 x1 x2 x3) := of_raw _ _ rfl rfl
theorem remn (x0 x1 x2 x3 : Nat) : Statement (.remn x0 x1 x2 x3) := of_raw _ _ rfl rfl
theorem min (x0 x1 x2 x3 : Nat) : Statement (.min x0 x1 x2 x3) := of_raw _ _ rfl rfl
theorem max (x0 x1 x2 x3 : Nat) : Statement (.max x0 x1 x2 x3) := of_raw _ _ rfl rfl
theorem minn (x0 x1 x2 x3 : Nat) : Statement (.minn x0 x1 x2 x3) := of_raw _ _ rfl rfl
theorem maxn (x0 x1 x2 x3 : Nat) : Statement (.maxn x0 x1 x2 x3) := of_raw _ _ rfl rfl
theorem seq (x0 x1 x2 x3 : Nat) : Statement (.seq x0 x1 x2 x3) := of_raw _ _ rfl rfl
theorem slt (x0 x1 x2 x3 : Nat) : Statement (.slt x0 x1 x2 x3) := of_raw _ _ rfl rfl
theorem sltn (x0 x1 x2 x3 : Nat) : Statement (.sltn x0 x1 x2 x3) := of_raw _ _ rfl rfl
theorem and (x0 x1 x2 x3 : Nat) : Statement (.and x0 x1 x2 x3) := of_raw _ _ rfl rfl
theorem or (x0 x1 x2 x3 : Nat) : Statement (.or x0 x1 x2 x3) := of_raw _ _ rfl rfl
theorem xor (x0 x1 x2 x3 : Nat) : Statement (.xor x0 x1 x2 x3) := of_raw _ _ rfl rfl
theorem andn (x0 x1 x2 x3 : Nat) : Statement (.andn x0 x1 x2 x3) := of_raw _ _ rfl rfl
theorem shl (x0 x1 x2 x3 : Nat) : Statement (.shl x0 x1 x2 x3) := of_raw _ _ rfl rfl
theorem shr (x0 x1 x2 x3 : Nat) : Statement (.shr x0 x1 x2 x3) := of_raw _ _ rfl rfl
theorem sra (x0 x1 x2 x3 : Nat) : Statement (.sra x0 x1 x2 x3) := of_raw _ _ rfl rfl
theorem rol (x0 x1 x2 x3 : Nat) : Statement (.rol x0 x1 x2 x3) := of_raw _ _ rfl rfl
theorem clz (x0 x1 x2 : Nat) : Statement (.clz x0 x1 x2) := of_raw _ _ rfl rfl
theorem ctz (x0 x1 x2 : Nat) : Statement (.ctz x0 x1 x2) := of_raw _ _ rfl rfl
theorem popc (x0 x1 x2 : Nat) : Statement (.popc x0 x1 x2) := of_raw _ _ rfl rfl
theorem bswp (x0 x1 x2 : Nat) : Statement (.bswp x0 x1 x2) := of_raw _ _ rfl rfl
theorem sext (x0 x1 x2 : Nat) : Statement (.sext x0 x1 x2) := of_raw _ _ rfl rfl
theorem zext (x0 x1 x2 : Nat) : Statement (.zext x0 x1 x2) := of_raw _ _ rfl rfl
theorem mov (x0 x1 x2 : Nat) : Statement (.mov x0 x1 x2) := of_raw _ _ rfl rfl
theorem addi (x0 x1 x2 : Nat) : Statement (.addi x0 x1 x2) := of_raw _ _ rfl rfl
theorem andi (x0 x1 x2 : Nat) : Statement (.andi x0 x1 x2) := of_raw _ _ rfl rfl
theorem ori (x0 x1 x2 : Nat) : Statement (.ori x0 x1 x2) := of_raw _ _ rfl rfl
theorem xori (x0 x1 x2 : Nat) : Statement (.xori x0 x1 x2) := of_raw _ _ rfl rfl
theorem shli (x0 x1 x2 : Nat) : Statement (.shli x0 x1 x2) := of_raw _ _ rfl rfl
theorem shri (x0 x1 x2 : Nat) : Statement (.shri x0 x1 x2) := of_raw _ _ rfl rfl
theorem srai (x0 x1 x2 : Nat) : Statement (.srai x0 x1 x2) := of_raw _ _ rfl rfl
theorem sel (x0 x1 x2 x3 : Nat) : Statement (.sel x0 x1 x2 x3) := of_raw _ _ rfl rfl
theorem lea (x0 : Nat) (x1 : MemOp) : Statement (.lea x0 x1) := of_raw _ _ rfl rfl
theorem padd (x0 x1 x2 : Nat) : Statement (.padd x0 x1 x2) := of_raw _ _ rfl rfl
theorem paddImm (x0 x1 x2 : Nat) : Statement (.paddImm x0 x1 x2) := of_raw _ _ rfl rfl
theorem pset (x0 x1 x2 x3 : Nat) : Statement (.pset x0 x1 x2 x3) := of_part _ _ rfl (x2 < 64) (fun h => of_decide_eq_true h) (fun h => by
  have h1 : (x2 + x3 * 64) % 64 = x2 := by omega
  have h2 : (x2 + x3 * 64) / 64 = x3 := by omega
  simp [build, rX, h1, h2])
theorem pget (x0 x1 : Nat) : Statement (.pget x0 x1) := of_raw _ _ rfl rfl
theorem pstrip (x0 x1 : Nat) : Statement (.pstrip x0 x1) := of_raw _ _ rfl rfl
theorem pglb (x0 x1 : Nat) : Statement (.pglb x0 x1) := of_raw _ _ rfl rfl
theorem pchk (x0 x1 : Nat) (x2 : Bool) : Statement (.pchk x0 x1 x2) := of_raw _ _ rfl (by cases x2 <;> simp [build, rX])
theorem bins (x0 x1 x2 : Nat) : Statement (.bins x0 x1 x2) := of_raw _ _ rfl rfl
theorem bext (x0 x1 x2 x3 : Nat) : Statement (.bext x0 x1 x2 x3) := of_part _ _ rfl (x2 < 64) (fun h => of_decide_eq_true h) (fun h => by
  have h1 : (x2 + x3 * 64) % 64 = x2 := by omega
  have h2 : (x2 + x3 * 64) / 64 = x3 := by omega
  simp [build, rX, h1, h2])
theorem ffcs (x0 x1 : Nat) : Statement (.ffcs x0 x1) := of_raw _ _ rfl rfl
theorem plset (x0 x1 x2 x3 : Nat) : Statement (.plset x0 x1 x2 x3) := of_raw _ _ rfl rfl
theorem ld (x0 : Nat) (x1 : MemOp) (x2 x3 x4 : Nat) : Statement (.ld x0 x1 x2 x3 x4) := of_raw _ _ rfl rfl
theorem st (x0 : Nat) (x1 : MemOp) (x2 x3 x4 x5 : Nat) : Statement (.st x0 x1 x2 x3 x4 x5) := of_raw _ _ rfl rfl
theorem pf (x0 : MemOp) : Statement (.pf x0) := of_raw _ _ rfl rfl
theorem lock (x0 : Nat) (x1 : MemOp) : Statement (.lock x0 x1) := of_raw _ _ rfl rfl
theorem unlock (x0 : Nat) (x1 : MemOp) : Statement (.unlock x0 x1) := of_raw _ _ rfl rfl
theorem lockq (x0 : Nat) (x1 : MemOp) : Statement (.lockq x0 x1) := of_raw _ _ rfl rfl
theorem cwb (x0 : MemOp) : Statement (.cwb x0) := of_raw _ _ rfl rfl
theorem cinv (x0 : MemOp) : Statement (.cinv x0) := of_raw _ _ rfl rfl
theorem czero (x0 : MemOp) : Statement (.czero x0) := of_raw _ _ rfl rfl
theorem aadd (x0 x1 x2 x3 x4 x5 x6 : Nat) : Statement (.aadd x0 x1 x2 x3 x4 x5 x6) := of_raw _ _ rfl rfl
theorem aand (x0 x1 x2 x3 x4 x5 x6 : Nat) : Statement (.aand x0 x1 x2 x3 x4 x5 x6) := of_raw _ _ rfl rfl
theorem aor (x0 x1 x2 x3 x4 x5 x6 : Nat) : Statement (.aor x0 x1 x2 x3 x4 x5 x6) := of_raw _ _ rfl rfl
theorem axor (x0 x1 x2 x3 x4 x5 x6 : Nat) : Statement (.axor x0 x1 x2 x3 x4 x5 x6) := of_raw _ _ rfl rfl
theorem amin (x0 x1 x2 x3 x4 x5 x6 : Nat) : Statement (.amin x0 x1 x2 x3 x4 x5 x6) := of_raw _ _ rfl rfl
theorem amax (x0 x1 x2 x3 x4 x5 x6 : Nat) : Statement (.amax x0 x1 x2 x3 x4 x5 x6) := of_raw _ _ rfl rfl
theorem aminn (x0 x1 x2 x3 x4 x5 x6 : Nat) : Statement (.aminn x0 x1 x2 x3 x4 x5 x6) := of_raw _ _ rfl rfl
theorem amaxn (x0 x1 x2 x3 x4 x5 x6 : Nat) : Statement (.amaxn x0 x1 x2 x3 x4 x5 x6) := of_raw _ _ rfl rfl
theorem aswp (x0 x1 x2 x3 x4 x5 x6 : Nat) : Statement (.aswp x0 x1 x2 x3 x4 x5 x6) := of_raw _ _ rfl rfl
theorem acas (x0 x1 x2 x3 x4 x5 x6 x7 : Nat) : Statement (.acas x0 x1 x2 x3 x4 x5 x6 x7) := of_raw _ _ rfl rfl
theorem affcs (x0 x1 x2 x3 x4 x5 : Nat) : Statement (.affcs x0 x1 x2 x3 x4 x5) := of_raw _ _ rfl rfl
theorem aplset (x0 x1 x2 x3 x4 x5 x6 x7 : Nat) : Statement (.aplset x0 x1 x2 x3 x4 x5 x6 x7) := of_raw _ _ rfl rfl
theorem aupd (x0 x1 x2 x3 x4 x5 : Nat) : Statement (.aupd x0 x1 x2 x3 x4 x5) := of_raw _ _ rfl rfl
theorem fence (x0 x1 : Nat) : Statement (.fence x0 x1) := of_raw _ _ rfl rfl
theorem tfence (x0 : Nat) : Statement (.tfence x0) := of_raw _ _ rfl rfl
theorem bara (x0 x1 : Nat) : Statement (.bara x0 x1) := of_raw _ _ rfl rfl
theorem barw (x0 x1 x2 : Nat) : Statement (.barw x0 x1 x2) := of_raw _ _ rfl rfl
theorem bart (x0 x1 : Nat) : Statement (.bart x0 x1) := of_raw _ _ rfl rfl
theorem barg (x0 x1 : Nat) : Statement (.barg x0 x1) := of_raw _ _ rfl rfl
theorem barrierGenerationComplete (x0 : BarrierId) : Statement (.barrierGenerationComplete x0) := of_none _ rfl
theorem migr (x0 x1 : Nat) : Statement (.migr x0 x1) := of_raw _ _ rfl rfl
theorem vld (x0 : Nat) (x1 : MemOp) (x2 : Nat) : Statement (.vld x0 x1 x2) := of_raw _ _ rfl rfl
theorem vst (x0 : Nat) (x1 : MemOp) (x2 : Nat) : Statement (.vst x0 x1 x2) := of_raw _ _ rfl rfl
theorem vlds (x0 x1 x2 x3 x4 x5 : Nat) : Statement (.vlds x0 x1 x2 x3 x4 x5) := of_raw _ _ rfl rfl
theorem vldx (x0 x1 x2 x3 x4 x5 : Nat) : Statement (.vldx x0 x1 x2 x3 x4 x5) := of_raw _ _ rfl rfl
theorem vstx (x0 x1 x2 x3 x4 x5 : Nat) : Statement (.vstx x0 x1 x2 x3 x4 x5) := of_raw _ _ rfl rfl
theorem vadd (x0 x1 x2 x3 x4 : Nat) (x5 : Bool) : Statement (.vadd x0 x1 x2 x3 x4 x5) := of_raw _ _ rfl rfl
theorem vsub (x0 x1 x2 x3 x4 : Nat) (x5 : Bool) : Statement (.vsub x0 x1 x2 x3 x4 x5) := of_raw _ _ rfl rfl
theorem vmul (x0 x1 x2 x3 x4 : Nat) (x5 : Bool) : Statement (.vmul x0 x1 x2 x3 x4 x5) := of_raw _ _ rfl rfl
theorem vdiv (x0 x1 x2 x3 x4 : Nat) : Statement (.vdiv x0 x1 x2 x3 x4) := of_raw _ _ rfl rfl
theorem vmin (x0 x1 x2 x3 x4 : Nat) : Statement (.vmin x0 x1 x2 x3 x4) := of_raw _ _ rfl rfl
theorem vmax (x0 x1 x2 x3 x4 : Nat) : Statement (.vmax x0 x1 x2 x3 x4) := of_raw _ _ rfl rfl
theorem vfma (x0 x1 x2 x3 x4 x5 : Nat) : Statement (.vfma x0 x1 x2 x3 x4 x5) := of_raw _ _ rfl rfl
theorem vfms (x0 x1 x2 x3 x4 x5 : Nat) : Statement (.vfms x0 x1 x2 x3 x4 x5) := of_raw _ _ rfl rfl
theorem vand (x0 x1 x2 x3 x4 : Nat) : Statement (.vand x0 x1 x2 x3 x4) := of_raw _ _ rfl rfl
theorem vor (x0 x1 x2 x3 x4 : Nat) : Statement (.vor x0 x1 x2 x3 x4) := of_raw _ _ rfl rfl
theorem vxor (x0 x1 x2 x3 x4 : Nat) : Statement (.vxor x0 x1 x2 x3 x4) := of_raw _ _ rfl rfl
theorem vshl (x0 x1 x2 x3 x4 : Nat) : Statement (.vshl x0 x1 x2 x3 x4) := of_raw _ _ rfl rfl
theorem vshr (x0 x1 x2 x3 x4 : Nat) : Statement (.vshr x0 x1 x2 x3 x4) := of_raw _ _ rfl rfl
theorem vsra (x0 x1 x2 x3 x4 : Nat) : Statement (.vsra x0 x1 x2 x3 x4) := of_raw _ _ rfl rfl
theorem vsqrt (x0 x1 x2 x3 : Nat) : Statement (.vsqrt x0 x1 x2 x3) := of_raw _ _ rfl rfl
theorem vrsq (x0 x1 x2 x3 : Nat) : Statement (.vrsq x0 x1 x2 x3) := of_raw _ _ rfl rfl
theorem vrcp (x0 x1 x2 x3 : Nat) : Statement (.vrcp x0 x1 x2 x3) := of_raw _ _ rfl rfl
theorem vexp2 (x0 x1 x2 x3 : Nat) : Statement (.vexp2 x0 x1 x2 x3) := of_raw _ _ rfl rfl
theorem vlog2 (x0 x1 x2 x3 : Nat) : Statement (.vlog2 x0 x1 x2 x3) := of_raw _ _ rfl rfl
theorem vabs (x0 x1 x2 x3 : Nat) : Statement (.vabs x0 x1 x2 x3) := of_raw _ _ rfl rfl
theorem vneg (x0 x1 x2 x3 : Nat) : Statement (.vneg x0 x1 x2 x3) := of_raw _ _ rfl rfl
theorem vbc (x0 x1 x2 x3 : Nat) : Statement (.vbc x0 x1 x2 x3) := of_raw _ _ rfl rfl
theorem vcmp (x0 x1 x2 x3 x4 x5 : Nat) : Statement (.vcmp x0 x1 x2 x3 x4 x5) := of_raw _ _ rfl rfl
theorem vsel (x0 x1 x2 x3 x4 : Nat) : Statement (.vsel x0 x1 x2 x3 x4) := of_raw _ _ rfl rfl
theorem vred (x0 x1 x2 x3 x4 : Nat) : Statement (.vred x0 x1 x2 x3 x4) := of_raw _ _ rfl rfl
theorem vscan (x0 x1 x2 x3 x4 : Nat) : Statement (.vscan x0 x1 x2 x3 x4) := of_raw _ _ rfl rfl
theorem vperm (x0 x1 x2 x3 x4 : Nat) : Statement (.vperm x0 x1 x2 x3 x4) := of_raw _ _ rfl rfl
theorem vshuf (x0 x1 x2 x3 x4 x5 : Nat) : Statement (.vshuf x0 x1 x2 x3 x4 x5) := of_raw _ _ rfl rfl
theorem vins (x0 x1 x2 x3 x4 : Nat) : Statement (.vins x0 x1 x2 x3 x4) := of_raw _ _ rfl rfl
theorem vext (x0 x1 x2 x3 : Nat) : Statement (.vext x0 x1 x2 x3) := of_part _ _ rfl (x2 < 64) (fun h => of_decide_eq_true h) (fun h => by
  have h1 : (x2 + x3 * 64) % 64 = x2 := by omega
  have h2 : (x2 + x3 * 64) / 64 = x3 := by omega
  simp [build, rX, h1, h2])
theorem vcvt (x0 x1 x2 x3 x4 x5 : Nat) : Statement (.vcvt x0 x1 x2 x3 x4 x5) := of_part _ _ rfl (x2 < 64) (fun h => of_decide_eq_true h) (fun h => by
  have h1 : (x2 + x3 * 64) % 64 = x2 := by omega
  have h2 : (x2 + x3 * 64) / 64 = x3 := by omega
  simp [build, rV, h1, h2])
theorem venc (x0 x1 x2 x3 x4 : Nat) : Statement (.venc x0 x1 x2 x3 x4) := of_raw _ _ rfl rfl
theorem vdec (x0 x1 x2 x3 x4 : Nat) : Statement (.vdec x0 x1 x2 x3 x4) := of_raw _ _ rfl rfl
theorem mkand (x0 x1 x2 : Nat) : Statement (.mkand x0 x1 x2) := of_raw _ _ rfl rfl
theorem mkor (x0 x1 x2 : Nat) : Statement (.mkor x0 x1 x2) := of_raw _ _ rfl rfl
theorem mknot (x0 x1 : Nat) : Statement (.mknot x0 x1) := of_raw _ _ rfl rfl
theorem mkset (x0 x1 : Nat) : Statement (.mkset x0 x1) := of_raw _ _ rfl rfl
theorem mkpop (x0 x1 : Nat) : Statement (.mkpop x0 x1) := of_raw _ _ rfl rfl
theorem tblld (x0 : Nat) (x1 : MemOp) : Statement (.tblld x0 x1) := of_raw _ _ rfl rfl
theorem tblrd (x0 x1 x2 : Nat) : Statement (.tblrd x0 x1 x2) := of_raw _ _ rfl rfl
theorem fdtset (x0 x1 : Nat) : Statement (.fdtset x0 x1) := of_raw _ _ rfl rfl
theorem fdtget (x0 x1 : Nat) : Statement (.fdtget x0 x1) := of_raw _ _ rfl rfl
theorem strm (x0 x1 x2 : Nat) (x3 x4 : Bool) : Statement (.strm x0 x1 x2 x3 x4) := of_raw _ _ rfl (by cases x3 <;> cases x4 <;> simp [build, rR])
theorem strmx (x0 x1 x2 : Nat) (x3 x4 x5 : Bool) : Statement (.strmx x0 x1 x2 x3 x4 x5) := of_raw _ _ rfl (by cases x3 <;> cases x4 <;> cases x5 <;> simp [build, rR])
theorem strmq (x0 x1 : Nat) (x2 : Bool) : Statement (.strmq x0 x1 x2) := of_raw _ _ rfl (by cases x2 <;> simp [build, rR])
theorem mcfgWeights (x0 : Nat) : Statement (.mcfgWeights x0) := of_raw _ _ rfl rfl
theorem mcfgDiscard : Statement .mcfgDiscard := of_raw _ _ rfl rfl
theorem mma (x0 : Nat) : Statement (.mma x0) := of_raw _ _ rfl rfl
theorem mmag (x0 x1 x2 : Nat) : Statement (.mmag x0 x1 x2) := of_raw _ _ rfl rfl
theorem mdrain (x0 x1 : Nat) (x2 : Bool) : Statement (.mdrain x0 x1 x2) := of_raw _ _ rfl (by cases x2 <;> simp [build, rR])
theorem mzero : Statement .mzero := of_raw _ _ rfl rfl
theorem mresume (x0 x1 : Nat) : Statement (.mresume x0 x1) := of_raw _ _ rfl rfl
theorem mstat (x0 x1 : Nat) : Statement (.mstat x0 x1) := of_raw _ _ rfl rfl
theorem gath (x0 : Nat) : Statement (.gath x0) := of_raw _ _ rfl rfl
theorem skipb (x0 x1 : Nat) : Statement (.skipb x0 x1) := of_raw _ _ rfl rfl
theorem cbdef (x0 x1 x2 : Nat) : Statement (.cbdef x0 x1 x2) := of_raw _ _ rfl rfl
theorem cbwaitP (x0 x1 : Nat) : Statement (.cbwaitP x0 x1) := of_raw _ _ rfl rfl
theorem cbwaitC (x0 x1 : Nat) : Statement (.cbwaitC x0 x1) := of_raw _ _ rfl rfl
theorem cbpub (x0 x1 : Nat) : Statement (.cbpub x0 x1) := of_raw _ _ rfl rfl
theorem cbadv (x0 x1 : Nat) : Statement (.cbadv x0 x1) := of_raw _ _ rfl rfl
theorem cbfree (x0 x1 : Nat) : Statement (.cbfree x0 x1) := of_raw _ _ rfl rfl
theorem cbq (x0 x1 : Nat) : Statement (.cbq x0 x1) := of_raw _ _ rfl rfl
theorem xcopy (x0 : Nat) : Statement (.xcopy x0) := of_raw _ _ rfl rfl
theorem xpoll (x0 x1 : Nat) : Statement (.xpoll x0 x1) := of_raw _ _ rfl rfl
theorem xwait (x0 x1 : Nat) : Statement (.xwait x0 x1) := of_raw _ _ rfl rfl
theorem xcancel (x0 x1 : Nat) : Statement (.xcancel x0 x1) := of_raw _ _ rfl rfl
theorem jwait (x0 x1 : Nat) : Statement (.jwait x0 x1) := of_raw _ _ rfl rfl
theorem jpoll (x0 x1 : Nat) : Statement (.jpoll x0 x1) := of_raw _ _ rfl rfl
theorem uiret : Statement .uiret := of_raw _ _ rfl rfl
theorem nred (x0 x1 : Nat) : Statement (.nred x0 x1) := of_raw _ _ rfl rfl
theorem nrwait (x0 x1 : Nat) : Statement (.nrwait x0 x1) := of_raw _ _ rfl rfl
theorem nmcast (x0 x1 : Nat) : Statement (.nmcast x0 x1) := of_raw _ _ rfl rfl
theorem putk (x0 x1 x2 x3 : Nat) : Statement (.putk x0 x1 x2 x3) := of_raw _ _ rfl rfl
theorem rdkB (x0 x1 : Nat) : Statement (.rdkB x0 x1) := of_raw _ _ rfl rfl
theorem rdkP (x0 x1 : Nat) : Statement (.rdkP x0 x1) := of_raw _ _ rfl rfl
theorem rdkC (x0 x1 : Nat) : Statement (.rdkC x0 x1) := of_raw _ _ rfl rfl
theorem takkB (x0 x1 : Nat) : Statement (.takkB x0 x1) := of_raw _ _ rfl rfl
theorem takkP (x0 x1 : Nat) : Statement (.takkP x0 x1) := of_raw _ _ rfl rfl
theorem takkC (x0 x1 : Nat) : Statement (.takkC x0 x1) := of_raw _ _ rfl rfl
theorem kcancel (x0 x1 x2 : Nat) : Statement (.kcancel x0 x1 x2) := of_raw _ _ rfl rfl
theorem krange (x0 x1 x2 : Nat) : Statement (.krange x0 x1 x2) := of_raw _ _ rfl rfl
theorem ksplit (x0 x1 : Nat) : Statement (.ksplit x0 x1) := of_raw _ _ rfl rfl
theorem msend (x0 x1 x2 x3 : Nat) (x4 : Bool) (x5 : Nat) : Statement (.msend x0 x1 x2 x3 x4 x5) := of_raw _ _ rfl (by cases x4 <;> simp [build, rW])
theorem msenda (x0 x1 x2 x3 x4 : Nat) (x5 : Bool) (x6 : Nat) : Statement (.msenda x0 x1 x2 x3 x4 x5 x6) := of_raw _ _ rfl (by cases x5 <;> simp [build, rW])
theorem mreply (x0 x1 : Nat) : Statement (.mreply x0 x1) := of_raw _ _ rfl rfl
theorem mdefer : Statement .mdefer := of_raw _ _ rfl rfl
theorem spawn (x0 x1 : Nat) : Statement (.spawn x0 x1) := of_raw _ _ rfl rfl
theorem spawnt (x0 x1 x2 : Nat) : Statement (.spawnt x0 x1 x2) := of_raw _ _ rfl rfl
theorem popt (x0 x1 : Nat) : Statement (.popt x0 x1) := of_raw _ _ rfl rfl
theorem steal (x0 x1 x2 : Nat) : Statement (.steal x0 x1 x2) := of_raw _ _ rfl rfl
theorem tabort : Statement .tabort := of_raw _ _ rfl rfl
theorem lnch (x0 x1 x2 : Nat) : Statement (.lnch x0 x1 x2) := of_raw _ _ rfl rfl
theorem launchSubmit (x0 : Submission) : Statement (.launchSubmit x0) := of_none _ rfl
theorem gld (x0 x1 x2 x3 : Nat) : Statement (.gld x0 x1 x2 x3) := of_raw _ _ rfl rfl
theorem gst (x0 x1 x2 x3 x4 : Nat) : Statement (.gst x0 x1 x2 x3 x4) := of_raw _ _ rfl rfl
theorem gadd (x0 x1 x2 : Nat) : Statement (.gadd x0 x1 x2) := of_raw _ _ rfl rfl
theorem gdamp (x0 x1 x2 x3 : Nat) : Statement (.gdamp x0 x1 x2 x3) := of_raw _ _ rfl rfl
theorem gelim (x0 x1 x2 x3 x4 x5 : Nat) : Statement (.gelim x0 x1 x2 x3 x4 x5) := of_part _ _ rfl (x4 < 4) (fun h => of_decide_eq_true h) (fun h => by
  have h1 : (x4 + x5 * 4) % 4 = x4 := by omega
  have h2 : (x4 + x5 * 4) / 4 = x5 := by omega
  simp [build, rV, h1, h2])
theorem gres (x0 x1 x2 x3 x4 x5 : Nat) : Statement (.gres x0 x1 x2 x3 x4 x5) := of_raw _ _ rfl rfl
theorem gpost (x0 x1 x2 x3 x4 : Nat) : Statement (.gpost x0 x1 x2 x3 x4) := of_raw _ _ rfl rfl
theorem cmvStart (x0 x1 x2 x3 x4 : Nat) : Statement (.cmvStart x0 x1 x2 x3 x4) := of_raw _ _ rfl rfl
theorem cprog (x0 x1 x2 x3 x4 : Nat) : Statement (.cprog x0 x1 x2 x3 x4) := of_raw _ _ rfl rfl
theorem ccal (x0 x1 : Nat) : Statement (.ccal x0 x1) := of_raw _ _ rfl rfl
theorem cqry (x0 x1 x2 : Nat) : Statement (.cqry x0 x1 x2) := of_part _ _ rfl (x1 < 8) (fun h => of_decide_eq_true h) (fun h => by
  have h1 : (x1 + x2 * 8) % 8 = x1 := by omega
  have h2 : (x1 + x2 * 8) / 8 = x2 := by omega
  simp [build, rX, h1, h2])
theorem cmvRead (x0 x1 x2 : Nat) : Statement (.cmvRead x0 x1 x2) := of_part _ _ rfl (x1 < 8) (fun h => of_decide_eq_true h) (fun h => by
  have h1 : (x1 + x2 * 8) % 8 = x1 := by omega
  have h2 : (x1 + x2 * 8) / 8 = x2 := by omega
  simp [build, rI, h1, h2])
theorem eadd (x0 x1 x2 : Nat) : Statement (.eadd x0 x1 x2) := of_raw _ _ rfl rfl
theorem esub (x0 x1 x2 : Nat) : Statement (.esub x0 x1 x2) := of_raw _ _ rfl rfl
theorem emul (x0 x1 x2 : Nat) : Statement (.emul x0 x1 x2) := of_raw _ _ rfl rfl
theorem efma (x0 x1 x2 x3 : Nat) : Statement (.efma x0 x1 x2 x3) := of_raw _ _ rfl rfl
theorem emov (x0 x1 : Nat) : Statement (.emov x0 x1) := of_raw _ _ rfl rfl
theorem admitB (x0 x1 x2 x3 : Nat) : Statement (.admitB x0 x1 x2 x3) := of_raw _ _ rfl rfl
theorem ebnd (x0 x1 : Nat) : Statement (.ebnd x0 x1) := of_raw _ _ rfl rfl
theorem nbc (x0 x1 x2 : Nat) : Statement (.nbc x0 x1 x2) := of_raw _ _ rfl rfl
theorem nbov (x0 x1 x2 : Nat) : Statement (.nbov x0 x1 x2) := of_raw _ _ rfl rfl
theorem nbmodeNormal (x0 x1 x2 : Nat) : Statement (.nbmodeNormal x0 x1 x2) := of_raw _ _ rfl rfl
theorem nbmodeCompute (x0 x1 x2 : Nat) : Statement (.nbmodeCompute x0 x1 x2) := fun _ _ h => Or.inr ⟨_, _, _, .inl rfl, by cases h; rfl⟩
theorem nbmodeResume (x0 x1 x2 : Nat) : Statement (.nbmodeResume x0 x1 x2) := fun _ _ h => Or.inr ⟨_, _, _, .inr rfl, by cases h; rfl⟩
theorem nbstat (x0 x1 x2 : Nat) : Statement (.nbstat x0 x1 x2) := of_raw _ _ rfl rfl
theorem mfs (x0 x1 : Nat) : Statement (.mfs x0 x1) := of_raw _ _ rfl rfl
theorem mts (x0 x1 : Nat) : Statement (.mts x0 x1) := of_raw _ _ rfl rfl
theorem tret : Statement .tret := of_raw _ _ rfl rfl
theorem tretResume (x0 x1 : Nat) : Statement (.tretResume x0 x1) := of_raw _ _ rfl rfl
theorem tretSkip (x0 x1 : Nat) : Statement (.tretSkip x0 x1) := of_raw _ _ rfl rfl
theorem tretEnd (x0 x1 : Nat) : Statement (.tretEnd x0 x1) := of_raw _ _ rfl rfl
theorem sysc (x0 : Nat) : Statement (.sysc x0) := of_raw _ _ rfl rfl
theorem tlbiInv (x0 x1 : Nat) : Statement (.tlbiInv x0 x1) := of_raw _ _ rfl rfl
theorem tlbiInvall (x0 x1 : Nat) : Statement (.tlbiInvall x0 x1) := of_raw _ _ rfl rfl
theorem tlbiUnmap (x0 x1 : Nat) : Statement (.tlbiUnmap x0 x1) := of_raw _ _ rfl rfl
theorem tlbiMove (x0 x1 : Nat) : Statement (.tlbiMove x0 x1) := of_raw _ _ rfl rfl
theorem tlbiMovef (x0 x1 : Nat) : Statement (.tlbiMovef x0 x1) := of_raw _ _ rfl rfl
theorem tlbiRel (x0 x1 : Nat) : Statement (.tlbiRel x0 x1) := of_raw _ _ rfl rfl
theorem ctxsv (x0 x1 x2 : Nat) : Statement (.ctxsv x0 x1 x2) := of_raw _ _ rfl rfl
theorem ctxld (x0 x1 x2 : Nat) : Statement (.ctxld x0 x1 x2) := of_raw _ _ rfl rfl
theorem pkill (x0 x1 : Nat) : Statement (.pkill x0 x1) := of_raw _ _ rfl rfl
theorem halt : Statement .halt := of_raw _ _ rfl rfl
theorem haltWake : Statement .haltWake := of_none _ rfl
theorem nbuHalt : Statement .nbuHalt := of_none _ rfl
theorem nbuOpen (x0 x1 : Nat) : Statement (.nbuOpen x0 x1) := of_none _ rfl
theorem nbuClose : Statement .nbuClose := of_none _ rfl
theorem nbuSetbMask (x0 : Nat) : Statement (.nbuSetbMask x0) := of_none _ rfl
theorem nbuSetbReg (x0 : Nat) : Statement (.nbuSetbReg x0) := of_none _ rfl
theorem nbuRdcol (x0 x1 x2 : Nat) : Statement (.nbuRdcol x0 x1 x2) := of_none _ rfl
theorem nbuWrcol (x0 x1 : Nat) : Statement (.nbuWrcol x0 x1) := of_none _ rfl
theorem nbuMacb (x0 x1 x2 : Nat) : Statement (.nbuMacb x0 x1 x2) := of_none _ rfl
theorem nbuMacbOnes (x0 x1 x2 : Nat) : Statement (.nbuMacbOnes x0 x1 x2) := of_none _ rfl
theorem nbuClra (x0 : Nat) : Statement (.nbuClra x0) := of_none _ rfl
theorem nbuAdda (x0 x1 : Nat) : Statement (.nbuAdda x0 x1) := of_none _ rfl
theorem nbuMaxa (x0 x1 : Nat) : Statement (.nbuMaxa x0 x1) := of_none _ rfl
theorem nbuScala (x0 x1 : Nat) : Statement (.nbuScala x0 x1) := of_none _ rfl
theorem nbuWbacc (x0 x1 x2 x3 : Nat) : Statement (.nbuWbacc x0 x1 x2 x3) := of_none _ rfl
theorem nbuWbaccBf (x0 x1 x2 x3 : Nat) : Statement (.nbuWbaccBf x0 x1 x2 x3) := of_none _ rfl
theorem nbuLdi (x0 x1 : Nat) : Statement (.nbuLdi x0 x1) := of_none _ rfl
theorem nbuAddi (x0 x1 x2 : Nat) : Statement (.nbuAddi x0 x1 x2) := of_none _ rfl
theorem nbuAdd (x0 x1 x2 : Nat) : Statement (.nbuAdd x0 x1 x2) := of_none _ rfl
theorem nbuSub (x0 x1 x2 : Nat) : Statement (.nbuSub x0 x1 x2) := of_none _ rfl
theorem nbuAnd (x0 x1 x2 : Nat) : Statement (.nbuAnd x0 x1 x2) := of_none _ rfl
theorem nbuShl (x0 x1 x2 : Nat) : Statement (.nbuShl x0 x1 x2) := of_none _ rfl
theorem nbuBeq (x0 x1 x2 : Nat) : Statement (.nbuBeq x0 x1 x2) := of_none _ rfl
theorem nbuBne (x0 x1 x2 : Nat) : Statement (.nbuBne x0 x1 x2) := of_none _ rfl
theorem nbuBlt (x0 x1 x2 : Nat) : Statement (.nbuBlt x0 x1 x2) := of_none _ rfl
theorem nbuLoop (x0 x1 : Nat) : Statement (.nbuLoop x0 x1) := of_none _ rfl
theorem nbuJmp (x0 : Nat) : Statement (.nbuJmp x0) := of_none _ rfl
theorem nbuReport (x0 : Nat) : Statement (.nbuReport x0) := of_none _ rfl
theorem storeAcknowledge (x0 x1 : Nat) : Statement (.storeAcknowledge x0 x1) := of_none _ rfl
theorem victimQueueSteal (x0 : StealReq) : Statement (.victimQueueSteal x0) := of_none _ rfl
theorem tretHandleArrive (x0 : TretReq) : Statement (.tretHandleArrive x0) := of_none _ rfl
theorem mresumeAtUnit (x0 : ResumeReq) : Statement (.mresumeAtUnit x0) := of_none _ rfl
theorem alarmConditionEnd (x0 : AlarmSource) (x1 : Nat) : Statement (.alarmConditionEnd x0 x1) := of_none _ rfl
theorem lowPowerIdleExit : Statement .lowPowerIdleExit := of_none _ rfl
theorem sortedIndexBuilt (x0 x1 : Nat) : Statement (.sortedIndexBuilt x0 x1) := of_none _ rfl

end Sys2Proof.Laws.Encodable
end

