-- ==== Sys2Proof/Laws/Traps.lean ====
section
/-! SUPPORT. What the end of an instruction and taking a trap can do: no meaning stops the machine, and a trap leaves memory and the
device around the context's core as they were (R270 to R274). -/

namespace Sys2Proof.Machine

/-- A core instruction's meaning always answers a next state. -/
theorem runAct_next (m : Act Unit) (s : State) : ∃ t, runAct m s = .next t := by
  unfold runAct
  split
  case h_6 => split <;> exact ⟨_, rfl⟩
  all_goals exact ⟨_, rfl⟩

/-- An event's meaning always answers a next state. -/
theorem runEvent_next (f : State → State) (s : State) : ∃ t, runEvent f s = .next t := ⟨f s, rfl⟩

theorem abortEntry_mem (s : State) (core : Nat) (w : Work) : (s.abortEntry core w).mem = s.mem := by
  cases w <;> rfl

theorem modTask_mem (s : State) (id : Nat) (f : Task → Task) : (s.modTask id f).mem = s.mem := by
  unfold State.modTask
  split <;> rfl

theorem stopClock_mem (s : State) (core k : Nat) : (s.stopClock core k).mem = s.mem := by
  unfold State.stopClock
  split
  · exact modTask_mem ..
  · rfl

/-- The delivery of a trap, to TVEC or to the supervisor, writes no memory (R273, R274). -/
theorem deliverTrap_mem (s : State) (core k : Nat) (t : Trap) : (s.deliverTrap core k t).mem = s.mem := by
  unfold State.deliverTrap
  dsimp only
  split
  · rfl
  · show ((if decide (4 ≤ k) = true then s.abortEntry core (s.ctxAt core k).work else s).stopClock core k).mem = s.mem
    rw [stopClock_mem]
    split
    · exact abortEntry_mem ..
    · rfl

/-- TAKING A TRAP writes no memory, whether it is held or delivered (R97, R119, R273, R274). -/
theorem takeTrap_mem (s : State) (core k : Nat) (t : Trap) : (s.takeTrap core k t).mem = s.mem := by
  unfold State.takeTrap
  split
  · rfl
  · exact deliverTrap_mem ..

/-- A trap that waits changes nothing of its context but that it is held, and that a sleep ends (R97, R119). -/
theorem takeTrap_held {s : State} {core k : Nat} (t : Trap) (h : s.specAt core k = true ∨ (s.ctxAt core k).pend ≠ 0) :
    s.takeTrap core k t = s.modCtx core k (fun x => { x with heldTrap := some t, sleep := none }) := by
  have c : (s.specAt core k || (s.ctxAt core k).pend != 0) = true := by
    simp only [Bool.or_eq_true, bne_iff_ne]
    exact h
  unfold State.takeTrap
  rw [if_pos c]

/-- Without pending registers and outside speculation a trap is delivered at once (R97, R119). -/
theorem takeTrap_now {s : State} {core k : Nat} (t : Trap) (h : s.specAt core k = false) (p : (s.ctxAt core k).pend = 0) :
    s.takeTrap core k t = s.deliverTrap core k t := by
  have c : ¬ (s.specAt core k || (s.ctxAt core k).pend != 0) = true := by simp [h, p]
  unfold State.takeTrap
  rw [if_neg c]

@[simp] theorem returnTrap_mem (s : State) (core k : Nat) : (s.returnTrap core k).mem = s.mem := rfl

end Sys2Proof.Machine
end

