-- ==== Sys2Proof/Tests/Slice0.lean ====
section
/-! SUPPORT. Tests: ill-formed terms that WellFormed refuses, words written out from the spec's encodings, single steps whose
results are worked out from the rules by hand, and, for each statement of Certificates/Slice0/Obligations.lean, states and operands
that meet its hypotheses. -/

namespace Sys2Proof.Tests
open Sys2Proof Sys2Proof.Machine

/-! ## Well-formedness -/

/-- The checks of R288, R296, R297, R309 to R311 and R324: a field wider than its place, a reserved SUB, TY, scope, order, MD and
channel, every register class, the even pair, stream registers, an unused field, a reserved value, and a combination not allowed. -/
theorem test_ill_formed : (Instr.mov 64 2 3).wellFormed = false ∧ (Instr.addi 1 2 0x10000).wellFormed = false ∧
    (Instr.nbmodeNormal 16 2 3).wellFormed = false ∧ (Instr.add 1 16 3 3 false).wellFormed = false ∧
    (Instr.vadd 32 1 2 3 0 false).wellFormed = false ∧ (Instr.mkor 8 1 2).wellFormed = false ∧
    (Instr.emov 8 1).wellFormed = false ∧ (Instr.cbq 1 16).wellFormed = false ∧ (Instr.putk 1 3 4 5).wellFormed = false ∧
    (Instr.strm 11 2 3 false false).wellFormed = false ∧ (Instr.strm 23 2 3 false true).wellFormed = false ∧
    (Instr.add 1 2 3 8 false).wellFormed = false ∧ (Instr.aadd 1 2 3 0 0 4 0).wellFormed = false ∧
    (Instr.ld 1 ⟨2, 0, false, 0, 0⟩ 3 6 0).wellFormed = false ∧ (Instr.ld 1 ⟨2, 0, false, 0, 0⟩ 3 4 5).wellFormed = false ∧
    (Instr.msend 1 2 3 8 false 3).wellFormed = false ∧ (Instr.vadd 1 2 3 3 5 false).wellFormed = false ∧
    (Instr.ld 1 ⟨2, 3, false, 0, 0⟩ 3 4 0).wellFormed = false ∧ (Instr.ld 1 ⟨2, 0, false, 1, 0⟩ 3 4 0).wellFormed = false ∧
    (Instr.bcc 6 1 2 0).wellFormed = false := by decide

/-- Reserved values opcode by opcode, and combinations that an instruction does not allow. -/
theorem test_ill_formed_values : (Instr.sleep 1 0x80).wellFormed = false ∧ (Instr.bext 1 2 0 0).wellFormed = false ∧
    (Instr.bext 1 2 0 65).wellFormed = false ∧ (Instr.plset 1 2 3 65).wellFormed = false ∧ (Instr.bara 1 8).wellFormed = false ∧
    (Instr.vred 1 2 6 3 0).wellFormed = false ∧ (Instr.vshuf 1 2 3 6 3 0).wellFormed = false ∧
    (Instr.tblld 4 ⟨2, 0, false, 0, 0⟩).wellFormed = false ∧ (Instr.mreply 1 0x10000).wellFormed = false ∧
    (Instr.msend 1 2 3 65 false 0).wellFormed = false ∧ (Instr.gelim 1 2 3 4 3 4).wellFormed = false ∧ (Instr.gld 1 4 1 6).wellFormed = false ∧
    (Instr.gres 1 2 3 4 5 0).wellFormed = false ∧ (Instr.gres 1 2 3 4 5 5).wellFormed = false ∧
    (Instr.mfs 1 0x00F).wellFormed = false ∧ (Instr.mts 0x032 1).wellFormed = false ∧
    (Instr.ld 1 ⟨2, 0, false, 0, 0⟩ 3 4 2).wellFormed = false ∧ (Instr.st 1 ⟨2, 0, false, 0, 0⟩ 3 4 1 0).wellFormed = false ∧
    (Instr.fence 0 4).wellFormed = false ∧ (Instr.fence 4 0).wellFormed = false ∧ (Instr.tfence 0).wellFormed = false ∧
    (Instr.tfence 1).wellFormed = false ∧ (Instr.vldx 1 2 3 0 1 0).wellFormed = false ∧ (Instr.vand 1 2 3 10 0).wellFormed = false ∧
    (Instr.vadd 1 2 3 10 0 true).wellFormed = false ∧ (Instr.vsqrt 1 2 3 0).wellFormed = false ∧
    (Instr.vexp2 1 2 8 0).wellFormed = false ∧ (Instr.vcmp 4 1 2 3 10 0).wellFormed = false ∧
    (Instr.vins 1 2 64 3 0).wellFormed = false ∧ (Instr.vext 1 2 64 2).wellFormed = false ∧
    (Instr.vshuf 1 2 3 0x1004 2 0).wellFormed = false ∧ (Instr.vcvt 1 2 64 0 0 0).wellFormed = false := by decide

/-- Fields of micro-instructions outside the widths of R224, Table 2. -/
theorem test_ill_formed_micro : (Instr.nbuOpen 2 0).wellFormed = false ∧ (Instr.nbuRdcol 16 0 0).wellFormed = false ∧
    (Instr.nbuRdcol 0 0 32).wellFormed = false ∧ (Instr.nbuMacb 8 0 0).wellFormed = false ∧
    (Instr.nbuSetbMask 0x10000).wellFormed = false ∧ (Instr.nbuLdi 0 0x800000).wellFormed = false ∧
    (Instr.nbuBeq 0 0 0x8000).wellFormed = false ∧ (Instr.nbuAdd 0 16 0).wellFormed = false ∧
    (Instr.nbuWbacc 0 16 0 0).wellFormed = false ∧ (Instr.nbuAdda 0 8).wellFormed = false := by decide

/-! ## Decoding -/

/-- Every head and tail decodes to its instruction, and the instruction encodes to them. -/
def Decodes : List (Nat × Nat × Instr) → Prop
  | [] => True
  | (h, t, i) :: r => decodeCode h t = .ok i ∧ (encode i).map (fun c => (c.head, c.tail)) = some (h, t) ∧ Decodes r

/-- Every overlay word decodes to its micro-instruction. -/
def DecodesMicro : List (W32 × Micro) → Prop
  | [] => True
  | (w, i) :: r => decodeMicroOp w = some i ∧ DecodesMicro r

/-- Words written out from the tables of R287, R289, R312, or taken from the examples of the spec. -/
theorem test_decode_control : Decodes [(0x0000, 0x0, .nop), (0x0080, 0x0, .endWork), (0x8040, 0xFFFFFFE3, .br 0xFFFFFFE3),
    (0x80C0, 0x7FE12103, .bcc 2 3 4 0x7FE1), (0x8107, 0x22, .bz 7 0x22), (0x8147, 0x22, .bnz 7 0x22),
    (0x818F, 0xFFFFFFE0, .call 15 0xFFFFFFE0), (0x41C4, 0x5, .calli 4 5), (0x4200, 0xF, .ret 15), (0x4240, 0x9, .jmpi 9),
    (0x8283, 0x2, .loop 3 2), (0x42C0, 0x109, .sleep 9 4), (0x4300, 0xFFC0, .brk 1023), (0x4340, 0x140, .trapi 5)] := by
  repeat' constructor

/-- Words written out from the tables of R313, R314, R334, or taken from the examples of the spec. -/
theorem test_decode_integer : Decodes [(0xC803, 0x1000, .ldi 3 0x1000), (0x8841, 0x1500C2, .add 1 2 3 5 true),
    (0x8841, 0x1510C2, .sub 1 2 3 5 true), (0x8841, 0x1520C2, .mul 1 2 3 5 true), (0x8841, 0x530C2, .mulh 1 2 3 5),
    (0x8841, 0x540C2, .mulhn 1 2 3 5), (0x8841, 0x550C2, .div 1 2 3 5), (0x8841, 0x560C2, .divn 1 2 3 5),
    (0x8841, 0x570C2, .rem 1 2 3 5), (0x8841, 0x580C2, .remn 1 2 3 5), (0x8841, 0x590C2, .min 1 2 3 5),
    (0x8841, 0x5A0C2, .max 1 2 3 5), (0x8849, 0x3B089, .minn 9 9 2 3), (0x8841, 0x5C0C2, .maxn 1 2 3 5),
    (0x8841, 0x5D0C2, .seq 1 2 3 5), (0x8841, 0x5E0C2, .slt 1 2 3 5), (0x8841, 0x5F0C2, .sltn 1 2 3 5)] := by
  repeat' constructor

/-- Words written out from the tables of R313, R314, or taken from the examples of the spec. -/
theorem test_decode_logic : Decodes [(0x8881, 0x200C2, .and 1 2 3 2), (0x8885, 0x31105, .or 5 5 4 3),
    (0x8881, 0x220C2, .xor 1 2 3 2), (0x8881, 0x230C2, .andn 1 2 3 2), (0x8881, 0x240C2, .shl 1 2 3 2),
    (0x8881, 0x352C8, .shr 1 8 11 3), (0x8881, 0x260C2, .sra 1 2 3 2), (0x8881, 0x270C2, .rol 1 2 3 2),
    (0x88C1, 0x60002, .clz 1 2 6), (0x88CE, 0x31002, .ctz 14 2 3), (0x88C1, 0x62002, .popc 1 2 6),
    (0x88C1, 0x63002, .bswp 1 2 6), (0x88C1, 0x64002, .sext 1 2 6), (0x88C1, 0x65002, .zext 1 2 6),
    (0x88C1, 0x66002, .mov 1 2 6), (0x8901, 0xFFFE0002, .addi 1 2 0xFFFE), (0x8901, 0xFFFE1002, .andi 1 2 0xFFFE),
    (0x8901, 0xFFFE2002, .ori 1 2 0xFFFE), (0x8901, 0xFFFE3002, .xori 1 2 0xFFFE), (0x8905, 0x84005, .shli 5 5 8),
    (0x8901, 0x3F5002, .shri 1 2 63), (0x8901, 0x3F6002, .srai 1 2 63), (0xC944, 0x100000102, .sel 4 2 4 1)] := by
  repeat' constructor

/-- Words written out from the tables of R313, R314, or taken from the examples of the spec. -/
theorem test_decode_address : Decodes [(0xC984, 0x200000000000F, .lea 4 ⟨15, 0, false, 0, 0x20000⟩),
    (0x89C1, 0xC2, .padd 1 2 3), (0x89C1, 0xFFFF1002, .paddImm 1 2 0xFFFF), (0x89C4, 0x82004, .pset 4 4 8 0),
    (0x89C1, 0x3002, .pget 1 2), (0x89C1, 0x4002, .pstrip 1 2), (0x89CA, 0x500A, .pglb 10 10),
    (0x89C1, 0x16002, .pchk 1 2 true), (0x8A01, 0xC2, .bins 1 2 3), (0x8A02, 0xA001002, .bext 2 2 0 40),
    (0x8A04, 0x2002, .ffcs 4 2), (0x8A06, 0xC31C2, .plset 6 2 7 12)] := by
  repeat' constructor

/-- Words written out from the tables of R315, R316, R324, or taken from the examples of the spec. -/
theorem test_decode_memory : Decodes [(0xD407, 0x1830006, .ld 7 ⟨6, 0, false, 0, 0⟩ 3 4 1),
    (0xD449, 0x282000B, .st 9 ⟨11, 0, false, 0, 0⟩ 2 4 2 0), (0xD480, 0xFFFFFFF800007144, .pf ⟨4, 5, true, 3, 0xFFFFFFF8⟩),
    (0xD4C2, 0xFFFFFFF800007144, .lock 2 ⟨4, 5, true, 3, 0xFFFFFFF8⟩),
    (0xD502, 0xFFFFFFF800007144, .unlock 2 ⟨4, 5, true, 3, 0xFFFFFFF8⟩),
    (0xD542, 0xFFFFFFF800007144, .lockq 2 ⟨4, 5, true, 3, 0xFFFFFFF8⟩),
    (0xD580, 0xFFFFFFF800007144, .cwb ⟨4, 5, true, 3, 0xFFFFFFF8⟩),
    (0xD5C0, 0xFFFFFFF800007144, .cinv ⟨4, 5, true, 3, 0xFFFFFFF8⟩),
    (0xD600, 0xFFFFFFF800007144, .czero ⟨4, 5, true, 3, 0xFFFFFFF8⟩), (0xD802, 0x3A30185, .aadd 2 5 6 0 3 5 3),
    (0xD802, 0xFFFC000004861185, .aand 2 5 6 0xFFFC 6 4 4), (0xD802, 0xFFFC000004862185, .aor 2 5 6 0xFFFC 6 4 4),
    (0xD802, 0xFFFC000004863185, .axor 2 5 6 0xFFFC 6 4 4), (0xD802, 0xFFFC000004864185, .amin 2 5 6 0xFFFC 6 4 4),
    (0xD802, 0xFFFC000004865185, .amax 2 5 6 0xFFFC 6 4 4), (0xD802, 0xFFFC000004866185, .aminn 2 5 6 0xFFFC 6 4 4),
    (0xD802, 0xFFFC000004867185, .amaxn 2 5 6 0xFFFC 6 4 4), (0xD80C, 0x19000000023814D, .aswp 12 13 5 400 3 1 0),
    (0xD802, 0x8000700679185, .acas 2 5 6 7 8 7 3 0), (0xD802, 0x800000147A005, .affcs 2 5 8 7 2 1),
    (0xD802, 0x800070087B185, .aplset 2 5 6 7 8 7 4 0), (0xD800, 0x840000082C185, .aupd 5 6 4 8 2 4),
    (0x9A00, 0x4A00000, .fence 5 4), (0x9A40, 0x800000, .tfence 4), (0x9A81, 0x70000, .bara 1 7),
    (0x9A89, 0x101009, .barw 9 16 9), (0x9A81, 0x1F2000, .bart 1 31), (0x9A81, 0x33000, .barg 1 3),
    (0x5AC1, 0x2, .migr 1 2)] := by
  repeat' constructor

/-- Words written out from the tables of R317, R318, R324, or taken from the examples of the spec. -/
theorem test_decode_vector : Decodes [(0xE01F, 0xFFFFFFF8000A7144, .vld 31 ⟨4, 5, true, 3, 0xFFFFFFF8⟩ 10),
    (0xE040, 0x10040000C0004, .vst 0 ⟨4, 0, false, 0, 0x10040⟩ 12), (0xE081, 0x48000000200C2, .vlds 1 2 3 4 2 8),
    (0xE0C1, 0x4F00000020782, .vldx 1 2 30 4 2 15), (0xE101, 0xFFF8000000070782, .vstx 1 2 30 0xFFF8 7 0),
    (0xE201, 0x9000001100C2, .vadd 1 2 3 1 9 true), (0xE201, 0x9000001110C2, .vsub 1 2 3 1 9 true),
    (0xE201, 0x9000001120C2, .vmul 1 2 3 1 9 true), (0xE201, 0x9000000130C2, .vdiv 1 2 3 1 9),
    (0xE201, 0x9000000140C2, .vmin 1 2 3 1 9), (0xE201, 0x9000000150C2, .vmax 1 2 3 1 9),
    (0xE201, 0xD004000A60C2, .vfma 1 2 3 4 10 13), (0xE201, 0x4000A70C2, .vfms 1 2 3 4 10 0),
    (0xE201, 0x9000000180C2, .vand 1 2 3 1 9), (0xE201, 0x9000000190C2, .vor 1 2 3 1 9),
    (0xE201, 0x90000001A0C2, .vxor 1 2 3 1 9), (0xE201, 0x90000001B0C2, .vshl 1 2 3 1 9),
    (0xE201, 0x90000001C0C2, .vshr 1 2 3 1 9), (0xE201, 0x90000001D0C2, .vsra 1 2 3 1 9), (0xE241, 0xA0002, .vsqrt 1 2 10 0),
    (0xE241, 0xA1002, .vrsq 1 2 10 0), (0xE241, 0xA2002, .vrcp 1 2 10 0), (0xE241, 0xA3002, .vexp2 1 2 10 0),
    (0xE241, 0xA4002, .vlog2 1 2 10 0), (0xE241, 0xA5002, .vabs 1 2 10 0), (0xE241, 0xA6002, .vneg 1 2 10 0),
    (0xE24A, 0x9000000A7002, .vbc 10 2 10 9), (0xE287, 0x650C2, .vcmp 5 7 2 3 6 0), (0xE2C1, 0x7000000C2, .vsel 1 2 3 7 0),
    (0xE303, 0xA0003, .vred 3 3 0 10 0), (0xE301, 0x5000000031002, .vscan 1 2 5 3 0), (0xE301, 0x820C2, .vperm 1 2 3 8 0),
    (0xE301, 0x1040000000230C2, .vshuf 1 2 3 0x104 2 0), (0xE301, 0x7000000034002, .vins 1 2 7 3 0),
    (0xA34E, 0x800001, .vext 14 1 0 2)] := by
  repeat' constructor

/-- Words written out from the tables of R317, R318, or taken from the examples of the spec. -/
theorem test_decode_conversion : Decodes [(0xE401, 0x491000000003002, .vcvt 1 2 17 18 3 0),
    (0xE441, 0x3F800000001002, .venc 1 2 63 1 8), (0xE481, 0x5000000001002, .vdec 1 2 5 1 0), (0x6501, 0xC2, .mkand 1 2 3),
    (0x6501, 0x10C2, .mkor 1 2 3), (0x6501, 0x2002, .mknot 1 2), (0x6507, 0x300F, .mkset 7 15), (0x654F, 0x7, .mkpop 15 7),
    (0xE603, 0xFFFFFFF800007144, .tblld 3 ⟨4, 5, true, 3, 0xFFFFFFF8⟩), (0xA641, 0x30002, .tblrd 1 3 2),
    (0xA640, 0x101002, .fdtset 16 2), (0xA641, 0x3F2000, .fdtget 1 63), (0x670C, 0x10C2, .strm 12 2 3 true false),
    (0x6758, 0x60C2, .strmx 24 2 3 false true true), (0x6781, 0x201F, .strmq 1 31 true)] := by
  repeat' constructor

/-- Words written out from the tables of R319, or taken from the examples of the spec. -/
theorem test_decode_engines : Decodes [(0xAC00, 0x2, .mcfgWeights 2), (0xAC00, 0x10000, .mcfgDiscard), (0x6C40, 0x2, .mma 2),
    (0x6C8D, 0x30B, .mmag 13 11 12), (0x6CC0, 0x1C6, .mdrain 6 7 false), (0x2D00, 0x0, .mzero), (0x6D44, 0x1, .mresume 4 1),
    (0x6D81, 0x2, .mstat 1 2), (0x6DC0, 0x2, .gath 2), (0x6E00, 0xC2, .skipb 2 3), (0x6E81, 0xC2, .cbdef 1 2 3),
    (0xAEC1, 0x8000002, .cbwaitP 1 2), (0xAEC1, 0x10000002, .cbwaitC 1 2), (0x6F01, 0xF, .cbpub 1 15),
    (0x6F01, 0x100F, .cbadv 1 15), (0x6F01, 0x200F, .cbfree 1 15), (0x6F01, 0x300F, .cbq 1 15), (0x7000, 0x2, .xcopy 2),
    (0x7041, 0x2, .xpoll 1 2), (0x7041, 0x1002, .xwait 1 2), (0x7041, 0x2002, .xcancel 1 2), (0x704A, 0x300F, .jwait 10 15),
    (0x7041, 0x4002, .jpoll 1 2), (0x3080, 0x0, .uiret), (0x720A, 0x9, .nred 10 9), (0x724C, 0xB, .nrwait 12 11),
    (0x728A, 0x9, .nmcast 10 9)] := by
  repeat' constructor

/-- Words written out from the tables of R320, or taken from the examples of the spec. -/
theorem test_decode_tuples : Decodes [(0xF403, 0xB00000146, .putk 3 6 5 11), (0xB441, 0x2, .rdkB 1 2),
    (0xB448, 0x8000004, .rdkP 8 4), (0xB441, 0x10000002, .rdkC 1 2), (0xB483, 0x4, .takkB 3 4), (0xB481, 0x8000002, .takkP 1 2),
    (0xB483, 0x10000004, .takkC 3 4), (0x74C1, 0xC2, .kcancel 1 2 3), (0x7501, 0xC2, .krange 1 2 3), (0x7549, 0x4, .ksplit 9 4),
    (0xF600, 0x1000040000128C, .msend 12 10 4 16 true 0), (0xF643, 0x28000700000206, .msenda 3 6 8 7 40 false 0),
    (0xB680, 0x400002, .mreply 2 64), (0x36C0, 0x0, .mdefer), (0x7801, 0x2, .spawn 1 2), (0x7841, 0xC2, .spawnt 1 2 3),
    (0x7881, 0x2, .popt 1 2), (0x78C1, 0xC2, .steal 1 2 3), (0x3900, 0x0, .tabort), (0x7941, 0xC2, .lnch 1 2 3)] := by
  repeat' constructor

/-- Words written out from the tables of R321, or taken from the examples of the spec. -/
theorem test_decode_gaussian : Decodes [(0xFA00, 0x18000000044, .gld 0 4 1 6), (0xFA45, 0x20300000084, .gst 5 4 2 3 8),
    (0xFA81, 0xC2, .gadd 1 2 3), (0xFA82, 0x500001080, .gdamp 2 0 2 5), (0xFA86, 0x700002204, .gelim 6 4 8 7 0 0),
    (0xFAC6, 0x1004300000002, .gres 6 2 0 3 1 1), (0xFB00, 0x3030000018C, .gpost 0 12 6 3 12),
    (0xFB45, 0x50004000000C2, .cmvStart 5 5 2 3 4), (0xFB41, 0x70004000010C2, .cprog 1 7 2 3 4),
    (0xFB41, 0x7000000002000, .ccal 1 7), (0xFB41, 0x17000000003000, .cqry 1 7 2), (0xBB87, 0xFF0000, .cmvRead 7 7 31),
    (0xFBC2, 0x103, .eadd 2 3 4), (0xFBC2, 0x1103, .esub 2 3 4), (0xFBC2, 0x2103, .emul 2 3 4),
    (0xFBC2, 0x500003103, .efma 2 3 4 5), (0xFBC2, 0x4003, .emov 2 3), (0xFC06, 0x5000007C3, .admitB 6 3 31 5),
    (0xFC08, 0x1007, .ebnd 8 7)] := by
  repeat' constructor

/-- Words written out from the tables of R321, R322, or taken from the examples of the spec. -/
theorem test_decode_system : Decodes [(0x7C45, 0xC2, .nbc 5 2 3), (0xBC81, 0xC2, .nbov 1 2 3),
    (0xBC81, 0x10C2, .nbmodeNormal 1 2 3), (0xBC81, 0xF2002, .nbstat 1 2 15), (0xBE07, 0xB0000, .mfs 7 11),
    (0xBE40, 0x60002, .mts 6 2), (0x7E80, 0x0, .tret), (0x7E81, 0x1009, .tretResume 1 9), (0x7E81, 0x2009, .tretSkip 1 9),
    (0x7E81, 0x3009, .tretEnd 1 9), (0x7EC0, 0xFFC0, .sysc 1023), (0x7F01, 0x2, .tlbiInv 1 2),
    (0x7F01, 0x1002, .tlbiInvall 1 2), (0x7F01, 0x2002, .tlbiUnmap 1 2), (0x7F01, 0x3002, .tlbiMove 1 2),
    (0x7F01, 0x4002, .tlbiMovef 1 2), (0x7F01, 0x5002, .tlbiRel 1 2), (0x7F41, 0xC2, .ctxsv 1 2 3),
    (0x7F41, 0x10C2, .ctxld 1 2 3), (0x7F41, 0x2002, .pkill 1 2), (0x3F80, 0x0, .halt)] := by
  repeat' constructor

/-- Overlay words written out from Table 2 of R224. -/
theorem test_decode_micro : DecodesMicro [(0x0, .halt), (0xC780000, .open_ 1 15), (0x10000000, .close),
    (0x18008001, .setbMask 0x8001), (0x1C480000, .setbReg 9), (0x2019001F, .rdcol 3 2 31), (0x28010007, .wrcol 2 7),
    (0x31028001, .macb 2 5 1), (0x3102C001, .macbOnes 2 5 1), (0x3B800000, .clra 7), (0x43B00000, .adda 7 6),
    (0x4BB00000, .maxa 7 6), (0x53F80000, .scala 7 15), (0x5B99001E, .wbacc 7 3 2 30), (0x5B99401E, .wbaccBf 7 3 2 30),
    (0x67FFFFFF, .ldi 15 0x7FFFFF), (0x68907FFF, .addi 1 2 0x7FFF), (0x70918000, .add 1 2 3), (0x78918000, .sub 1 2 3),
    (0x80918000, .and_ 1 2 3), (0x88918000, .shl 1 2 3), (0x9011FFF0, .beq 2 3 0x7FF0), (0x9811FFF0, .bne 2 3 0x7FF0),
    (0xA011FFF0, .blt 2 3 0x7FF0), (0xA8187FFC, .loop 3 0x7FFC), (0xB07FFFFF, .jmp 0x7FFFFF), (0xB8200000, .report 4)] := by
  repeat' constructor

/-- Reserved encodings are rejected with the reason of R324: the third head of its example, a reserved opcode, and more. -/
theorem test_decode_rejects : decodeCode 0x4842 0 = .error { op := 0x21, reason := 2 } ∧
    decodeCode 0x0380 0 = .error { op := 0x0E, reason := 1 } ∧ decodeCode 0x88C1 0x00037002 = .error { op := 0x23, reason := 3 } ∧
    decodeCode 0x8851 0x000300C2 = .error { op := 0x21, reason := 4 } ∧ decodeCode 0x88C1 0x00036042 = .error { op := 0x23, reason := 5 } ∧
    decodeCode 0xD400 0x0000000002830006 = .error { op := 0x50, reason := 6 } := by
  repeat' constructor

/-- The line of the example under R289: four instructions, the third a BR of slot 3 and displacement -1. -/
theorem test_line : parseLine ([0x00, 0x20, 0x03, 0xC8, 0x00, 0x00, 0x40, 0x80, 0x80, 0x00] ++ List.replicate 42 0 ++
      [0xE3, 0xFF, 0xFF, 0xFF] ++ [0x00, 0x10, 0x00, 0x00, 0x00, 0x00, 0x00, 0x00]) =
    some [⟨0xC803, 0x1000, 8⟩, ⟨0, 0, 0⟩, ⟨0x8040, 0xFFFFFFE3, 4⟩, ⟨0x80, 0, 0⟩] := by decide

theorem test_branch_target : target32 0x00400082 0xFFFFFFE3 = 0x00400043 := by decide


theorem test_meets_DecodeOfEncode : (Instr.ffcs 4 2).wellFormed = true ∧ encode (.ffcs 4 2) = some ⟨0x8A04, 0x2002, 4⟩ ∧
    (Instr.nbmodeCompute 1 2 3).wellFormed = true ∧ (encode (.nbmodeCompute 1 2 3)).isSome = true := by decide

theorem test_meets_DecodeOfEncodeMicro : (Instr.nbuMacb 2 5 1).wellFormed = true ∧ encodeMicro (.nbuMacb 2 5 1) = some 0x31028001#32 := by
  decide

theorem test_meets_DecodedIsWellFormed : decodeCode 0x8A04 0x2002 = .ok (.ffcs 4 2) := rfl
/-! ## States that meet the hypotheses of the statements -/

/-- Task 7: one thread of a gang, on core 0, context 0. -/
def task7 : Task :=
  { part := 0, width := 1, clusters := [0], gang := true, crew := false, threads := [(0, 0)], ended := [], cnt := 0, shot := 0,
    clockEnd := none, origq := 0, sreg := 0, record := none, ordered := none, start := 0, homeDev := 0, homeCore := 0 }

/-- A context of task 7 that runs at 0x10_0000, with the general registers `g` and window 0. -/
def ctxOf (g : List (Nat × Word)) : Ctx :=
  { Ctx.idle with phase := .running, work := .task 7, serial := 7, g := g.foldl (fun t p => t.set p.1 p.2) (Tab.const 0),
                  pc := 0x100000, lineN := 2, vwin := 1 }

/-- Context 0 of core 0 runs in partition 0, which holds cluster 0, through a 1 GiB leaf over a line of two NOPs at 0x10_0000. -/
def stateOf (g : List (Nat × Word)) : State :=
  let s : State :=
    { State.reset with
      turn := .ctx 0 0, part := State.reset.part.set 0 { fetchPart with qmask := 1, pinq := 8 }, tasks := [(7, task7)],
      sec := { State.reset.sec with boot := 7 },
      core := State.reset.core.set 0 { Core.reset with ctx := (Tab.const Ctx.idle).set 0 (ctxOf g),
                                                       win := (Tab.const Window.clear).set 0 { Window.clear with used := true } } }
  ((s.putBytes 0x10000 (bytesOf 0x20001 8)).putBytes 0x20000 (bytesOf 0x2F 8)).putBytes 0x100001 [0x10]

/-- The same state with a handler in context 6 of core 0, whose instruction runs. -/
def handlerOf (g : List (Nat × Word)) : State :=
  { (stateOf g).modCtx 0 6 (fun _ => { ctxOf g with work := .message 9, serial := 9 }) with curCtx := 6 }

theorem test_meets_StepRuns : (∃ (s s1 : State), s.turn = .ctx 0 0 ∧ s.sec.failed = false ∧ (s.asCtx 0 0).fetches .nop 2 s1) ∧
    (∃ (s t : State), s.turn = .unit 3 ∧ s.sec.failed = false ∧
      decodeMicro ((s.unitAt 3).overlay.get (s.unitAt 3).pc) = some .nbuHalt ∧ exec .nbuHalt { s with curUnit := 3 } = .next t) ∧
    (∃ s : State, s.turn = .unit 3 ∧ s.sec.failed = false ∧ decodeMicro ((s.unitAt 3).overlay.get (s.unitAt 3).pc) = none) ∧
    (∃ s t : State, s.turn = .event .haltWake ∧ s.sec.failed = false ∧ exec (Event.toInstr .haltWake) s = .next t) :=
  ⟨⟨stateOf [], _, rfl, rfl, by decide, by decide, _, ⟨0, 0, 0⟩, rfl, rfl, rfl, rfl⟩,
    ⟨{ stateOf [] with turn := .unit 3 }, _, rfl, rfl, rfl, rfl⟩,
    ⟨{ stateOf [] with turn := .unit 3, unit := State.reset.unit.set 3 { NbUnit.reset with overlay := Tab.const 0xF8000000#32 } },
      rfl, rfl, by decide⟩,
    ⟨{ stateOf [] with turn := .event .haltWake }, _, rfl, rfl, rfl⟩⟩

theorem test_meets_StepKeepsTurnLegal : ∃ s t : State, s.turnLegal ∧ step s = .next t ∧ s = State.reset :=
  ⟨State.reset, _, show State.reset.turnLegal from trivial, rfl, rfl⟩

theorem test_meets_ResetLeaves : ∃ s : State, s.sec.failed = true ∧ s.turn ≠ .event .deviceReset :=
  ⟨{ State.reset with turn := .idle, sec := { State.reset.sec with failed := true } }, rfl, by decide⟩

theorem test_meets_MemoryLaws : Memory.wf [(3, 5), (4, 6)] = true ∧ Memory.wf (stateOf []).mem = true := by decide

theorem test_meets_registers : (stateOf [(2, 5)]).canRun [2, 3, 4] [1] = true ∧ (stateOf []).canRun [15, 0] [15, 0] = true ∧
    (stateOf []).canRun [5] [4, 5] = true := by decide

/-- The operands of each case of Table 4: a zero divisor, the least number by -1, and neither. -/
theorem test_meets_DivisionCases :
    let s := stateOf [(2, 0x80), (3, 0xFF), (4, 7)]
    s.canRun [2, 3] [1] = true ∧ ((s.me.g.get 9).setWidth 8 : BitVec 8).toInt = 0 ∧
    ((s.me.g.get 2).setWidth 8 : BitVec 8).toInt = -2 ^ 7 ∧ ((s.me.g.get 3).setWidth 8 : BitVec 8).toInt = -1 ∧
    ((s.me.g.get 4).setWidth 8 : BitVec 8).toInt = 7 := by decide

theorem test_meets_ControlTransfers :
    let s := stateOf [(1, 1), (2, 0x100001), (3, 9)]
    (∃ u, badTarget 0x100001 s = .ok (false, u)) ∧ target32 s.me.pc 1 = 0x100001 ∧ target16 s.me.pc 1 = 0x100001 ∧
    s.me.g.get 2 = 0x100001 ∧ s.canRun [1, 2, 3] [1, 2] = true ∧ s.me.g.get 0 = 0 ∧ s.me.g.get 1 = 1 ∧ s.me.g.get 3 ≠ 1 ∧
    (∃ u, badTarget 0x100002 s = .ok (true, u)) ∧ target32 s.me.pc 2 = 0x100002 ∧ s.me.g.get 3 ≠ 0 :=
  ⟨⟨_, rfl⟩, by decide, by decide, rfl, by decide, rfl, rfl, by decide, ⟨_, rfl⟩, by decide, by decide⟩

theorem test_meets_NopSleepTrapsEnd :
    let s := stateOf [(1, 100)]
    let h := handlerOf []
    s.curCtx < 4 ∧ s.me.sleep = none ∧ s.canRun [1] [] = true ∧ s.me.latch = 0 ∧ s.me.g.get 1 ≠ 0 ∧ s.me.g.get 0 = 0 ∧
    ((s.modMe (fun c => { c with latch := 1 })).me.latch &&& BitVec.ofNat 7 1 ≠ 0) ∧
    (∃ t : State, (t.ctxAt 0 0).sleep = some (5, 1) ∧ 5 ≤ t.coreAc 0) ∧
    (∃ t : State, (t.ctxAt 0 0).sleep = some (5, 1) ∧ (t.ctxAt 0 0).latch &&& BitVec.ofNat 7 1 ≠ 0) ∧
    (s.me.pend = 0 ∧ s.me.stores = 0 ∧ s.me.poison = [] ∧ s.me.streams = [] ∧ s.taskOf s.curCore s.curCtx = some (7, task7) ∧
      task7.ordered = none ∧ task7.threads = [(s.curCore, s.curCtx)]) ∧
    (h.me.pend = 0 ∧ h.me.stores = 0 ∧ h.me.poison = [] ∧ h.me.streams = [] ∧ 4 ≤ h.curCtx ∧
      (h.coreAt h.curCore).outq.length + h.me.sendBuf.length ≤ 32) ∧
    (s.modMe (fun c => { c with pend := 1 })).me.pend ≠ 0 :=
  ⟨by decide, rfl, by decide, rfl, by decide, rfl, by decide,
    ⟨{ (stateOf []).modCtx 0 0 (fun c => { c with sleep := some (5, 1) }) with
      island := (stateOf []).island.modify ((stateOf []).coreIsland 0) (fun x => { x with cycles := 20 }) }, rfl, by decide⟩,
    ⟨(stateOf []).modCtx 0 0 (fun c => { c with sleep := some (5, 1), latch := 1 }), rfl, by decide⟩,
    by decide, by decide, by decide⟩

/-- The kinds of pointer that PGLB tells apart. -/
theorem test_meets_AddressesAndFields :
    let s := stateOf [(1, 0x20000040), (2, 0x10000000000), (3, 0x30000000000040),
      (4, 0x31000000140000), (5, 0x32000000000000), (6, 0x10000000000000)]
    s.curCore < 4096 ∧ s.canRun [1, 2, 3, 4, 5, 6] [7] = true ∧
    ((s.me.g.get 1).extractLsb' 52 2 = 0 ∧ (s.me.g.get 1).extractLsb' 40 12 = 0) ∧
    ((s.me.g.get 2).extractLsb' 52 2 = 0 ∧ (s.me.g.get 2).extractLsb' 40 12 ≠ 0) ∧
    (s.me.g.get 3).extractLsb' 48 6 = 0b110000#6 ∧ (s.me.g.get 4).extractLsb' 48 6 = 0b110001#6 ∧
    ((s.me.g.get 5).extractLsb' 52 2 = 3 ∧ 2 ≤ ((s.me.g.get 5).extractLsb' 48 4).toNat) ∧
    (s.me.g.get 6).extractLsb' 52 2 = 1 := by decide

/-- An operation succeeds with a result of which `p` holds. -/
theorem result_of {α : Type} {x : Except Stop (α × State)} (p : α → Bool)
    (h : (match x with | .ok (r, _) => p r | .error _ => false) = true) : ∃ r u, x = .ok (r, u) ∧ p r = true := by
  match x with
  | .ok (r, u) => exact ⟨r, u, rfl, h⟩
  | .error _ => exact (Bool.false_ne_true h).elim

/-- A computation that does not fail has a result. -/
theorem ok_of {ε α : Type} {x : Except ε α} (h : x.isOk = true) : ∃ r, x = .ok r := by
  match x with
  | .ok r => exact ⟨r, rfl⟩
  | .error _ => exact (Bool.false_ne_true h).elim

/-- The kind of a translated pointer: 0 a fault, 1 memory, 2 a register, 3 another device. -/
def kindOf (r : Except AccFault Target) : Nat :=
  match r with
  | .error _ => 0
  | .ok (.mem _ _) => 1
  | .ok (.reg _) => 2
  | .ok (.far _) => 3

theorem test_meets_PointerCheck :
    let s := stateOf [(1, 5)]
    let f : State := { s with fab := { s.fab with dim := 1 } }
    let r (s : State) (p : Word) (a : Access) := resolveAt s.curCore s.curPart (s.sregAt s.curCore s.curCtx) p a s
    s.canRun [1] [2] = true ∧ (∃ x u, r s 0x10000000000 .read = .ok (x, u) ∧ (kindOf x == 0) = true) ∧
    (∃ x u, r s 0x20000040 .write = .ok (x, u) ∧ (kindOf x == 1) = true) ∧
    (∃ x u, r s 0x3000000003FFFF .write = .ok (x, u) ∧ (kindOf x == 1) = true) ∧
    (∃ x u, r s 0x32000000000004 .read = .ok (x, u) ∧ (kindOf x == 2) = true) ∧
    (∃ x u, r s 0x32000000000200 .read = .ok (x, u) ∧ (kindOf x == 2) = true) ∧
    (∃ x u, r f 0x20010000000000 .read = .ok (x, u) ∧ (kindOf x == 3) = true) ∧
    (∃ x, regAt 0x200 = some x ∧ s.regMay x false = false) ∧ ∃ x, regAt 0x800000 = some x ∧ s.regMay x false = true :=
  ⟨by decide, result_of _ (by decide), result_of _ (by decide), result_of _ (by decide), result_of _ (by decide),
    result_of _ (by decide), result_of _ (by decide), ⟨_, rfl, by decide⟩, ⟨_, rfl, by decide⟩⟩

/-- FFCS with every bit set, and PLSET at the limit and above it. -/
theorem test_meets_FreeBitsAndLimits :
    let s := stateOf [(1, 0xFFFFFFFFFFFFFFFF), (2, 7)]
    s.canRun [1] [3, 1] = true ∧ s.canRun [2, 1] [3, 1] = true ∧ s.me.g.get 1 = BitVec.allOnes 64 ∧
    (List.range 64).countP (fun k => (s.me.g.get 2).getLsbD k) = 3 := by decide

/-- The memory operand `[gk]`. -/
def at1 (k : Nat) : MemOp := ⟨k, 0, false, 0, 0⟩

theorem test_meets_undisturbed : (stateOf []).undisturbed 0x20000040 64 := by unfold State.undisturbed State.noneLive; decide

/-- A context without accesses that are out and without an ordered task is settled, and one with a window has one. -/
theorem test_meets_settled : (stateOf []).settled ∧ (handlerOf []).settled ∧ (stateOf []).windowed :=
  ⟨⟨rfl, fun _ _ h => nomatch h⟩, ⟨rfl, fun _ _ h => nomatch h⟩, .inl (by decide)⟩

/-- A load and a store of this device, of another, of a peer core's scratchpad, one not aligned, and what comes back. -/
theorem test_meets_MemoryAccesses :
    let s := stateOf [(1, 0x20000040), (2, 0x20010000000000), (3, 0x20000041), (4, 0x10000010000040)]
    let f : State := { s with fab := { s.fab with dim := 1 } }
    s.canRun (memSrcs (at1 1)) [4] = true ∧ s.canRun (memSrcs (at1 1) ++ [4]) [] = true ∧ (s.addrOf (at1 1)).toNat % 8 = 0 ∧
    s.reaches (s.addrOf (at1 1)) .read 0x20000040 8 ∧ s.reaches (s.addrOf (at1 1)) .write 0x20000040 8 ∧
    (s.outOf s.curCore s.curCtx = [] ∧ s.ordOf s.curCore s.curCtx = none ∧ s.me.blk = none ∧ s.peerLoc 0x20000040 = false) ∧
    (s.addrOf (at1 3)).toNat % 8 ≠ 0 ∧
    (∃ loc leaf u, resolve (s.addrOf (at1 4)) .read s = .ok (.mem loc leaf, u) ∧ bit leaf 4 = false ∧ s.peerLoc loc = true) ∧
    (f.canRun (memSrcs (at1 2)) [4] = true ∧ (f.addrOf (at1 2)).toNat % 8 = 0 ∧
      (∃ u, resolve (f.addrOf (at1 2)) .read f = .ok (.far 1, u)) ∧ (f.coreAt f.curCore).slots < 64) ∧
    (s.ctxAt 0 0).serial = 7 ∧ ((s.ctxAt 0 0).phase = .running ∧ (s.ctxAt 0 0).heldTrap = none ∧ (s.ctxAt 0 0).sleep = none) :=
  ⟨by decide, by decide, by decide, ⟨⟨_, _, rfl, by decide⟩, by unfold State.undisturbed State.noneLive; decide, rfl⟩,
    ⟨⟨_, _, rfl, by decide⟩, by unfold State.undisturbed State.noneLive; decide, rfl⟩, by decide, by decide, ⟨_, _, _, rfl, by decide, by decide⟩,
    ⟨by decide, by decide, ⟨_, rfl⟩, by decide⟩, rfl, rfl, rfl, rfl⟩

theorem test_meets_TrapsAndPoison :
    let s := stateOf [(1, 5)]
    let v := s.modMe (fun c => { c with trap := { c.trap with tvec := 0x100000 } })
    let p := s.modMe (fun c => { c with poison := [(2, ⟨7, 0x40, 0⟩)] })
    ((s.modMe (fun c => { c with pend := 1 })).ctxAt 0 0).pend ≠ 0 ∧
    (v.specAt 0 0 = false ∧ (v.ctxAt 0 0).pend = 0 ∧ (v.ctxAt 0 0).trap.tvec ≠ 0 ∧ bit (v.ctxAt 0 0).trap.ecause 12 = false) ∧
    (s.specAt 0 0 = false ∧ (s.ctxAt 0 0).pend = 0 ∧ (s.ctxAt 0 0).trap.tvec = 0) ∧
    (p.me.streams = [] ∧ p.me.pend = 0 ∧ p.me.poison = [(2, ⟨7, 0x40, 0⟩)] ∧ p.me.seen.getLsbD 2 = false) := by decide

theorem test_meets_CacheAndPins :
    let s := stateOf [(1, 0x20000040)]
    let p : State := { s with pins := [{ line := 0x800001, part := 0, core := 0, vline := 0x800001 }] }
    s.canRun (memSrcs (at1 1)) [4] = true ∧ s.spec = false ∧
    (∃ r u, resolveAt s.curCore s.curPart (s.sregAt s.curCore s.curCtx) (s.addrOf (at1 1)) .read s = .ok (r, u) ∧
      (kindOf r == 1) = true) ∧
    (∃ leaf u, resolve (s.addrOf (at1 1)) .read s = .ok (.mem 0x20000040 leaf, u)) ∧
    (s.reaches (s.addrOf (at1 1)) .read 0x20000040 1 ∧ s.reaches (s.addrOf (at1 1)) .write 0x20000040 1 ∧
      s.undisturbed 0x20000040 64) ∧
    (s.holds = [] ∧ s.unitHolds 0x20000040 = false ∧ s.pins = [] ∧ 0 < (s.part.get s.curPart).pinq ∧ s.pinsInSet 0x800001 < 14) ∧
    p.pins.any (fun x => x.part == p.curPart && x.line == 0x800001) = true :=
  ⟨by decide, rfl, result_of _ (by decide), ⟨_, _, rfl⟩,
    ⟨⟨⟨_, _, rfl, by decide⟩, by unfold State.undisturbed State.noneLive; decide, rfl⟩,
      ⟨⟨_, _, rfl, by decide⟩, by unfold State.undisturbed State.noneLive; decide, rfl⟩, by unfold State.undisturbed State.noneLive; decide⟩,
    by decide, by decide⟩

/-- The own core, another core of the partition, and a thread that may not move. -/
theorem test_meets_MigrateRequest :
    let g := stateOf [(1, 0x10000000000000), (2, 0x10000010000000)]
    let s : State := { g.modMe (fun c => { c with vwin := 0 }) with tasks := [(7, { task7 with gang := false })] }
    s.canRun [1, 2] [3] = true ∧ (bits (s.me.g.get 1) 53 52 = 1 ∧ bits (s.me.g.get 1) 51 40 = s.dev ∧ s.dev < s.devices ∧
      bits (s.me.g.get 1) 39 28 = s.curCore) ∧
    (bits (s.me.g.get 2) 39 28 = 1 ∧ s.mayMigrate = true ∧ s.partOfCore 1 = some s.curPart ∧ s.reservedCl (clusterOf 1) = false ∧
      s.me.stay = false ∧ s.me.pend = 0 ∧ s.me.stores = 0 ∧ s.outOf s.curCore s.curCtx = [] ∧ bits (s.me.g.get 2) 27 0 < 2 ^ 18) ∧
    g.mayMigrate = false := by decide

/-- A word equal to the operand and one that differs, one with a free bit and one without, a limit met and one exceeded; an address at
another device and one in a peer core's scratchpad. -/
theorem test_meets_AtomicResults :
    let s := stateOf [(1, 0x20000040), (2, 7), (3, 5), (5, 0x20010000000000), (6, 0x10000010000040)]
    let n : State := { s with fab := { s.fab with dim := 1 } }
    let f := s.putBytes 0x20000040 (List.replicate 4 0xFF)
    s.canRun [1, 2, 3] [4] = true ∧ (s.me.g.get 1 + (BitVec.ofNat 16 0).signExtend 64).toNat % 4 = 0 ∧
    bits (s.me.g.get 1) 53 48 ≠ 50 ∧ s.reaches (s.me.g.get 1) .write 0x20000040 4 ∧ natOfBytes (s.bytesAt 0x20000040 4) = 0 ∧
    (s.me.g.get 0).setWidth 32 = 0#32 ∧ (s.me.g.get 3).setWidth 32 ≠ 0#32 ∧
    BitVec.ofNat 32 (natOfBytes (f.bytesAt 0x20000040 4)) = BitVec.allOnes 32 ∧ f.reaches (f.me.g.get 1) .write 0x20000040 4 ∧
    (List.range 32).countP (fun k => ((s.me.g.get 2).setWidth 32 : BitVec 32).getLsbD k) ≤ min (s.me.g.get 3).toNat 32 ∧
    min (s.me.g.get 0).toNat 32 < (List.range 32).countP (fun k => ((s.me.g.get 2).setWidth 32 : BitVec 32).getLsbD k) ∧
    s.peerLoc 0x20000040 = false ∧ (∃ u, resolve (n.me.g.get 5 + (BitVec.ofNat 16 0).signExtend 64) .write n = .ok (.far 1, u)) ∧
    (∃ loc leaf u, resolve (s.me.g.get 6 + (BitVec.ofNat 16 0).signExtend 64) .write s = .ok (.mem loc leaf, u) ∧ bit leaf 4 = false ∧
      s.peerLoc loc = true) ∧ bits (s.me.g.get 6) 53 48 ≠ 50 ∧ s.canRun [6, 2, 3] [4] = true :=
  ⟨by decide, by decide, by decide, ⟨⟨_, _, rfl, by decide⟩, by unfold State.undisturbed State.noneLive; decide, rfl⟩, by decide, rfl, by decide,
    by decide, ⟨⟨_, _, rfl, by decide⟩, by unfold State.undisturbed State.noneLive; decide, rfl⟩, by decide, by decide, by decide, ⟨_, rfl⟩,
    ⟨_, _, _, rfl, by decide, by decide⟩, by decide, by decide⟩

theorem test_meets_UpdatesFencesBarriers :
    let s := stateOf [(1, 0x20000040), (2, 0x30000000000040)]
    let o : State := { s with fab := { s.fab with out := [{ xid := 0, ptr := 0, dev := 1, dest := ⟨0, 0, 32, 7⟩, seq := 0, vc := 0,
                                                            store := true, acq := false, words := [] }] } }
    let b := s.modCluster 0 (fun c => { c with huddle := c.huddle.modify 0 (fun h => { h with gen := 1 }) })
    let arrive (x : State) : State := x.modBarrier (.huddle 0 0) (fun z => { z with arrived := z.arrived ++ [(0, 0)] })
    let u : State := { s with unit := s.unit.set 0 { NbUnit.reset with state := 1, regions := [0x20000000] } }
    let one := s.modCluster 0 (fun c => { c with huddle := c.huddle.set 0 { gen := 0, count := 1, arrived := [], engc := 0,
                                                                            engArr := 0, task := 7 } })
    let full := s.modCluster 0 (fun c => { c with huddle := c.huddle.set 0 { gen := 0, count := 1, arrived := [(0, 0)], engc := 0,
                                                                             engArr := 0, task := 7 } })
    (s.canRun [1, 2] [3] = true ∧ (∃ leaf u, resolve (s.me.g.get 1) .write s = .ok (.mem 0x20000040 leaf, u) ∧
      bit leaf 4 = false) ∧ (∃ leaf u, resolve (s.me.g.get 2) .write s = .ok (.mem (spadLoc 0 0x40) leaf, u) ∧ bit leaf 4 = false) ∧
      bits (s.me.g.get 2) 53 48 ≠ 50 ∧ s.undisturbed (spadLoc 0 0x40) 8 ∧ s.ordOf s.curCore s.curCtx = none) ∧
    u.unitHolds 0x20000040 = true ∧ s.outOf s.curCore s.curCtx = [] ∧ (o.outOf o.curCore o.curCtx).any (fun x => x.store) = true ∧
    (s.curCtx < 4 ∧ s.taskOf s.curCore s.curCtx = some (7, task7) ∧ task7.gang = true ∧ s.spec = false) ∧
    (((b.clusterAt 0).huddle.get 0).gen - BitVec.ofNat 32 (b.me.g.get 3).toNat).toNat = 1 ∧ full.barrierFull (.huddle 0 0) = true ∧
    (arrive s).barrierFull (.huddle 0 0) = false ∧ (arrive one).barrierFull (.huddle 0 0) = true :=
  ⟨⟨by decide, ⟨_, _, rfl, by decide⟩, ⟨_, _, rfl, by decide⟩, by decide, by unfold State.undisturbed State.noneLive; decide, rfl⟩, by decide, rfl, by decide,
    by decide, by decide, by decide, by decide, by decide⟩

theorem test_meets_VectorArithmetic : (stateOf []).vecRun [vkey 1, vkey 2, vkey 3, 4] [vkey 31, vkey 0, 5] = true := by decide

/-- A context without a window, with one to take and with none. -/
theorem test_meets_VectorMovesAndMasks :
    let s := (stateOf [(1, 5)]).modMe (fun c => { c with vwin := 0 })
    let f := s.modCore 0 (fun c => { c with win := Tab.const { Window.clear with used := true } })
    s.me.vwin = 0 ∧ (∃ w, w < 4 ∧ ((s.coreAt s.curCore).win.get w).used = false) ∧ s.canRun [1] [] = true ∧ (s.winAt 1).used = false ∧ (∀ j, j < 1 → (s.winAt j).used = true) ∧
    f.me.vwin = 0 ∧ f.canRun [1] [] = true ∧ ∀ j, j < 4 → (f.winAt j).used = true := by decide

theorem test_meets_calm : (stateOf []).calm ∧ (stateOf []).vecRun [1, vkey 2, vkey 3] [vkey 4] = true := by
  unfold State.calm State.noneLive; decide

/-- Blocks at the first and the last place of the scratchpad, and a gather whose lanes lie in it. -/
theorem test_meets_VectorMemory :
    let s := stateOf [(1, 0x30000000000000), (2, 0x3000000003FFC0), (3, 8)]
    (spadPtr (s.addrOf (at1 1)) 0 ∧ spadPtr (s.addrOf (at1 2)) 0x3FFC0 ∧
      spadPtr (s.me.g.get 1 + (BitVec.ofNat 16 0).signExtend 64) 0) ∧
    ∀ k : Nat, k < 16 → (0 : Int) ≤ 0 + 4 * ((k : Int) * (s.me.g.get 3).toInt) ∧ 0 + 4 * ((k : Int) * (s.me.g.get 3).toInt) + 4 ≤ 2 ^ 18 :=
  ⟨by unfold spadPtr; decide, by decide⟩

/-- A table side, a side that is none, table contents, and a legal and an illegal descriptor. -/
theorem test_meets_ConversionsAndTables :
    let s := stateOf [(1, 0x30000000000400), (2, 0x4401), (3, 0x10000)]
    let c := s.coreAt s.curCore
    (∃ x y z, c.elem 1 = some (.desc x) ∧ c.elem 8 = some (.desc y) ∧ c.elem 2 = some (.desc z) ∧ c.building = [] ∧ x.kind ≠ 0 ∧
      y.kind = 0 ∧ z.kind ≠ 0 ∧ x.width = 32 ∧ y.width = 8) ∧ s.vecRun [vkey 1] [vkey 2] = true ∧
    (s.canRun (memSrcs (at1 1)) [] = true ∧ s.spec = false ∧ s.calm ∧ spadPtr (s.addrOf (at1 1)) 0x400 ∧ c.jobs = []) ∧
    (s.canRun [1] [2] = true ∧ 0 ∉ c.building) ∧ descLegal (s.me.g.get 2).toNat = true ∧ descLegal (s.me.g.get 3).toNat = false := by
  refine ⟨⟨_, _, _, rfl, rfl, rfl, rfl, by decide⟩, by decide, ⟨by decide, rfl, ?_, by unfold spadPtr; decide, rfl⟩, by decide,
    by decide, by decide⟩
  unfold State.calm State.noneLive; decide

/-- `n` bytes that are zero but for the fields `(offset, length, value)`. -/
def blockOf (n : Nat) (fs : List (Nat × Nat × Nat)) : List Byte :=
  fs.foldl (fun b f => b.take f.1 ++ bytesOf f.2.2 f.2.1 ++ b.drop (f.1 + f.2.1)) (List.replicate n 0)

/-- The state with register 1 naming a block at offset 0x400 of core 0's scratchpad. -/
def blockState (g : List (Nat × Word)) (bs : List Byte) : State :=
  (stateOf ((1, 0x30000000000400) :: g)).putBytes (spadLoc 0 0x400) bs

/-- A job of core 0, context 0, task 7, and the state in which it runs. -/
def job1 : Job :=
  { id := 0, ctx := 0, serial := 7, engine := 1, state := 2, pfail := 0, code := 0, pos := 0, cpl := 8, hpc := 0x100000, tag := 0,
    buf := none, huddles := [], later := 0, sreg := 0, fmts := [], arr := none, after := [], wrote := [], task := 7 }

def withJob (s : State) (j : Job) : State := s.modCore 0 (fun c => { c with jobs := [j] })

/-- A buffer of task 7 with four slots of 64 bytes at 0x8000, and the state in which q register 2 names it as buffer 5. -/
def buf1 (prod cons pidx cidx fidx : Nat) : CircBuf :=
  { desc := blockOf 32 [(0, 8, 0x30000000008000), (8, 4, 64), (12, 1, 2), (13, 1, 5), (14, 1, prod + 16 * cons), (15, 1, 1)], owner := 7,
    core := 0, pidx := BitVec.ofNat 32 pidx, cidx := BitVec.ofNat 32 cidx, fidx := BitVec.ofNat 32 fidx }

def withBuf (s : State) (b : CircBuf) : State :=
  (s.modCluster 0 (fun c => { c with bufs := [(5, b)] })).modMe (fun c => { c with q := [(2, mkHandle 5 7)] })

/-- A pattern stream over `n` words of the scratchpad from 0x800. -/
def stream1 (n moved : Nat) : Stream :=
  { write := false, vec := false, src := .pattern (BitVec.ofNat 64 (3 * 2 ^ 52 + 0x800)) n 1 1 0 0, moved := moved, ended := false,
    ahead := [] }

/-- A binding within its limits, one with each limit exceeded, one at a misaligned base, one over an older pattern; reads in and past the
pattern; a buffer of either role; a port free and none; a pattern and a buffer to release; a unit to fetch ahead. -/
theorem test_meets_Streams :
    let s (b : Word) (c : List (Nat × Nat × Nat)) := (stateOf [(1, b), (2, 0x30000000000400), (4, 0x10000010000040)]).putBytes
      (spadLoc 0 0x400) (blockOf 32 c)
    let t := s 0x30000000000800 [(0, 4, 2), (4, 4, 1), (8, 4, 1)]
    let f (x : State) (k n : Nat) : Nat := natOfBytes (x.bytesAt (spadLoc x.curCore (0x400 + k)) n)
    let r := t.modMe (fun c => { c with streams := [(12, stream1 2 1)] })
    let q := t.modMe (fun c => { c with streams := [(12, stream1 2 2)] })
    let h := t.modMe (fun c => { c with streams := [(12, { stream1 2 2 with src := .buffer (mkHandle 5 7) 0 })] })
    let b := withBuf t (buf1 4 3 0 0 0)
    let p := t.modCore 0 (fun c => { c with ports := 8 })
    (t.canRun [1, 2] [] = true ∧ t.logInUse t.curPart = false ∧ spadPtr (t.me.g.get 2) 0x400 ∧ t.me.pend.getLsbD 12 = false ∧
      t.streamOf 12 = none ∧ f t 0 4 = 2 ∧ f t 4 4 = 1 ∧ f t 8 4 = 1 ∧ f t 12 4 = 0 ∧ f t 16 8 % 8 = 0 ∧ f t 24 8 % 8 = 0 ∧
      (t.me.g.get 1).toNat % 8 = 0) ∧ t.calm ∧
    (2 ^ 24 < f (s 0x800 [(0, 4, 2 ^ 24 + 1)]) 0 4 ∧ f (s 0x800 [(0, 4, 2 ^ 24), (4, 4, 65536)]) 0 4 = 2 ^ 24 ∧
      65535 < f (s 0x800 [(4, 4, 65536)]) 4 4 ∧ ((s 0x801 []).me.g.get 1).toNat % 8 ≠ 0) ∧
    ((∀ x, r.streamOf 12 = some x → ∃ base c0 c1 c2 s1 s2, x.src = .pattern base c0 c1 c2 s1 s2) ∧
      r.canRun [] [3] = true ∧ r.me.pend = 0 ∧ r.me.poison = [] ∧ r.streamOf 12 = some (stream1 (1 + 1) 1) ∧
      q.streamOf 12 = some (stream1 2 2)) ∧ r.calm ∧
    (b.canRun [] [3] = true ∧ b.spec = false ∧ b.handleAt 0 0 2 = some (mkHandle 5 7, buf1 4 3 0 0 0) ∧ b.streamOf 12 = none ∧
      (buf1 4 3 0 0 0).prod = 4 ∧ (buf1 4 3 0 0 0).cons = 3 ∧ (buf1 0 0 0 0 0).prod ≠ 4) ∧
    (bits (t.me.g.get 4) 53 52 = 1 ∧ bits (t.me.g.get 4) 51 40 = t.dev ∧ t.dev < t.devices ∧ bits (t.me.g.get 4) 39 28 = 1 ∧
      1 ≠ t.curCore ∧ bits (t.me.g.get 4) 27 0 < 2 ^ 18 ∧ t.partOfCore 1 = some t.curPart ∧
      (t.outOf t.curCore t.curCtx).any (fun o => o.acq) = false ∧ (t.coreAt t.curCore).ports < 8 ∧ 8 ≤ (p.coreAt p.curCore).ports) ∧
    (q.canRun [] [3] = true ∧ assocSorted q.me.streams = true ∧ 2 * 1 * 1 ≤ (stream1 2 2).moved ∧
      (h.streamOf 12).map (fun x => x.src) = some (.buffer (mkHandle 5 7) 0)) ∧
    ((r.asCtx 0 0).calm ∧ assocGet ((t.modMe (fun c => { c with streams := [(12, stream1 2 0)] })).ctxAt 0 0).streams 12 =
      some (stream1 (1 + 1) 0)) := by
  refine ⟨?_, ?_, by decide, ⟨fun x h => ?_, by decide⟩, ?_, by decide, by decide, by decide, ?_, by decide⟩
  · unfold spadPtr; decide
  · unfold State.calm State.noneLive; decide
  · cases h; exact ⟨_, _, _, _, _, _, rfl⟩
  · unfold State.calm State.noneLive; decide
  · unfold State.calm State.noneLive; decide

theorem test_meets_EngineEvents :
    let s := withJob (stateOf []) job1
    let b := withBuf (withJob (stateOf []) { job1 with buf := some (mkHandle 5 7) }) (buf1 3 0 3 0 0)
    let full := withBuf (withJob (stateOf []) { job1 with buf := some (mkHandle 5 7) }) (buf1 3 0 4 0 0)
    let u := s.modMe (fun c => { c with waitIntr := [⟨0, 0x100000⟩], uie := true })
    ((s.ctxAt 0 0).serial = 7 ∧ (s.ctxAt 0 0).phase = .running ∧ (s.ctxAt 0 0).heldTrap = none) ∧
    (s.jobOf 0 = some job1 ∧ job1.state < 4 ∧ job1.later < 32 ∧ job1.huddles = [] ∧ job1.arr = none ∧ job1.buf = none) ∧
    (b.bufOf (clusterOf (jobCore 0)) (mkHandle 5 7) = some (buf1 3 0 3 0 0) ∧ (buf1 3 0 3 0 0).room = true) ∧
    (full.bufOf (clusterOf (jobCore 0)) (mkHandle 5 7) = some (buf1 3 0 4 0 0) ∧ (buf1 3 0 4 0 0).room = false) ∧
    ((u.ctxAt 0 0).waitIntr = [⟨0, 0x100000⟩] ∧ (u.ctxAt 0 0).uie = true ∧ (u.ctxAt 0 0).intv = false) ∧
    (s.modMe (fun c => { c with uiSaved := some 0x100000 })).me.uiSaved = some 0x100000 ∧ s.me.uiSaved = none := by decide

/-- An INT8 product of two scratchpad operands: 32 rows, 32 columns, K = 64. -/
def mmaBlock : List Byte :=
  blockOf 64 [(0, 8, 0x1030000000001000), (8, 8, 0x1030000000002000), (16, 2, 32), (18, 2, 32), (20, 2, 64), (24, 4, 64), (28, 4, 64)]

/-- The same with a device register as B. -/
def mmaRegBlock : List Byte :=
  blockOf 64 [(0, 8, 0x1030000000001000), (8, 8, 0x1032000000002000), (16, 2, 32), (18, 2, 32), (20, 2, 64), (24, 4, 64), (28, 4, 64)]

/-- The gang of two threads that MMAG needs, with that block. -/
def gangState : State :=
  { blockState [(2, 3)] mmaBlock with tasks := [(7, { task7 with width := 2, threads := [(0, 0), (1, 0)] })] }

theorem test_meets_MatrixInstructions :
    let s := blockState [(2, 3), (3, 128)] mmaBlock
    let b := withBuf s (buf1 1 0 0 0 0)
    let j := withJob s { job1 with engine := 0 }
    let r := blockState [] mmaRegBlock
    (s.canRun [1] [] = true ∧ s.spec = false ∧ mM mmaBlock ≤ 64 ∧ mN mmaBlock ≤ 384 ∧ s.block 0x400 64 = mmaBlock ∧
      mFlags mmaBlock < 2 ∧ (wordAt mmaBlock 32).toNat < 2 ∧ fieldAt mmaBlock 56 8 = 0 ∧ bits (mAptr mmaBlock) 53 52 = 3 ∧
      bits (mAptr mmaBlock) 51 48 ≤ 1 ∧ bits (mAptr mmaBlock) 57 54 = 0 ∧ bits (mBptr mmaBlock) 57 54 = 0 ∧
      (s.mqueue 0).length < 8 ∧ (s.coreAt 0).jobs.length < 32) ∧
    (∃ d, (s.coreAt 0).elem (bits (mAptr mmaBlock) 63 58) = some (.desc d) ∧
      (s.coreAt 0).elem (bits (mBptr mmaBlock) 63 58) = some (.desc d) ∧ classOf (.desc d) false = some 1 ∧ pairClass 1 1 = some 1 ∧
      mAstr mmaBlock * 8 % d.width = 0) ∧
    (∃ off, s.blockAt (s.me.g.get 1) 64 64 off ∧ gangState.blockAt (gangState.me.g.get 1) 64 64 off) ∧
    (∃ k c fmts cb, gangState.taskOf 0 0 = some (7, k) ∧ k.gang = true ∧ [(0, 0), (1, 0)].length = 2 ∧
      (List.range 8).filter (fun n => (gangState.me.g.get 2).getLsbD n) = [0, 1] ∧
      [0, 1].filterMap (gangThread k 0) = [(0, 0), (1, 0)] ∧
      buildOp (gangState.block 0x400 64) [(0, 0), (1, 0)] true gangState = .ok ((c, fmts, cb), gangState)) ∧
    ((s.coreAt 0).building = [] ∧ s.uline = [] ∧ b.canRun [3] [] = true ∧ bit (wordAt mmaBlock 32) 2 = false) ∧
    (∃ ls u, issueLines (some (mkHandle 5 7)) (fmtPtr (buf1 1 0 0 0 0).fmtc) (drainRows 128 32 32 (List.range 2)) b = .ok (ls, u)) ∧
    (b.handleAt 0 0 2 = some (mkHandle 5 7, buf1 1 0 0 0 0) ∧ (buf1 1 0 0 0 0).prod = 1 ∧
      ((b.clusterAt 0).mx.issued.get 0).1 * 3 ≤ (buf1 1 0 0 0 0).slotb ∧ ((b.coreAt 0).elem ((buf1 1 0 0 0 0).fmtc % 64)).isSome = true) ∧
    ((s.me.g.get 3).toNat ≤ 4096 ∧ s.canRun [1, 3] [] = true) ∧
    (s.privS = true ∧ bits (s.me.g.get 0) 39 32 = 0 ∧ s.partOfCluster 0 = s.partOfCore s.curCore) ∧
    ((s.asCtx 1 0).privS = false ∧ j.jobHere 0 = some { job1 with engine := 0 } ∧ s.jobHere 0 = none) ∧
    (r.canRun [1] [] = true ∧ r.block 0x400 64 = mmaRegBlock ∧ mAptr mmaRegBlock = mAptr mmaBlock ∧ bits (mBptr mmaRegBlock) 53 52 = 3 ∧
      bits (mBptr mmaRegBlock) 51 48 = 2 ∧ bits (mBptr mmaBlock) 51 48 = 0 ∧
      (r.coreAt 0).elem (bits (mBptr mmaRegBlock) 63 58) = (s.coreAt 0).elem (bits (mBptr mmaBlock) 63 58)) := by
  refine ⟨by decide, ⟨_, rfl, rfl, by decide⟩, ⟨0x400, ?_, ?_⟩, ⟨_, _, _, _, rfl, rfl, rfl, by decide, by decide, rfl⟩, by decide,
    ⟨_, _, rfl⟩, by decide, by decide, by decide, by decide, by decide⟩ <;> unfold State.blockAt spadPtr State.calm State.noneLive <;> decide

/-- A started INT8 operation of core 0 at its first K-step, a clearing, and a drain to 0x1000. -/
def cmd1 (kind : MatKind) : MatCmd :=
  { job := 0, core := 0, kind := kind, block := mmaBlock, parts := [⟨0, 0, 7, none, 0, 0, 0, 0⟩], bbuf := none, bslot := 0, binvalid := 0,
    gather := none, skip := none, cls := 1, dest := 0x30000000001000, stride := 128, started := true, stopped := false, step := 0,
    blk := 1, row := 0, avals := [(0, [(0, [1, 2])])], bvals := [[3], [4]] }

/-- Nothing interferes with scratchpads in a state whose lists are empty. -/
theorem still_of {s : State} (a : s.owned = []) (b : s.uline = []) (c : s.badLines = []) (m : s.meets = []) (d : s.fab.out = [])
    (e : s.far = []) (f : ∀ cl, (s.clusterAt cl).ord = []) : s.still := ⟨a, b, c, m, d, e, f⟩

theorem test_meets_MatrixUnitWorks :
    let m (k : MatKind) := (stateOf []).modMq 0 (fun _ => [cmd1 k])
    let d := (m .drain).modMx 0 (fun x => { x with shape := x.shape.set 0 { m := 2, n := 32, valid := 3, int := true } })
    let j := withJob (stateOf []) { job1 with state := 3 }
    ((m .op).idleHead 0 = none ∧ (m .op).nextCore 0 = some 0 ∧ (m .op).mqueue 0 = [cmd1 .op] ∧ 0 < mSteps mmaBlock) ∧
    ((m .zero).idleHead 0 = some (cmd1 .zero) ∧ clusterOf (cmd1 .zero).core = 0 ∧ ((m .zero).clusterAt 0).mx.acc.dflt = 0) ∧
    d.still ∧ (Memory.wf d.mem = true ∧ d.mqueue 0 = [cmd1 .drain] ∧ spadPtr (cmd1 .drain).dest 0x1000 ∧
      ((d.clusterAt (clusterOf 0)).mx.shape.get 0).m = 2 ∧ ((d.clusterAt (clusterOf 0)).mx.shape.get 0).valid / 2 ^ 1 % 2 = 1 ∧
      (0x1000 + 1 * (cmd1 .drain).stride) % 4 = 0) ∧
    (j.jobOf 0 = some { job1 with state := 3 } ∧ (stateOf []).jobOf 0 = none) :=
  ⟨by decide, by decide, still_of rfl rfl rfl rfl rfl rfl (fun cl => by cases cl <;> rfl), by unfold spadPtr; decide, by decide⟩

/-- A descriptor to define, one identical and one other buffer of its number, and a buffer with and without room and a slot. -/
theorem test_meets_CircularBuffers :
    let d := (buf1 0 0 0 0 0).desc
    let s := blockState [] d
    (s.canRun [1] [3] = true ∧ s.block 0x400 32 = d ∧ fieldAt d 12 1 ≤ 3 ∧ fieldAt d 13 1 < 64 ∧ fieldAt d 16 16 = 0 ∧
      spadPtr (buf1 0 0 0 0 0).base 0x8000 ∧ 0x8000 + 2 ^ (buf1 0 0 0 0 0).logn * ((buf1 0 0 0 0 0).slotb + 64) ≤ 2 ^ 18 ∧
      (buf1 0 0 0 0 0).fmtc < 64 ∧ ((s.coreAt 0).elem (buf1 0 0 0 0 0).fmtc).isSome = true) ∧ s.blockAt (s.me.g.get 1) 32 32 0x400 ∧
    (assocGet (s.clusterAt 0).bufs 5 = none ∧ (buf1 1 0 0 0 0).desc ≠ d ∧
      assocGet ((withBuf s (buf1 1 0 0 0 0)).clusterAt 0).bufs 5 = some (buf1 1 0 0 0 0)) ∧
    ((withBuf s (buf1 0 0 0 0 0)).handleAt 0 0 2 = some (mkHandle 5 7, buf1 0 0 0 0 0) ∧ s.handleAt 0 0 2 = none ∧ s.spec = false ∧
      s.outOf 0 0 = []) ∧
    ((buf1 0 0 0 0 0).prod = 0 ∧ (buf1 0 0 0 0 0).cons = 0 ∧ (buf1 0 0 3 0 0).room = true ∧ (buf1 0 0 4 0 0).room = false ∧
      (buf1 0 0 1 0 0).ready = true ∧ (buf1 0 0 1 1 0).ready = false) := by
  refine ⟨by unfold spadPtr; decide, ?_, by decide, by decide, by decide⟩
  unfold State.blockAt spadPtr State.calm State.noneLive; decide

/-- A copy of two rows of 32 bytes, from 0x1000 to 0x2000. -/
def copyBlock : List Byte :=
  blockOf 64 [(0, 8, 0x30000000001000), (8, 8, 0x30000000002000), (16, 4, 32), (20, 4, 2), (24, 4, 1), (32, 4, 32), (40, 4, 32)]

def copyCmd (row : Nat) : CopyCmd := { job := 0, block := copyBlock, toBuf := none, row := row, stopped := false, reserved := false }

/-- A gather of rows 1 and, not strictly, 0xFFFF of a list of two rows of 64 bytes. -/
def gathBlock : List Byte :=
  blockOf 36 [(0, 8, 0x30000000001000), (8, 4, 64), (12, 4, 2), (16, 2, 2), (32, 2, 1), (34, 2, 0xFFFF)]

/-- A gather of one row of 64 bytes into a slot of the buffer that q register 2 names. -/
def gathBlock2 : List Byte :=
  blockOf 34 [(0, 8, 0x30000000001000), (8, 4, 64), (12, 4, 2), (16, 2, 1), (18, 1, 5), (20, 4, 64), (32, 2, 1)]

def gathCmd (row : Nat) : GathCmd :=
  { job := 0, list := { src := 0x30000000001000, stride := 64, rows := 2, idx := [1, 0xFFFF], strict := true }, rowb := 32,
    buf := mkHandle 5 7, row := row, stopped := false }

def arrival1 : Arrival := { core := 1, addr := 0, len := 64, tag := 0, extra := 0, src := 0, hpc := 0x100000, bytes := [] }

theorem test_meets_copies :
    let c (r : Nat) := withJob ((stateOf []).modCluster 0 (fun c => { c with copyq := c.copyq.set 0 [copyCmd r] })) job1
    let g (r : Nat) := withBuf (withJob ((stateOf []).modCluster 0 (fun c => { c with gathq := c.gathq.set 0 [gathCmd r] })) job1)
      (buf1 3 0 0 0 0)
    let a := withJob ((stateOf []).modCluster 0 (fun c => { c with copyq := c.copyq.set 0 [copyCmd 0] }))
      { job1 with arr := some (0, arrival1) }
    (c 1).still ∧ (g 1).still ∧ Memory.wf (c 1).mem = true ∧
    ((c 1).copyQueue 0 = [copyCmd 1] ∧ ((c 1).jobOf (copyCmd 1).job).bind (fun j => j.arr) = none ∧ xRows copyBlock = 2 ∧
      spadPtr (xFrom copyBlock) 0x1000 ∧ spadPtr (xTo copyBlock) 0x2000 ∧
      (0x1020 : Int) = (0x1000 : Nat) + ((1 / xC1 copyBlock : Nat) : Int) * xFs2 copyBlock +
        ((1 % xC1 copyBlock : Nat) : Int) * xFs1 copyBlock) ∧ xRows copyBlock ≤ (copyCmd 2).row ∧
    ((g 1).gatherQueue 0 = [gathCmd 1] ∧ jobCore (gathCmd 1).job = 0 ∧ (g 1).bufOf 0 (gathCmd 1).buf = some (buf1 3 0 0 0 0) ∧
      (buf1 3 0 0 0 0).room = true ∧ spadPtr (buf1 3 0 0 0 0).base 0x8000 ∧ spadPtr (gathCmd 1).list.src 0x1000) ∧
    ((a.jobOf 0).bind (fun j => j.arr) = some (a.dev, arrival1) ∧ (a.coreAt 1).arrq.length < 8) :=
  ⟨still_of rfl rfl rfl rfl rfl rfl (fun cl => by cases cl <;> rfl), still_of rfl rfl rfl rfl rfl rfl (fun cl => by cases cl <;> rfl),
    by decide, by unfold spadPtr; decide, by decide, by unfold spadPtr; decide, by decide⟩

theorem test_meets_jobs :
    let s := blockState [] copyBlock
    let g := blockState [] gathBlock
    let x := withJob ((stateOf []).modCluster 0 (fun c => { c with copyq := c.copyq.set 0 [copyCmd 0] })) job1
    let y (st : Nat) := withJob (stateOf []) { job1 with state := st }
    s.blockAt (s.me.g.get 1) 64 64 0x400 ∧ g.blockAt (g.me.g.get 1) 64 (32 + 2 * 2) 0x400 ∧
    (s.block 0x400 64 = copyBlock ∧ s.canRun [1] [3] = true ∧ xC1 copyBlock ≤ 65535 ∧ xFlags copyBlock < 512 ∧
      xToq copyBlock = false ∧ (wordAt copyBlock 48).toNat < 2 ∧ (s.copyQueue 0).length < 8 ∧ (s.coreAt 0).jobs.length < 32) ∧
    (∀ r : Nat, r < xRows copyBlock → (0 : Int) ≤ 0x2000 + ((r / xC1 copyBlock : Nat) : Int) * xTs2 copyBlock +
        ((r % xC1 copyBlock : Nat) : Int) * xTs1 copyBlock ∧ 0x2000 + ((r / xC1 copyBlock : Nat) : Int) * xTs2 copyBlock +
        ((r % xC1 copyBlock : Nat) : Int) * xTs1 copyBlock + xC0 copyBlock ≤ 2 ^ 18) ∧
    (fieldAt gathBlock 16 2 = 2 ∧ fieldAt gathBlock 18 1 = 0 ∧ fieldAt gathBlock 20 4 = 0 ∧ fieldAt gathBlock 24 8 = 0) ∧
    (x.jobHere 0 = some job1 ∧ job1.engine = 1 ∧ x.copyQueue (jobCore 0) = [copyCmd 0] ∧ (y 3).jobHere 0 = some { job1 with state := 3 } ∧
      (y 4).jobHere 0 = some { job1 with state := 4 } ∧ s.jobHere 0 = none) ∧
    (∃ ls u, issueLines (some (mkHandle 5 7)) 0 (gatherRows 32 2 0) (withBuf g (buf1 3 0 0 0 0)) = .ok (ls, u)) ∧
    (fieldAt gathBlock2 18 1 % 2 = 1 ∧ fieldAt gathBlock2 20 4 = 64 ∧ fieldAt gathBlock2 18 1 / 2 % 16 = 2 ∧ (buf1 3 0 0 0 0).prod = 3 ∧
      1 * 64 ≤ (buf1 3 0 0 0 0).slotb ∧ (s.coreAt s.curCore).building = []) := by
  refine ⟨?_, ?_, by decide, by decide, by decide, by decide, ⟨_, _, rfl⟩, by decide⟩ <;> unfold State.blockAt spadPtr State.calm State.noneLive <;> decide

/-- A mailbox slot of dimension 2 that is valid, sequence 5. -/
def slot1 : List Byte := blockOf 128 [(0, 4, 5), (12, 4, 2 ^ 24 + 2 ^ 25)]

theorem test_meets_GaussianMessages :
    let s := blockState [(2, 6), (3, 0), (4, 5), (5, 0x40000000), (6, 0x3F000000), (7, 0x100020), (9, 0x100000)] slot1
    let full := s.modCore 0 (fun c => { c with residq := List.replicate 64 ⟨3, 0x3F800000#32, 0, 0, 0, 0⟩ })
    (s.vecRun [1, vkey 1, vkey 2] [2, 3] = true ∧ s.vecRun [1, 2, 3, vkey 1, vkey 2] [8] = true ∧ s.block 0x400 128 = slot1) ∧
    s.blockAt (s.me.g.get 1) 128 128 0x400 ∧
    (fieldAt slot1 12 4 / 2 ^ 24 % 2 = 1 ∧ (BitVec.ofNat 32 (s.me.g.get 2).toNat - BitVec.ofNat 32 (fieldAt slot1 0 4)).toNat = 1 ∧
      (BitVec.ofNat 32 (s.me.g.get 4).toNat - BitVec.ofNat 32 (fieldAt slot1 0 4)).toNat = 0) ∧
    ((f32 0).le (f32 ((s.me.g.get 6).setWidth 32)) = true ∧ (f32 ((s.me.g.get 6).setWidth 32)).le (f32 0x3F800000#32) = true ∧
      (f32 ((s.me.g.get 5).setWidth 32)).le (f32 0x3F800000#32) = false) ∧
    (s.vecRun [vkey 1, vkey 2, vkey 3, vkey 4, vkey 5, vkey 6, vkey 7] [8] = true ∧
      (f32 (fmul ((s.coreAt 0).gcfg.setWidth 32) (fmax 0 (fabs 0x3F800000#32)))).lt (f32 0x3F800000#32) = true) ∧
    (s.canRun [1, 6, 9, 4] [8] = true ∧ s.spec = false ∧ bit (s.me.g.get 9) 5 = false ∧ bits (s.me.g.get 9) 63 52 = 0 ∧
      bit (s.me.g.get 7) 5 = true ∧ (f32 ((s.me.g.get 6).setWidth 32)).le (f32 ((s.coreAt 0).gcfg.extractLsb' 32 32)) = false ∧
      (f32 ((s.me.g.get 3).setWidth 32)).le (f32 ((s.coreAt 0).gcfg.extractLsb' 32 32)) = true) ∧
    ((s.coreAt 0).residq.length < 64 ∧ 64 ≤ (full.coreAt 0).residq.length) := by
  refine ⟨by decide, ?_, by decide, by decide, by decide, by decide, by decide⟩
  unfold State.blockAt spadPtr State.calm State.noneLive; decide

/-- Commands of an array: a product of two inputs, one of none, a programming of two rows, a calibration. -/
def xcmd (op count : Nat) (started : Bool) : XbarCmd :=
  { op := op, dest := ⟨0, 0, 4, 7⟩, ptr := 0x30000000001000, sreg := 0, r0 := 0, count := count, xs := [0, 0], row := 0, bad := 0,
    started := started, id := 6, stamp := 0, start := 0 }

def xbarState (c : XbarCmd) (on cal : Bool) : State :=
  let s := (stateOf [(1, 0x30000000001000), (2, 2), (3, 511)]).modArray 0 3 (fun a => { a with queue := [c], calok := cal })
  if on then { s with island := s.island.set 5 (Island.reset 1) } else s

/-- Commands that enter a queue; reads with an earlier product, without one, and with one that has completed; heads whose array leaves, is
gated, is empty, reads a damaged line, or starts; products and calibrations that end either way; a row to program. -/
theorem test_meets_CrossbarArrays :
    let s := xbarState (xcmd 0 2 false) true true
    let started (op : Nat) := xbarState (xcmd op 2 true) true true
    let bad : State := { s with badLines := [spadLoc 0 0x1000 / 64] }
    let gone := (xbarState (xcmd 0 2 false) false true).modArray 0 3 (fun a => { a with leaving := true })
    let read (d : Bool) := s.modMe (fun c => { c with xread := some { key := 32 * 3 + 4, wait := [], got := some (0, 0, d) } })
    (s.outOf 0 0 = [] ∧ s.ordOf 0 0 = none ∧ (s.arrayAt 0 3).queue.length < 4 ∧ (s.coreAt 0).slots < 64 ∧ s.canRun [1, 2, 3] [4] = true ∧
      (s.me.g.get 0).toNat + (s.me.g.get 2).toNat ≤ 512 ∧ spadPtr (s.me.g.get 1) 0x1000 ∧ (s.me.g.get 1).toNat % 64 = 0 ∧
      0 < (s.me.g.get 2).toNat ∧ 512 < (s.me.g.get 3).toNat + (s.me.g.get 2).toNat) ∧
    (s.me.vwin ≠ 0 ∧ s.me.xread = none ∧
      ((s.arrayAt 0 3).queue.filter (fun c => c.op == 0 && c.dest.core == s.curCore)).map (fun c => c.id) = [6] ∧
      (s.arrayAt 0 2).queue = [] ∧ (s.arrayAt 0 2).bankDrift.get 0 = false ∧
      ((s.modArray 0 2 (fun a => { a with bankDrift := Tab.const true })).arrayAt 0 2).bankDrift.get 0 = true ∧
      (∀ d, (read d).me.xread = some { key := 32 * 3 + 4, wait := [], got := some (0, 0, d) })) ∧
    ((s.arrayAt 0 3).next = some (xcmd 0 2 false) ∧ (s.arrayAt 0 3).leaving = false ∧ s.analogOff 0 = false ∧
      s.badRange (spadLoc 0 0x1000) 2 = false ∧ s.inLog (spadLoc 0 0x1000) 2 = false ∧ bad.badRange (spadLoc 0 0x1000) 2 = true ∧
      (xbarState (xcmd 0 2 false) false true).analogOff 0 = true ∧
      ((xbarState (xcmd 0 0 false) true true).arrayAt 0 3).next = some (xcmd 0 0 false) ∧
      (gone.arrayAt 0 3).next = some (xcmd 0 2 false) ∧ (gone.arrayAt 0 3).leaving = true ∧ (gone.arrayAt 0 3).queue = [xcmd 0 2 false] ∧
      gone.analogOff 0 = true) ∧
    (((started 0).arrayAt 0 3).queue.find? (fun c => c.started) = some (xcmd 0 2 true) ∧
      ((started 0).arrayAt 0 3).drifted (xcmd 0 2 true) (List.replicate 512 0) 0 0 = false ∧
      ((started 0).arrayAt 0 3).drifted (xcmd 0 2 true) [16] 0 0 = true) ∧
    (((started 2).arrayAt 0 3).queue.find? (fun c => c.started) = some (xcmd 2 2 true)) ∧ (started 1).still ∧
    (((started 1).arrayAt 0 3).queue = [xcmd 1 2 true] ∧ ((started 1).arrayAt 0 3).leaving = false ∧ (started 1).analogOff 0 = false ∧
      0x1000 + 256 * (0 + 1) ≤ 2 ^ 18) :=
  ⟨by unfold spadPtr; decide +kernel, by decide +kernel, by decide +kernel, by decide +kernel, by decide +kernel,
    still_of rfl rfl rfl rfl rfl rfl (fun cl => by cases cl <;> rfl), by decide⟩

/-- A bound within its limit, above it, and above it with ATRAP set. -/
theorem test_meets_BoundedArithmetic :
    let s := (stateOf [(1, 0x3F800000), (2, 0)]).modWin 0 (fun w => { w with bound := w.bound.set 3 0x3F000000#32 })
    s.me.vwin ≠ 0 ∧ s.vecRun [1, vkey 4] [5] = true ∧ s.vecRun [2, vkey 4] [5] = true ∧
    ((s.breg 3).2 != 0x7F800000#32 && (f32 (s.breg 3).2).le (f32 ((s.me.g.get 1).setWidth 32))) = true ∧
    ((s.breg 3).2 != 0x7F800000#32 && (f32 (s.breg 3).2).le (f32 ((s.me.g.get 2).setWidth 32))) = false ∧ s.me.atrap = false ∧
    (s.modMe (fun c => { c with atrap := true })).me.atrap = true := by decide

/-- A reduction of one unsigned maximum over devices 0 and 1, block and state, and the device's own half of it. -/
def nredB : List Byte :=
  blockOf 64 [(0, 8, 0x30000000001000), (8, 8, 0x30000000002000), (16, 2, 2), (18, 4, 9), (22, 1, 6), (24, 4, 1), (28, 4, 2)]

def red1 (index : Nat) : Reduction :=
  { group := 2, rid := 9, part := 0, job := 0x30000, core := 0, dst := 0x30000000002000, op := 6, n := 1, c := 2, index := index,
    parts := [0, 1], src := 0x30000000001000, partials := [], sent := false }

def redMsg1 : RedMsg := { group := 2, rid := 9, sender := 1, op := 6, n := 1, status := 0, elems := [5] }

/-- The word that the reduction has failed at device 1. -/
def lost1 : RedMsg := { redMsg1 with status := 11, elems := [] }

def netState (s : State) : State :=
  { s with fab := { s.fab with dim := 1 }, net := { s.net with groups := s.net.groups.set 2 { members := 3, part := some 0 } } }

/-- Groups of one, and the devices of a reduction of four. -/
theorem test_meets_reductions :
    let s := netState (blockState [(2, 0x30000)] nredB)
    let o := { netState (stateOf []) with net := { (netState (stateOf [])).net with open_ := [red1 0] } }
    let c : State := { netState (stateOf []) with net := { (netState (stateOf [])).net with
      open_ := [{ red1 1 with parts := [2, 0, 3, 1], c := 4, index := 1 }] } }
    let j (st : Nat) := withJob s { job1 with id := 0x30000, engine := 3, state := st }
    let f : State := { s with net := { s.net with failed := [{ lost1 with use := 1 }] } }
    s.blockAt (s.me.g.get 1) 64 64 0x400 ∧
    (s.canRun [1] [3] = true ∧ s.block 0x400 64 = nredB ∧ (s.coreAt 0).jobs.length < 32 ∧ fieldAt nredB 18 4 < 2 ^ 23 ∧
      s.nredStatus (nredBlock nredB) = 0 ∧ (blockState [] nredB).nredStatus (nredBlock nredB) ≠ 0 ∧ s.redHeard (nredBlock nredB) = none ∧
      f.nredStatus (nredBlock nredB) = 0 ∧ f.redHeard (nredBlock nredB) = some { lost1 with use := 1 } ∧
      spadPtr (nredBlock nredB).dst 0x2000) ∧
    ((j 4).jobHere 0x30000 = some { job1 with id := 0x30000, engine := 3, state := 4 } ∧ s.jobHere 0x30000 = none ∧
      (j 2).canRun [2] [3] = true) ∧
    (redMsg1.status ≠ 11 ∧ redMsg1.sender ≠ s.dev ∧ s.net.open_.find? (fun r => r.group == 2 && r.rid == 9) = none) ∧
    (o.net.open_.find? (fun r => r.group == 2 && r.rid == 9) = some (red1 0) ∧ redMsg1.elems.length = 1 ∧ lost1.status = 11 ∧
      o.redUse 2 9 lost1.sender = lost1.use) ∧ c.still ∧ o.still := by
  refine ⟨?_, by unfold spadPtr; decide +kernel, by decide +kernel, by decide +kernel, by decide +kernel,
    still_of rfl rfl rfl rfl rfl rfl (fun cl => by cases cl <;> rfl), still_of rfl rfl rfl rfl rfl rfl (fun cl => by cases cl <;> rfl)⟩
  unfold State.blockAt spadPtr State.calm State.noneLive; decide +kernel

/-- A multicast of 8 bytes to group 2, its job, and a copy that arrives. -/
def nmcastB : List Byte := blockOf 64 [(0, 8, 0x30000000001000), (8, 8, 0x30000000002000), (16, 2, 2), (20, 4, 8)]

def mcast1 : McastJob :=
  { job := 0x40000, core := 0, part := 0, group := 2, src := 0x30000000001000, dst := 0x30000000002000, len := 8, tcore := 0, tag := 0,
    ahpc := 0, maskp := 0, started := true, waiting := [1], failed := [] }

def mcopy1 : McastCopy :=
  { srcDev := 1, srcCore := 0, group := 2, part := 0, dst := 0x30000000002000, tcore := 0, tag := 0, ahpc := 0, job := 0x40000,
    bytes := [1, 2, 3, 4, 5, 6, 7, 8] }

def migr1 : Migration :=
  { srcDev := 0, srcCore := 0, srcCtx := 0, dstDev := 0, dstCore := 1, dstCtx := 0, part := 0, access := false, statusReg := 3,
    image := List.replicate 256 0 }

def mcState : State :=
  { stateOf [] with net := { (stateOf []).net with mcasts := [mcast1] } }

theorem test_meets_multicast_and_migration :
    let s := netState (blockState [] nmcastB)
    let busy := s.modCore 1 (fun c => { c with ctx := Tab.const { Ctx.idle with phase := .moving } })
    s.blockAt (s.me.g.get 1) 64 64 0x400 ∧
    (s.block 0x400 64 = nmcastB ∧ s.canRun [1] [3] = true ∧ fieldAt nmcastB 18 2 < 2 ^ 11 ∧ s.nmcastStatus nmcastB = 0 ∧
      (blockState [] nmcastB).nmcastStatus nmcastB ≠ 0 ∧ (∀ k ∈ [0, 8, 56], bits (wordAt nmcastB k) 57 54 ≠ 1 ∧
        bits (wordAt nmcastB k) 57 54 ≠ 2 ∧ ((s.coreAt s.curCore).elem (bits (wordAt nmcastB k) 63 58)).isSome = true)) ∧
    (mcState.net.mcasts.find? (fun x => x.job == 0x40000) = some mcast1 ∧ (1 : Nat) ≠ mcState.dev) ∧ (netState (stateOf [])).still ∧
    ((s.net.groups.get 2).part = some 0 ∧ bits mcopy1.dst 53 52 ≠ 0 ∧ s.swappedCore 0 = none ∧ s.partOfCore 0 = some 0 ∧
      bits mcopy1.dst 27 0 % 8 = 0) ∧
    (migr1.srcDev = s.dev ∧ s.freeTaskCtx 1 = [0, 1, 2, 3] ∧ s.partOfCore 1 = some 0 ∧ (s.part.get 0).state = 2 ∧ s.quiescing = [] ∧
      s.reservedCl 0 = false ∧ busy.freeTaskCtx 1 = []) ∧
    (((busy.modCtx 0 0 (fun c => { c with phase := .moving })).ctxAt 0 0).phase = .moving ∧ (busy.ctxAt 1 0).phase = .moving ∧
      imageClean migr1.image = true) := by
  refine ⟨?_, by decide +kernel, by decide +kernel, still_of rfl rfl rfl rfl rfl rfl (fun cl => by cases cl <;> rfl), by decide +kernel, by decide +kernel, by decide +kernel⟩
  unfold State.blockAt spadPtr State.calm State.noneLive; decide

/-- Unit 2 runs, with row 1 of a region open in bank 4, n0 = 5, and window 0 granted. -/
def nbState (pc : Nat) (writable : Bool) : State :=
  { stateOf [] with
    curUnit := 2
    unit := State.reset.unit.set 2 { NbUnit.reset with
      state := 2, pc := pc, regions := [0x200000], n := (Tab.const 0).set 0 5, bm := 0x10#16,
      rows := (Tab.const none).set 4 (some { base := 0x200000, row := 1, writable := writable }),
      win := [some { base := 0x200000, writable := writable }, none], dest := some ⟨0, 0, 3, 7⟩ } }

theorem test_meets_MicroInstructions :
    (∀ w, (nbState 7 w).unitRuns 2 ∧ (nbState 1023 w).unitRuns 2) ∧
    (let x := (nbState 7 true).unitAt 2
     x.dest = some ⟨0, 0, 3, 7⟩ ∧ x.fmode = false ∧ (nbState 7 true).badLines = [] ∧ x.pc ≠ 1023 ∧
      ((nbState 1023 true).unitAt 2).pc = 1023 ∧ x.win[0]? = some (some { base := 0x200000, writable := true }) ∧
      (x.n.get 1).toNat ≤ 3 ∧ 3 < (x.n.get 0).toNat ∧ x.rows.get 4 = some { base := 0x200000, row := 1, writable := true } ∧
      x.rows.get 5 = none ∧ x.bm = BitVec.twoPow 16 4 ∧ 31 < (x.n.get 0).toNat + 31 ∧
      (∀ b, b < 16 → x.bm.getLsbD b = true → x.rows.get b = some { base := 0x200000, row := 1, writable := true }) ∧
      ((nbState 7 false).unitAt 2).rows.get 4 = some { base := 0x200000, row := 1, writable := false } ∧
      Memory.wf (nbState 7 true).mem = true) := by
  unfold State.unitRuns; decide

/-- Request blocks: a command with no window and with one, an overlay of two words, and the three modes. -/
def nbcBlock (len : Nat) : List Byte := blockOf 64 [(0, 2, 7), (8, 4, 11), (24, 8, 0x200000), (32, 8, len)]
def nbovBlock : List Byte := blockOf 16 [(0, 2, 1022), (2, 2, 2), (8, 8, 0x30000000000800)]
def nbmodeBlock (op : Nat) : List Byte := blockOf 32 [(0, 1, op), (8, 8, 0x200000)]

theorem test_meets_NearBankRequests :
    let s (bs : List Byte) := blockState [(2, 2)] bs
    let u (n : NbUnit) : State := { stateOf [] with unit := State.reset.unit.set 2 n }
    let idle1 : NbUnit := { NbUnit.reset with state := 1, regions := [0x200000] }
    ((s []).canRun [2, 1] [3] = true ∧ ((s []).me.g.get 2).toNat = 2 ∧ ((s []).coreAt 0).slots < 64 ∧ (s []).outOf 0 0 = [] ∧
      (s []).spec = false) ∧
    (fieldAt (nbcBlock 0) 2 6 = 0 ∧ wordAt (nbcBlock 0) 48 = 0 ∧ fieldAt (nbcBlock 0) 56 8 = 0 ∧ wordAt (nbcBlock 0) 32 = 0 ∧
      wordAt (nbcBlock 64) 32 ≠ 0 ∧ (s (nbcBlock 64)).block 0x400 64 = nbcBlock 64 ∧ bits (wordAt (nbcBlock 64) 24) 53 52 = 0) ∧
    (∃ leaf v, resolve (wordAt (nbcBlock 64) 24) .read (s (nbcBlock 64)) = .ok (.mem 0x200000 leaf, v)) ∧
    (∃ w span v, nbWindow (wordAt (nbcBlock 64) 24) (wordAt (nbcBlock 64) 32) (s (nbcBlock 64)) = .ok ((w, span), v)) ∧
    ((s nbovBlock).block 0x400 16 = nbovBlock ∧ fieldAt nbovBlock 0 2 + fieldAt nbovBlock 2 2 ≤ 1024 ∧ fieldAt nbovBlock 4 4 = 0 ∧
      spadPtr (wordAt nbovBlock 8) 0x800) ∧
    (∀ op, op < 3 → fieldAt (nbmodeBlock op) 0 1 = op ∧ fieldAt (nbmodeBlock op) 1 1 = 0 ∧ fieldAt (nbmodeBlock op) 2 6 = 0 ∧
      fieldAt (nbmodeBlock op) 16 8 = 0 ∧ fieldAt (nbmodeBlock op) 24 8 = 0) ∧
    ((s (nbcBlock 0)).blockAt ((s (nbcBlock 0)).me.g.get 1) 64 64 0x400 ∧ (s nbovBlock).blockAt ((s nbovBlock).me.g.get 1) 16 16 0x400 ∧
      (s (nbmodeBlock 1)).blockAt ((s (nbmodeBlock 1)).me.g.get 1) 32 32 0x400) ∧
    ((stateOf []).uline = [] ∧ ((stateOf []).unitAt 2).state = 0 ∧ (stateOf []).nbClaimable 2 [0x200000] = true ∧
      (stateOf []).nbClaimable 2 [] = false) ∧
    (((u idle1).unitAt 2).state = 1 ∧ ((u idle1).unitAt 2).owner = 0 ∧ ((u idle1).unitAt 2).dest = none ∧
      ((u idle1).unitAt 2).normals = [] ∧ ((u idle1).unitAt 2).waiting = [] ∧ ((u { idle1 with state := 3 }).unitAt 2).state = 3 ∧
      ((u { idle1 with owner := 1 }).unitAt 2).owner ≠ 0) ∧
    (decodeMicroOp (((u { idle1 with state := 2, overlay := Tab.const 0xF8000000#32 }).unitAt 2).overlay.get 0) = none ∧
      decodeMicroOp (((u { idle1 with state := 2 }).unitAt 2).overlay.get 0) = some .halt) := by
  refine ⟨by decide, by decide, ⟨_, _, rfl⟩, ?_, by unfold spadPtr; decide, by decide, ?_, by decide, by decide, by decide⟩
  · obtain ⟨⟨⟨w, span⟩, v⟩, h⟩ : ∃ r, nbWindow (wordAt (nbcBlock 64) 24) (wordAt (nbcBlock 64) 32) (blockState [(2, 2)] (nbcBlock 64)) = .ok r :=
      ok_of (by decide +kernel)
    exact ⟨w, span, v, h⟩
  · unfold State.blockAt spadPtr State.calm State.noneLive; decide

/-- A flit from device 1 to device `dst` on channel 1, its sequence number and what it carries. -/
def flit1 (dst seq type : Nat) (body : FlitBody) : Flit :=
  { dst := dst, src := 1, age := 0, seq := BitVec.ofNat 32 seq, vc := 1, type := type, part := 0, grp := 0, len := 0, first := true,
    last := true, xid := 3, aux := 0, body := body }

def access1 (op : RemoteOp) : RemoteAccess :=
  { src := ⟨0, 0, 3, 7⟩, srcDev := 1, part := 0, ptr := 0x10000000000040, ty := 3, op := op }

/-- Device 0 of four, with ports of the given states. -/
def fabState (ports : List (Nat × Nat)) : State :=
  { stateOf [] with fab := { (stateOf []).fab with
      dim := 3, port := ports.foldl (fun t p => t.set p.1 { Port.reset with state := p.2 }) (Tab.const Port.reset) } }

/-- Port states, training words, dimensions; flits for this device and others, good, bad, acknowledging and swapped; the eighth bad one. -/
theorem test_meets_FabricPorts :
    let s := fabState [(0, 1), (1, 2)]
    let d := fabState []
    let a (dst age : Nat) (bad : W32) : ArrivingFlit :=
      let f := { flit1 dst 0 0 .pad with age := age }
      ⟨f, 1, 0, flitCrc f + bad⟩
    let r : ArrivingFlit := let f := { flit1 0 0 5 (.reply ⟨0, 0, 3, 7⟩ (.value 1)) with vc := 2 }; ⟨f, 1, 0, flitCrc f⟩
    let k : ArrivingFlit := let f := { flit1 0 0 6 (.ackPairs [(1, 3)] false) with vc := 5 }; ⟨f, 1, 0, flitCrc f⟩
    let up (g : Flit) : Flit := { g with age := g.age + 1 }
    let c (n : Nat) : Port := { Port.reset with state := 2, crcTimes := List.replicate n 0 }
    let q := { s with fab := { s.fab with tx := s.fab.tx.set (streamNo 2 1) { TxStream.reset with held := [(flit1 2 0 0 .pad, 0)] } } }
    ((s.fab.port.get 0).state = 1 ∧ (0x01000000#32).toNat / 2 ^ 24 = 1 ∧ (0x02000000#32).toNat / 2 ^ 24 ≠ 1 ∧ (s.fab.port.get 1).state ≠ 1) ∧
    (({ s with link := { s.link with state := 4 } } : State).link.state = 4 ∧ s.link.state = 0 ∧ 6 ≤ s.sec.boot) ∧
    (List.range 6).any (fun q => (s.fab.port.get q).state == 1 || (s.fab.port.get q).state == 2) = true ∧
    (List.range 6).any (fun q => (d.fab.port.get q).state == 1 || (d.fab.port.get q).state == 2) = false ∧
    (s.live 1 = true ∧ (a 0 5 0).flit.age < 1023 ∧ s.fab.headWait < 64 ∧ (a 0 5 0).flit.dst = s.dev ∧ (a 0 5 0).flit.type = 0 ∧
      (a 0 5 0).crcOk = true ∧ (a 0 5 1).crcOk = false ∧ (a 2 5 0).crcOk = true ∧ (a 2 5 0).flit.dst ≠ s.dev ∧
      (s.productive 2).find? (fun q => decide (q < 6) && s.live q) = some 1 ∧ (s.fab.port.get 1).crccnt < 0xFFFF) ∧
    (r.crcOk = true ∧ s.tagOk (up r.flit) = true ∧ malformedFlit (up r.flit) = false ∧ k.crcOk = true ∧ s.tagOk (up k.flit) = true ∧
      malformedFlit (up k.flit) = false ∧ (up k.flit).body = .ackPairs [(1, 3)] false) ∧
    (7 ≤ ((c 7).crcTimes.filter (fun t0 => decide (s.time < t0 + 2 ^ 20))).length ∧
      ((c 6).crcTimes.filter (fun t0 => decide (s.time < t0 + 2 ^ 20))).length < 7) ∧
    ((∀ k, k < 6 → (q.live k = true ↔ k = 1)) ∧ (a 2 5 0).flit.dst ≠ q.dev ∧ (a 3 4 0).flit.age < (a 2 5 0).flit.age ∧
      (a 3 4 0).crcOk = true ∧ q.fab.swap = none ∧ q.nextInject.isSome = true ∧ s.nextInject = none) := by decide +kernel

/-- Flits in order, ahead, behind, outside the window, malformed, of an AEAD group, and with a wrong tag, before and at the threshold;
acknowledgements due; a request with a known answer; accesses refused, loaded and stored; a lost device. -/
theorem test_meets_FabricDeliveries :
    let s := { fabState [] with fab := { (fabState []).fab with
      rx := (fabState []).fab.rx.set (streamNo 1 1) { RxStream.reset with b := 4, since := 1, first := some 2 } } }
    let d (n : Nat) := ((flit1 0 n 1 .pad).seq - (s.fab.rx.get (streamNo 1 1)).b).toNat
    let f : Flit := { flit1 0 0 1 (.access (access1 .load)) with vc := 0 }
    let o (n : Nat) (st : Bool) : Outstanding := { xid := 3, ptr := 0, dev := n, dest := ⟨0, 0, 3, 7⟩, seq := 5, vc := 2, store := st, acq := false, words := [] }
    let r (l : List Outstanding) : State := { s with fab := { s.fab with out := l } }
    let p : State := { s with part := s.part.set 0 { fetchPart with prot := 8 } }
    let x : RemoteAccess := { access1 .load with xid := 3 }
    let n : State := { fabState [] with part := Tab.const PartEntry.free }
    (s.tagOk f = true ∧ PartEntry.mode (s.part.get 0) 0 ≠ 2 ∧ (f.seq - (s.fab.rx.get (streamNo 1 0)).b).toNat = 0 ∧
      (s.fab.rx.get (streamNo 1 0)).pool = [] ∧ malformedFlit f = false ∧ malformedFlit { f with len := 65 } = true ∧
      s.tagOk { f with len := 65 } = true ∧ s.fab.badf < 0xFFFF) ∧
    (0 < d 5 ∧ d 515 < 512 ∧ s.pooled < 47662 ∧ 2 ^ 31 ≤ d 3 ∧ 512 ≤ d 516 ∧ d 516 < 2 ^ 31) ∧
    (PartEntry.mode (p.part.get 0) 1 = 2 ∧ d 4 = 0 ∧ (flit1 0 4 1 .pad).seq.toNat % 4 = 0 ∧
      (p.fab.rx.get (streamNo 1 1)).verified ≠ some ((flit1 0 4 1 .pad).seq.toNat / 4)) ∧
    (s.tagOk { f with tag := 1 } = false ∧ s.fab.intfail < 0xFFFF ∧
      (({ s with fab := { s.fab with intthr := 1 } } : State).fab.intthr) ≤
        ((s.fab.rx.get (streamNo 1 0)).failTimes.filter (fun t0 => decide (s.time < t0 + 2 ^ 20))).length + 1 ∧
      ((s.fab.rx.get (streamNo 1 0)).failTimes.filter (fun t0 => decide (s.time < t0 + 2 ^ 20))).length + 1 <
        ({ s with fab := { s.fab with intthr := 2 } } : State).fab.intthr) ∧
    ((s.fab.rx.get (streamNo 1 1)).first = some 2 ∧ 2 + 64 ≤ ({ s with time := 66 } : State).time ∧ s.time < 2 + 64) ∧
    (s.fab.out.find? (fun o => o.dev == 1 && o.vc == 2 && o.seq == 5 && o.xid == 3) = none ∧
      (r [o 1 false]).fab.out.find? (fun o => o.dev == 1 && o.vc == 2 && o.seq == 5 && o.xid == 3) = some (o 1 false)) ∧
    (bits x.ptr 53 52 = 1 ∧ bits x.ptr 39 28 = 0 ∧ bits x.ptr 27 0 = 0x40 ∧ x.ty = 3 ∧ x.op = .load ∧ x.srcDev ≠ s.dev ∧
      s.partOfCore 0 = some x.part ∧ n.partOfCore 0 ≠ some x.part ∧ s.swappedCore 0 = none ∧
      (s.fab.tx.get (streamNo x.srcDev 1)).held = [] ∧ (r [o 0 true]).fab.out = [o 0 true] ∧ (o 0 false).xid = x.xid ∧
      ({ x with op := .store 9 } : RemoteAccess).op = .store 9 ∧ (r [o 0 true]).owned = [] ∧ s.uline = [] ∧ s.badLines = []) ∧
    (1 ≠ s.dev ∧ 1 ∉ s.fab.lost ∧ (0 : Nat) = s.dev ∧ o 1 false ∈ (r [o 1 false]).fab.out) :=
  ⟨by decide +kernel, by decide +kernel, by decide +kernel, by decide +kernel, by decide +kernel, by decide +kernel, by decide +kernel,
    by decide +kernel⟩

/-- A stream whose timer has expired, once, for the last time, and after that; one of the reduction channel that a multicast waits for; an
AEAD group to complete, due and not. -/
theorem test_meets_FabricTimers :
    let st (n : Nat) (gone : Bool) : TxStream :=
      { TxStream.reset with held := [(flit1 1 0 1 .pad, 1)], next := 1, deadline := some 5, expiries := n, unreach := gone }
    let s (n : Nat) (gone : Bool) : State := { fabState [] with time := 5, fab := { (fabState []).fab with
      rto := 0x3F02000#64, tx := ((fabState []).fab.tx.set (streamNo 1 1) (st n gone)).set (streamNo 1 4) (st n gone) } }
    let p (n : Nat) : State := { s 0 false with time := n, part := (s 0 false).part.set 0 { fetchPart with prot := 8 } }
    let m : State := { s 16 false with net := mcState.net }
    let limit (s : State) := if bits s.fab.rto 23 20 = 0 then 16 else bits s.fab.rto 23 20
    (∀ v, v = 1 ∨ v = 4 → ((s 0 false).fab.tx.get (streamNo 1 v)).deadline = some 5 ∧ 5 ≤ (s 0 false).time ∧
      ((s 0 false).fab.tx.get (streamNo 1 v)).held ≠ [] ∧
      ((s 0 false).fab.tx.get (streamNo 1 v)).expiries + 1 < limit (s 0 false) ∧
      limit (s 16 false) ≤ ((s 16 false).fab.tx.get (streamNo 1 v)).expiries + 1 ∧
      ((s 16 false).fab.tx.get (streamNo 1 v)).unreach = false ∧ ((s 16 true).fab.tx.get (streamNo 1 v)).unreach = true) ∧
    (m.net.open_ = [] ∧ mcast1 ∈ m.net.mcasts ∧ 1 ∈ mcast1.waiting) ∧
    (({ s 0 false with time := 4 } : State).time < 5) ∧
    (((p 32).fab.tx.get (streamNo 1 1)).held.getLast? = some (flit1 1 0 1 .pad, 1) ∧ PartEntry.mode ((p 32).part.get 0) 1 = 2 ∧
      ((p 32).fab.tx.get (streamNo 1 1)).next.toNat % 4 ≠ 0 ∧ ((p 32).fab.tx.get (streamNo 1 1)).last + 32 ≤ (p 32).time ∧
      (p 31).time < ((p 31).fab.tx.get (streamNo 1 1)).last + 32) := by
  refine ⟨?_, by decide, by decide, by decide⟩
  rintro v (rfl | rfl) <;> decide

theorem test_meets_still : (fabState []).still ∧ (stateOf []).still :=
  ⟨still_of rfl rfl rfl rfl rfl rfl (fun cl => by cases cl <;> rfl), still_of rfl rfl rfl rfl rfl rfl (fun cl => by cases cl <;> rfl)⟩

def linkState (n : Nat) : State := { stateOf [] with link := { (stateOf []).link with state := n, feat := 15 } }

theorem test_meets_HostLinkAndAperture :
    let f (n : Nat) : State := { linkState 2 with link := { (linkState 2).link with failed := n } }
    ((∀ n, n < 5 → (linkState n).link.state = n) ∧ (linkState 2).linkUp = true ∧ (linkState 1).linkUp = false ∧
      ({ linkState 2 with sec := { (linkState 2).sec with silent := true } } : State).linkUp = false ∧
      (f 7).link.failed < 8 ∧ 8 ≤ (f 8).link.failed ∧ (linkState 3).sec.silent = false ∧
      (0x01000000#32).toNat / 2 ^ 24 = 1 ∧ (0x02000000#32).toNat / 2 ^ 24 ≠ 1 ∧
      (bit (linkState 2).link.feat 3 = true ∧ bit (stateOf []).link.feat 3 = false) ∧
      ((linkState 2).apertureClosed 0x20000000 8 = false ∧ (linkState 2).apertureClosed (2 ^ 39 - 2 ^ 26 - 8) 16 = true)) ∧
    (linkState 2).still :=
  ⟨by decide, still_of rfl rfl rfl rfl rfl rfl (fun cl => by cases cl <;> rfl)⟩

/-- A command of ring 0, which offers one: operation, LEN, DADDR, ARG0, ARG1. -/
def hcmdOf (op len : Nat) (d arg0 arg1 : Nat) : HostCmd :=
  { sc := 0, ring := 0, bytes := blockOf 128 [(0, 1, op), (8, 8, d), (24, 8, len), (32, 8, arg0), (40, 8, arg1)], data := List.replicate 64 1 }

def hcmd (op : Nat) (d len : Nat) : HostCmd := hcmdOf op len d 0 0

/-- The same with a physical address. -/
def hphys (op : Nat) (d len : Nat) : HostCmd := hcmdOf op len d 0 (2 ^ 63)

def ringState : State :=
  { linkState 2 with ring := (linkState 2).ring.set 0 { Ring.reset with en := true, size := 4, tail := 1, stopped := false } }

theorem test_meets_HostRingsAndCommands :
    let s := ringState
    let h : State := { s with ring := s.ring.set 0 { s.ring.get 0 with en := false } }
    ((s.ring.get 0).held = [] ∧ s.linkUp = true ∧ (s.completion (hcmd 0 0 0) 0 0 []).idx = (s.ring.get 0).written ∧
      (linkState 1).linkUp = false) ∧
    ((s.ring.get 0).owner = 0 ∧ (s.ring.get 0).owner ≠ 1 ∧ (s.ring.get 0).en = true ∧ (h.ring.get 0).en = false ∧
      bit (0x8000000000002000#64) 63 = true ∧ bits (0x8000000000002000#64) 14 11 = 4 ∧ bits (0x8000000000006000#64) 14 11 = 12 ∧
      bits (0x8000000000001800#64) 14 11 < 4 ∧ 12 < bits (0x8000000000006800#64) 14 11 ∧
      bits (0x2000#64) 23 20 = (s.ring.get 0).sc ∧ bits (0x2000#64) 14 11 = (s.ring.get 0).size ∧ bits (0x2000#64) 10 0 = (s.ring.get 0).vec ∧
      bit (0x2000#64) 63 = false ∧ bits (0x102000#64) 23 20 ≠ (s.ring.get 0).sc) ∧
    (2 ^ (s.ring.get 0).size < (bits (17#64) 15 0 + 2 ^ 16 - (s.ring.get 0).head) % 2 ^ 16 ∧
      (bits (16#64) 15 0 + 2 ^ 16 - (s.ring.get 0).head) % 2 ^ 16 ≤ 2 ^ (s.ring.get 0).size) ∧
    ((∀ op, op < 7 → (hcmd op 0x1000 64).op = op ∧ s.canTake (hcmd op 0x1000 64) = true ∧ s.cmdBad (hcmd op 0x1000 64) false true = false) ∧
      h.canTake (hcmd 0 0 0) = false ∧ 6 < (hcmd 7 0 0).op ∧ (hcmd 0x1000 0 0).reservedZero = true ∧ (hcmd 1 8 64).daddr.toNat % 64 ≠ 0 ∧
      2 ^ 32 < (hcmd 2 0 (2 ^ 32 + 1)).len) ∧
    (s.cmdVf (hphys 1 0x1000 64) = none ∧ bit (hphys 1 0x1000 64).arg1 63 = true ∧ (hphys 1 0x1000 64).daddr.toNat = 0x1000 ∧
      (hphys 1 0x1000 64).len = 64 ∧ (hphys 1 0x1000 64).haddr.toNat % 64 = 0 ∧ (∀ j, j < 64 → s.sealedAt (0x1000 + j) = none) ∧
      (hphys 4 0x1008 8).daddr.toNat % 8 = 0 ∧ s.cmdBad (hphys 4 0x1008 8) false true = false ∧ s.canTake (hphys 4 0x1008 8) = true) ∧
    (s.cmdBad (hcmd 3 0 64) true true = false ∧ (hcmd 3 0 64).part = 0 ∧ s.partOfQueue (bits (hcmd 3 0 64).arg0 5 0) = some 0 ∧
      s.partOfQueue (bits (hcmdOf 3 64 0 1 0).arg0 5 0) ≠ some 0) := by decide +kernel

theorem test_meets_ringState_still : ringState.still := still_of rfl rfl rfl rfl rfl rfl (fun cl => by cases cl <;> rfl)

theorem test_meets_GatesAndPartitions :
    let s := ringState
    let g (n k : Nat) : State := { s with sealed_ := s.sealed_.set 0 { s.sealed_.get 0 with gate := n, count := k } }
    let e : PartEntry := { fetchPart with state := 1, clmask := 2, supv := 8 }
    let gone := s.modCluster 1 (fun c => { c with xbar := c.xbar.set 0 { XbarArray.reset with leaving := true } })
    let open_ := hcmdOf 5 0 0 0 3
    (s.canTake (hcmd 5 0 0) = true ∧ (hcmd 5 0 0).op = 5 ∧ s.cmdBad (hcmd 5 0 0) false true = false ∧ bit (hcmd 5 0 0).arg1 0 = false ∧
      ((g 2 0).sealed_.get 0).gate = 2 ∧ ((g 0 3).sealed_.get 0).gate ≠ 2) ∧
    (s.canTake open_ = true ∧ open_.op = 5 ∧ bit open_.arg1 0 = true ∧ bit open_.arg1 1 = true ∧ (stateOf []).linkFeature 1 = false ∧
      s.linkFeature 1 = true ∧ s.cmdBad open_ false true = false ∧ bit (hcmdOf 5 0 0 0 1).arg1 0 = true ∧
      bit (hcmdOf 5 0 0 0 1).arg1 1 = false) ∧
    (s.linkFeature 0 = true ∧ (hcmd 6 0 2676).op = 6 ∧ 2676 ≤ (hcmd 6 0 2676).len ∧ (hcmd 6 0 2675).len < 2676 ∧ s.sec.recovery = false ∧
      s.sec.idKey = true ∧ s.canTake (hcmd 6 0 2676) = true ∧ s.cmdBad (hcmd 6 0 2676) false true = false) ∧
    (((g 1 0).sealed_.get 0).gate = 1 ∧ ((g 1 0).sealed_.get 0).count = 0) ∧
    (16 ≤ 16 ∧ e.clmask.toNat < 2 ^ 240 ∧ bits e.ptroot 11 0 = 0 ∧ bits e.ptroot 63 52 = 0 ∧ s.entryBad 1 e = false ∧ e.state = 1 ∧
      (∀ c, c < 240 → e.clmask.getLsbD c = true → s.erasing c = false) ∧ gone.entryBad 1 e = false ∧ e.clmask.getLsbD 1 = true ∧
      gone.erasing 1 = true) := by
  decide +kernel

/-- Steps of the bring-up that run no image, and the first one with its boot failing; of every other step the image passes or does not, which
the free values of the flash and the signature decide. -/
theorem test_meets_ResetAndIslands :
    let b (n : Nat) (r : Bool) : State := { State.reset with sec := { State.reset.sec with boot := n - 1, recovery := r } }
    (∀ n, n ∈ [2, 3, 4, 7] → (b n false).sec.boot + 1 = n ∧ (b n false).imageFails n = false) ∧
    (∀ n, (b n false).imageFails n = false ∨ (b n false).imageFails n = true) ∧
    Memory.wf State.reset.mem = true ∧ State.reset.sec.boot = 0 ∧ State.reset.sec.recovery = false ∧ (b 1 true).sec.recovery = true ∧
    (bits (1#64) 2 0 = 1 ∧ bits (3#64) 2 0 = 3 ∧ bits (4#64) 2 0 = 4 ∧ bits (8#64) 2 0 = 0 ∧ 4 % 8 ∈ [4, 6, 7]) ∧
    ((stateOf []).quadrantBusy 0 0 = true ∧ State.reset.quadrantBusy 0 0 = false) ∧
    (State.reset.held2 0 = false ∧ ({ State.reset with sec := { State.reset.sec with alarms := [(.tempAbove115, 0)], acted := [(.tempAbove115, 0)] } } : State).held2 0 = true ∧
      (({ State.reset with island := State.reset.island.set 5 { Island.reset 1 with req := 0 } } : State).island.get 5).eff ≠ 0) := by
  refine ⟨by decide, fun n => (Bool.eq_false_or_eq_true _).symm, by decide, rfl, rfl, rfl, by decide, by decide, by decide⟩

/-- The hottest island; one that may rise and one that has gated; every step of gating; alarms that end; what error correction finds. -/
theorem test_meets_PowerAlarmsAndErrors :
    let s := stateOf []
    let c (n : Nat) (e : Bool) : State := s.modCluster 0 (fun x => { x with throttle := n, easing := e })
    let heat := 9 :: List.replicate 31 1
    let q : State := { s with island := s.island.set 0 { Island.reset 1 with limit := 2, quietWindows := 15, sinceRise := 15 } }
    let al : State := { s with sec := { s.sec with alarms := [(.tempAbove115, 1), (.supplyOutside, 0)] } }
    (1 < (s.island.get 0).limit ∧ (0 : Nat) % 8 < 4 ∧ (∀ j, j < 32 → j ≠ 0 → heatOf heat j < heatOf heat 0)) ∧
    (s.stepped = false ∧ ({ s with stepped := true } : State).stepped = true ∧ (∀ j, j < 32 → j ≠ 0 → 3 ≤ (q.island.get j).limit) ∧
      (q.island.get 0).limit < 3 ∧ 15 ≤ (q.island.get 0).quietWindows ∧ 15 ≤ (q.island.get 0).sinceRise ∧ (q.island.get 0).gated = false ∧
      (q.island.get 0).noisy = false ∧ q.alarmed 0 = false) ∧
    (((c 2 false).clusterAt 0).throttle < 3 ∧ 3 ≤ ((c 3 false).clusterAt 0).throttle ∧
      1 < ((c 3 false).island.get ((c 3 false).islandOf 0)).limit ∧ ((c 1 false).clusterAt 0).throttle ≠ 0 ∧
      ((c 1 true).clusterAt 0).easing = true ∧ ((c 1 false).clusterAt 0).easing = false ∧ ((c 0 false).clusterAt 0).throttle = 0) ∧
    (s.sec.alarms = [] ∧ al.sec.alarms = [(.tempAbove115, 1), (.supplyOutside, 0)] ∧ (AlarmSource.tempAbove115, 1) ∉ al.sec.acted) ∧
    ({ s with sec := { s.sec with erasing := true } } : State).sec.erasing = true ∧
    (7 ∉ s.badLines ∧ 7 * 64 < 2 ^ 39 - 2 ^ 26) := by decide
/-- A launch record of one task: kind, gang width, entry 0x10_0000. -/
def recordOf (kind tasks : Nat) : List Byte :=
  blockOf 64 [(0, 1, kind), (4, 4, tasks), (8, 8, 0x100000), (16, 8, 77), (32, 4, 1), (36, 4, 1), (48, 8, 0x20000040)]

def launchOf (kind tasks : Nat) (dep : Bool) : State :=
  { stateOf [] with tasks := [], launch := (stateOf []).launch.set 0 { LaunchQ.reset with
      en := true, recs := [{ uid := 4, bytes := recordOf kind tasks, placed := 0, dep0 := dep, dep1 := true }] } }

theorem test_meets_LaunchQueues :
    let s := stateOf []
    let l (n : Nat) : State := { s with launch := s.launch.set 0 { LaunchQ.reset with
      en := true, budget := 4, period := 8, recs := List.replicate n { uid := 4, bytes := [], placed := 0, dep0 := true, dep1 := true } } }
    let z := launchOf 0 1 false
    (s.recordBad 0 (recordOf 3 1) = true ∧ s.recordBad 0 (recordOf 0 1) = false ∧ ((l 255).launch.get 0).recs.length < 256 ∧
      256 ≤ ((l 256).launch.get 0).recs.length) ∧
    (fieldAt (recordOf 3 1) 0 4 % 4 = 3 ∧ 8 < fieldAt (blockOf 64 [(0, 4, 9 * 2 ^ 16)]) 0 4 / 2 ^ 16 % 16 ∧
      fieldAt (blockOf 64 []) 32 4 = 0 ∧ bit (wordAt (blockOf 64 [(8, 8, 32)]) 8) 5 = true ∧
      fieldAt (blockOf 64 [(40, 8, 4)]) 40 1 % 8 ≠ 0) ∧
    (((l 0).launch.get 0).en = true ∧ bits (0#64) 48 28 ≠ 4 ∧ (s.launch.get 0).en = false ∧ bit (0x8000000010000000#64) 63 = true ∧
      bits (0x40000008#64) 48 28 = ((l 0).launch.get 0).budget ∧ bits (0x40000008#64) 19 0 = ((l 0).launch.get 0).period ∧
      bit (0x40000008#64) 63 = false ∧ ({ l 0 with tasks := [] } : State).tasks = [] ∧ ((l 0).launch.get 0).period ≠ 0) ∧
    ((∃ r, (z.launch.get 0).recs = [r] ∧ r.tasks ≠ 0 ∧ z.shapeBad 0 r = false ∧ r.dep0 = false ∧ r.dep1 = true ∧
        wordAt r.bytes 48 ≠ 0 ∧ bit (wordAt r.bytes 48) 63 = false ∧ bits (wordAt r.bytes 48) 51 0 = 0x20000040) ∧
      (∃ r, ((launchOf 0 0 false).launch.get 0).recs = [r] ∧ r.tasks = 0) ∧ z.partOfQueue 0 = some 0 ∧ z.holdOn 0 0x20000040 = none ∧
      ∃ leaf u, z.walk devWalker 0 0x20000040 = (.ok leaf, u) ∧ z.allows 0 0 leaf.entry (leaf.phys 0x20000040) .read = true) :=
  ⟨by decide +kernel, by decide, by decide, ⟨_, rfl, by decide, by decide, rfl, rfl, by decide, by decide, by decide⟩, ⟨_, rfl, by decide⟩,
    by decide, by decide, _, _, rfl, by decide⟩

/-- A job that has been issued and left no record has completed; one that no core has issued has not. -/
theorem test_meets_LaunchQueues_jobs :
    (stateOf []).jobOf 0x10000 = none ∧ (stateOf []).jobIssued 0x10000 = false ∧
    ((stateOf []).modCore 0 (fun c => { c with jobSeq := 1 })).jobIssued 0x10000 = true ∧
    (withJob (stateOf []) job1).jobOf 0 = some job1 ∧ bit (0x8000000000010000 : Word) 63 = true := by decide

theorem test_meets_launch_still : (launchOf 0 1 false).still := still_of rfl rfl rfl rfl rfl rfl (fun cl => by cases cl <;> rfl)

def entry1 : TaskEntry :=
  { entry := 0x100000, arg := 9, cnt := 0, shot := 0, origq := 0, idx := 0, record := none, ident := none, sreg := 0, spawned := true }

def ord1 : OrdTask :=
  { uid := 5, ts := 3, spCore := 0, spCount := 1, entry := entry1, state := .queued, irrevocable := false, aborted := false, core := 0,
    ctx := 0, serial := 0,
    slot := none, log := [], reads := [], writes := [], held := [], sends := [] }

/-- A thread task ready to be placed and a gang; entries of the three kinds ready to start; tasks about to end; expired clocks. -/
theorem test_meets_Scheduling :
    let s := launchOf 0 1 true
    let g := launchOf 1 1 true
    let n := stateOf []
    let w (off : Nat) : State := { n with tasks := [(7, { task7 with threads := [(0, 0)], cnt := BitVec.ofNat 64 (3 * 2 ^ 52 + off), clockEnd := some 5 })] }
    let h := n.modCtx 0 6 (fun c => { c with phase := .running, shotEnd := some 5 })
    let late : State := { n with island := n.island.modify (n.coreIsland 0) (fun x => { x with cycles := 20 }) }
    let u : State := { n with time := 2048, umpire := n.umpire.set 0 { n.umpire.get 0 with sampled := some (some (3, 0, 1)) } }
    ((∀ x, x < 64 → (s.candidate x = true ↔ x = 0)) ∧ (∀ x, x < 64 → (g.candidate x = true ↔ x = 0)) ∧
      ((s.launch.get 0).recs.map LaunchRec.kind = [0] ∧ (g.launch.get 0).recs.map LaunchRec.kind = [1]) ∧
      ((s.part.get 0).clmask.getLsbD (3 / 8) = true ∧ s.reservedCl (3 / 8) = false ∧ (s.coreAt 3).taskq.length < 128) ∧
      g.partReserved 0 = none ∧ (g.qualifying 0 1).head? = some 0) ∧
    (n.partOfCore 3 = some 0 ∧ n.freeTaskCtx 3 = [0, 1, 2, 3] ∧ n.mayStart 0 = true ∧ n.reservedCl (clusterOf 3) = false ∧
      ((n.modCore 3 (fun c => { c with residq := [⟨3, 0x3F800000#32, 0x100000, 9, 0, 0⟩] })).coreAt 3).residq = [⟨3, 0x3F800000#32, 0x100000, 9, 0, 0⟩] ∧
      (n.coreAt 3).residq = [] ∧ ((n.modCluster 0 (fun c => { c with ord := [ord1] })).clusterAt (clusterOf 3)).ord = [ord1] ∧ ord1.state = .queued ∧
      (∀ o ∈ (n.clusterAt (clusterOf 3)).ord, o.state ≠ .queued) ∧
      ((n.modCore 3 (fun c => { c with taskq := [entry1] })).coreAt 3).taskq = [] ++ [entry1]) ∧
    ((n.tasks = [(7, task7)] ∧ task7.threads = [(0, 0)] ∧ task7.ordered = none ∧ task7.homeDev = n.dev ∧ (n.ctxAt 0 0).pend = 0 ∧
      (n.ctxAt 0 0).sendBuf = [] ∧ (n.ctxAt 0 0).stores = 0 ∧ n.outOf 0 0 = [] ∧ n.openJobs 0 0 = [] ∧ (n.coreAt 0).outq.length ≤ 32 ∧ task7.cnt = 0)) ∧
    (∃ x, (w 0x40).tasks = [(7, x)] ∧ x.cnt = BitVec.ofNat 64 (3 * 2 ^ 52 + 0x40) ∧ x.clockEnd = some 5 ∧ assocGet (w 0x40).tasks 7 = some x) ∧
    ((n.ctxAt 0 0).phase = .running ∧ (n.ctxAt 0 0).heldTrap = none ∧ (n.ctxAt 0 0).sleep = none ∧ n.specAt 0 0 = false ∧ n.coreAc 0 < 5 ∧
      5 ≤ late.coreAc 0 ∧ (h.ctxAt 0 6).shotEnd = some 5 ∧ (h.ctxAt 0 6).phase = .running ∧ h.specAt 0 6 = false) ∧
    ((n.part.get 0).state = 2 ∧ 0 ∉ n.quiescing ∧ n.quiet 0 = false ∧
      ({ n with part := n.part.set 3 { fetchPart with clmask := 0 }, quiescing := [3] } : State).quiet 3 = true) ∧
    ((u.umpire.get 0).tick < u.time / 1024 ∧ (u.umpire.get 0).sampled = some (some (3, 0, 1)) ∧ n.time / 1024 ≤ (n.umpire.get 0).tick) :=
  ⟨by decide, by decide, by decide, ⟨_, rfl, rfl, rfl, rfl⟩, by decide, by decide, by decide⟩

theorem test_meets_no_ordered : ∀ cl, ((stateOf []).clusterAt cl).ord = [] := fun cl => by cases cl <;> rfl

/-- The management core, with registers `g`, and partition 1 in state `st` with no clusters; an image stands at 0x50_0000. -/
def mgmtOf (g : List (Nat × Word)) (st : Nat) : State :=
  let s : State := { stateOf [] with part := (stateOf []).part.set 1 { fetchPart with state := st, clmask := 0 } }
  { (s.modCtx mgmtCore 0 (fun _ => { ctxOf g with work := .none, vwin := 0 })).putBytes 0x500000 [1] with curCore := mgmtCore }

theorem test_meets_SwappingPartitions :
    let g := [(1, 1), (2, 0x500000), (3, 16), (4, 0x500001), (5, 0x501000)]
    let s := mgmtOf g 3
    (stateOf []).privM = false ∧
    (s.privM = true ∧ s.canRun [1, 2, 3, 4, 5] [6] = true ∧ (s.coreAt s.curCore).slots < 64 ∧
      (∀ p, p < 16 → (s.swapOf p).any (fun w => w.loaded) = false)) ∧
    (bits (s.me.g.get 3) 63 4 ≠ 0 ∧ bits (s.me.g.get 1) 63 4 = 0 ∧ bits (s.me.g.get 1) 3 0 = 1 ∧ (s.part.get 1).state = 3 ∧
      ((mgmtOf g 2).part.get 1).state ≠ 3 ∧ (s.me.g.get 4).toNat % 4096 ≠ 0 ∧ (s.me.g.get 2).toNat % 4096 = 0) ∧
    (fieldAt (s.bytesAt (s.me.g.get 5).toNat 4) 0 4 ≠ 1 ∧ ((mgmtOf g 4).asked 6).loadPart 1 0x500000 ((mgmtOf g 4).dest 6) ≠ none) ∧
    ((mgmtOf g 0).part.get 1).state = 0 ∧ Memory.wf s.mem = true ∧ s.uline = [] := by decide +kernel

/-- What holds of every listed value, and of the default, holds of every value. -/
theorem get_all {α : Type} (P : α → Prop) (t : Tab α) (hd : P t.dflt) (h : ∀ p ∈ t.cells, P p.2) (k : Nat) : P (t.get k) := by
  have find : ∀ l : List (Nat × α), (∀ p ∈ l, P p.2) → ∀ x, assocGet l k = some x → P x := by
    intro l
    induction l with
    | nil => intro _ x hx; cases hx
    | cons p r ih =>
      intro hl x hx
      simp only [assocGet] at hx
      split at hx
      · cases hx; exact hl p (.head _)
      · split at hx
        · cases hx
        · exact ih (fun q hq => hl q (.tail _ hq)) x hx
  unfold Tab.get
  cases e : assocGet t.cells k with
  | none => exact hd
  | some x => exact find t.cells h x e

theorem test_meets_no_jobs (c : Nat) : ((mgmtOf [] 3).coreAt c).jobs = [] :=
  get_all (fun x => x.jobs = []) (mgmtOf [] 3).core rfl (by decide +kernel) c

theorem test_meets_SystemRegisters :
    let s := stateOf [(1, 0x100020), (2, 0x100001), (3, 0x3F800000), (4, 0x35800000)]
    let v (e : Word) := s.modMe (fun c => { c with trap := { c.trap with ecause := 0x1000, epc := e } })
    let m := mgmtOf [] 3
    s.canRun [1, 2, 3, 4] [5] = true ∧ s.spec = false ∧ bit (s.me.g.get 1) 5 = true ∧
    (bit (s.me.g.get 2) 5 = false ∧ bits (s.me.g.get 2) 63 52 = 0) ∧
    (bits (s.me.g.get 4) 31 0 < 0x3F800000 ∧ bits (s.me.g.get 4) 63 32 < 0x7F800000 ∧ 0x3F800000 ≤ bits (s.me.g.get 3) 31 0) ∧
    (bit s.me.trap.ecause 12 = false ∧ bit (v 0).me.trap.ecause 12 = true) ∧
    (∃ u, badTarget (v 0x100001).me.trap.epc (v 0x100001) = .ok (false, u)) ∧
    (∃ u, badTarget (v 0x100002).me.trap.epc (v 0x100002) = .ok (true, u)) ∧
    (s.privM = false ∧ m.privM = true ∧ m.spec = false ∧ m.wakes ≤ m.me.wakeSeen ∧
      ({ m with mgmtCmds := m.mgmtCmds + 1 } : State).me.wakeSeen < ({ m with mgmtCmds := m.mgmtCmds + 1 } : State).wakes) ∧
    (∃ c, assocGet (((m.modMe (fun c => { c with phase := .halted })).coreAt mgmtCore)).ctx.cells 0 = some c ∧ c.phase = .halted) :=
  ⟨by decide, by decide, by decide, by decide, by decide, by decide, ⟨_, rfl⟩, ⟨_, rfl⟩, by decide +kernel, ⟨_, rfl, rfl⟩⟩

theorem test_meets_TrapHandlesAndRecords :
    let s := stateOf [(1, 0x10000)]
    let p := s.modCtx 0 1 (fun c => { c with phase := .parked, parkCount := 1, work := .task 7, trap := { c.trap with epc := 0x100001 } })
    let p : State := { p with tasks := [(7, { task7 with threads := [(0, 1)] })] }
    let r : TrapRecord := { part := 0, words := [3], score := 0, backoff := 64 }
    let t : Trap := ⟨3, 0x100000, 0, 0, false, false, 0⟩
    let o := { s with curCore := 1 }
    ((s.privS = true ∧ o.privS = false ∧ s.canAsk [1] 4) ∧
      ((0x10800#64) = BitVec.ofNat 64 (0 + 1 * 2 ^ 11 + 1 * 2 ^ 16) ∧ (s.ctxAt 0 1).phase ≠ .parked ∧ (p.ctxAt 0 1).phase = .parked ∧
        (p.ctxAt 0 1).parkCount = 1 ∧ p.partOfCore 0 = some 0 ∧ (∃ y, p.taskOf 0 1 = some (7, y) ∧ y.threads = [(0, 1)])) ∧
      (∃ cs u, fetchLine (p.ctxAt 0 1).trap.epc (p.asCtx 0 1) = .ok (.line cs, u))) ∧
    (((s.part.get 0).state = 2 ∧ r.score ≠ mgmtCore ∧ trapsSupervisor (s.part.get 0).supv r = false ∧ (s.coreAt 0).svec = 0 ∧
      ((s.modCore 0 (fun c => { c with svec := 0x100000 })).coreAt 0).svec ≠ 0 ∧ (s.coreAt 0).highq.length < (s.coreAt 0).highCap ∧
      (s.coreAt 0).highCap ≤ (List.replicate 8 0).length) ∧
    (s.time < ({ r with notBefore := 5 } : TrapRecord).notBefore ∧ r.notBefore ≤ s.time) ∧
    (((s.modCtx 0 0 (fun c => { c with heldTrap := some t })).ctxAt 0 0).heldTrap = some t ∧ (s.ctxAt 0 0).pend = 0 ∧ s.specAt 0 0 = false ∧
      (s.ctxAt 0 0).phase = .running ∧ (s.ctxAt 0 0).heldTrap ≠ some t)) :=
  ⟨⟨by unfold State.canAsk; decide, ⟨by decide, by decide, by decide, by decide, by decide, _, rfl, rfl⟩, _, _, rfl⟩, by decide⟩

theorem test_meets_ShootdownAndHomes :
    let s := stateOf [(1, 0x20000040), (2, 0x8000000000)]
    let h : Hold := { part := 0, vbase := 0, logSize := 30, core := 0, ctx := 0, serial := 7 }
    let m : TlbiMsg := { part := 0, kind := 0, va := 0, dest := ⟨0, 0, 3, 7⟩, status := 0 }
    let w := s.modCluster 0 (fun c => { c with walkq := [(0, 0x20000)] })
    let v := s.modCluster 0 (fun c => { c with walkq := [(0, 0x8000000)] })
    (s.privS = true ∧ s.canAsk [1, 2] 3 ∧ s.partOfCore s.curCore = some 0 ∧ bits (s.me.g.get 1) 53 52 = 0 ∧ s.holdOn 0 0x20000040 = none ∧
      ({ s with holds := [h] } : State).holdOn 0 0x20000040 = some h ∧
      ({ s with curCore := 1 } : State).privS = false ∧ s.holds.length < 8 ∧
      8 ≤ (({ s with holds := List.replicate 8 { h with vbase := 2 ^ 30 } } : State).holds.filter (fun h => h.part == 0)).length) ∧
    ((∃ f u, (s.asked 3).walk (clusterOf s.curCore) 0 (bits (s.me.g.get 2) 51 0) = (.error f, u)) ∧
      ∃ l u, (s.asked 3).walk (clusterOf s.curCore) 0 0x20000040 = (.ok l, u) ∧ s.unitHolds l.frame = false ∧
      s.pins.any (pinOn 0 (0x20000040 / 2 ^ l.logSize * 2 ^ l.logSize) l.logSize) = false) ∧
    (({ s with tlbis := [{ msg := m, clusters := [0] }] } : State).tlbis = [{ msg := m, clusters := [0] }] ∧ s.tlbis = []) ∧
    ((w.clusterAt 0).walkq = [(0, bits 0x20000040 51 12)] ∧ 
      (∃ l u, (w.modCluster 0 (fun c => { c with walkq := [] })).walk 0 0 (bits 0x20000040 51 12 * 4096) = (.ok l, u)) ∧
      (v.clusterAt 0).walkq = [(0, bits 0x8000000000 51 12)] ∧
      (∃ f u, (v.modCluster 0 (fun c => { c with walkq := [] })).walk 0 0 (bits 0x8000000000 51 12 * 4096) = (.error f, u)) ∧
      v.holdOn 0 (bits 0x8000000000 51 12 * 4096) = none ∧
      w.holdOn 0 (bits 0x20000040 51 12 * 4096) = none ∧ ({ w with holds := [h] } : State).holdOn 0 (bits 0x20000040 51 12 * 4096) = some h) ∧
    (s.pins = [] ∧ s.uline = [] ∧ (s.home.get 9).node = 64 ∧ (s.home.get 9).run < 3 ∧
      (({ s with home := s.home.set 9 { node := 5, run := 3, holder := 64 } } : State).home.get 9).node = 5 ∧ 5 ≠ (homeSlice (9 * 64)).2 ∧
      s.holderOf 9 = (homeSlice (9 * 64)).2 ∧ s.forwards.get ((homeSlice (9 * 64)).1 * 64 + (homeSlice (9 * 64)).2) < 2048) :=
  ⟨by unfold State.canAsk; decide, ⟨⟨_, _, rfl⟩, _, _, rfl, by decide, by decide⟩, by decide,
    ⟨by decide, ⟨_, _, rfl⟩, by decide, ⟨_, _, rfl⟩, by decide, by decide, by decide⟩, by decide⟩
/-- A message from core 3, of partition `part`, with payload bytes, and its entry in a queue. -/
def msg1 (part : Nat) (hi : Bool) (payload : List Byte) : Msg :=
  { kind := 0, ackreq := false, timed := false, hi := hi, len := payload.length, hpc := 0x100000, seqn := 4, part := part, sdev := 0, score := 3,
    ts := 0, payload := payload }

def mentry1 (hi : Bool) : MsgEntry := { uid := 8, msg := msg1 0 hi [], state := 0, deferred := false }

def out1 (n : Nat) : OutMsg :=
  { dest := 0x10000030000000, ch := 0, msg := msg1 0 false [], sent := false, backoff := n, notBefore := 5 }

theorem test_meets_Messages :
    let g := [(1, 0x10000030000000), (2, 0x100000), (3, 0x30000000000800), (4, 0x30000000000400)]
    let s := stateOf g
    let h := (handlerOf g).putBytes (spadLoc 0 0x400) (bytesOf 0x100000 8)
    let full (c : Core) := { c with lowq := List.replicate 16 (mentry1 false) }
    let a : Ack := { outcome := 1, seqn := 4, sdev := 0, score := 3 }
    (s.canRun [1, 2, 3] [] = true ∧ bits (s.me.g.get 2) 63 52 = 0 ∧ bit (s.me.g.get 2) 5 = false ∧ bits (s.me.g.get 1) 53 52 = 1 ∧
      bits (s.me.g.get 1) 51 40 = s.dev ∧ s.dev < s.devices ∧ bits (s.me.g.get 1) 39 28 = 3 ∧ s.me.sendBuf.length < 8 ∧
      8 ≤ ((s.modMe (fun c => { c with sendBuf := List.replicate 8 (out1 64) })).me).sendBuf.length ∧ s.curCtx < 4) ∧
    (s.blockAt (s.me.g.get 3) 8 64 0x800 ∧ s.canAsk [1, 2, 3] 5) ∧
    (h.canRun [4] [] = true ∧ 6 ≤ h.curCtx ∧ h.me.sendBuf.length < 8 ∧ bits (wordAt (h.block 0x400 8) 0) 63 52 = 0 ∧
      bit (wordAt (h.block 0x400 8) 0) 5 = false) ∧ h.blockAt (h.me.g.get 4) 8 8 0x400 ∧
    (s.partOfCore 1 = some 0 ∧ (s.part.get 0).state = 2 ∧ (msg1 0 true []).sdev = s.dev ∧ malformedMsg { msg1 0 false [] with kind := 3 } = true ∧
      malformedMsg (msg1 0 false []) = false ∧ (msg1 0 false []).kind < 2 ∧
      malformedMsg { msg1 0 false [] with kind := 2, hpc := 1 } = false ∧
      malformedMsg { msg1 0 false [] with kind := 2, hpc := 3 } = true ∧ (msg1 5 false []).part ≠ 0 ∧ (s.coreAt 1).lowq.length < (s.coreAt 1).lowCap ∧
      (s.coreAt 1).highq.length < (s.coreAt 1).highCap ∧ ((s.modCore 1 full).coreAt 1).lowCap ≤ ((s.modCore 1 full).coreAt 1).lowq.length) ∧
    (((s.modCore 3 (fun c => { c with sendaPend := [(4, ⟨3, 0, 5, 7⟩, (out1 64).dest)] })).coreAt 3).sendaPend =
        [(a.seqn, ⟨3, 0, 5, 7⟩, (out1 64).dest)] ∧
      a.outcome < 3 ∧ ({ a with outcome := 3 } : Ack).outcome = 3 ∧ (s.coreAt 3).sendaPend = [] ∧ ((s.modCore 3 (fun c => { c with outq := [{ out1 64 with sent := true }] })).coreAt 3).outq =
        [{ out1 64 with sent := true }] ∧ (out1 64).msg.seqn = a.seqn ∧ bits (out1 64).dest 51 40 = a.sdev ∧ bits (out1 64).dest 39 28 = a.score) ∧
    ((out1 64).sent = false ∧ bits (out1 64).dest 51 40 = s.dev ∧ (out1 64).backoff = 64 ∧ 64 < (out1 128).backoff ∧
      (out1 128).notBefore ≤ ({ s with time := 5 } : State).time) := by
  refine ⟨by decide, ?_, by decide, ?_, by decide, by decide, by decide⟩ <;>
    (unfold State.blockAt spadPtr State.calm State.noneLive; try unfold State.canAsk) <;> decide

def arr1 : Arrival :=
  { core := 1, addr := 0x30000000001000, len := 8, tag := 2, extra := 0, src := 3, hpc := 0x100000, bytes := List.replicate 8 1 }

theorem test_meets_HandlersAndArrivals :
    let s := stateOf []
    let e (r : Bool) : ArrEntry := { uid := 8, arr := arr1, ready := r, state := 0 }
    ((s.ctxAt 1 6).phase = .idle ∧ (s.ctxAt 1 7).phase = .idle ∧ (mentry1 false).state = 0 ∧
      ((s.modCore 1 (fun c => { c with lowq := [mentry1 false], highq := [mentry1 true] })).coreAt 1).lowq = [mentry1 false]) ∧
    (s.partOfCore arr1.core = some 0 ∧ (s.part.get 0).state = 2 ∧ (s.coreAt arr1.core).arrq.length < 8 ∧
      8 ≤ ((s.modCore 1 (fun c => { c with arrq := List.replicate 8 (e true) })).coreAt arr1.core).arrq.length) ∧
    (((s.modCore 1 (fun c => { c with arrq := [e false] })).coreAt arr1.core).arrq = [e false] ∧ (e false).ready = false ∧
      (e true).ready = true ∧ (e true).state = 0 ∧ (s.ctxAt 1 4).phase = .idle) ∧
    ((∃ x ∈ ((s.modCore 1 (fun c => { c with lowq := [{ mentry1 false with state := 2 }] })).coreAt 1).lowq, x.state = 2) ∧
      ∃ x ∈ ((s.modCore 1 (fun c => { c with arrq := [{ e true with state := 2 }] })).coreAt 1).arrq, x.state = 2) := by decide

/-- A task descriptor: entry 0x10_0000 and zeros. -/
def spawnB (entry : Nat) : List Byte := blockOf 32 [(0, 8, entry)]

theorem test_meets_SpawnsAndSteals :
    let g := [(2, 9), (3, 64), (4, 1920)]
    let s := blockState g (spawnB 0x100000)
    let v (n : Nat) := s.modMe (fun c => { c with ident := { c.ident with vtime := BitVec.ofNat 64 n } })
    let q (n : Nat) := s.modCore 0 (fun c => { c with taskq := List.replicate n entry1 })
    let b := s.block 0x400 32
    let o : State := { s with tasks := [(7, { task7 with threads := [(0, 0)] })] }
    (s.blockAt (s.me.g.get 1) 32 32 0x400 ∧ s.blockAt (s.me.g.get 1) 64 64 0x400 ∧ s.canAsk [1, 2] 5) ∧
    (s.canRun [1] [5] = true ∧ bit (wordAt b 0) 5 = false ∧ bits (wordAt b 0) 63 52 = 0 ∧ bits (wordAt b 16) 2 0 = 0 ∧ fieldAt b 24 1 % 32 = 0 ∧
      fieldAt b 24 2 / 32 % 32 = 0 ∧ fieldAt b 26 2 = 0 ∧ bit (wordAt ((blockState g (spawnB 32)).block 0x400 32) 0) 5 = true ∧
      (s.coreAt s.curCore).taskq.length < 128) ∧ 128 ≤ ((q 128).coreAt 0).taskq.length ∧
    ((v 10).me.ident.vtime ≠ BitVec.allOnes 64 ∧ (s.me.g.get 2).toNat < (v 10).me.ident.vtime.toNat ∧
      ¬ ((s.me.ident.vtime ≠ BitVec.allOnes 64 ∧ (s.me.g.get 2).toNat < s.me.ident.vtime.toNat) ∨
        (s.me.g.get 2).toNat < (s.umpire.get s.curPart).gvt.toNat) ∧ (s.clusterAt (clusterOf s.curCore)).ord.length < 64) ∧
    ((s.coreAt s.curCore).taskq = [] ∧ ((q 1).coreAt 0).taskq = [] ++ [entry1] ∧ (s.me.g.get 2).toNat < 1920 ∧
      s.partOfCore (s.me.g.get 2).toNat ≠ s.partOfCore s.curCore ∧ s.partOfCore (s.me.g.get 0).toNat = s.partOfCore s.curCore) ∧
    (({ s with curCtx := 4 } : State).taskOf 0 4 = none ∧ o.taskOf o.curCore o.curCtx = some (7, { task7 with threads := [(0, 0)] }) ∧
      o.ordOf o.curCore o.curCtx = none) ∧
    ((s.me.g.get 0).toNat < 64 ∧ bit (s.part.get s.curPart).qmask (s.me.g.get 0).toNat = true ∧ 64 ≤ (s.me.g.get 3).toNat) := by
  refine ⟨?_, by decide, by decide +kernel, by decide, by decide, by decide, by decide⟩
  unfold State.blockAt spadPtr State.calm State.noneLive State.canAsk; decide

def range1 : RangeEntry := { lo := 0, last := 0xFFFFFFFF, dev := 0, moving := false }

def tplB (tcore hpc : Nat) : List Byte := blockOf 64 [(16, 4, 0xFFFFFFFF), (36, 4, 64), (40, 2, tcore), (56, 8, hpc)]

/-- Partition 0's range table has one entry, for this device. -/
def tupleState (g : List (Nat × Word)) (b : List Byte) : State :=
  let s := blockState g b
  { s with range := s.range.set 0 { entries := [range1], tver := 0 } }

/-- Requests whose home is here and at another device; payloads that are empty, in memory, too long, misaligned and elsewhere; templates
with and without f0, with and without a handler; handoffs that KSPLIT may and may not send. -/
theorem test_meets_TupleRequests :
    let g := [(2, 0x20000040), (3, 0x20000041), (4, 64), (5, 262145), (6, 0x10000020000040)]
    let s := tupleState g (tplB 0 0)
    let far : State := { s with range := s.range.set 0 { entries := [{ range1 with dev := 1 }], tver := 0 } }
    let out : State := { s with sentTuples := [(⟨0, 0, 6, 7⟩, 9, 0)] }
    let b := s.block 0x400 64
    let c := (tupleState g (tplB 3 0x100000)).block 0x400 64
    let x := (tupleState g (blockOf 64 [])).block 0x400 64
    let m : State := { s with fab := { s.fab with dim := 1 } }
    let k (a : Nat) := (tupleState g (blockOf 64 [(0, 4, 5), (4, 4, 9), (8, 2, a)])).block 0x400 32
    (s.sentTuples = [] ∧ (∀ t ∈ out.sentTuples, t.1.core = s.curCore ∧ range1.lo ≤ t.2.1 ∧ t.2.1 ≤ range1.last ∧ t.2.2 = range1.dev) ∧
      s.canAsk [2, 3, 2, 4] 7 ∧ 262144 < (s.me.g.get 5).toNat ∧ (s.me.g.get 0).toNat = 0 ∧
      (stateOf g).rangeOf 0 (f0Of 0) = none ∧ 0 < (s.me.g.get 4).toNat ∧ (s.me.g.get 4).toNat ≤ 262144 ∧
      (bits (s.me.g.get 2) 5 0 = 0 ∨ bits (s.me.g.get 3) 5 0 ≠ 0) ∧ bits (s.me.g.get 3) 5 0 ≠ 0 ∧
      bits (s.me.g.get 6) 53 52 = 1 ∧ bits (0x20000000#64) 5 0 = 0 ∧ bits (0x20000000#64) 53 52 = 0 ∧ bits (0x20000000#64) 51 40 = 0 ∧
      s.rangeOf s.curPart (f0Of 0) = some range1 ∧ range1.dev = s.dev ∧ far.rangeOf s.curPart (f0Of 0) = some { range1 with dev := 1 } ∧
      1 ≠ s.dev ∧ (far.fab.tx.get (streamNo 1 3)).held = []) ∧
    (s.blockAt (s.me.g.get 1) 64 64 0x400 ∧ s.canAsk [1] 7 ∧ s.blockAt (s.me.g.get 1) 32 32 0x400) ∧
    (fieldAt b 32 4 % 32 = 0 ∧ fieldAt b 36 4 ≤ 262144 ∧ fieldAt b 42 6 = 0 ∧ fieldAt b 32 4 + 32 + fieldAt b 36 4 ≤ 0x3C000 ∧
      fieldAt b 40 2 = 0 ∧ wordAt b 48 = 0 ∧ wordAt b 56 = 0 ∧ fieldAt b 16 4 = 0xFFFFFFFF ∧ fieldAt x 16 4 ≠ 0xFFFFFFFF ∧
      fieldAt c 40 2 = 3 ∧ s.partOfCore 3 = s.partOfCore s.curCore ∧ wordAt c 56 ≠ 0 ∧ bit (wordAt c 56) 5 = false ∧
      bits (wordAt c 56) 63 52 = 0 ∧ 4 ≤ (handlerOf g).curCtx ∧ s.curCtx < 4) ∧
    (s.rangeOf s.curPart (bits (s.me.g.get 4) 31 0) = some range1 ∧ (stateOf g).rangeOf 0 64 = none) ∧
    (s.privS = true ∧ ({ s with curCore := 1 } : State).privS = false ∧ fieldAt (k 0) 8 2 = s.dev ∧ fieldAt (k 1) 8 2 = 1 ∧
      fieldAt (k 0) 10 2 < s.devices ∧ fieldAt (k 0) 12 1 = s.curPart ∧ fieldAt (k 0) 13 19 = 0 ∧ fieldAt (k 0) 0 4 ≤ fieldAt (k 0) 4 4 ∧
      1 < m.devices ∧ ¬ fieldAt (k 1) 8 2 < s.devices) := by
  refine ⟨?_, ?_, by decide, by decide, by decide⟩ <;> unfold State.canAsk <;> try unfold State.blockAt spadPtr State.calm State.noneLive
  all_goals decide

def treq (kind : TupleKind) (mode : Nat) : TupleReq :=
  { kind := kind, mode := mode, key := 5, mask := BitVec.allOnes 128, ref := 0, len := 0, doff := 0x1000, cap := 64, tcore := 0, tag := 2,
    hpc := 0x100000, src := ⟨0, 0, 6, 7⟩, srcDev := 0, part := 0 }

def tuple1 : Tuple := { key := 5, part := 0, ref := 0, len := 0, arrival := 1, putter := 0 }

def sliceState (f : Slice → Slice) : State :=
  let s := tupleState [] []
  { s with slice := s.slice.modify (sliceOf 5) f }

theorem test_meets_TupleHomes :
    let s := sliceState id
    let w (kind : TupleKind) (mode : Nat) : Waiter := { req := treq kind mode, arrival := 1 }
    let t (f : Slice → Slice) := (sliceState f).slice.get (sliceOf 5)
    let k := s.slice.get (sliceOf 5)
    (s.rangeOf (treq .put 0).part (f0Of (treq .put 0).key) = some range1 ∧ range1.dev = s.dev ∧ s.handoffs = [] ∧ (treq .put 0).srcDev = s.dev ∧
      s.built 0 = true ∧ ({ s with part := Tab.const PartEntry.free } : State).built 0 = false) ∧
    ((∀ w, w ∈ k.waiters ++ k.conts → w.req.part ≠ 0) ∧ k.tuples.length + k.shadow.length + k.resIndex < 16384 ∧
      16384 ≤ (t (fun x => { x with resIndex := 16384 })).resIndex) ∧
    ((t (fun x => { x with waiters := [w .take 0] })).waiters = [w .take 0] ∧ (w .take 0).req.kind = .take ∧
      ((treq .put 0).key ^^^ (w .take 0).req.key) &&& (w .take 0).req.mask = 0) ∧
    ((t (fun x => { x with tuples := [tuple1] })).tuples = [tuple1] ∧ tplMatches (treq .take 1) tuple1 = true ∧ tplMatches (treq .read 2) tuple1 = true ∧
      (∀ x ∈ k.tuples, tplMatches (treq .read 1) x = false) ∧ k.waiters.length + k.resWait < 4096 ∧ k.conts.length + k.resCont < 4096) ∧
    ((t (fun x => { x with conts := [w .read 2] })).conts = [w .read 2] ∧ f0Of (w .read 2).req.key = f0Of (treq .cancel 0).key ∧
      (w .read 2).req.tag = (treq .cancel 0).tag ∧ k.conts = [] ∧ (treq .withdraw 0).mode ≠ 3 ∧ (treq .withdraw 0).src.reg < 16 ∧
      (∃ b ∈ ((s.modCtx 0 0 (fun c => { c with blocked := [treq .take 0] })).ctxAt 0 0).blocked, b.src = (treq .withdraw 0).src)) :=
  ⟨by decide, by decide, by decide, by decide, by decide, by decide, by decide, by decide, by decide, by decide, _, .head _, rfl⟩

def deliv1 (mode : Nat) (src : PayloadSource) : Delivery := { req := treq .take mode, tuple := tuple1, isTake := true, home := 0, source := src }

theorem test_meets_TupleDeliveries :
    let s := tupleState [] []
    let p := s.modCtx 0 0 (fun c => { c with pend := 0x40 })
    (deliv1 0 .memory).req.srcDev = s.dev ∧ (p.ctxAt 0 0).pend.getLsbD (treq .take 0).src.reg = true ∧
    (s.ctxAt 0 0).pend.getLsbD (treq .take 0).src.reg = false ∧ (p.ctxAt 0 0).serial = (treq .take 0).src.work ∧
    ((p.modCtx 0 0 (fun c => { c with serial := 8 })).ctxAt 0 0).serial ≠ (treq .take 0).src.work ∧ (deliv1 1 (.bytes [1])).source = .bytes [1] ∧ [(1 : Byte)] ≠ [] ∧
    (deliv1 0 .memory).tuple.len = 0 ∧ (deliv1 2 (.bytes [])).req.mode = 2 ∧ (deliv1 0 (.fault ⟨7, 0, 0⟩)).source = .fault ⟨7, 0, 0⟩ ∧
    (s.range.get 0).entries = [range1] ∧ range1.lo ≤ 3 ∧ 3 ≤ range1.last := by decide

theorem test_meets_tuple_still : (tupleState [] []).still ∧ ((tupleState [] []).modCtx 0 0 (fun c => { c with pend := 0x40 })).still :=
  ⟨still_of rfl rfl rfl rfl rfl rfl (fun cl => by cases cl <;> rfl), still_of rfl rfl rfl rfl rfl rfl (fun cl => by cases cl <;> rfl)⟩

theorem test_meets_TupleHandoffs :
    let s : State := { tupleState [] [] with fab := { (tupleState [] []).fab with dim := 1 } }
    let h : Handoff := { part := 0, lo := 3, last := 9, a := 0, b := 1, src := ⟨0, 0, 6, 7⟩, srcDev := 0 }
    let x (n : Nat) : HandoffState := { h := h, step := n, queued := [], reserved := [], source := true }
    ((s.range.get h.part).entries = [range1] ∧ range1.lo ≤ h.lo ∧ h.lo ≤ h.last ∧ h.last ≤ range1.last ∧ h.srcDev = s.dev ∧ h.a = s.dev ∧
      h.b ≠ s.dev) ∧
    (s.handoffs = [] ∧ s.built h.part = true ∧ range1.dev = s.dev ∧ h.b < s.devices ∧
      ({ s with part := Tab.const PartEntry.free } : State).built h.part = false) ∧
    (∀ n, n < 10 → ({ s with handoffs := [x n] } : State).handoffs = [x n] ∧ (x n).h = h ∧ (x n).source = true ∧ (x n).step = n) ∧
    ({ s with handoffs := [{ x 2 with source := false }] } : State).handoffs = [{ x 2 with source := false }] ∧
    ((s.fab.tx.get (streamNo 1 3)).held = [] ∧ 1 ≠ s.dev ∧
      (s.slice.get (sliceOf (f0Of tuple1.key))).indexFull = false ∧
      ((sliceState (fun k => { k with resIndex := 16384 })).slice.get (sliceOf (f0Of tuple1.key))).indexFull = true) := by decide +kernel

theorem test_meets_handoff_room :
    (tupleState [] []).handoffRoom { part := 0, lo := 3, last := 9, a := 0, b := 1, src := ⟨0, 0, 6, 7⟩, srcDev := 0 } [(3, 2, 1)] = true := by
  unfold State.handoffRoom splitSpan; rw [List.length_mergeSort]; decide

/-! ## States and operands of further clauses -/

/-- A store to another device and to a peer scratchpad, with room for it; an open job, a cluster without jobs, and a free job number; no
acquire out or held. -/
theorem test_meets_stores_and_jobs :
    let s := stateOf [(1, 0x20000040), (2, 0x20010000000000), (4, 0x10000010000040)]
    let f : State := { s with fab := { s.fab with dim := 1 } }
    (f.canRun (memSrcs (at1 2) ++ [4]) [] = true ∧ (∃ u, resolve (f.addrOf (at1 2)) .write f = .ok (.far 1, u)) ∧ f.me.wout = [] ∧
      (f.coreAt f.curCore).slots < 64 ∧ (f.coreAt f.curCore).storeq < 16 ∧ f.outOf f.curCore f.curCtx = []) ∧
    (∃ loc leaf u, resolve (s.addrOf (at1 4)) .write s = .ok (.mem loc leaf, u) ∧ bit leaf 4 = false ∧ s.peerLoc loc = true) ∧
    (withJob (stateOf []) job1).openJob 0 ∧ s.freshJob ∧ s.noJobs ∧ s.acquireOut s.curCore s.curCtx = false ∧ s.meets = [] :=
  ⟨⟨by decide, ⟨_, rfl⟩, rfl, by decide, by decide, by decide⟩, ⟨_, _, _, rfl, by decide, by decide⟩,
    ⟨job1, by decide⟩, by unfold State.freshJob; decide, by unfold State.noJobs; decide, by decide, rfl⟩

/-- A handler's saved PC that may be entered, and one in slot 32 of a line. -/
theorem test_meets_UIRET :
    let s (pc : Word) := (stateOf []).modMe (fun c => { c with uiSaved := some pc })
    (s 0x100001).me.uiSaved = some 0x100001 ∧ (∃ u, badTarget 0x100001 (s 0x100001) = .ok (false, u)) ∧
    ∃ u, badTarget 0x100020 (s 0x100020) = .ok (true, u) := ⟨rfl, ⟨_, rfl⟩, ⟨_, rfl⟩⟩

/-- Buffers in virtual memory, in the own scratchpad and across the cluster's, at the last place where their slots fit and past it; a
buffer with the copy unit as its consumer. -/
theorem test_meets_CBDEF_bases :
    let b (base : Nat) (cons : Nat) : CircBuf :=
      { desc := blockOf 32 [(0, 8, base), (8, 4, 64), (12, 1, 2), (13, 1, 5), (14, 1, 16 * cons), (15, 1, 1)], owner := 7, core := 0,
        pidx := 0, cidx := 0, fidx := 0 }
    let total := 2 ^ (b 0 0).logn * ((b 0 0).slotb + 64)
    total = 512 ∧ bits (b (2 ^ 52 - 512) 0).base 53 52 = 0 ∧ bits (b (2 ^ 52 - 512) 0).base 51 0 + total ≤ 2 ^ 52 ∧
    2 ^ 52 < bits (b (2 ^ 52 - 448) 0).base 51 0 + total ∧
    bits (b 0x3000000003FE00 0).base 51 48 = 0 ∧ bits (b 0x3000000003FE00 0).base 17 0 + total ≤ 2 ^ 18 ∧
    2 ^ 18 < bits (b 0x3000000003FE40 0).base 17 0 + total ∧
    bits (b 0x310000001FFE00 0).base 51 48 = 1 ∧ bits (b 0x310000001FFE00 0).base 20 0 + total ≤ 2 ^ 21 ∧
    2 ^ 21 < bits (b 0x310000001FFE40 0).base 20 0 + total ∧ (b 0x30000000008000 2).cons = 2 := by decide +kernel

/-- A result read of an array on which its task holds nothing back. -/
theorem test_meets_CMV_held : ((stateOf []).heldOf 0 0).any (fun h => productOn 3 h.instr) = false := by decide

/-- Reduction and multicast operands in device registers, and not; uses of an identifier to come, current and past, open and closed; the
ends of a destination scratchpad. -/
theorem test_meets_fabric_operands :
    let s := netState (stateOf [])
    let u (n : Nat) : State := { s with net := { s.net with uses := [((2, 9, 1), n)] } }
    (isRegister 0x32000000000000 = true ∧ isRegister (nredBlock nredB).src = false ∧ isRegister (nredBlock nredB).dst = false) ∧
    (([0, 8, 56].find? (fun k => isRegister (wordAt (blockOf 64 [(8, 8, 0x32000000000000)]) k)) = some 8) ∧
      ∀ k ∈ [0, 8, 56], isRegister (wordAt nmcastB k) = false) ∧
    (s.redUse 2 9 1 < ({ redMsg1 with use := 1 } : RedMsg).use ∧ redMsg1.use < (u 1).redUse 2 9 redMsg1.sender ∧
      redMsg1.use = s.redUse 2 9 redMsg1.sender) ∧
    (bits (0x3000000003FFF8#64) 47 0 + 8 ≤ 2 ^ 18 ∧ 2 ^ 18 ≤ bits (0x30000000040000#64) 47 0 ∧ bits (0x30000000040000#64) 47 0 % 8 = 0 ∧
      mcopy1.bytes.length = 8) := by decide +kernel

/-- A second window outside space 00; a command without windows at a unit of another partition, and of its own. -/
theorem test_meets_NBC_windows :
    let b := blockOf 64 [(24, 8, 0x30000000000000), (32, 8, 64)]
    let x (p : Nat) : NbUnit := { NbUnit.reset with state := 1, regions := [0x200000], owner := p }
    wordAt b 32 ≠ 0 ∧ bits (wordAt b 24) 53 52 ≠ 0 ∧ (x 1).state = 1 ∧ (x 1).owner ≠ 0 ∧ (x 0).owner = 0 ∧
    (∀ w ∈ [some ({ base := 0x200000, writable := true } : NbWindow), none], ∀ g, w = some g → (x 0).state ≠ 0 ∧ (x 0).owner = 0 ∧ g.base ∈ (x 0).regions) := by
  decide

/-- A group of a stream that holds a flit in mode AEAD before one that is not. -/
theorem test_meets_open_group :
    let st : TxStream := { TxStream.reset with held := [(flit1 1 0 1 .pad, 1), ({ flit1 1 1 1 .pad with part := 5 }, 1)], next := 2 }
    (flit1 1 0 1 .pad, 1) ∈ st.held ∧ (flit1 1 0 1 .pad).seq.toNat / 4 = st.next.toNat / 4 ∧ st.next.toNat % 4 ≠ 0 ∧
    PartEntry.mode { fetchPart with prot := 8 } 1 = 2 ∧ PartEntry.mode PartEntry.free 1 ≠ 2 := by decide

/-- An access that waits for the aperture, and none; closes and opens with a check, with the link's feature and without it. -/
theorem test_meets_aperture_and_gates :
    let s := linkState 2
    let w : State := { s with agenda := [.apertureRead 0x1000 8 1] }
    apertureCore 0x1000 = apertureCore 0x2000 ∧ apertureCore 0x1000 ≠ apertureCore 0x800000000 ∧ .apertureRead 0x1000 8 1 ∈ w.agenda ∧
    (∀ a m tag (bs : List Byte), Event.apertureRead a m tag ∉ s.agenda ∧ .apertureWrite a bs ∉ s.agenda) ∧
    s.turn ≠ .event (.apertureRead 0x2000 8 1) ∧ bit (hcmdOf 5 0 0 0 2).arg1 1 = true ∧ bit (hcmdOf 5 0 0 0 2).arg1 0 = false ∧
    (linkState 2).linkFeature 1 = true ∧ (stateOf []).linkFeature 1 = false := by
  exact ⟨by decide, by decide, .head _, (fun _ _ _ _ => ⟨(fun h => nomatch h), (fun h => nomatch h)⟩), by decide, by decide, by decide,
    by decide, by decide⟩

/-- A partition that has ended since its LNCH, and one that has not; a queue that starts its first period and one that ends a period. -/
theorem test_meets_submissions :
    let s := stateOf []
    let d : State := { s with launch := s.launch.set 0 { LaunchQ.reset with dl := 5 } }
    (s.part.get 0).state ≠ 0 ∧ (s.part.get 0).state ≠ 5 ∧ PartEntry.free.state = 0 ∧ (s.launch.get 0).dl = BitVec.allOnes 64 ∧
    (d.launch.get 0).dl ≠ BitVec.allOnes 64 := by decide

/-- Registers in stream mode and not; an image inside memory, one that ends past the usable memory, and one over a sealed region. -/
theorem test_meets_privileged_streams :
    let s := stateOf [(1, 5)]
    let t := s.modMe (fun c => { c with streams := [(1, stream1 2 0)] })
    let z : State := { s with sealed_ := s.sealed_.set 0 { s.sealed_.get 0 with base := 0x501000, size := 0x1000 } }
    (assocGet t.me.streams 1).isSome = true ∧ (∀ k ∈ [1, 2, 3], assocGet s.me.streams k = none) ∧
    s.keptFrom 0x500000 0x1000 = false ∧ s.keptFrom (2 ^ 39 - 2 ^ 26) 1 = true ∧ z.keptFrom 0x500000 0x1001 = true ∧
    s.holdsOp issuesJob = false ∧ 0x002 ∈ specialRegs ∧ 0x002 ∉ [0, 1, 6, 7, 0xD] ∧ 0x00F ∉ specialRegs := by decide

/-- An ordered task that runs in context 0 and holds back a copy: MFS of JOB.LAST waits, and its trap and its clock wait once it is
irrevocable. -/
theorem test_meets_held_copy :
    let o : OrdTask := { ord1 with state := .running, irrevocable := true, serial := 7, held := [{ instr := .xcopy 2, dsts := [], core := 0, cidx := 0, snapshot := Ctx.idle }] }
    let s : State := { (stateOf []).modCluster 0 (fun c => { c with ord := [o] }) with tasks := [(7, { task7 with ordered := some (0, 5) })] }
    s.holdsOp issuesJob = true ∧ s.heldBack 0 0 = true ∧ (stateOf []).heldBack 0 0 = false := by decide

/-- A translation that no engine keeps waiting. -/
theorem test_meets_walks : (stateOf []).walkBusy 0 0 0x20000040 = false ∧ (stateOf []).walkBusy 0 0 0x8000000000 = false := by decide

/-- A queued task bound to a sealed region. -/
theorem test_meets_bound_entry : ({ entry1 with sreg := 1 } : TaskEntry).sreg ≠ 0 ∧ entry1.sreg = 0 := by decide

/-- A put of the range that waited at A; a handoff of another span of the partition at B. -/
theorem test_meets_handoff_queue :
    let h : Handoff := { part := 0, lo := 3, last := 9, a := 0, b := 1, src := ⟨0, 0, 6, 7⟩, srcDev := 0 }
    let k := (tupleState [] []).slice.get (sliceOf (f0Of (treq .put 0).key))
    (treq .put 0).kind = .put ∧ h.lo ≤ f0Of (treq .put 0).key ∧ f0Of (treq .put 0).key ≤ h.last ∧ (treq .put 0).part = h.part ∧
    (tupleState [] []).built h.part = true ∧ k.waiters = [] ∧ k.conts = [] ∧ k.indexFull = false ∧
    sameHandoff { h with lo := 20, last := 30 } h = false := by decide

/-! ## Single instructions, with results from the examples of the spec or worked by hand from its tables -/

/-- The instruction answers a next state of which `f` holds. -/
def gives (i : Instr) (s : State) (f : State → Bool) : Bool :=
  match exec i s with
  | .next t => f t
  | _ => false

/-- Register `k` of the running context holds `v` afterwards. -/
def givesG (i : Instr) (s : State) (k : Nat) (v : Word) : Bool := gives i s (fun t => t.me.g.get k == v)

/-- A vector of sixteen 32-bit lanes, the ones not listed zero. -/
def vec32 (xs : List Nat) : Vec := ofLanes 32 (xs ++ List.replicate (16 - xs.length) 0)

/-- Window 0 with the given vector registers. -/
def withV (s : State) (vs : List (Nat × Vec)) : State :=
  s.modWin 0 (fun w => { w with v := vs.foldl (fun t p => t.set p.1 p.2) w.v })

/-- The first lanes of vector register `k` are `xs` afterwards. -/
def givesV (i : Instr) (s : State) (k : Nat) (xs : List Nat) : Bool :=
  gives i s (fun t => (List.range xs.length).map (lane ((t.winAt 0).v.get k) 32) == xs)

/-- "Allocating slots" (after R347): FFCS takes bit 3 of 0xB7, and bit 8 of 0xFF. -/
theorem test_ffcs : gives (.ffcs 4 2) (stateOf [(2, 0xB7)]) (fun t => t.me.g.get 4 == 3 && t.me.g.get 2 == 0xBF) = true ∧
    gives (.ffcs 4 2) (stateOf [(2, 0xFF)]) (fun t => t.me.g.get 4 == 8 && t.me.g.get 2 == 0x1FF) = true := by decide +kernel

/-- The same example: the first PLSET stays within 12 bits, the second does not. -/
theorem test_plset :
    gives (.plset 6 2 7 12) (stateOf [(2, 0x1FF), (7, 0x3000)]) (fun t => t.me.g.get 6 == 0 && t.me.g.get 2 == 0x31FF) = true ∧
    gives (.plset 8 2 7 12) (stateOf [(2, 0x31FF), (7, 0xC000)]) (fun t => t.me.g.get 8 == 1 && t.me.g.get 2 == 0x31FF) = true := by
  decide +kernel

/-- The same example: LOOP counts down and is taken while the count is not zero; slot 0 of the next line is a bad target here. -/
theorem test_loop : gives (.loop 3 1) (stateOf [(3, 2)]) (fun t => t.me.g.get 3 == 1 && t.me.pc == 0x100001) = true ∧
    gives (.loop 3 1) (stateOf [(3, 1)]) (fun t => t.me.g.get 3 == 0 && t.me.pc == 0x100001) = true ∧
    gives (.loop 3 0) (stateOf [(3, 1)]) (fun t => t.me.g.get 3 == 0 && t.me.pc == 0x100001) = true := by decide +kernel

/-- R334 by hand: .i8 wraps to -128, and saturates to 127; MULHN.n32; MIN.n32 compares signed and zero-extends. -/
theorem test_arithmetic : givesG (.add 1 2 3 0 false) (stateOf [(2, 0x7F), (3, 1)]) 1 0xFFFFFFFFFFFFFF80 = true ∧
    givesG (.add 1 2 3 0 true) (stateOf [(2, 0x7F), (3, 1)]) 1 0x7F = true ∧
    givesG (.mulhn 1 2 3 6) (stateOf [(2, 0xFFFFFFFF), (3, 0xFFFFFFFF)]) 1 0xFFFFFFFE = true ∧
    givesG (.min 1 2 3 6) (stateOf [(2, 0xFFFFFFFF), (3, 1)]) 1 0xFFFFFFFF = true := by decide +kernel

/-- R335 and R336 by hand: -7 / 2 and its remainder; a count of w + 1 shifts by 1; ROL.n8. -/
theorem test_divide_and_shift : givesG (.div 1 2 3 3) (stateOf [(2, 0xFFFFFFFFFFFFFFF9), (3, 2)]) 1 0xFFFFFFFFFFFFFFFD = true ∧
    givesG (.rem 1 2 3 3) (stateOf [(2, 0xFFFFFFFFFFFFFFF9), (3, 2)]) 1 0xFFFFFFFFFFFFFFFF = true ∧
    givesG (.shl 1 2 3 4) (stateOf [(2, 0x81), (3, 9)]) 1 2 = true ∧ givesG (.rol 1 2 3 4) (stateOf [(2, 0x81), (3, 1)]) 1 3 = true := by
  decide +kernel

/-- R356: an AADD returns the old value and stores the sum; an ACAS that does not match returns the old value and stores nothing. -/
theorem test_atomics :
    let s := (stateOf [(5, 0x20000040), (6, 3), (7, 9)]).putBytes 0x20000040 [5]
    gives (.aadd 2 5 6 0 3 4 0) s (fun t => t.me.g.get 2 == 5 && memRead t.mem 0x20000040 == 8) = true ∧
    gives (.acas 2 5 6 7 0 3 4 0) s (fun t => t.me.g.get 2 == 5 && memRead t.mem 0x20000040 == 5) = true := by decide +kernel

/-- "Scaling E4M3 codes" (after R383): VLD.f32 of the codes 38 41 7E B8 gives 1, 2.25, 448 and -1. -/
theorem test_vld_e4m3 :
    givesV (.vld 1 ⟨2, 0, false, 0, 0⟩ 10) ((stateOf [(2, 0x2030000000000100)]).putBytes (spadLoc 0 0x100) [0x38, 0x41, 0x7E, 0xB8]) 1
      [0x3F800000, 0x40100000, 0x43E00000, 0xBF800000, 0] = true := by decide +kernel

/-- The same example: VMUL.f32 under m0 scales lanes 0 to 7 and leaves the others. -/
theorem test_vmul_masked :
    givesV (.vmul 1 1 2 10 8 false)
      ((withV (stateOf []) [(1, vec32 (List.replicate 16 0x40100000)), (2, vec32 (List.replicate 16 0x3FC00000))]).modWin 0
        (fun w => { w with m := w.m.set 0 0xFF })) 1
      (List.replicate 8 0x40580000 ++ List.replicate 8 0x40100000) = true := by decide +kernel

/-- The examples under R237: 0.3, 0.296875, 1,000 and -0 into table 0 at reset. -/
theorem test_nearest_code :
    (List.map (fun x => storeConv Core.reset ((Core.reset.elem 8).getD .raw) 10 x 0) [0x3E99999A, 0x3E980000, 0x447A0000, 0x80000000]) =
      [0x2A, 0x2A, 0x7E, 0x80] := by decide +kernel

/-- The example under R141: the scale byte of the elements from 0x1000 with BLOG 5. -/
theorem test_scale_byte :
    let s := (stateOf [])
    let s : State := { s with part := s.part.set 0 { s.part.get 0 with ssb := 0x2000000000000 } }
    s.scalePtr (BitVec.ofNat 64 (8 * 2 ^ 58 + 5 * 2 ^ 54 + 0x1000)) 0x1000 = 0x2A00000000080 ∧
    s.scalePtr (BitVec.ofNat 64 (8 * 2 ^ 58 + 5 * 2 ^ 54 + 0x1000)) 0x101F = 0x2A00000000080 := by decide

/-- The example of R246: bounds 0.5 and 0.25 and a largest result of 150 give the bound word 0x3F400097. -/
theorem test_eadd_bound :
    gives (.eadd 2 0 1) ((stateOf []).modWin 0 (fun w => { w with
        b := (w.b.set 0 (vec32 [0x42C80000])).set 1 (vec32 [0x42480000]), bound := (w.bound.set 0 0x3F000000#32).set 1 0x3E800000#32 }))
      (fun t => (t.winAt 0).bound.get 2 == 0x3F400097#32 && lane ((t.winAt 0).b.get 2) 32 0 == 0x43160000) = true := by decide +kernel

/-- "Eliminating two variables" (after R212): Λ'00 = 1.1875 and η'0 = 0.1875. -/
theorem test_gelim :
    let j := withV (stateOf []) [(4, vec32 [0x40400000, 0x3F800000, 0x40400000, 0, 0, 0, 0, 0, 0, 0x40800000, 0x40000000]),
      (5, vec32 [0, 0, 0x40A00000]), (8, vec32 [0x40000000, 0x3F800000, 0x40400000])]
    givesV (.gelim 10 4 8 11 0 1) j 10 (0x3F980000 :: List.replicate 15 0) = true ∧
    givesV (.gelim 10 4 8 11 0 1) j 11 (0x3E400000 :: List.replicate 15 0) = true := by decide +kernel

/-- The same example with a zero block: SINGULAR at pivot 0, EINFO of R212. -/
theorem test_gelim_singular :
    gives (.gelim 10 4 8 11 0 1) (withV (stateOf []) [(4, vec32 [0x40400000])])
      (fun t => (t.me.heldTrap.isSome || t.me.phase == .parked) && t.me.trap.einfo == 8 && (t.winAt 0).v.get 10 == 0) = true := by
  decide +kernel

/-- The example of R216: a post to node 3 merges and answers OK, one below RTHR answers EMPTY; node 7, then 3, then 9 start. -/
theorem test_residual_queue :
    let e (n : Nat) (r : W32) : ResidEntry := ⟨n, r, 0x100000, 0, 0, 0⟩
    let s := (stateOf [(1, 3), (2, 0x3E800000), (3, 0x100000), (4, 4), (5, 0x3BA3D70A)]).modCore 0 (fun c => { c with
      residq := [e 9 0x3F000000#32, e 3 0x3F000000#32, e 7 0x40000000#32], gcfg := 0x3C23D70A35800000 })
    gives (.gpost 6 1 2 3 4) s (fun t => t.me.g.get 6 == 0 &&
      (t.coreAt 0).residq.map (fun x => (x.node, x.resid)) == [(9, 0x3F000000#32), (3, 0x3F000000#32), (7, 0x40000000#32)]) = true ∧
    gives (.gpost 6 4 5 3 4) s (fun t => t.me.g.get 6 == 2 && (t.coreAt 0).residq.length == 3) = true ∧
    gives (.taskStart 0) s (fun t => (t.ctxAt 0 1).phase == .running && bits (t.ctxAt 0 1).ident.taskId 23 0 == 7 &&
      (t.coreAt 0).residq.map (fun x => x.node) == [9, 3]) = true := by decide +kernel

/-- The example under R203: the product of (3, -2, 5, 0) with bound 1.8125; a reading of 6.5 is within it, 8 is not; the reference
column reads 42 + 1 and drifts. -/
theorem test_crossbar_bound :
    let x : XbarArray := { XbarArray.reset with
      beta := 0x3D000000#32, gamma := 0x3FC00000#32, calok := true,
      weights := [(0, 1), (512, 2), (1024, -1), (1536, 4)].foldl (fun (t : Tab Int) p => t.set p.1 p.2) (Tab.const 0) }
    let c := { xcmd 0 4 true with xs := [3, -2, 5, 0] }
    drive [0x03, 0xFE, 0x05, 0x00] = [3, -2, 5, 0] ∧ toF32 (x.exactBound c.xs) = 0x3FE80000#32 ∧
    within (-104) (-6) (x.exactBound c.xs) = true ∧ within (-128) (-6) (x.exactBound c.xs) = false ∧
    within (42 * 16 + 16) 42 ((x.exactBound c.xs).scale (-1)) = false ∧
    within (42 * 16 + 14) 42 ((x.exactBound c.xs).scale (-1)) = true := by decide +kernel

/-- The example of R218: element (18, 40) is in bank 2, row 0, column 6 of the region, on channel 7. -/
theorem test_bank_place : groupLoc 39 { base := 0x1000200000, row := 0, writable := true } 2 6 + 16 = 0x1000218E50 := by decide

/-- The example of R49: (3, 1, 2) with (1, 4, 8), and with the identity. -/
theorem test_rescale :
    let a : List W32 := [0x40400000#32, 0x3F800000#32] ++ List.replicate 16 0x40000000#32
    rescale a ([0x3F800000#32, 0x40800000#32] ++ List.replicate 16 0x41000000#32) =
      [0x40400000#32, 0x40000000#32] ++ List.replicate 16 0x40800000#32 ∧
    rescale ([0xFF800000#32, 0x00000000#32] ++ List.replicate 16 0#32) a = a := by decide +kernel

/-- The example of R78: the sub-tiles of a squad of four over 100 by 30. -/
theorem test_subtiles :
    let r : LaunchRec := { uid := 1, bytes := blockOf 64 [(24, 4, 100), (28, 4, 30), (32, 4, 32), (36, 4, 16)], placed := 0,
                           dep0 := true, dep1 := true }
    let t (i k : Nat) := let x := r.ident 0 i k 4 k 0; (x.org0, x.ext0, x.org1, x.ext1)
    (List.range 4).map (t 0) = [(0, 32, 0, 16), (32, 32, 0, 16), (64, 32, 0, 16), (96, 4, 0, 16)] ∧
    (List.range 4).map (t 1) = [(0, 32, 16, 14), (32, 32, 16, 14), (64, 32, 16, 14), (96, 4, 16, 14)] := by decide +kernel

/-- A misaligned load traps ALIGN with EINFO = 2 (R348, the example after R364), and the context parks. -/
theorem test_misaligned_load :
    gives (.ld 1 ⟨3, 4, true, 1, 8⟩ 5 3 1) (stateOf [(3, 0x20000041), (4, 4)])
      (fun t => t.me.phase == .parked && bits t.me.trap.ecause 7 0 == 6 && t.me.trap.einfo == 2 && t.me.trap.eaddr == 0x20000051 &&
        t.me.trap.epc == 0x100000) = true := by decide +kernel

/-- MACB by hand (R224): sixteen ones of bank 4, times X of ones, add 16 to lane 4 of a2, and no other lane changes. -/
theorem test_macb :
    let s := ((nbState 7 true).putBytes (groupLoc 2 { base := 0x200000, row := 1, writable := true } 4 6)
      ((List.range 16).flatMap (fun _ => [0x80, 0x3F]))).modUnit 2 (fun y => { y with x := Tab.const 0x3F80#16 })
    gives (.nbuMacb 2 0 1) s (fun t => (t.unitAt 2).pc == 8 &&
      (List.range 16).map (fun e => (t.unitAt 2).a.get (32 + e)) == [0, 0, 0, 0, 0x41800000#32, 0, 0, 0, 0, 0, 0, 0, 0, 0, 0, 0]) = true := by
  decide +kernel
end Sys2Proof.Tests
end

section
/-! Memory: what is read after a write of a byte and of bytes, and that the canonical form is one list for each content (R5, R24). -/

namespace Sys2Proof.Machine

theorem memRead_nil (a : Nat) : memRead [] a = 0 := rfl

theorem memRead_cons (j a : Nat) (b : Byte) (r : List Host.Cell) :
    memRead ((j, b) :: r) a = if a = j then b else if a < j then 0 else memRead r a := rfl

/-- A write below a first entry lists the new byte before it. -/
theorem memWrite_cons_of_lt {a j : Nat} (h : a < j) (b c : Byte) (r : List Host.Cell) :
    memWrite ((j, c) :: r) a b = if b = 0 then (j, c) :: r else (a, b) :: (j, c) :: r := by
  rw [memWrite, if_pos h]

theorem memWrite_cons_self (j : Nat) (b c : Byte) (r : List Host.Cell) :
    memWrite ((j, c) :: r) j b = if b = 0 then r else (j, b) :: r := by
  rw [memWrite, if_neg (Nat.lt_irrefl j), if_pos rfl]

theorem memWrite_cons_of_gt {a j : Nat} (h : j < a) (b c : Byte) (r : List Host.Cell) :
    memWrite ((j, c) :: r) a b = (j, c) :: memWrite r a b := by
  rw [memWrite, if_neg (Nat.lt_asymm h), if_neg (Nat.ne_of_gt h)]

/-- A canonical memory reads, after the write of a byte, that byte at its address and what it read before at every other. -/
theorem memRead_memWrite {m : List Host.Cell} (h : Memory.wf m = true) (a : Nat) (b : Byte) (j : Nat) :
    memRead (memWrite m a b) j = if j = a then b else memRead m j := by
  induction m with
  | nil =>
    rw [memWrite]
    split
    · next hb => rw [hb]; simp [memRead_nil]
    · rw [memRead_cons]; simp [memRead_nil]
  | cons p r ih =>
    obtain ⟨k, d⟩ := p
    obtain ⟨-, low, w⟩ := (Memory.wf_cons k d r).mp h
    have below : ∀ i, i ≤ k → memRead r i = 0 := fun i hi => memRead_below fun c m => Nat.lt_of_le_of_lt hi (low c m)
    rcases Nat.lt_trichotomy a k with lt | rfl | gt
    · rw [memWrite_cons_of_lt lt]
      by_cases hb : b = 0
      · rw [if_pos hb]
        split
        · next e => rw [memRead_cons, if_neg (by omega), if_pos (by omega), hb]
        · rfl
      · rw [if_neg hb, memRead_cons]
        split
        · rfl
        · split
          · rw [memRead_cons, if_neg (by omega), if_pos (by omega)]
          · rfl
    · rw [memWrite_cons_self]
      by_cases hb : b = 0
      · rw [if_pos hb, memRead_cons]
        split
        · next e => rw [below j (Nat.le_of_eq e), hb]
        · split
          · next lt => exact below j (Nat.le_of_lt lt)
          · rfl
      · rw [if_neg hb, memRead_cons, memRead_cons]
        split <;> rfl
    · rw [memWrite_cons_of_gt gt, memRead_cons, memRead_cons, ih w]
      split
      · rw [if_neg (by omega)]
      · split
        · rw [if_neg (by omega)]
        · rfl

/-- Bytes written outside a location leave what is read there. -/
theorem memRead_memWriteBytes_outside {m : List Host.Cell} (h : Memory.wf m = true) (loc : Nat) (bs : List Byte) {j : Nat}
    (out : j < loc ∨ loc + bs.length ≤ j) : memRead (memWriteBytes m loc bs) j = memRead m j := by
  induction bs generalizing m loc with
  | nil => rfl
  | cons b r ih =>
    rw [List.length_cons] at out
    rw [memWriteBytes, ih (memWrite_wf h loc b) (loc + 1) (by omega), memRead_memWrite h, if_neg (by omega)]

/-- The bytes written are the bytes read. -/
theorem memBytes_memWriteBytes {m : List Host.Cell} (h : Memory.wf m = true) (loc : Nat) (bs : List Byte) :
    memBytes (memWriteBytes m loc bs) loc bs.length = bs := by
  induction bs generalizing m loc with
  | nil => rfl
  | cons b r ih =>
    have first : memRead (memWriteBytes (memWrite m loc b) (loc + 1) r) loc = b := by
      rw [memRead_memWriteBytes_outside (memWrite_wf h loc b) _ _ (.inl (Nat.lt_succ_self loc)), memRead_memWrite h, if_pos rfl]
    rw [memWriteBytes, List.length_cons, memBytes, first, ih (memWrite_wf h loc b) (loc + 1)]

/-- Every entry of a canonical memory is one of a canonical memory that reads the same. -/
theorem mem_of_reads_alike {m n : List Host.Cell} (hm : Memory.wf m = true) (alike : ∀ a, memRead m a = memRead n a)
    {c : Host.Cell} (i : c ∈ m) : c ∈ n := by
  have nz : ∀ {l : List Host.Cell}, Memory.wf l = true → c ∈ l → c.2 ≠ 0 := by
    intro l w i
    induction l with
    | nil => cases i
    | cons p r ih =>
      obtain ⟨pnz, -, w'⟩ := (Memory.wf_cons p.1 p.2 r).mp w
      rcases List.mem_cons.mp i with rfl | i
      · exact pnz
      · exact ih w' i
  have reads : memRead n c.1 = c.2 := (alike c.1).symm.trans (memRead_of_mem hm i)
  have listed : (c.1, memRead n c.1) ∈ n := mem_of_memRead (reads.symm ▸ nz hm i)
  rwa [reads] at listed

/-- The addresses of a canonical memory rise strictly. -/
theorem Memory.wf_pairwise {m : List Host.Cell} (h : Memory.wf m = true) : m.Pairwise (fun c d => c.1 < d.1) := by
  induction m with
  | nil => exact .nil
  | cons p r ih =>
    obtain ⟨-, low, w⟩ := (Memory.wf_cons p.1 p.2 r).mp h
    exact .cons low (ih w)

/-- Canonical memories that read alike are one list: they have the same entries, in the same order. -/
theorem Memory.wf_ext {m n : List Host.Cell} (hm : Memory.wf m = true) (hn : Memory.wf n = true)
    (alike : ∀ a, memRead m a = memRead n a) : m = n := by
  have sm := Memory.wf_pairwise hm
  have sn := Memory.wf_pairwise hn
  have nodup : ∀ {l : List Host.Cell}, l.Pairwise (fun c d => c.1 < d.1) → l.Nodup :=
    fun s => s.imp fun {c d} (lt : c.1 < d.1) (e : c = d) => absurd (congrArg Prod.fst e) (Nat.ne_of_lt lt)
  have perm : m.Perm n := (List.perm_ext_iff_of_nodup (nodup sm) (nodup sn)).mpr fun c =>
    ⟨mem_of_reads_alike hm alike, mem_of_reads_alike hn fun a => (alike a).symm⟩
  exact perm.eq_of_pairwise (fun c d _ _ lt gt => absurd lt (Nat.lt_asymm gt)) sm sn

/-- Settles O9: the rules of a written byte, carried along the bytes of a write, and the extensionality of the canonical form. -/
theorem memoryLaws : Obligations.MemoryLaws := by
  refine ⟨⟨fun m a b h => ⟨memWrite_wf h a b, ?_, fun j ne => ?_⟩,
    fun s loc bs h => ⟨putBytes_wf h loc bs, memBytes_memWriteBytes h loc bs, fun j => memRead_memWriteBytes_outside h loc bs⟩⟩,
    fun m n => Memory.wf_ext⟩
  · rw [memRead_memWrite h, if_pos rfl]
  · rw [memRead_memWrite h, if_neg ne]

end Sys2Proof.Machine
end

section
/-! What the end of a partition leaves of the device: the partition table but for that partition's STATE, the security state, and the
entries of the event log (R172, R274, R277, R283). -/

namespace Sys2Proof.Machine

/-- From `s` to `t` the partition table and the security state stand, and the event log at most gains entries. -/
structure State.KeepsRecords (s t : State) : Prop where
  part : t.part = s.part
  sec : t.sec = s.sec
  log : s.mgmtLog <+: t.mgmtLog

namespace State.KeepsRecords

theorem of_eq {s t : State} (p : t.part = s.part) (c : t.sec = s.sec) (l : t.mgmtLog = s.mgmtLog) : s.KeepsRecords t :=
  ⟨p, c, l ▸ List.prefix_refl _⟩

theorem refl (s : State) : s.KeepsRecords s := of_eq rfl rfl rfl

theorem trans {s t u : State} (h : s.KeepsRecords t) (g : t.KeepsRecords u) : s.KeepsRecords u :=
  ⟨g.part.trans h.part, g.sec.trans h.sec, h.log.trans g.log⟩

/-- A fold keeps the records when each of its steps does. -/
theorem foldl {α : Type} {f : State → α → State} (h : ∀ (s : State) (a : α), s.KeepsRecords (f s a)) (l : List α) (s : State) :
    s.KeepsRecords (l.foldl f s) := by
  induction l generalizing s with
  | nil => exact refl s
  | cons a r ih => exact (h s a).trans (ih (f s a))

end State.KeepsRecords

open State (KeepsRecords)

/-! ## The tuple space -/

theorem tupleTo_keepsRecords (s : State) (d : Nat) (r : TupleReq) : s.KeepsRecords (s.tupleTo d r) := by
  unfold State.tupleTo
  split <;> exact .of_eq rfl rfl rfl

theorem tupleStatus_keepsRecords (s : State) (r : TupleReq) (st : Nat) : s.KeepsRecords (s.tupleStatus r st) := by
  unfold State.tupleStatus State.tupleReply
  split <;> exact .of_eq rfl rfl rfl

theorem modSlice_keepsRecords (s : State) (n : Nat) (f : Slice → Slice) : s.KeepsRecords (s.modSlice n f) := .of_eq rfl rfl rfl

theorem deliver_keepsRecords (s : State) (t : Tuple) (r : TupleReq) (take : Bool) : s.KeepsRecords (s.deliver t r take) :=
  .of_eq rfl rfl rfl

theorem handoffSend_keepsRecords (s : State) (h : Handoff) (i : HandoffItem) : s.KeepsRecords (s.handoffSend h i) :=
  .of_eq rfl rfl rfl

theorem mirror_keepsRecords (s : State) (part f : Nat) (i : HandoffItem) : s.KeepsRecords (s.mirror part f i) := by
  unfold State.mirror
  split
  · split
    · exact handoffSend_keepsRecords ..
    · exact .refl s
  · exact .refl s

theorem servePut_keepsRecords (s : State) (r : TupleReq) : s.KeepsRecords (s.servePut r) := by
  unfold State.servePut
  dsimp only
  split
  · exact tupleStatus_keepsRecords ..
  refine .trans ?_ (tupleStatus_keepsRecords ..)
  split
  · refine .trans (.trans ?_ (deliver_keepsRecords ..)) (modSlice_keepsRecords ..)
    exact .foldl (fun x (w : Waiter) => .trans (deliver_keepsRecords x _ w.req false) (modSlice_keepsRecords ..)) _ s
  · refine .trans (.trans ?_ (modSlice_keepsRecords ..)) (mirror_keepsRecords ..)
    exact .foldl (fun x (w : Waiter) => .trans (deliver_keepsRecords x _ w.req false) (modSlice_keepsRecords ..)) _ s

theorem serveRead_keepsRecords (s : State) (r : TupleReq) : s.KeepsRecords (s.serveRead r) := by
  unfold State.serveRead
  dsimp only
  split
  · split
    · refine .trans ?_ (tupleStatus_keepsRecords ..)
      split
      · exact ((deliver_keepsRecords ..).trans (modSlice_keepsRecords ..)).trans (mirror_keepsRecords ..)
      · exact deliver_keepsRecords ..
    · split
      · exact ((deliver_keepsRecords ..).trans (modSlice_keepsRecords ..)).trans (mirror_keepsRecords ..)
      · exact deliver_keepsRecords ..
  · split
    · exact tupleStatus_keepsRecords ..
    · split
      · exact tupleStatus_keepsRecords ..
      · exact modSlice_keepsRecords ..
    · split
      · exact tupleStatus_keepsRecords ..
      · exact (modSlice_keepsRecords ..).trans (tupleStatus_keepsRecords ..)

theorem serveCancel_keepsRecords (s : State) (r : TupleReq) : s.KeepsRecords (s.serveCancel r) := by
  unfold State.serveCancel
  dsimp only
  split
  · exact (modSlice_keepsRecords ..).trans (tupleStatus_keepsRecords ..)
  · exact tupleStatus_keepsRecords ..

theorem withdrawn_keepsRecords (s : State) (r : TupleReq) : s.KeepsRecords (s.withdrawn r) := by
  unfold State.withdrawn
  dsimp only
  split
  · exact .refl s
  · exact .of_eq rfl rfl rfl

theorem serveWithdraw_keepsRecords (s : State) (r : TupleReq) : s.KeepsRecords (s.serveWithdraw r) := by
  unfold State.serveWithdraw
  dsimp only
  split
  · exact .refl s
  · split
    · exact (modSlice_keepsRecords ..).trans (withdrawn_keepsRecords ..)
    · exact .of_eq rfl rfl rfl

theorem withdrawAt_keepsRecords (s : State) (r : TupleReq) : s.KeepsRecords (s.withdrawAt r) := by
  unfold State.withdrawAt
  split
  · exact withdrawn_keepsRecords ..
  split
  · exact .refl s
  split
  · exact .refl s
  split
  · exact tupleTo_keepsRecords ..
  split
  · split
    · exact .of_eq rfl rfl rfl
    · exact serveWithdraw_keepsRecords ..
  · exact serveWithdraw_keepsRecords ..

/-- A request at its home keeps the records when its service does. -/
theorem atHome_keepsRecords (s : State) (r : TupleReq) {serve : State → State} (h : ∀ x : State, x.KeepsRecords (serve x)) :
    s.KeepsRecords (s.atHome r serve) := by
  unfold State.atHome
  dsimp only
  split
  · exact tupleStatus_keepsRecords ..
  split
  · exact tupleStatus_keepsRecords ..
  split
  · split
    · exact tupleTo_keepsRecords ..
    · exact (tupleTo_keepsRecords s _ r).trans (.of_eq rfl rfl rfl)
  split
  · split
    · exact .of_eq rfl rfl rfl
    · exact h s
  · exact h s

theorem serveReq_keepsRecords (s : State) (r : TupleReq) : s.KeepsRecords (s.serveReq r) := by
  unfold State.serveReq
  split
  · exact atHome_keepsRecords s r fun x => servePut_keepsRecords x r
  · exact atHome_keepsRecords s r fun x => serveRead_keepsRecords x r
  · exact atHome_keepsRecords s r fun x => serveRead_keepsRecords x r
  · exact atHome_keepsRecords s r fun x => serveCancel_keepsRecords x r
  · exact withdrawAt_keepsRecords s r

/-! ## Handoffs -/

theorem handoffStatus_keepsRecords (s : State) (h : Handoff) (w : Word) : s.KeepsRecords (s.handoffStatus h w) := by
  unfold State.handoffStatus
  split <;> exact .of_eq rfl rfl rfl

theorem clearSpan_keepsRecords (s : State) (h : Handoff) : s.KeepsRecords (s.clearSpan h) := by
  unfold State.clearSpan
  exact .foldl (fun x n => modSlice_keepsRecords x n _) _ s

theorem dropTarget_keepsRecords (s : State) (h : Handoff) : s.KeepsRecords (s.dropTarget h) := by
  unfold State.dropTarget
  extract_lets mine s1
  have released : (s.clearSpan h).KeepsRecords s1 := .foldl (fun x (c : Nat × Nat × Nat) => modSlice_keepsRecords x c.1 _) mine _
  exact ((clearSpan_keepsRecords s h).trans released).trans (.of_eq rfl rfl rfl)

theorem unsplit_keepsRecords (s : State) (x : HandoffState) : s.KeepsRecords (s.unsplit x) := by
  unfold State.unsplit
  refine .trans ?_ (.foldl serveReq_keepsRecords _ _)
  exact .of_eq rfl rfl rfl

theorem handoffsKill_keepsRecords (s : State) (part : Nat) : s.KeepsRecords (s.handoffsKill part) := by
  unfold State.handoffsKill
  refine .foldl (fun y x => ?_) _ s
  extract_lets z
  have told : y.KeepsRecords z := by
    unfold z
    split
    · exact .refl y
    · exact handoffSend_keepsRecords ..
  refine told.trans ?_
  clear_value z
  split
  · exact ((unsplit_keepsRecords ..).trans (clearSpan_keepsRecords ..)).trans (handoffStatus_keepsRecords ..)
  · exact dropTarget_keepsRecords ..

/-! ## Blocked requests, near-bank units, recalls, budgets and sealed regions -/

theorem killBlocked_keepsRecords (s : State) (core k : Nat) : s.KeepsRecords (s.killBlocked core k) := by
  unfold State.killBlocked
  refine .foldl (fun x r => ?_) _ s
  split
  · split
    · exact .refl x
    · exact tupleTo_keepsRecords ..
  · exact .refl x

theorem recall_keepsRecords (s : State) (line : Nat) : s.KeepsRecords (s.recall line) := by
  rw [recall_eq]
  exact .of_eq rfl rfl rfl

theorem recallRange_keepsRecords (s : State) (loc n : Nat) : s.KeepsRecords (s.recallRange loc n) := by
  rw [recallRange_eq]
  exact .of_eq rfl rfl rfl

theorem nbAnswer_keepsRecords (s : State) (d : Option RegDest) (r : Reply) : s.KeepsRecords (s.nbAnswer d r) := by
  unfold State.nbAnswer
  split <;> exact .of_eq rfl rfl rfl

theorem ordinary_keepsRecords (s : State) (a : OrdinaryAccess) : s.KeepsRecords (s.ordinary a) := by
  unfold State.ordinary
  split
  · next pa n d =>
    refine (recallRange_keepsRecords s pa n).trans ?_
    dsimp only
    split <;> exact .of_eq rfl rfl rfl
  · exact (recallRange_keepsRecords ..).trans (.of_eq rfl rfl rfl)

theorem serveWaiting_keepsRecords (s : State) (u : Nat) : s.KeepsRecords (s.serveWaiting u) := by
  unfold State.serveWaiting
  refine .trans ?_ (.foldl ordinary_keepsRecords _ _)
  exact .of_eq rfl rfl rfl

theorem nbNormal_keepsRecords (s : State) (u : Nat) : s.KeepsRecords (s.nbNormal u) := by
  unfold State.nbNormal
  extract_lets x s1 s2
  have stopped : s.KeepsRecords s1 := (serveWaiting_keepsRecords s u).trans (nbAnswer_keepsRecords ..)
  have answered : s1.KeepsRecords s2 := .foldl (fun y d => nbAnswer_keepsRecords y (some d) _) _ s1
  exact (stopped.trans answered).trans (.of_eq rfl rfl rfl)

theorem forceUnits_keepsRecords (s : State) (part : Nat) : s.KeepsRecords (s.forceUnits part) := by
  unfold State.forceUnits
  refine .foldl (fun x u => ?_) _ s
  unfold State.nbForce
  split
  · exact .refl x
  · exact nbNormal_keepsRecords ..

theorem charge_keepsRecords (s : State) : s.KeepsRecords s.charge := .of_eq rfl rfl rfl

theorem overrunCheck_keepsRecords (s : State) (q : Nat) : s.KeepsRecords (s.overrunCheck q) := by
  unfold State.overrunCheck
  dsimp only
  split
  · exact ⟨rfl, rfl, List.prefix_append ..⟩
  · exact .refl s

theorem unbind_keepsRecords (s : State) (sreg n : Nat) : s.KeepsRecords (s.unbind sreg n) := by
  unfold State.unbind
  dsimp only
  split
  · exact .refl s
  · split <;> exact .of_eq rfl rfl rfl

/-! ## The end of a partition -/

/-- A state with the records that the end of a partition makes: its entry FREE, and the rest as in `s` (R283). -/
structure State.Freed (s t : State) (part : Nat) : Prop where
  part : t.part = s.part.modify part (fun x => { x with state := 0 })
  sec : t.sec = s.sec
  log : s.mgmtLog <+: t.mgmtLog

/-- The end of a partition makes its entry FREE; all that happens before keeps the records (R283). -/
theorem killPart_freed (s : State) (part : Nat) : s.Freed (s.killPart part) part := by
  unfold State.killPart
  extract_lets e cls cores mine qs s0 a b gone swapped bound c d keep keepW clean jobs
  have blocked : s.KeepsRecords s0 := (handoffsKill_keepsRecords s part).trans
    (.foldl (fun x c => .foldl (fun y k => killBlocked_keepsRecords y c k) _ x) cores _)
  clear_value s0
  have recalled : s0.KeepsRecords b := ((charge_keepsRecords s0).trans (forceUnits_keepsRecords ..)).trans
    (.foldl (fun x (u : ULine) => recall_keepsRecords x u.line) _ a)
  clear_value b
  have settled : b.KeepsRecords c := .trans (.foldl (fun x (t : Nat × Task) => overrunCheck_keepsRecords x t.2.origq) gone b)
    (.foldl (fun x r => unbind_keepsRecords x r 1) bound _)
  clear_value c
  have answered : c.KeepsRecords d := by
    unfold d
    split
    · exact .of_eq rfl rfl rfl
    · exact .refl c
  clear_value d
  have kept : s.KeepsRecords d := ((blocked.trans recalled).trans settled).trans answered
  refine ⟨?_, kept.sec, kept.log⟩
  dsimp only
  rw [kept.part]

theorem endPartition_freed (s : State) (part : Nat) : s.Freed (s.endPartition part) part := by
  have freed := killPart_freed s part
  unfold State.endPartition
  generalize s.killPart part = t at freed
  exact ⟨freed.part, freed.sec, freed.log.trans (List.prefix_append ..)⟩

end Sys2Proof.Machine
end

section
/-! Islands in the windows of the power manager: what lowers and raises LIMIT, and what a window leaves (R16, R19 to R21). -/

namespace Sys2Proof.Machine

/-! ## LIMIT falls -/

/-- LIMIT one step lower; OP 1 is the lowest thermal limit (R19, log entry 22). -/
def lowerLimit (l : Nat) : Nat := if l ≤ 1 then l else l - 1

theorem lowerLimit_le (l : Nat) : lowerLimit l ≤ l := by
  unfold lowerLimit
  split <;> omega

theorem lowerLimit_of_lt {l : Nat} (h : 1 < l) : lowerLimit l = l - 1 := if_neg (Nat.not_le.mpr h)

/-- A change of point touches the island table and the agenda alone (R16). -/
@[simp] theorem State.limit_changePoint (s : State) (i j : Nat) :
    ((s.changePoint i).island.get j).limit = (s.island.get j).limit := by
  simp only [State.changePoint, State.push_island, Tab.get_modify]
  split
  · next e => rw [e]
  · rfl

theorem State.agenda_changePoint (s : State) (i : Nat) :
    (s.changePoint i).agenda = s.agenda ++ [.operatingPointChangeDone i] := rfl

/-- A fall of LIMIT touches the island table, the agenda, and the mark that a LIMIT has fallen. -/
theorem State.fallLimit_eq (s : State) (i : Nat) :
    s.fallLimit i = { s with island := (s.fallLimit i).island, agenda := (s.fallLimit i).agenda, stepped := (s.fallLimit i).stepped } := by
  unfold State.fallLimit
  split <;> rfl

theorem State.fallLimits_eq (s : State) (is : List Nat) :
    is.foldl State.fallLimit s = { s with island := (is.foldl State.fallLimit s).island, agenda := (is.foldl State.fallLimit s).agenda,
                                          stepped := (is.foldl State.fallLimit s).stepped } := by
  induction is generalizing s with
  | nil => rfl
  | cons i r ih => rw [List.foldl_cons, ih, State.fallLimit_eq]

theorem State.limit_fallLimit (s : State) (i j : Nat) :
    ((s.fallLimit i).island.get j).limit = if j = i then lowerLimit (s.island.get i).limit else (s.island.get j).limit := by
  unfold State.fallLimit lowerLimit
  split
  · split
    · next e => rw [e]
    · rfl
  · rw [State.limit_changePoint, Tab.get_modify]
    split <;> rfl

/-- Of islands that each fall once, LIMIT falls one step; that of every other stands. -/
theorem State.limit_fallLimits (s : State) {is : List Nat} (h : is.Nodup) (j : Nat) :
    ((is.foldl State.fallLimit s).island.get j).limit =
      if j ∈ is then lowerLimit (s.island.get j).limit else (s.island.get j).limit := by
  induction is generalizing s with
  | nil => rfl
  | cons i r ih =>
    obtain ⟨fresh, nodup⟩ := List.nodup_cons.mp h
    rw [List.foldl_cons, ih _ nodup, State.limit_fallLimit]
    by_cases e : j = i
    · simp [e, fresh]
    · simp [e]

theorem State.agenda_fallLimit (s : State) (i : Nat) : s.agenda <+: (s.fallLimit i).agenda := by
  unfold State.fallLimit
  split
  · exact List.prefix_refl _
  · exact List.prefix_append ..

theorem State.agenda_fallLimits (s : State) (is : List Nat) : s.agenda <+: (is.foldl State.fallLimit s).agenda := by
  induction is generalizing s with
  | nil => exact List.prefix_refl _
  | cons i r ih => exact (s.agenda_fallLimit i).trans (ih _)

/-- A fall of LIMIT starts a change of point. -/
theorem State.fallLimit_starts {s : State} {i : Nat} (h : 1 < (s.island.get i).limit) :
    .operatingPointChangeDone i ∈ (s.fallLimit i).agenda := by
  rw [State.fallLimit, if_neg (Nat.not_le.mpr h), State.agenda_changePoint]
  exact List.mem_append_right _ (.head _)

/-! ## The count of a window -/

/-- An island as the end of a window counts it (R21). -/
def State.counted (s : State) (low : Bool) (i : Nat) : Island :=
  let x := s.island.get i
  let now := x.gated || s.alarmed (i / 8)
  { x with quietWindows := if low && !now && !x.noisy then x.quietWindows + 1 else 0, sinceRise := x.sinceRise + 1, noisy := now }

theorem State.countWindow_eq (s : State) (low : Bool) (i : Nat) :
    s.countWindow low i = { s with island := s.island.set i (s.counted low i) } := rfl

@[simp] theorem State.limit_counted (s : State) (low : Bool) (i : Nat) : (s.counted low i).limit = (s.island.get i).limit := rfl

/-- The count of every island at the end of a window. -/
def State.countAll (s : State) (low : Bool) : State := (List.range 32).foldl (fun x i => x.countWindow low i) s

/-- The end of a window counts each island of a list once, and touches the island table alone. -/
theorem State.countWindows_eq (s : State) (low : Bool) {is : List Nat} (h : is.Nodup) :
    ∃ isl, is.foldl (fun x i => x.countWindow low i) s = { s with island := isl } ∧
      ∀ j, isl.get j = if j ∈ is then s.counted low j else s.island.get j := by
  induction is generalizing s with
  | nil => exact ⟨s.island, rfl, fun j => rfl⟩
  | cons i r ih =>
    obtain ⟨fresh, nodup⟩ := List.nodup_cons.mp h
    obtain ⟨isl, e, get⟩ := ih (s.countWindow low i) nodup
    refine ⟨isl, by rw [List.foldl_cons, e, State.countWindow_eq], fun j => ?_⟩
    rw [get]
    by_cases ji : j = i
    · simp [ji, fresh, State.countWindow_eq]
    · have other : (s.countWindow low i).island.get j = s.island.get j := Tab.get_set_ne _ _ _ _ ji
      have same : (s.countWindow low i).counted low j = s.counted low j := by
        unfold State.counted
        rw [other]
        rfl
      rw [same, other]
      simp [ji]

theorem State.countAll_eq (s : State) (low : Bool) : s.countAll low = { s with island := (s.countAll low).island } := by
  obtain ⟨isl, e, -⟩ := s.countWindows_eq low List.nodup_range (is := List.range 32)
  rw [State.countAll, e]

theorem State.island_countAll (s : State) (low : Bool) (j : Nat) :
    (s.countAll low).island.get j = if j < 32 then s.counted low j else s.island.get j := by
  obtain ⟨isl, e, get⟩ := s.countWindows_eq low List.nodup_range (is := List.range 32)
  rw [State.countAll, e]
  simpa using get j

@[simp] theorem State.limit_countAll (s : State) (low : Bool) (j : Nat) :
    ((s.countAll low).island.get j).limit = (s.island.get j).limit := by
  rw [State.island_countAll]
  split <;> rfl

/-! ## LIMIT rises -/

/-- LIMIT of an island one step higher, and a change of point under way (R21). -/
def State.raiseLimit (s : State) (i : Nat) : State :=
  ({ s with island := s.island.modify i (fun x => { x with limit := x.limit + 1, sinceRise := 0 }) } : State).changePoint i

theorem State.limit_raiseLimit (s : State) (i j : Nat) :
    ((s.raiseLimit i).island.get j).limit = if j = i then (s.island.get j).limit + 1 else (s.island.get j).limit := by
  rw [State.raiseLimit, State.limit_changePoint, Tab.get_modify]
  split
  · next e => rw [e]
  · rfl

/-- At most one LIMIT rises. -/
theorem State.riseOne_cases (s : State) (heat : List Nat) : s.riseOne heat = s ∨ ∃ i, s.riseOne heat = s.raiseLimit i := by
  unfold State.riseOne
  split
  · exact .inl rfl
  · exact .inr ⟨_, rfl⟩

/-- The elements of a range that meet a test are one element when it alone meets it. -/
theorem filter_range_eq_singleton {n i : Nat} {p : Nat → Bool} (hi : i < n) (yes : p i = true)
    (no : ∀ j, j < n → j ≠ i → p j = false) : (List.range n).filter p = [i] := by
  refine List.perm_singleton.mp ((List.perm_ext_iff_of_nodup (List.nodup_range.filter p) (List.nodup_singleton i)).mpr fun j => ?_)
  rw [List.mem_filter, List.mem_range, List.mem_singleton]
  refine ⟨fun ⟨lt, pj⟩ => ?_, fun e => e ▸ ⟨hi, yes⟩⟩
  by_contra ne
  rw [no j lt ne] at pj
  cases pj

/-- The one island whose LIMIT may rise has its LIMIT raised. -/
theorem State.riseOne_of_only {s : State} {i : Nat} (heat : List Nat) (hi : i < 32) (yes : s.mayRise i = true)
    (no : ∀ j, j < 32 → j ≠ i → s.mayRise j = false) : s.riseOne heat = s.raiseLimit i := by
  unfold State.riseOne
  rw [filter_range_eq_singleton hi yes no, coolestFirst, List.mergeSort_singleton]
  rfl

/-- A quiet window makes the sixteenth of an island: its LIMIT may rise (R21). -/
theorem State.mayRise_countAll {s : State} {i : Nat} (hi : i < 32) (limit : (s.island.get i).limit < 3)
    (quiet : 15 ≤ (s.island.get i).quietWindows) (rise : 15 ≤ (s.island.get i).sinceRise) (gated : (s.island.get i).gated = false)
    (noisy : (s.island.get i).noisy = false) (alarm : s.alarmed (i / 8) = false) : (s.countAll true).mayRise i = true := by
  simp [State.mayRise, State.island_countAll, hi, State.counted, limit, quiet, rise, gated, noisy, alarm]

theorem State.mayRise_of_limit {s : State} {i : Nat} (h : 3 ≤ (s.island.get i).limit) : s.mayRise i = false := by
  simp [State.mayRise, Nat.not_lt.mpr h]

/-! ## The hottest island -/

/-- The islands that a window above 1,800 W may lower, the hottest first (R19). -/
def State.lowerable (s : State) (heat : List Nat) : List Nat :=
  hottestFirst heat ((List.range 32).filter (fun i => decide (i % 8 < 4) && decide (1 < (s.island.get i).limit)))

theorem State.mem_lowerable (s : State) (heat : List Nat) (i : Nat) :
    i ∈ s.lowerable heat ↔ i < 32 ∧ i % 8 < 4 ∧ 1 < (s.island.get i).limit := by
  simp [State.lowerable, hottestFirst]

theorem State.nodup_lowerable (s : State) (heat : List Nat) : (s.lowerable heat).Nodup :=
  (List.mergeSort_perm ..).nodup_iff.mpr (List.nodup_range.filter _)

/-- The heat of a list in the order of R19 falls. -/
theorem hottestFirst_pairwise (heat is : List Nat) : (hottestFirst heat is).Pairwise (fun a b => heatOf heat b ≤ heatOf heat a) := by
  refine (List.pairwise_mergeSort ?_ ?_ is).imp fun {a b} h => ?_
  · intro a b c ab bc
    simp only [Bool.or_eq_true, Bool.and_eq_true, decide_eq_true_eq, beq_iff_eq] at ab bc ⊢
    omega
  · intro a b
    simp only [Bool.or_eq_true, Bool.and_eq_true, decide_eq_true_eq, beq_iff_eq]
    omega
  · simp only [Bool.or_eq_true, Bool.and_eq_true, decide_eq_true_eq, beq_iff_eq] at h
    omega

/-- The island that is hotter than every other one that may fall comes first. -/
theorem State.lowerable_hottest {s : State} {heat : List Nat} {i : Nat} (member : i ∈ s.lowerable heat)
    (hottest : ∀ j ∈ s.lowerable heat, j ≠ i → heatOf heat j < heatOf heat i) : ∃ r, s.lowerable heat = i :: r := by
  have sorted : (s.lowerable heat).Pairwise (fun a b => heatOf heat b ≤ heatOf heat a) := hottestFirst_pairwise heat _
  generalize s.lowerable heat = is at member hottest sorted
  cases is with
  | nil => cases member
  | cons h r =>
    refine ⟨r, ?_⟩
    by_cases e : h = i
    · rw [e]
    · have below : heatOf heat i ≤ heatOf heat h := by
        rcases List.mem_cons.mp member with m | m
        · exact absurd m.symm e
        · exact (List.pairwise_cons.mp sorted).1 i m
      exact absurd (hottest h (.head _) e) (Nat.not_lt.mpr below)

/-! ## The window of the power manager (R19, R21) -/

/-- What the power manager does once a window is counted: LIMIT of the first of the islands that may fall, one at least, falls one step; or
that of the coolest that may rise does, unless one has fallen (R19, R21). -/
def State.windowAct (s : State) (mw : Nat) (heat : List Nat) : State :=
  if 1800000 < mw then
    ((s.lowerable heat).take (1 + Config.freeNat s.free % (s.lowerable heat).length)).foldl State.fallLimit { s with free := s.free + 1 }
  else if s.stepped then s
  else s.riseOne heat

theorem exec_powerWindow (s : State) (mw : Nat) (heat : List Nat) :
    exec (.powerWindow mw heat) s =
      .next { (s.countAll (decide (mw ≤ 1710000))).windowAct mw heat with stepped := false } := rfl

/-- What the acts of a window leave alone. -/
theorem State.windowAct_mem (s : State) (mw : Nat) (heat : List Nat) : (s.windowAct mw heat).mem = s.mem := by
  unfold State.windowAct
  split
  · rw [State.fallLimits_eq]
  split
  · rfl
  · rcases s.riseOne_cases heat with e | ⟨i, e⟩ <;> rw [e]
    rfl

theorem State.countAll_mem (s : State) (low : Bool) : (s.countAll low).mem = s.mem := by rw [State.countAll_eq]
theorem State.countAll_stepped (s : State) (low : Bool) : (s.countAll low).stepped = s.stepped := by rw [State.countAll_eq]

/-- Above 1,800 W no LIMIT rises. -/
theorem State.limit_windowAct_above (s : State) {mw : Nat} (heat : List Nat) (h : 1800000 < mw) (j : Nat) :
    ((s.windowAct mw heat).island.get j).limit ≤ (s.island.get j).limit := by
  rw [State.windowAct, if_pos h, State.limit_fallLimits _ ((s.nodup_lowerable heat).sublist (List.take_sublist ..))]
  split
  · exact lowerLimit_le _
  · exact Nat.le_refl _

/-- Above 1,800 W LIMIT of the hottest island that may fall does, and its point changes. -/
theorem State.windowAct_hottest {s : State} {mw : Nat} {heat : List Nat} {i : Nat} (h : 1800000 < mw) (member : i ∈ s.lowerable heat)
    (hottest : ∀ j ∈ s.lowerable heat, j ≠ i → heatOf heat j < heatOf heat i) :
    ((s.windowAct mw heat).island.get i).limit = (s.island.get i).limit - 1 ∧
      .operatingPointChangeDone i ∈ (s.windowAct mw heat).agenda := by
  have may : 1 < (s.island.get i).limit := ((s.mem_lowerable heat i).mp member).2.2
  have nodup := (s.nodup_lowerable heat).sublist (List.take_sublist (1 + Config.freeNat s.free % (s.lowerable heat).length) _)
  obtain ⟨r, e⟩ := State.lowerable_hottest member hottest
  rw [State.windowAct, if_pos h]
  rw [e, Nat.add_comm 1, List.take_succ_cons] at nodup ⊢
  constructor
  · rw [State.limit_fallLimits _ nodup, if_pos (.head _)]
    exact lowerLimit_of_lt may
  · rw [List.foldl_cons]
    exact (State.agenda_fallLimits _ _).subset (State.fallLimit_starts may)

/-- At or below 1,800 W no LIMIT falls. -/
theorem State.limit_windowAct_below (s : State) {mw : Nat} (heat : List Nat) (h : mw ≤ 1800000) (j : Nat) :
    (s.island.get j).limit ≤ ((s.windowAct mw heat).island.get j).limit := by
  rw [State.windowAct, if_neg (Nat.not_lt.mpr h)]
  split
  · exact Nat.le_refl _
  · rcases s.riseOne_cases heat with e | ⟨i, e⟩ <;> rw [e]
    rw [State.limit_raiseLimit]
    split <;> omega

/-- No LIMIT changes at or below 1,800 W in a window in which one has fallen. -/
theorem State.windowAct_stepped {s : State} {mw : Nat} (heat : List Nat) (h : mw ≤ 1800000) (stepped : s.stepped = true) :
    s.windowAct mw heat = s := by
  rw [State.windowAct, if_neg (Nat.not_lt.mpr h), if_pos stepped]

/-- The one island whose LIMIT may rise has it raised, and its point changes. -/
theorem State.windowAct_rises {s : State} {mw i : Nat} (heat : List Nat) (h : mw ≤ 1800000) (stepped : s.stepped = false) (hi : i < 32)
    (yes : s.mayRise i = true) (no : ∀ j, j < 32 → j ≠ i → s.mayRise j = false) :
    ((s.windowAct mw heat).island.get i).limit = (s.island.get i).limit + 1 ∧
      .operatingPointChangeDone i ∈ (s.windowAct mw heat).agenda := by
  rw [State.windowAct, if_neg (Nat.not_lt.mpr h), if_neg (by simp [stepped]), State.riseOne_of_only heat hi yes no]
  exact ⟨by rw [State.limit_raiseLimit, if_pos rfl], List.mem_append_right _ (.head _)⟩

end Sys2Proof.Machine
end

section
/-! Heat flux, alarms and key erasure (R20, R65, R72 to R74). -/

namespace Sys2Proof.Machine

/-! ## Heat flux (R20) -/

theorem State.throttle_setThrottle (s : State) (cl n : Nat) (e : Bool) :
    ((s.setThrottle cl n e).clusterAt cl).throttle = n ∧ ((s.setThrottle cl n e).clusterAt cl).easing = e := by
  simp [State.setThrottle, State.clusterAt, State.modCluster]

theorem State.clusterAt_setThrottle_ne (s : State) {cl c : Nat} (n : Nat) (e : Bool) (h : c ≠ cl) :
    (s.setThrottle cl n e).clusterAt c = s.clusterAt c :=
  Tab.get_modify_ne _ _ _ _ h

theorem State.limit_setThrottle (s : State) (cl n : Nat) (e : Bool) (j : Nat) :
    ((s.setThrottle cl n e).island.get j).limit = (s.island.get j).limit := by
  simp only [State.setThrottle, State.modCluster_island, Tab.get_modify]
  split
  · next h => rw [h]
  · rfl

theorem State.clusterAt_fallLimit (s : State) (i c : Nat) : (s.fallLimit i).clusterAt c = s.clusterAt c := by
  rw [State.fallLimit_eq]
  rfl

/-- The state that a heat-flux window leaves. -/
def State.heatAct (s : State) (cl mw : Nat) : State :=
  if 200000 < mw ∧ 3 ≤ (s.clusterAt cl).throttle then
    (s.setThrottle cl (s.clusterAt cl).throttle false).fallLimit (s.islandOf cl)
  else if 200000 < mw then s.setThrottle cl ((s.clusterAt cl).throttle + 1) false
  else if (s.clusterAt cl).throttle = 0 then s
  else if (s.clusterAt cl).easing ∨ mw < 180000 then s.setThrottle cl ((s.clusterAt cl).throttle - 1) true
  else s.setThrottle cl (min 3 ((s.clusterAt cl).throttle + 1)) false

theorem exec_heatFluxWindow (s : State) (cl mw : Nat) : exec (.heatFluxWindow cl mw) s = .next (s.heatAct cl mw) := rfl

/-- The matrix unit of a cluster gates `k` steps in `t`, easing or not, and every other cluster is that of `s`. -/
def State.gatesTo (s t : State) (cl k : Nat) (e : Bool) : Prop :=
  (t.clusterAt cl).throttle = k ∧ (t.clusterAt cl).easing = e ∧ ∀ c, c ≠ cl → t.clusterAt c = s.clusterAt c

theorem State.gatesTo_setThrottle (s : State) (cl k : Nat) (e : Bool) : s.gatesTo (s.setThrottle cl k e) cl k e :=
  ⟨(s.throttle_setThrottle cl k e).1, (s.throttle_setThrottle cl k e).2, fun _ h => s.clusterAt_setThrottle_ne k e h⟩

theorem State.gatesTo_fallLimit {s t : State} {cl k : Nat} {e : Bool} (h : s.gatesTo t cl k e) (i : Nat) :
    s.gatesTo (t.fallLimit i) cl k e := by
  unfold State.gatesTo
  simp only [State.clusterAt_fallLimit]
  exact h

/-- Above 200 W/cm² a unit gates a step more, up to three steps. -/
theorem State.heatAct_hot {s : State} {cl mw : Nat} (h : 200000 < mw) :
    (¬ 3 ≤ (s.clusterAt cl).throttle → s.gatesTo (s.heatAct cl mw) cl ((s.clusterAt cl).throttle + 1) false) ∧
    (3 ≤ (s.clusterAt cl).throttle → s.gatesTo (s.heatAct cl mw) cl (s.clusterAt cl).throttle false) := by
  constructor
  · intro few
    rw [State.heatAct, if_neg (fun c => few c.2), if_pos h]
    exact s.gatesTo_setThrottle ..
  · intro full
    rw [State.heatAct, if_pos ⟨h, full⟩]
    exact State.gatesTo_fallLimit (s.gatesTo_setThrottle ..) _

/-- Where three steps are not enough, LIMIT of the unit's island falls. -/
theorem State.limit_heatAct {s : State} {cl mw : Nat} (h : 200000 < mw) (full : 3 ≤ (s.clusterAt cl).throttle)
    (limit : 1 < (s.island.get (s.islandOf cl)).limit) :
    ((s.heatAct cl mw).island.get (s.islandOf cl)).limit = (s.island.get (s.islandOf cl)).limit - 1 := by
  rw [State.heatAct, if_pos ⟨h, full⟩, State.limit_fallLimit, if_pos rfl, State.limit_setThrottle]
  exact lowerLimit_of_lt limit

/-- Up to 200 W/cm² a unit that gates takes a step back below 180 W/cm² or once it is easing, and another gates a step more. -/
theorem State.heatAct_cool {s : State} {cl mw : Nat} (h : mw ≤ 200000) (gating : (s.clusterAt cl).throttle ≠ 0) :
    ((s.clusterAt cl).easing = true ∨ mw < 180000 → s.gatesTo (s.heatAct cl mw) cl ((s.clusterAt cl).throttle - 1) true) ∧
    (¬ ((s.clusterAt cl).easing = true ∨ mw < 180000) →
      s.gatesTo (s.heatAct cl mw) cl (min 3 ((s.clusterAt cl).throttle + 1)) false) := by
  have low : ¬ 200000 < mw := Nat.not_lt.mpr h
  rw [State.heatAct, if_neg (fun c => low c.1), if_neg low, if_neg gating]
  constructor
  · intro back
    rw [if_pos back]
    exact s.gatesTo_setThrottle ..
  · intro more
    rw [if_neg more]
    exact s.gatesTo_setThrottle ..

theorem State.heatAct_idle {s : State} {cl mw : Nat} (h : mw ≤ 200000) (idle : (s.clusterAt cl).throttle = 0) : s.heatAct cl mw = s := by
  have low : ¬ 200000 < mw := Nat.not_lt.mpr h
  rw [State.heatAct, if_neg (fun c => low c.1), if_neg low, if_pos idle]

/-! ## The end of every partition (R65, R73) -/

/-- What is left when every partition has been ended: no partition below 16, no new one until reset, a log that has only grown. -/
structure State.AllEnded (s t : State) : Prop where
  part : ∀ p, p < 16 → (t.part.get p).state = 0
  sec : t.sec = { s.sec with noNewParts := true }
  log : s.mgmtLog <+: t.mgmtLog

/-- The end of a partition that exists. -/
def State.endOne (s : State) (p : Nat) : State := if (s.part.get p).state = 0 then s else s.endPartition p

/-- It leaves that partition FREE, ends no other and makes none, and keeps the security state and the entries of the log. -/
theorem State.endOne_keeps (s : State) (p : Nat) :
    ((s.endOne p).part.get p).state = 0 ∧ (∀ q, (s.part.get q).state = 0 → ((s.endOne p).part.get q).state = 0) ∧
      (s.endOne p).sec = s.sec ∧ s.mgmtLog <+: (s.endOne p).mgmtLog := by
  unfold State.endOne
  split
  · next free => exact ⟨free, fun _ h => h, rfl, List.prefix_refl _⟩
  · obtain ⟨part, sec, log⟩ := endPartition_freed s p
    refine ⟨by simp [part], fun q h => ?_, sec, log⟩
    rw [part, Tab.get_modify]
    split <;> simp [h]

theorem State.endOnes_keep (s : State) (ps : List Nat) :
    (∀ p ∈ ps, ((ps.foldl State.endOne s).part.get p).state = 0) ∧
      (∀ q, (s.part.get q).state = 0 → ((ps.foldl State.endOne s).part.get q).state = 0) ∧
      (ps.foldl State.endOne s).sec = s.sec ∧ s.mgmtLog <+: (ps.foldl State.endOne s).mgmtLog := by
  induction ps generalizing s with
  | nil => exact ⟨fun _ m => absurd m List.not_mem_nil, fun _ h => h, rfl, List.prefix_refl _⟩
  | cons p r ih =>
    obtain ⟨own, others, sec, log⟩ := s.endOne_keeps p
    obtain ⟨all, still, sec', log'⟩ := ih (s.endOne p)
    refine ⟨fun q m => ?_, fun q h => still q (others q h), sec'.trans sec, log.trans log'⟩
    rcases List.mem_cons.mp m with rfl | m
    · exact still q own
    · exact all q m

theorem State.endAll_ends (s : State) : s.AllEnded s.endAll := by
  obtain ⟨all, -, sec, log⟩ := s.endOnes_keep (List.range 16)
  have each : (fun (x : State) p => if (x.part.get p).state = 0 then x else x.endPartition p) = State.endOne := rfl
  unfold State.endAll
  rw [each]
  generalize (List.range 16).foldl State.endOne s = t at all sec log
  exact ⟨fun p h => all p (List.mem_range.mpr h), congrArg (fun x : Security => { x with noNewParts := true }) sec, log⟩

/-! ## The action of an alarm (R72, R73) -/

/-- The core-quadrant islands of a die. -/
def quadrantIslands (die : Nat) : List Nat := (List.range 4).map (8 * die + ·)

theorem quadrantIslands_nodup (die : Nat) : (quadrantIslands die).Nodup :=
  List.nodup_range.map fun _ _ e => Nat.add_left_cancel e

theorem mem_quadrantIslands {die k : Nat} (h : k < 4) : 8 * die + k ∈ quadrantIslands die :=
  List.mem_map_of_mem (List.mem_range.mpr h)

/-- A change of the points of a die's quadrants touches the island table and the agenda alone. -/
theorem State.changeQuadrants_eq (s : State) (die : Nat) :
    s.changeQuadrants die = { s with island := (s.changeQuadrants die).island, agenda := (s.changeQuadrants die).agenda } := rfl

theorem State.agenda_changeQuadrants (s : State) (die : Nat) : (s.changeQuadrants die).agenda = s.agenda ++
    [.operatingPointChangeDone (8 * die), .operatingPointChangeDone (8 * die + 1), .operatingPointChangeDone (8 * die + 2),
     .operatingPointChangeDone (8 * die + 3)] := by
  show (((s.agenda ++ [_]) ++ [_]) ++ [_]) ++ [_] = _
  simp

/-- The points of all four quadrants of a die change. -/
theorem State.mem_agenda_changeQuadrants (s : State) (die : Nat) {k : Nat} (h : k < 4) :
    .operatingPointChangeDone (8 * die + k) ∈ (s.changeQuadrants die).agenda := by
  rw [State.agenda_changeQuadrants]
  refine List.mem_append_right _ ?_
  interval_cases k <;> simp

theorem State.alarmAction_one (s : State) (die : Nat) : s.alarmAction 1 die = (quadrantIslands die).foldl State.fallLimit s :=
  (List.foldl_map ..).symm

theorem State.alarmAction_two (s : State) (die : Nat) : s.alarmAction 2 die = { s.changeQuadrants die with stepped := true } := rfl
theorem State.alarmAction_three (s : State) (die : Nat) : s.alarmAction 3 die = s.endAll := rfl
theorem State.alarmAction_four (s : State) (die : Nat) : s.alarmAction 4 die =
    ({ s with sec := { s.sec with silent := true, erasing := true } } : State).push .keyErasureDone := rfl

theorem alarmGrade_range (a : AlarmSource) : 1 ≤ AlarmGrade a ∧ AlarmGrade a ≤ 4 := by
  cases a <;> decide

/-- No alarm's action changes which alarms are in force. -/
theorem State.alarms_alarmAction (s : State) (a : AlarmSource) (die : Nat) :
    (s.alarmAction (AlarmGrade a) die).sec.alarms = s.sec.alarms := by
  obtain ⟨low, high⟩ := alarmGrade_range a
  generalize AlarmGrade a = g at low high
  interval_cases g
  · rw [State.alarmAction_one, State.fallLimits_eq]
  · rfl
  · rw [State.alarmAction_three, s.endAll_ends.sec]
  · rfl

/-- The actions of grades 1 and 2 write no memory. -/
theorem State.mem_alarmAction (s : State) {a : AlarmSource} (die : Nat) (h : AlarmGrade a ≤ 2) :
    (s.alarmAction (AlarmGrade a) die).mem = s.mem := by
  have low := (alarmGrade_range a).1
  generalize AlarmGrade a = g at low h
  interval_cases g
  · rw [State.alarmAction_one, State.fallLimits_eq]
  · rfl

/-- The action of an alarm is marked as taken. -/
def State.marked (s : State) (a : AlarmSource × Nat) : State := { s with sec := { s.sec with acted := s.sec.acted ++ [a] } }

/-- An alarm that no other outranks and whose action has not been taken has its action. -/
theorem State.actOn_acts {s : State} {a : AlarmSource × Nat} (top : s.outranked a = false) (fresh : a ∉ s.sec.acted) :
    s.actOn a = (s.marked a).alarmAction (AlarmGrade a.1) a.2 := by
  rw [State.actOn, if_neg (by simp [top, fresh])]
  rfl

/-- An alarm that is the only one in force is outranked by none. -/
theorem State.outranked_alone {s : State} {a : AlarmSource × Nat} (h : s.sec.alarms = [a]) : s.outranked a = false := by
  simp [State.outranked, h]

theorem State.alarms_actOn (s : State) (a : AlarmSource × Nat) : (s.actOn a).sec.alarms = s.sec.alarms := by
  unfold State.actOn
  split
  · rfl
  · exact State.alarms_alarmAction (s.marked a) ..

theorem State.mem_actOn (s : State) {a : AlarmSource × Nat} (h : AlarmGrade a.1 ≤ 2) : (s.actOn a).mem = s.mem := by
  unfold State.actOn
  split
  · rfl
  · exact State.mem_alarmAction (s.marked a) _ h

theorem State.alarms_actOns (s : State) (as : List (AlarmSource × Nat)) : (as.foldl State.actOn s).sec.alarms = s.sec.alarms := by
  induction as generalizing s with
  | nil => rfl
  | cons a r ih => rw [List.foldl_cons, ih, State.alarms_actOn]

theorem State.mem_actOns (s : State) {as : List (AlarmSource × Nat)} (h : ∀ a ∈ as, AlarmGrade a.1 ≤ 2) :
    (as.foldl State.actOn s).mem = s.mem := by
  induction as generalizing s with
  | nil => rfl
  | cons a r ih => rw [List.foldl_cons, ih _ fun b m => h b (.tail _ m), State.mem_actOn _ (h a (.head _))]

/-! ## An alarm is raised -/

/-- An alarm is entered in the log, among those in force, and in the flag of grade 2 and above (R72). -/
def State.logAlarm (s : State) (source : AlarmSource) (die : Nat) : State :=
  { s with mgmtLog := s.mgmtLog ++ [.alarm source die],
           sec := { s.sec with flag := s.sec.flag || decide (2 ≤ AlarmGrade source),
                               acted := s.sec.acted.filter (fun a => a != (source, die)),
                               alarms := if s.sec.alarms.contains (source, die) then s.sec.alarms
                                 else s.sec.alarms ++ [(source, die)] } }

/-- The alarm is logged and counted, and disturbs its die's window where it is of grade 1 or 2; its action is not yet taken. -/
def State.noted (s : State) (source : AlarmSource) (die : Nat) : State :=
  let s1 := s.logAlarm source die
  let s2 := if source = .integrity then s1.countIntegrity else if source = .supplyOutside then s1.countSupply die else s1
  if AlarmGrade source ≤ 2 then s2.disturb die else s2

theorem exec_alarmRaise (s : State) (source : AlarmSource) (die : Nat) :
    exec (.alarmRaise source die) s = .next ((s.noted source die).actOn (source, die)) := rfl

/-- Of what an alarm that is raised finds and leaves before its action, the parts that the action and its outcome depend on. -/
structure State.AlarmNoted (s t : State) (source : AlarmSource) (die : Nat) : Prop where
  alarms : t.sec.alarms = if s.sec.alarms.contains (source, die) then s.sec.alarms else s.sec.alarms ++ [(source, die)]
  acted : t.sec.acted = s.sec.acted.filter (fun a => a != (source, die))
  flag : t.sec.flag = (s.sec.flag || decide (2 ≤ AlarmGrade source))
  log : t.mgmtLog = s.mgmtLog ++ [.alarm source die]
  mem : t.mem = s.mem

theorem State.logAlarm_alarmNoted (s : State) (source : AlarmSource) (die : Nat) : s.AlarmNoted (s.logAlarm source die) source die :=
  ⟨rfl, rfl, rfl, rfl, rfl⟩

theorem State.AlarmNoted.disturb {s t : State} {source : AlarmSource} {die : Nat} (h : s.AlarmNoted t source die) :
    s.AlarmNoted (t.disturb die) source die := ⟨h.alarms, h.acted, h.flag, h.log, h.mem⟩

theorem State.AlarmNoted.countIntegrity {s t : State} {source : AlarmSource} {die : Nat} (h : s.AlarmNoted t source die) :
    s.AlarmNoted t.countIntegrity source die := by
  unfold State.countIntegrity
  dsimp only
  split <;> exact ⟨h.alarms, h.acted, h.flag, h.log, h.mem⟩

theorem State.AlarmNoted.countSupply {s t : State} {source : AlarmSource} {die : Nat} (h : s.AlarmNoted t source die) :
    s.AlarmNoted (t.countSupply die) source die := by
  unfold State.countSupply
  dsimp only
  split <;> exact ⟨h.alarms, h.acted, h.flag, h.log, h.mem⟩

theorem State.noted_alarmNoted (s : State) (source : AlarmSource) (die : Nat) : s.AlarmNoted (s.noted source die) source die := by
  have counted : s.AlarmNoted (if source = .integrity then (s.logAlarm source die).countIntegrity
      else if source = .supplyOutside then (s.logAlarm source die).countSupply die else s.logAlarm source die) source die := by
    split
    · exact State.AlarmNoted.countIntegrity (s.logAlarm_alarmNoted source die)
    split
    · exact State.AlarmNoted.countSupply (s.logAlarm_alarmNoted source die)
    · exact s.logAlarm_alarmNoted source die
  unfold State.noted
  dsimp only
  split
  · exact State.AlarmNoted.disturb counted
  · exact counted

/-- The first alarm in force has its action. -/
theorem exec_alarmRaise_first {s : State} (h : s.sec.alarms = []) (source : AlarmSource) (die : Nat) :
    exec (.alarmRaise source die) s =
      .next (((s.noted source die).marked (source, die)).alarmAction (AlarmGrade source) die) := by
  obtain ⟨alarms, acted, -, -, -⟩ := s.noted_alarmNoted source die
  have alone : (s.noted source die).sec.alarms = [(source, die)] := by simp [alarms, h]
  rw [exec_alarmRaise, State.actOn_acts (State.outranked_alone alone)]
  simp [acted]

/-- The disturbance of a window leaves every LIMIT. -/
theorem State.limit_disturb (s : State) (die j : Nat) : ((s.disturb die).island.get j).limit = (s.island.get j).limit := by
  unfold State.disturb
  dsimp only
  generalize s.island = t
  generalize List.range 8 = ks
  induction ks generalizing t with
  | nil => rfl
  | cons k r ih =>
    rw [List.foldl_cons, ih, Tab.get_modify]
    split
    · next e => rw [e]
    · rfl

/-! ## An alarm's condition ends -/

/-- An alarm is no longer in force, nor its action (R72). -/
def State.dropAlarm (s : State) (a : AlarmSource × Nat) : State :=
  { s with sec := { s.sec with alarms := s.sec.alarms.filter (fun b => b != a), acted := s.sec.acted.filter (fun b => b != a) } }

/-- The end of an alarm, and of a hold of grade 2 that it was the last to impose (R73). -/
def State.alarmEnded (s : State) (source : AlarmSource) (die : Nat) : State :=
  if s.held2 die && !(s.dropAlarm (source, die)).held2 die then (s.dropAlarm (source, die)).changeQuadrants die
  else s.dropAlarm (source, die)

theorem exec_alarmConditionEnd (s : State) (source : AlarmSource) (die : Nat) : exec (.alarmConditionEnd source die) s =
    .next ((s.dropAlarm (source, die)).sec.alarms.foldl State.actOn (s.alarmEnded source die)) := rfl

theorem State.alarmEnded_sec (s : State) (source : AlarmSource) (die : Nat) :
    (s.alarmEnded source die).sec = (s.dropAlarm (source, die)).sec := by
  unfold State.alarmEnded
  split <;> rfl

theorem State.alarmEnded_mem (s : State) (source : AlarmSource) (die : Nat) : (s.alarmEnded source die).mem = s.mem := by
  unfold State.alarmEnded
  split <;> rfl

/-- A grade-2 alarm of temperature whose action is taken holds its die. -/
theorem State.held2_of_acted {s : State} {die : Nat} (h : (.tempAbove115, die) ∈ s.sec.acted) : s.held2 die = true :=
  List.any_eq_true.mpr ⟨_, h, by simp⟩

end Sys2Proof.Machine
end

section
/-! Error correction, the registers of ECC and of the fabric's errors, and the statement of power, alarms and errors (R7, R19 to R23, R52,
R65, R72 to R74). -/

namespace Sys2Proof.Machine

/-! ## Error correction (R22, R23, R65) -/

theorem exec_patrolScrub_clean (s : State) (site : EccSite) : exec (.patrolScrub site .clean) s = .next s := rfl

theorem exec_patrolScrub_corrected (s : State) (site : EccSite) :
    exec (.patrolScrub site .corrected) s = .next (s.countCorr (eccDie site)) := rfl

/-- An uncorrectable error that is new: one in what the partitions share ends every partition. -/
def State.eccNew (s : State) (site : EccSite) (agent : Option Nat) : State :=
  if eccShared site then (s.eccFound site agent).endAll else s.eccFound site agent

theorem exec_patrolScrub_sram (s : State) (d : Nat) (arr : SramArray) :
    exec (.patrolScrub (.sram d arr) .uncorrectable) s = .next (s.eccNew (.sram d arr) none) ∧
      ∀ agent, exec (.patrolScrub (.sram d arr) (.met agent)) s = .next (s.eccNew (.sram d arr) (some agent)) :=
  ⟨rfl, fun _ => rfl⟩

theorem exec_patrolScrub_line {s : State} {l : Nat} (fresh : l ∉ s.badLines) :
    exec (.patrolScrub (.line l) .uncorrectable) s = .next (s.eccNew (.line l) none) ∧
      ∀ agent, exec (.patrolScrub (.line l) (.met agent)) s = .next (s.eccNew (.line l) (some agent)) := by
  have known (x : State) : (if s.badLines.contains l then s else x) = x := by simp [fresh]
  exact ⟨congrArg Host.Outcome.next (known _), fun _ => congrArg Host.Outcome.next (known _)⟩

theorem eccShared_sram (d : Nat) (arr : SramArray) : eccShared (.sram d arr) = true ↔ arr = .tuples ∨ arr = .firmware := by
  simp [eccShared]

/-- Below the hidden region a line of device memory is shared by no two partitions. -/
theorem eccShared_line {l : Nat} (h : l * 64 < 2 ^ 39 - 2 ^ 26) : eccShared (.line l) = false := by
  simp only [eccShared, hidden, Bool.and_eq_false_iff, decide_eq_false_iff_not]
  omega

theorem eccDie_line {l : Nat} (h : l * 64 < 2 ^ 39) : eccDie (.line l) = l * 64 / 2 ^ 37 := by
  rw [eccDie, dieOfLine, if_pos h]
  omega

/-- ECC.CORR of one die has counted one error more, and nothing else has changed. -/
def State.corrCounted (s t : State) (d : Nat) : Prop :=
  t = { s with ecc := t.ecc } ∧ (t.ecc.get d).corr = min (2 ^ 32 - 1) ((s.ecc.get d).corr + 1) ∧
    (t.ecc.get d).unc = (s.ecc.get d).unc ∧ ∀ e, e ≠ d → t.ecc.get e = s.ecc.get e

/-- ECC.UNC of one die has counted one error more, and nothing else has changed. -/
def State.uncCounted (s t : State) (d : Nat) : Prop :=
  t = { s with ecc := t.ecc } ∧ (t.ecc.get d).unc = (s.ecc.get d).unc + 1 ∧ (t.ecc.get d).corr = (s.ecc.get d).corr ∧
    ∀ e, e ≠ d → t.ecc.get e = s.ecc.get e

theorem State.countCorr_counts (s : State) (d : Nat) : s.corrCounted (s.countCorr d) d := by
  refine ⟨rfl, ?_, ?_, fun e h => Tab.get_modify_ne _ _ _ _ h⟩ <;> simp [State.countCorr]

theorem State.countUnc_counts (s : State) (d : Nat) : s.uncCounted (s.countUnc d) d := by
  refine ⟨rfl, ?_, ?_, fun e h => Tab.get_modify_ne _ _ _ _ h⟩ <;> simp [State.countUnc]

/-- An error in an SRAM array of one partition is met by the next access of its agent, or counted where it has no consumer. -/
theorem State.eccNew_sram (s : State) {d : Nat} {arr : SramArray} (h : eccShared (.sram d arr) = false) :
    s.eccNew (.sram d arr) none = s.countUnc (min 3 d) ∧
      ∀ agent, s.eccNew (.sram d arr) (some agent) = { s with meets := s.meets ++ [agent] } := by
  have single (o : Option Nat) : s.eccNew (.sram d arr) o = s.eccFound (.sram d arr) o := by simp [State.eccNew, h]
  refine ⟨?_, fun agent => single _⟩
  rw [single]
  show ({ s with meets := s.meets ++ [] } : State).countUnc (min 3 d) = _
  rw [List.append_nil]

/-- An error in a line of one partition marks it, and is counted where it has no consumer. -/
theorem State.eccNew_line (s : State) {l : Nat} (h : l * 64 < 2 ^ 39 - 2 ^ 26) :
    s.eccNew (.line l) none = ({ s with badLines := s.badLines ++ [l] } : State).countUnc (l * 64 / 2 ^ 37) ∧
      ∀ agent, s.eccNew (.line l) (some agent) = { s with badLines := s.badLines ++ [l] } := by
  have single (o : Option Nat) : s.eccNew (.line l) o = s.eccFound (.line l) o := by simp [State.eccNew, eccShared_line h]
  refine ⟨?_, fun agent => single _⟩
  rw [single, ← eccDie_line (by omega)]
  rfl

/-! ## Registers (R7, R23, R52) -/

theorem exec_eccCorrWrite (s : State) (die : Nat) (v : Word) :
    exec (.eccCorrWrite die v) s = .next { s with ecc := s.ecc.modify die (fun x => { x with corr := 0 }) } := rfl

/-- A write to a register takes effect as that register's write. -/
theorem exec_registerWrite {off : Nat} {r : Reg} (low : off < 2 ^ 48) (at_ : regAt off = some r) (v : Word) (s : State) :
    exec (.registerWrite off v) s = .next (s.regWrite r v) := by
  show execRegisterWrite off v s = _
  simp only [execRegisterWrite, runEvent, if_pos low, at_]

theorem regAt_eccCorr {die : Nat} (h : die < 4) : regAt (0x100000 * die + 0x300) = some (.eccCorr die) := by
  interval_cases die <;> decide

theorem regAt_fabErr : regAt 0x400200 = some .fabErr := by decide

/-! ## Power, alarms and errors -/

/-- A window above 1,800 W (R19). -/
theorem powerWindow_above (s : State) (i mw : Nat) (heat : List Nat) (h : 1800000 < mw) (hi : i < 32) (quadrant : i % 8 < 4)
    (may : 1 < (s.island.get i).limit)
    (hottest : ∀ j, j < 32 → j % 8 < 4 → 1 < (s.island.get j).limit → j ≠ i → heatOf heat j < heatOf heat i) :
    ∃ t : State, exec (.powerWindow mw heat) s = .next t ∧ (t.island.get i).limit = (s.island.get i).limit - 1 ∧
      Event.operatingPointChangeDone i ∈ t.agenda ∧ t.mem = s.mem ∧ ∀ j, (t.island.get j).limit ≤ (s.island.get j).limit := by
  have counted (j : Nat) : ((s.countAll (decide (mw ≤ 1710000))).island.get j).limit = (s.island.get j).limit := s.limit_countAll ..
  have mem := (s.countAll (decide (mw ≤ 1710000))).windowAct_mem mw heat
  rw [s.countAll_mem] at mem
  rw [exec_powerWindow]
  generalize s.countAll (decide (mw ≤ 1710000)) = u at counted mem
  obtain ⟨falls, starts⟩ := State.windowAct_hottest (s := u) (heat := heat) (i := i) h
    ((u.mem_lowerable heat i).mpr ⟨hi, quadrant, counted i ▸ may⟩) fun j m ne => by
      obtain ⟨hj, qj, mj⟩ := (u.mem_lowerable heat j).mp m
      exact hottest j hj qj (counted j ▸ mj) ne
  exact ⟨_, rfl, falls.trans (by rw [counted]), starts, mem, fun j => counted j ▸ u.limit_windowAct_above heat h j⟩

/-- A window at or below 1,800 W (R21). -/
theorem powerWindow_below (s : State) (mw : Nat) (heat : List Nat) (h : mw ≤ 1800000) :
    ∃ t : State, exec (.powerWindow mw heat) s = .next t ∧ t.mem = s.mem ∧ t.stepped = false ∧
      (∀ j, (s.island.get j).limit ≤ (t.island.get j).limit) ∧
      (s.stepped = true → ∀ j, (t.island.get j).limit = (s.island.get j).limit) ∧
      (∀ i, s.stepped = false → mw ≤ 1710000 → i < 32 → (∀ j, j < 32 → j ≠ i → 3 ≤ (s.island.get j).limit) →
        (s.island.get i).limit < 3 → 15 ≤ (s.island.get i).quietWindows → 15 ≤ (s.island.get i).sinceRise →
        (s.island.get i).gated = false → (s.island.get i).noisy = false → s.alarmed (i / 8) = false →
        (t.island.get i).limit = (s.island.get i).limit + 1 ∧ Event.operatingPointChangeDone i ∈ t.agenda) := by
  refine ⟨_, exec_powerWindow s mw heat, ?_, rfl, fun j => ?_, fun stepped j => ?_, ?_⟩
  · exact (State.windowAct_mem ..).trans (s.countAll_mem _)
  · exact s.limit_countAll (decide (mw ≤ 1710000)) j ▸ State.limit_windowAct_below _ heat h j
  · dsimp only
    rw [State.windowAct_stepped heat h ((s.countAll_stepped _).trans stepped), s.limit_countAll]
  · intro i stepped low hi others limit quiet rise gated noisy alarm
    dsimp only
    rw [decide_eq_true low, ← s.limit_countAll true i]
    refine State.windowAct_rises heat h ((s.countAll_stepped _).trans stepped) hi
      (State.mayRise_countAll hi limit quiet rise gated noisy alarm) fun j hj ne => State.mayRise_of_limit ?_
    rw [s.limit_countAll]
    exact others j hj ne

/-- What a state of the heat-flux clauses says of the state that the window leaves. -/
theorem exists_of_gatesTo {s : State} {cl mw k : Nat} {e : Bool} (h : s.gatesTo (s.heatAct cl mw) cl k e) :
    ∃ t : State, exec (.heatFluxWindow cl mw) s = .next t ∧ (t.clusterAt cl).throttle = k ∧ (t.clusterAt cl).easing = e ∧
      ∀ c, c ≠ cl → t.clusterAt c = s.clusterAt c := ⟨_, exec_heatFluxWindow s cl mw, h⟩

/-- A grade-1 alarm: LIMIT of its die's quadrants falls (R73, log entry 22). -/
theorem alarmRaise_grade1 {s : State} (first : s.sec.alarms = []) (die : Nat) :
    ∃ t : State, exec (.alarmRaise .tempAbove105 die) s = .next t ∧ t.mgmtLog = s.mgmtLog ++ [MgmtEvent.alarm .tempAbove105 die] ∧
      t.sec.flag = s.sec.flag ∧ t.mem = s.mem ∧ ∀ k, k < 4 →
        (t.island.get (8 * die + k)).limit = if (s.island.get (8 * die + k)).limit ≤ 1 then (s.island.get (8 * die + k)).limit
          else (s.island.get (8 * die + k)).limit - 1 := by
  obtain ⟨-, -, flag, log, mem⟩ := s.noted_alarmNoted .tempAbove105 die
  have limit (j : Nat) : ((s.noted .tempAbove105 die).island.get j).limit = (s.island.get j).limit := State.limit_disturb ..
  have raised := exec_alarmRaise_first first .tempAbove105 die
  generalize s.noted .tempAbove105 die = u at flag log mem limit raised
  rw [show AlarmGrade .tempAbove105 = 1 from rfl, State.alarmAction_one] at raised
  refine ⟨_, raised, ?_, ?_, ?_, fun k hk => ?_⟩
  · rw [State.fallLimits_eq]
    exact log
  · rw [State.fallLimits_eq]
    exact flag.trans (Bool.or_false _)
  · rw [State.fallLimits_eq]
    exact mem
  · rw [State.limit_fallLimits _ (quadrantIslands_nodup die), if_pos (mem_quadrantIslands hk), lowerLimit]
    show (if (u.island.get _).limit ≤ 1 then (u.island.get _).limit else (u.island.get _).limit - 1) = _
    rw [limit]

/-- A grade-2 alarm: the points of its die's quadrants change, and are held (R73). -/
theorem alarmRaise_grade2 {s : State} (first : s.sec.alarms = []) (die : Nat) :
    ∃ t : State, exec (.alarmRaise .tempAbove115 die) s = .next t ∧ t.mgmtLog = s.mgmtLog ++ [MgmtEvent.alarm .tempAbove115 die] ∧
      t.sec.flag = true ∧ t.mem = s.mem ∧ t.held2 die = true ∧ t.agenda = s.agenda ++
        [Event.operatingPointChangeDone (8 * die), .operatingPointChangeDone (8 * die + 1), .operatingPointChangeDone (8 * die + 2),
         .operatingPointChangeDone (8 * die + 3)] := by
  obtain ⟨-, -, flag, log, mem⟩ := s.noted_alarmNoted .tempAbove115 die
  have agenda : (s.noted .tempAbove115 die).agenda = s.agenda := rfl
  have raised := exec_alarmRaise_first first .tempAbove115 die
  generalize s.noted .tempAbove115 die = u at flag log mem agenda raised
  rw [show AlarmGrade .tempAbove115 = 2 from rfl, State.alarmAction_two] at raised
  refine ⟨_, raised, log, flag.trans (Bool.or_true _), mem, ?_, ?_⟩
  · exact State.held2_of_acted (List.mem_append_right _ (.head _))
  · show ((u.marked (.tempAbove115, die)).changeQuadrants die).agenda = _
    rw [State.agenda_changeQuadrants, ← agenda]
    rfl

/-- A grade-3 alarm: every partition ends, and no new one is made (R73). -/
theorem alarmRaise_grade3 {s : State} (first : s.sec.alarms = []) (die : Nat) :
    ∃ t : State, exec (.alarmRaise .supplyOutside die) s = .next t ∧ MgmtEvent.alarm .supplyOutside die ∈ t.mgmtLog ∧
      t.sec.flag = true ∧ t.sec.noNewParts = true ∧ ∀ p, p < 16 → (t.part.get p).state = 0 := by
  obtain ⟨-, -, flag, log, -⟩ := s.noted_alarmNoted .supplyOutside die
  obtain ⟨part, sec, log'⟩ := ((s.noted .supplyOutside die).marked (.supplyOutside, die)).endAll_ends
  have ended : exec (.alarmRaise .supplyOutside die) s = .next ((s.noted .supplyOutside die).marked (.supplyOutside, die)).endAll :=
    (exec_alarmRaise_first first .supplyOutside die).trans (congrArg _ (State.alarmAction_three ..))
  generalize ((s.noted .supplyOutside die).marked (.supplyOutside, die)).endAll = t at ended part sec log'
  refine ⟨t, ended, log'.subset ?_, (congrArg Security.flag sec).trans (flag.trans (Bool.or_true _)),
    congrArg Security.noNewParts sec, part⟩
  show _ ∈ (s.noted .supplyOutside die).mgmtLog
  rw [log]
  exact List.mem_append_right _ (.head _)

/-- A grade-4 alarm: the device falls silent and the erasure of its keys begins (R73, R74). -/
theorem alarmRaise_grade4 {s : State} (first : s.sec.alarms = []) (die : Nat) :
    ∃ t : State, exec (.alarmRaise .packageOpening die) s = .next t ∧ MgmtEvent.alarm .packageOpening die ∈ t.mgmtLog ∧
      t.sec.flag = true ∧ t.sec.silent = true ∧ t.sec.erasing = true ∧ t.agenda = s.agenda ++ [Event.keyErasureDone] ∧ t.mem = s.mem := by
  obtain ⟨-, -, flag, log, mem⟩ := s.noted_alarmNoted .packageOpening die
  refine ⟨_, exec_alarmRaise_first first .packageOpening die, ?_, flag.trans (Bool.or_true _), rfl, rfl, rfl, mem⟩
  show _ ∈ (s.noted .packageOpening die).mgmtLog
  rw [log]
  exact List.mem_append_right _ (.head _)

/-- The end of an alarm: it is no longer in force, the others are, and one that it outranked has its action (R72, R73). -/
theorem alarmConditionEnd_leaves (s : State) (source : AlarmSource) (die : Nat) :
    ∃ t : State, exec (.alarmConditionEnd source die) s = .next t ∧ (source, die) ∉ t.sec.alarms ∧
      (∀ a, a ∈ s.sec.alarms → a ≠ (source, die) → a ∈ t.sec.alarms) ∧
      ((∀ a ∈ s.sec.alarms, AlarmGrade a.1 ≤ 2) → t.mem = s.mem) ∧
      (∀ d, s.sec.alarms = [(.tempAbove115, d), (source, die)] → (.tempAbove115, d) ≠ (source, die) →
        (.tempAbove115, d) ∉ s.sec.acted → t.held2 d = true ∧ ∀ k, k < 4 → Event.operatingPointChangeDone (8 * d + k) ∈ t.agenda) := by
  have sec := s.alarmEnded_sec source die
  have left : (((s.dropAlarm (source, die)).sec.alarms.foldl State.actOn (s.alarmEnded source die)).sec.alarms) =
      s.sec.alarms.filter (fun b => b != (source, die)) := by
    rw [State.alarms_actOns, sec]
    rfl
  refine ⟨_, exec_alarmConditionEnd s source die, ?_, fun a m ne => ?_, fun low => ?_, fun d only ne fresh => ?_⟩
  · rw [left]
    simp
  · rw [left]
    simp [m, ne]
  · exact (State.mem_actOns _ fun a m => low a (List.mem_of_mem_filter m)).trans (s.alarmEnded_mem source die)
  · have alone : (s.dropAlarm (source, die)).sec.alarms = [(.tempAbove115, d)] := by
      simp [State.dropAlarm, only, ne]
    have untaken : (AlarmSource.tempAbove115, d) ∉ (s.alarmEnded source die).sec.acted := by
      rw [sec]
      exact fun m => fresh (List.mem_of_mem_filter m)
    have acts := State.actOn_acts (State.outranked_alone (sec ▸ alone)) untaken
    rw [show AlarmGrade (AlarmSource.tempAbove115, d).1 = 2 from rfl, State.alarmAction_two] at acts
    rw [alone, List.foldl_cons, List.foldl_nil, acts]
    refine ⟨State.held2_of_acted (List.mem_append_right _ (.head _)), fun k hk => ?_⟩
    have starts := State.mem_agenda_changeQuadrants ((s.alarmEnded source die).marked (.tempAbove115, d)) d hk
    exact starts

/-- A corrected error is counted at its die (R23). -/
theorem patrolScrub_corrected (s : State) {site : EccSite} {d : Nat} (die : eccDie site = d) :
    ∃ t, exec (.patrolScrub site .corrected) s = .next t ∧ s.corrCounted t d :=
  ⟨_, exec_patrolScrub_corrected s site, die ▸ s.countCorr_counts _⟩

/-- An uncorrectable error in an SRAM array of one partition (R23, log entry 31). -/
theorem patrolScrub_sram_own (s : State) {d : Nat} {arr : SramArray} (own : eccShared (.sram d arr) = false) :
    (∀ agent, exec (.patrolScrub (.sram d arr) (.met agent)) s = .next { s with meets := s.meets ++ [agent] }) ∧
      ∃ t, exec (.patrolScrub (.sram d arr) .uncorrectable) s = .next t ∧ s.uncCounted t (min 3 d) := by
  obtain ⟨unc, met⟩ := exec_patrolScrub_sram s d arr
  obtain ⟨counted, marked⟩ := s.eccNew_sram own
  exact ⟨fun agent => (met agent).trans (congrArg _ (marked agent)), _, unc.trans (congrArg _ counted), s.countUnc_counts _⟩

/-- An uncorrectable error in an SRAM array that the partitions share ends every partition (R65). -/
theorem patrolScrub_sram_shared (s : State) {d : Nat} {arr : SramArray} (shared : eccShared (.sram d arr) = true) :
    ∃ t, exec (.patrolScrub (.sram d arr) .uncorrectable) s = .next t ∧ t.sec.noNewParts = true ∧
      ∀ p, p < 16 → (t.part.get p).state = 0 := by
  obtain ⟨part, sec, -⟩ := (s.eccFound (.sram d arr) none).endAll_ends
  refine ⟨_, (exec_patrolScrub_sram s d arr).1, ?_⟩
  rw [State.eccNew, if_pos shared]
  exact ⟨congrArg Security.noNewParts sec, part⟩

/-- An uncorrectable error in a line of one partition that is not marked yet (R23, log entry 31). -/
theorem patrolScrub_line (s : State) {line : Nat} (fresh : line ∉ s.badLines) (below : line * 64 < 2 ^ 39 - 2 ^ 26) :
    (∀ agent, exec (.patrolScrub (.line line) (.met agent)) s = .next { s with badLines := s.badLines ++ [line] }) ∧
      ∃ t, exec (.patrolScrub (.line line) .uncorrectable) s = .next t ∧ t.badLines = s.badLines ++ [line] ∧ t.mem = s.mem ∧
        (t.ecc.get (line * 64 / 2 ^ 37)).unc = (s.ecc.get (line * 64 / 2 ^ 37)).unc + 1 := by
  obtain ⟨unc, met⟩ := exec_patrolScrub_line fresh
  obtain ⟨counted, marked⟩ := s.eccNew_line below
  exact ⟨fun agent => (met agent).trans (congrArg _ (marked agent)), _, unc.trans (congrArg _ counted), rfl, rfl,
    (State.countUnc_counts ..).2.1⟩

/-- Settles O47: each clause by the lemma of its event. -/
theorem powerAlarmsAndErrors : Obligations.PowerAlarmsAndErrors := by
  intro s
  refine ⟨powerWindow_above s, powerWindow_below s, fun cl mw => ?heat, fun die first => ⟨alarmRaise_grade1 first die, alarmRaise_grade2 first die,
      alarmRaise_grade3 first die, alarmRaise_grade4 first die⟩, alarmConditionEnd_leaves s, fun erasing => ?erased,
    fun idle => ?unerased, fun site line => ⟨exec_patrolScrub_clean s site, ?sram, ?corrected, ?line⟩,
    fun die v => ⟨?eccCorr, fun low => ?written⟩, fun v => ?fabErr⟩
  case heat =>
    refine ⟨fun hot few => exists_of_gatesTo ((State.heatAct_hot hot).1 (Nat.not_le.mpr few)),
      fun hot full => exists_of_gatesTo ((State.heatAct_hot hot).2 full),
      fun hot full limit => ⟨_, exec_heatFluxWindow s cl mw, State.limit_heatAct hot full limit⟩,
      fun cold gating => exists_of_gatesTo ((State.heatAct_cool (by omega) gating).1 (.inr cold)),
      fun cool easing gating => exists_of_gatesTo ((State.heatAct_cool cool gating).1 (.inl easing)),
      fun warm cool steady gating => exists_of_gatesTo ((State.heatAct_cool cool gating).2 ?_),
      fun cool idle => (exec_heatFluxWindow s cl mw).trans (congrArg _ (State.heatAct_idle cool idle))⟩
    simpa [steady] using warm
  case erased =>
    refine ⟨_, congrArg Host.Outcome.next (if_pos erasing), rfl, rfl, rfl, rfl, fun n => rfl, rfl, rfl, rfl⟩
  case unerased => exact congrArg Host.Outcome.next (if_neg (by simp [idle]))
  case sram =>
    rintro d arr rfl
    refine ⟨patrolScrub_corrected s rfl, fun noTuples noFirmware => patrolScrub_sram_own s ?_,
      fun shared => patrolScrub_sram_shared s ((eccShared_sram d arr).mpr shared)⟩
    exact Bool.eq_false_iff.mpr fun shared => ((eccShared_sram d arr).mp shared).elim noTuples noFirmware
  case corrected =>
    rintro rfl below
    exact patrolScrub_corrected s (eccDie_line below)
  case line =>
    rintro rfl fresh below
    exact patrolScrub_line s fresh below
  case eccCorr =>
    refine ⟨_, exec_eccCorrWrite s die v, ?_, ?_, rfl⟩ <;> simp
  case written =>
    rw [exec_registerWrite (by omega) (regAt_eccCorr low)]
    rfl
  case fabErr => exact ⟨_, exec_registerWrite (by decide) regAt_fabErr v s, rfl, rfl, rfl, rfl, rfl, rfl⟩

end Sys2Proof.Machine
end

section
/-! Special registers, SYSC, TRET from a handler and HALT (R7, R79, R107, R214, R273, R298, R390, R440 to R442, R445). -/

namespace Sys2Proof.Machine

/-! ## Fields of words -/

theorem bit_eq_of_toNat {w : Word} {k : Nat} {b : Bool} (h : w.toNat / 2 ^ k % 2 = b.toNat) : bit w k = b := by
  rw [bit, h]
  cases b <;> rfl

/-- The fields of CSW as MFS reads it (R107, Table 2). -/
theorem State.csw_fields (s : State) : bits s.csw 47 32 = s.me.pend.toNat ∧ bits s.csw 18 16 = s.me.vwin % 8 ∧
    bit s.csw 11 = s.me.uie ∧ bit s.csw 10 = s.me.atrap ∧ bit s.csw 3 = s.spec ∧ bits s.csw 2 0 = s.curCtx % 8 := by
  have pend := s.me.pend.isLt
  have uie := s.me.uie.toNat_le
  have atrap := s.me.atrap.toNat_le
  have spec := s.spec.toNat_le
  unfold State.csw
  dsimp only
  generalize s.me.streams.any (fun t => decide (t.1 < 32)) = sgs
  generalize s.me.streams.any (fun t => decide (32 ≤ t.1)) = svs
  have gstream := sgs.toNat_le
  have vstream := svs.toNat_le
  refine ⟨?_, ?_, bit_eq_of_toNat ?_, bit_eq_of_toNat ?_, bit_eq_of_toNat ?_, ?_⟩ <;>
    simp only [bits, ofN, BitVec.toNat_ofNat] <;> omega

/-- A word is its two halves. -/
theorem ofN_halves (v : Word) : ofN (bits v 63 32 * 2 ^ 32 + bits v 31 0) = v := by
  have := v.isLt
  refine BitVec.eq_of_toNat_eq ?_
  simp only [bits, ofN, BitVec.toNat_ofNat]
  omega

theorem bits_low_ofN {r t : Nat} (h : t < 2 ^ 32) : bits (ofN (r * 2 ^ 32 + t)) 31 0 = t := by
  simp only [bits, ofN, BitVec.toNat_ofNat]
  omega

theorem bits_low_lt (v : Word) : bits v 31 0 < 2 ^ 32 := Nat.mod_lt _ (by decide)

/-! ## The values that GCFG accepts (R214) -/

/-- A pattern below +Inf is a finite number that is not negative: its significand and exponent by its exponent field. -/
theorem f32_decode {w : W32} (h : w.toNat < 0x7F800000) :
    f32 w = if w.toNat / 2 ^ 23 = 0 then .fin false (w.toNat % 2 ^ 23) (-149)
      else .fin false (2 ^ 23 + w.toNat % 2 ^ 23) ((w.toNat / 2 ^ 23 : Nat) - 150) := by
  have ex : w.toNat / 2 ^ 23 % 2 ^ 8 = w.toNat / 2 ^ 23 := by omega
  have sign : (w.toNat / 2 ^ 31 % 2 == 1) = false := by
    rw [show w.toNat / 2 ^ 31 = 0 by omega]
    rfl
  show Fmt.b32.decode w.toNat = _
  simp only [Fmt.decode, Fmt.b32, Fmt.signBit, Fmt.unit, Fmt.bias, Nat.reduceAdd, ex, sign]
  rw [if_neg (by omega)]
  split
  · rfl
  · congr 1
    omega

theorem f32_one : f32 0x3F800000#32 = .fin false (2 ^ 23) (-23) := by decide

/-- A number without a sign is not below zero. -/
theorem Num.fin_not_lt_zero (m : Nat) (e : Int) : (Num.fin false m e).lt Num.zero = false := by
  simp only [Num.lt, Num.zero, Num.cmp, sigAt, Num.isNan]
  have pos : (0 : Int) ≤ (m * 2 ^ (e - min e 0).toNat : Nat) := Int.natCast_nonneg _
  simp only [Nat.zero_mul, Bool.false_eq_true, if_false, Int.natCast_zero, Int.sub_zero]
  rw [if_neg (Int.not_lt.mpr pos)]
  split <;> decide

/-- A significand of 24 bits at an exponent below that of 1 makes a number below 1. -/
theorem Num.fin_lt_one {m : Nat} {e : Int} (hm : m < 2 ^ 24) (he : e ≤ -24) :
    (Num.fin false m e).lt (.fin false (2 ^ 23) (-23)) = true := by
  obtain ⟨k, rfl⟩ : ∃ k : Nat, e = -24 - k := ⟨(-24 - e).toNat, by omega⟩
  have low : min (-24 - (k : Int)) (-23) = -24 - k := by omega
  have shift : (-23 - (-24 - (k : Int))).toNat = k + 1 := by omega
  have big : 1 ≤ 2 ^ k := Nat.one_le_two_pow
  have below : ((m * 2 ^ 0 : Nat) : Int) - ((2 ^ 23 * 2 ^ (k + 1) : Nat) : Int) < 0 := by
    rw [Nat.pow_succ]
    omega
  simp only [Num.lt, Num.cmp, sigAt, Num.isNan, low, shift, Int.sub_self, Int.toNat_zero, Bool.false_eq_true, if_false]
  rw [if_pos below]
  rfl

/-- A significand of 24 bits with its highest bit set, at the exponent of 1 or above, makes no number below 1. -/
theorem Num.fin_not_lt_one {m : Nat} {e : Int} (hm : 2 ^ 23 ≤ m) (he : -23 ≤ e) :
    (Num.fin false m e).lt (.fin false (2 ^ 23) (-23)) = false := by
  have low : min e (-23) = -23 := by omega
  have big : 1 ≤ 2 ^ (e - -23).toNat := Nat.one_le_two_pow
  have above : ¬ ((m * 2 ^ (e - -23).toNat : Nat) : Int) - ((2 ^ 23 * 2 ^ 0 : Nat) : Int) < 0 := by
    have := Nat.mul_le_mul hm big
    omega
  simp only [Num.lt, Num.cmp, sigAt, Num.isNan, low, Int.sub_self, Int.toNat_zero, Bool.false_eq_true, if_false]
  rw [if_neg above]
  split <;> decide

/-- The number of a pattern below +Inf is no NaN and not negative. -/
theorem f32_nonneg {w : W32} (h : w.toNat < 0x7F800000) : (f32 w).isNan = false ∧ (f32 w).lt Num.zero = false := by
  rw [f32_decode h]
  split <;> exact ⟨rfl, Num.fin_not_lt_zero ..⟩

/-- TAU passes where its pattern is that of a number of at least 0 and below 1. -/
theorem tauOk_of_lt {w : W32} (h : w.toNat < 0x3F800000) : tauOk w = true := by
  obtain ⟨number, nonneg⟩ := f32_nonneg (w := w) (by omega)
  have below : (f32 w).lt (f32 0x3F800000#32) = true := by
    rw [f32_one, f32_decode (by omega)]
    split
    · exact Num.fin_lt_one (by omega) (by omega)
    · exact Num.fin_lt_one (by omega) (by omega)
  simp [tauOk, number, nonneg, below]

/-- TAU fails where its pattern is that of 1, of a greater number, of +Inf or of a positive NaN. -/
theorem tauOk_of_ge {w : W32} (h : 0x3F800000 ≤ w.toNat) (pos : w.toNat < 2 ^ 31) : tauOk w = false := by
  rcases Nat.lt_or_ge w.toNat 0x7F800000 with fin | special
  · have notBelow : (f32 w).lt (f32 0x3F800000#32) = false := by
      rw [f32_one, f32_decode fin, if_neg (by omega)]
      exact Num.fin_not_lt_one (by omega) (by omega)
    simp [tauOk, notBelow]
  · have ex : w.toNat / 2 ^ 23 % 2 ^ 8 = 255 := by omega
    have number : f32 w = if w.toNat % 2 ^ 23 = 0 then .inf (w.toNat / 2 ^ 31 % 2 == 1) else .nan := by
      show Fmt.b32.decode w.toNat = _
      simp only [Fmt.decode, Fmt.b32, Fmt.signBit, Nat.reduceAdd, ex]
      rfl
    have sign : (w.toNat / 2 ^ 31 % 2 == 1) = false := by
      rw [show w.toNat / 2 ^ 31 = 0 by omega]
      rfl
    rw [tauOk, number, sign, f32_one]
    split <;> decide

/-- RTHR passes where its pattern is that of a finite number that is not negative. -/
theorem rthrOk_of_lt {w : W32} (h : w.toNat < 0x7F800000) : rthrOk w = true := by
  obtain ⟨number, nonneg⟩ := f32_nonneg h
  have finite : w ≠ f32pinf := fun e => by
    rw [e] at h
    exact absurd h (by decide)
  simp [rthrOk, number, nonneg, finite]

theorem plusZero_of_lt {w : W32} (h : w.toNat < 2 ^ 31) : plusZero w = w := by
  refine if_neg fun e => ?_
  rw [e] at h
  exact absurd h (by decide)

theorem toNat_ofNat_bits_low (v : Word) : (BitVec.ofNat 32 (bits v 31 0)).toNat = bits v 31 0 :=
  Nat.mod_eq_of_lt (bits_low_lt v)

theorem toNat_ofNat_bits_high (v : Word) : (BitVec.ofNat 32 (bits v 63 32)).toNat = bits v 63 32 :=
  Nat.mod_eq_of_lt (Nat.mod_lt _ (by decide))

/-- A write of GCFG both of whose fields pass stores the word. -/
theorem writeGcfg_of_lt {v : Word} (tau : bits v 31 0 < 0x3F800000) (rthr : bits v 63 32 < 0x7F800000) (old : Word) :
    writeGcfg old v = v := by
  have t := toNat_ofNat_bits_low v
  have r := toNat_ofNat_bits_high v
  unfold writeGcfg
  dsimp only
  rw [if_pos (tauOk_of_lt (by omega)), if_pos (rthrOk_of_lt (by omega)), plusZero_of_lt (by omega), plusZero_of_lt (by omega), t, r]
  exact ofN_halves v

/-- A write of GCFG whose TAU is 1 or more leaves TAU. -/
theorem tau_writeGcfg_of_ge {v : Word} (tau : 0x3F800000 ≤ bits v 31 0) (pos : bits v 31 0 < 2 ^ 31) (old : Word) :
    bits (writeGcfg old v) 31 0 = bits old 31 0 := by
  have t := toNat_ofNat_bits_low v
  unfold writeGcfg
  dsimp only
  have fails : tauOk (BitVec.ofNat 32 (bits v 31 0)) = false := tauOk_of_ge (by omega) (by omega)
  rw [if_neg (Bool.eq_false_iff.mp fails)]
  exact bits_low_ofN (bits_low_lt old)

/-! ## Running and other state -/

/-- A change of a core that leaves its contexts leaves the running one. -/
theorem State.me_modCore (s : State) (c : Nat) {f : Core → Core} (h : ∀ x, (f x).ctx = x.ctx) : (s.modCore c f).me = s.me := by
  simp only [State.me, State.ctxAt, State.modCore, Tab.get_modify]
  split
  · next e => rw [h, ← e]
  · rfl

theorem State.me_onward (s : State) : s.onward.me = { s.me with pc := s.nextOf } := by
  rw [State.onward, State.me_modMe]
  rfl

theorem State.gcfg_onward (s : State) (c : Nat) : (s.onward.coreAt c).gcfg = (s.coreAt c).gcfg := by
  simp only [State.onward, State.modMe, State.modCtx, State.coreAt, State.modCore, Tab.get_modify]
  split
  · next e => rw [e]
  · rfl

theorem advance_onward (s : State) : advance s = .ok ((), s.onward) := rfl

/-- An instruction that need not be held back goes on. -/
theorem notSpec_ok {s : State} (h : s.spec = false) : notSpec s = .ok ((), s) := by
  unfold notSpec
  rw [Act.get_bind, if_neg (by simp [h])]
  rfl

theorem runAct_ill {m : Act Unit} {s : State} (h : m s = ill 0 s) : runAct m s = .next (s.trapped 1 0 0) := runAct_trap h

/-! ## MFS (R298, R390, R440) -/

theorem exec_mfs {s : State} {a num : Nat} (h : s.canRun [] [a] = true) (job : num = 8 → s.holdsOp issuesJob = false) :
    exec (.mfs a num) s = .next (s.setG a (s.special num)).onward := by
  refine runAct_ok ?_
  unfold mfsAct
  rw [Act.bind_ok (prep_ok h), Act.get_bind, if_neg (fun c => by simp [job c.1] at c)]
  dsimp only
  rw [Act.bind_ok (writeG_ok (State.canRun_stream h (.inr (.head _)))), advance_onward]

theorem exec_mfs_waits {s : State} {a : Nat} (h : s.canRun [] [a] = true) (job : s.holdsOp issuesJob = true) :
    exec (.mfs a 8) s = .next s := by
  refine runAct_stall ?_
  unfold mfsAct
  rw [Act.bind_ok (prep_ok h), Act.get_bind, if_pos ⟨rfl, job⟩]
  rfl

/-! ## MTS (R7, R214, R298, R440) -/

/-- MTS whose source can be read writes the special register, and goes on. -/
theorem exec_mts {s : State} {a : Nat} (num : Nat) (h : s.canRun [a] [] = true) (spec : s.spec = false) :
    exec (.mts num a) s = runAct (do writeSpecial num (s.me.g.get a); advance) s := by
  have read : mtsAct num a s = (do writeSpecial num (s.me.g.get a); advance : Act Unit) s := by
    unfold mtsAct
    rw [Act.bind_ok (prep_ok h), Act.bind_ok (notSpec_ok spec), Act.bind_ok (readG_ok (State.canRun_stream h (.inl (.head _))))]
  show runAct _ s = runAct _ s
  unfold runAct
  rw [read]

/-- A write that a special register takes is done, and control falls through. -/
theorem exec_mts_of_write {s t : State} {a num : Nat} (h : s.canRun [a] [] = true) (spec : s.spec = false)
    (write : writeSpecial num (s.me.g.get a) s = .ok ((), t)) : exec (.mts num a) s = .next t.onward := by
  rw [exec_mts num h spec]
  exact runAct_ok (by rw [Act.bind_ok write, advance_onward])

/-- A value that EPC, TVEC and SVEC accept (R7, R290). -/
def legalPc (v : Word) : Prop := bit v 5 = false ∧ bits v 63 52 = 0

/-- A write of a register that takes any value, or of one that holds a PC by a value that is one, is not refused. -/
theorem writeSpecial_guard {num : Nat} {v : Word} (h : num ∈ [1, 6, 7] → legalPc v) :
    ((num == 1 || num == 6 || num == 7) && (bit v 5 || bits v 63 52 != 0)) = false := by
  by_cases m : num ∈ [1, 6, 7]
  · obtain ⟨slot, high⟩ := h m
    simp [slot, high]
  · have : (num == 1 || num == 6 || num == 7) = false := by simpa [and_assoc] using m
    rw [this, Bool.false_and]

theorem writeSpecial_illegal {num : Nat} {v : Word} (s : State) (m : num ∈ [1, 6, 7]) (h : ¬ legalPc v) :
    writeSpecial num v s = ill 0 s := by
  have slot : (num == 1 || num == 6 || num == 7) = true := by simpa [or_assoc] using m
  have bad : (bit v 5 || bits v 63 52 != 0) = true := by
    rw [legalPc, not_and_or] at h
    simpa using h
  unfold writeSpecial
  rw [slot, bad]
  rfl

/-- MTS of a value that is no PC traps ILL. -/
theorem exec_mts_illegal {s : State} {a num : Nat} (h : s.canRun [a] [] = true) (spec : s.spec = false) (m : num ∈ [1, 6, 7])
    (bad : ¬ legalPc (s.me.g.get a)) : exec (.mts num a) s = .next (s.trapped 1 0 0) := by
  rw [exec_mts num h spec]
  exact runAct_ill (Act.bind_error (writeSpecial_illegal s m bad))

theorem writeSpecial_epc {v : Word} (s : State) (h : legalPc v) :
    writeSpecial 1 v s = .ok ((), s.modMe (fun c => { c with trap := { c.trap with epc := v } })) := by
  unfold writeSpecial
  rw [writeSpecial_guard fun _ => h]
  rfl

theorem writeSpecial_tvec {v : Word} (s : State) (h : legalPc v) :
    writeSpecial 6 v s = .ok ((), s.modMe (fun c => { c with trap := { c.trap with tvec := v } })) := by
  unfold writeSpecial
  rw [writeSpecial_guard fun _ => h]
  rfl

theorem writeSpecial_svec {v : Word} (s : State) (h : legalPc v) :
    writeSpecial 7 v s = .ok ((), s.modCore s.curCore (fun c => { c with svec := v })) := by
  unfold writeSpecial
  rw [writeSpecial_guard fun _ => h]
  rfl

theorem writeSpecial_csw (v : Word) (s : State) :
    writeSpecial 0 v s = .ok ((), s.modMe (fun c => { c with uie := bit v 11, atrap := bit v 10 })) := rfl

theorem writeSpecial_gcfg (v : Word) (s : State) :
    writeSpecial 0xD v s = .ok ((), s.modCore s.curCore (fun c => { c with gcfg := writeGcfg c.gcfg v })) := rfl

/-- A write of a read-only register is ignored (R7). -/
theorem writeSpecial_ro {num : Nat} (v : Word) (s : State) (h : num ∉ [0, 1, 6, 7, 0xD]) : writeSpecial num v s = .ok ((), s) := by
  simp only [List.mem_cons, List.not_mem_nil, or_false, not_or] at h
  obtain ⟨csw, epc, tvec, svec, gcfg⟩ := h
  unfold writeSpecial
  rw [writeSpecial_guard fun m => by simp [epc, tvec, svec] at m]
  simp only [Bool.false_eq_true, if_false]
  rfl

/-! ## SYSC (R442) -/

theorem exec_sysc (s : State) (n : Nat) : exec (.sysc n) s = .next (s.onward.takeTrap s.curCore s.curCtx
    { cause := 19, epc := s.nextOf, eaddr := 0, einfo := BitVec.ofNat 64 (n % 1024), pois := false, eng := false, job := 0 }) := by
  have next : s.onward.me.pc = s.nextOf := by rw [State.me_onward]
  rw [← next]
  rfl

/-! ## TRET from the TVEC handler (R273, R441) -/

theorem exec_tret_outside {s : State} (h : bit s.me.trap.ecause 12 = false) : exec .tret s = .next (s.trapped 1 0 0) := by
  refine runAct_ill ?_
  unfold tretAct
  rw [Act.get_bind, Ctx.intv, h]
  rfl

/-- In the handler TRET tests EPC first. -/
theorem tretAct_inside {s u : State} {b : Bool} (h : bit s.me.trap.ecause 12 = true) (target : badTarget s.me.trap.epc s = .ok (b, u)) :
    tretAct s = (if b then trapNow cILLTGT s.me.trap.epc 0 else modify (fun x => x.returnTrap x.curCore x.curCtx) : Act Unit) u := by
  unfold tretAct
  rw [Act.get_bind, Ctx.intv, h]
  show (badTarget s.me.trap.epc >>= _) s = _
  rw [Act.bind_ok target]
  cases b <;> rfl

theorem exec_tret_badTarget {s u : State} (h : bit s.me.trap.ecause 12 = true) (target : badTarget s.me.trap.epc s = .ok (true, u)) :
    exec .tret s = .next (s.trapped 3 s.me.trap.epc 0) := by
  refine runAct_trap ?_
  rw [tretAct_inside h target, if_pos rfl, trapNow, State.sameButWalk_me (badTarget_frame target)]
  rfl

/-- Bit 12 cleared reads 0. -/
theorem bit_setBits_clear (w : Word) : bit (setBits w 12 12 0) 12 = false := by
  have := w.isLt
  refine bit_eq_of_toNat ?_
  simp only [setBits, bits, BitVec.toNat_ofNat, Bool.toNat_false]
  omega

/-- TRET leaves the handler for EPC, with INTV cleared. -/
theorem exec_tret_returns {s u : State} (h : bit s.me.trap.ecause 12 = true) (target : badTarget s.me.trap.epc s = .ok (false, u)) :
    ∃ t, exec .tret s = .next t ∧ t.me.pc = s.me.trap.epc ∧ bit t.me.trap.ecause 12 = false ∧ t.me.trap.epc = s.me.trap.epc ∧
      t.me.g = s.me.g ∧ t.mem = u.mem := by
  have me : (u.returnTrap u.curCore u.curCtx).me =
      { s.me with pc := s.me.trap.epc, trap := { s.me.trap with ecause := setBits s.me.trap.ecause 12 12 0 } } := by
    rw [← State.sameButWalk_me (badTarget_frame target)]
    exact State.me_modMe ..
  refine ⟨u.returnTrap u.curCore u.curCtx, runAct_ok ?_, ?_⟩
  · rw [tretAct_inside h target]
    rfl
  · rw [me]
    exact ⟨rfl, bit_setBits_clear _, rfl, rfl, rfl⟩

/-! ## HALT (R445) -/

theorem exec_halt_unprivileged {s : State} (h : s.privM = false) :
    exec .halt s = .next (s.trapped 1 0 (BitVec.ofNat 64 (2 ^ 63 + 0xFE * 256 + 7))) := by
  refine runAct_trap ?_
  unfold haltAct
  rw [Act.get_bind, h]
  rfl

/-- HALT of the management core tests its wake latch. -/
theorem haltAct_privileged {s : State} (h : s.privM = true) (spec : s.spec = false) : haltAct s =
    (if s.me.wakeSeen < s.wakes then (do modify (fun x => x.modMe (fun c => { c with wakeSeen := x.wakes })); advance)
      else modify (fun x => x.modMe (fun c => { c with phase := .halted })) : Act Unit) s := by
  have held : needPriv 0xFE s.privM s = .ok ((), s) := by rw [h]; rfl
  unfold haltAct
  rw [Act.get_bind, Act.bind_ok held, Act.bind_ok (notSpec_ok spec)]

theorem exec_halt_latched {s : State} (h : s.privM = true) (spec : s.spec = false) (latch : s.me.wakeSeen < s.wakes) :
    exec .halt s = .next (s.modMe (fun c => { c with wakeSeen := s.wakes })).onward := by
  refine runAct_ok ?_
  rw [haltAct_privileged h spec, if_pos latch]
  rfl

theorem exec_halt_stops {s : State} (h : s.privM = true) (spec : s.spec = false) (latch : s.wakes ≤ s.me.wakeSeen) :
    exec .halt s = .next (s.modMe (fun c => { c with phase := .halted })) := by
  refine runAct_ok ?_
  rw [haltAct_privileged h spec, if_neg (Nat.not_lt.mpr latch)]
  rfl

theorem assocGet_map {α β : Type} (f : α → β) (l : List (Nat × α)) (k : Nat) :
    assocGet (l.map (fun p => (p.1, f p.2))) k = (assocGet l k).map f := by
  induction l with
  | nil => rfl
  | cons p r ih =>
    rw [List.map_cons, assocGet, assocGet, ih]
    split
    · rfl
    · split <;> rfl

/-- A context of the management core as a wake leaves it. -/
def State.woken (s : State) (c : Ctx) : Ctx :=
  if c.phase = .halted ∧ c.wakeSeen < s.wakes then { c with phase := .running, wakeSeen := s.wakes, pc := nextPc c.pc c.lineN } else c

/-- A wake touches the contexts of the management core alone. -/
theorem exec_haltWake (s : State) : exec .haltWake s = .next (s.modCore mgmtCore (fun c =>
    { c with ctx := { dflt := c.ctx.dflt, cells := c.ctx.cells.map (fun p => (p.1, s.woken p.2)) } })) := rfl

theorem haltWake_wakes {s : State} {k : Nat} {c : Ctx} (listed : assocGet (s.coreAt mgmtCore).ctx.cells k = some c)
    (halted : c.phase = .halted) (latch : c.wakeSeen < s.wakes) :
    ∃ t, exec .haltWake s = .next t ∧ (t.ctxAt mgmtCore k).phase = .running ∧ (t.ctxAt mgmtCore k).pc = nextPc c.pc c.lineN ∧
      (t.ctxAt mgmtCore k).g = c.g ∧ t.mem = s.mem := by
  refine ⟨_, exec_haltWake s, ?_⟩
  have woken : (s.modCore mgmtCore (fun c =>
      { c with ctx := { dflt := c.ctx.dflt, cells := c.ctx.cells.map (fun p => (p.1, s.woken p.2)) } })).ctxAt mgmtCore k =
      { c with phase := .running, wakeSeen := s.wakes, pc := nextPc c.pc c.lineN } := by
    show Tab.get (Core.ctx (State.coreAt _ mgmtCore)) k = _
    rw [State.coreAt_modCore_same]
    simp only [Tab.get, assocGet_map, listed, Option.map_some, Option.getD_some]
    exact if_pos ⟨halted, latch⟩
  rw [woken]
  exact ⟨rfl, rfl, rfl, rfl⟩

/-! ## The special registers -/

/-- Settles O51: the reads of MFS, the writes of MTS, and the other instructions by their lemmas. -/
theorem systemRegisters : Obligations.SystemRegisters := by
  intro s
  refine ⟨fun a run => ?mfs, fun a run spec => ?mts, exec_sysc s, exec_tret_outside,
    fun u => exec_tret_returns, fun u => exec_tret_badTarget, exec_halt_unprivileged,
    fun priv spec => ⟨exec_halt_latched priv spec, exec_halt_stops priv spec⟩, fun k c => haltWake_wakes⟩
  case mfs =>
    intro c n words
    -- the list holds every special register but CSW and ISA.FEAT, each with its value
    have listed : words = specialRegs.tail.dropLast.map (fun num => (num, s.special num)) := rfl
    refine ⟨fun p m job => ?_, exec_mfs_waits run, s.csw, exec_mfs run nofun, s.csw_fields⟩
    obtain ⟨num, -, rfl⟩ := List.mem_map.mp (listed ▸ m)
    exact exec_mfs run job
  case mts =>
    have write {num : Nat} {t : State} : writeSpecial num (s.me.g.get a) s = .ok ((), t) → exec (.mts num a) s = .next t.onward :=
      exec_mts_of_write run spec
    refine ⟨write (writeSpecial_csw ..), fun legal => ⟨write (writeSpecial_epc s legal), write (writeSpecial_tvec s legal),
      write (writeSpecial_svec s legal)⟩, fun bad => ⟨exec_mts_illegal run spec (by simp) bad, exec_mts_illegal run spec (by simp) bad,
      exec_mts_illegal run spec (by simp) bad⟩, fun tau rthr => ?_, fun tau pos => ⟨_, write (writeSpecial_gcfg ..), ?_, ?_⟩,
      fun num _ ro => write (writeSpecial_ro _ s ro)⟩
    · rw [write (writeSpecial_gcfg ..)]
      simp only [writeGcfg_of_lt tau rthr]
    · have same := s.me_modCore s.curCore (f := fun c => { c with gcfg := writeGcfg c.gcfg (s.me.g.get a) }) fun _ => rfl
      rw [State.me_onward]
      show State.nextOf _ = _
      rw [State.nextOf, same]
      rfl
    · rw [State.gcfg_onward, State.coreAt_modCore_same]
      exact tau_writeGcfg_of_ge tau pos _

end Sys2Proof.Machine
end

section
/-! The turn that a step leaves is legal, and what reset leaves (R16, R24, R52, R69, R97, R109, R110, R191, R223, R228). -/

namespace Sys2Proof.Machine

/-! ## The choice of a context (R109, R110) -/

/-- The context with the least lastissue is one of the list. -/
theorem State.leastIssued_mem {s : State} {core k : Nat} {ks : List Nat} (h : s.leastIssued core ks = some k) : k ∈ ks := by
  have chosen (r : List Nat) (j : Nat) :
      r.foldl (fun m x => if (s.ctxAt core x).lastIssue < (s.ctxAt core m).lastIssue then x else m) j ∈ j :: r := by
    induction r generalizing j with
    | nil => exact .head _
    | cons x r ih =>
      rw [List.foldl_cons]
      rcases List.mem_cons.mp (ih (if (s.ctxAt core x).lastIssue < (s.ctxAt core j).lastIssue then x else j)) with e | m
      · rw [e]
        split
        · exact .tail _ (.head _)
        · exact .head _
      · exact .tail _ (.tail _ m)
  cases ks with
  | nil => cases h
  | cons j r => exact Option.some.inj h ▸ chosen r j

/-- The least lately issued of the contexts of a list that are ready is ready. -/
theorem State.leastIssued_ready {s : State} {core k : Nat} {ks : List Nat}
    (h : s.leastIssued core (ks.filter (s.ready core)) = some k) : s.ready core k = true :=
  (List.mem_filter.mp (State.leastIssued_mem h)).2

/-- A core picks a context that is ready (R110). -/
theorem State.pickFresh_ready {s : State} {core k : Nat} (h : s.pickFresh core = some k) : s.ready core k = true := by
  unfold State.pickFresh at h
  dsimp only at h
  split at h
  · exact State.leastIssued_ready h
  split at h
  · next ready => exact Option.some.inj h ▸ ready
  split at h
  · next ready => exact Option.some.inj h ▸ ready
  split at h
  · exact State.leastIssued_ready h
  · exact State.leastIssued_ready h

/-- The context of the second instruction of a pair is ready (R109). -/
theorem State.pairCtx_ready {s : State} {core k : Nat} (h : s.pairCtx core = some k) : s.ready core k = true := by
  unfold State.pairCtx at h
  dsimp only at h
  split at h
  · cases h
  split at h
  · next p _ guard =>
    obtain ⟨-, ready⟩ := Bool.and_eq_true _ _ ▸ guard
    repeat' split at h
    all_goals cases h
    exact ready
  · cases h

theorem State.pickCtx_ready {s : State} {core k : Nat} (h : s.pickCtx core = some k) : s.ready core k = true := by
  unfold State.pickCtx at h
  split at h
  · next pair => exact State.pairCtx_ready (pair.trans h)
  split at h
  · cases h
  · exact State.pickFresh_ready h

/-- A ready context may issue: it is awake, no interrupt waits for it, and neither its ordered task nor the report of a store holds it. -/
theorem State.ready_legal {s : State} {core k : Nat} (h : s.ready core k = true) :
    (s.ctxAt core k).awake = true ∧ (s.ctxAt core k).interrupted = false ∧ s.ordStalled core k = false ∧
      s.faultWaits core k = false := by
  simp only [State.ready, Bool.and_eq_true, Bool.not_eq_true'] at h
  obtain ⟨⟨⟨⟨awake, quiet⟩, ord⟩, fault⟩, -⟩ := h
  exact ⟨awake, quiet, ord, fault⟩

/-! ## What may happen next -/

/-- A context that issues next is ready, and its core has a clock. -/
theorem State.ctxTurns_legal {s : State} {u : Turn} (h : u ∈ s.ctxTurns) : ({ s with turn := u } : State).turnLegal := by
  obtain ⟨c, -, taken⟩ := List.mem_filterMap.mp h
  split at taken
  · next powered =>
    obtain ⟨k, pick, rfl⟩ := Option.map_eq_some_iff.mp taken
    exact ⟨powered, State.ready_legal (s := s) (State.pickCtx_ready pick)⟩
  · cases taken

theorem State.unitTurns_legal {s : State} {u : Turn} (h : u ∈ s.unitTurns) : ({ s with turn := u } : State).turnLegal := by
  obtain ⟨c, -, taken⟩ := List.mem_filterMap.mp h
  dsimp only at taken
  split at taken
  · next runs =>
    obtain ⟨state, -⟩ := Bool.and_eq_true _ _ ▸ runs
    split at taken
    · next served =>
      cases taken
      exact ⟨of_decide_eq_true state, List.isEmpty_iff.mp served⟩
    · cases taken
      trivial
  · cases taken

theorem State.heldTurns_legal {s : State} {u : Turn} (h : u ∈ s.heldTurns) : ({ s with turn := u } : State).turnLegal := by
  obtain ⟨c, -, m⟩ := List.mem_flatMap.mp h
  obtain ⟨o, listed, rfl⟩ := List.mem_map.mp m
  obtain ⟨live, holds⟩ := List.mem_filter.mp listed
  obtain ⟨irrevocable, held⟩ := Bool.and_eq_true _ _ ▸ holds
  exact ⟨o, live, rfl, irrevocable, by simpa using held⟩

/-- Whatever may happen next is a legal turn. -/
theorem State.choices_legal {s : State} {p : Turn × Bool} (h : p ∈ s.choices) : ({ s with turn := p.1 } : State).turnLegal := by
  rcases List.mem_append.mp h with flight | own
  · obtain ⟨e, -, rfl⟩ := List.mem_map.mp flight
    trivial
  · obtain ⟨u, m, rfl⟩ := List.mem_map.mp own
    simp only [List.mem_append] at m
    rcases m with ((ctx | unit) | held) | due
    · exact State.ctxTurns_legal ctx
    · exact State.unitTurns_legal unit
    · exact State.heldTurns_legal held
    · obtain ⟨e, -, rfl⟩ := List.mem_map.mp due
      trivial

/-- Taking a free value leaves a legal turn legal. -/
theorem State.turnLegal_free {s : State} (n : Nat) (h : s.turnLegal) : ({ s with free := n } : State).turnLegal := h

/-- The turn that is chosen is legal: an event in flight, one of what may happen next, or none. -/
theorem State.pickNext_legal (s : State) : s.pickNext.turnLegal := by
  unfold State.pickNext
  extract_lets s1 cs
  split
  · trivial
  · trivial
  · next u _ _ chosen =>
    exact State.turnLegal_free (s := { s1 with turn := u }) _ (State.choices_legal (List.mem_of_getElem? chosen))

/-- A step leaves the state in which the next turn has been chosen. -/
theorem step_next {s t : State} (h : step s = .next t) : ∃ u, s.act = .next u ∧ t = u.pickNext := by
  unfold step at h
  split at h
  · cases h
  · split at h
    · next u acted =>
      cases h
      exact ⟨u, acted, rfl⟩
    · cases h
    · cases h

/-- Settles O6: whatever a turn does, the turn chosen after it is one of those that may happen next. -/
theorem stepKeepsTurnLegal : Obligations.StepKeepsTurnLegal := by
  intro s t _ stepped
  obtain ⟨u, -, rfl⟩ := step_next stepped
  exact u.pickNext_legal

/-! ## Reset (R24, R52, R69) -/

/-- Settles O7: after reset the turn is the event of a device reset (R24). -/
theorem resetTurnLegal : Obligations.ResetTurnLegal := show State.reset.turnLegal from trivial

/-- After reset island 31 is at OP 3, and every other at OP 0. -/
theorem reset_island (k : Nat) : State.reset.island.get k = Island.reset (if k = 31 then 3 else 0) := by
  show ((Tab.const (Island.reset 0)).set 31 (Island.reset 3)).get k = _
  rw [Tab.get_set]
  split <;> rfl

/-- Settles O8: the fields of the reset state, and the guard of step. -/
theorem resetLeaves : Obligations.ResetLeaves := by
  refine ⟨⟨fun k other => ?island, congrArg Island.eff (reset_island 31), fun _ => rfl, fun _ _ => rfl, fun _ => rfl, rfl, rfl, reset_mem_wf⟩,
    fun s failed other => if_pos ⟨failed, other⟩⟩
  case island =>
    rw [reset_island, if_neg other]
    exact ⟨rfl, rfl⟩

end Sys2Proof.Machine
end

section
/-! Reset, the steps of the bring-up, and the points of islands (R16 to R18, R21, R24, R69, R201). -/

namespace Sys2Proof.Machine

theorem exec_deviceReset (s : State) : exec .deviceReset s = .next s.resetDevice := rfl

/-! ## Bring-up (R24, R69) -/

/-- Each key of a list without repetitions is changed once, and no other. -/
theorem get_foldl_modify {α : Type} (t : Tab α) (g : Nat → α → α) {is : List Nat} (h : is.Nodup) (j : Nat) :
    (is.foldl (fun u i => u.modify i (g i)) t).get j = if j ∈ is then g j (t.get j) else t.get j := by
  induction is generalizing t with
  | nil => rfl
  | cons i r ih =>
    obtain ⟨fresh, nodup⟩ := List.nodup_cons.mp h
    rw [List.foldl_cons, ih _ nodup, Tab.get_modify]
    by_cases e : j = i
    · simp [e, fresh]
    · simp [e]

/-- Island `i` as the bring-up raises it: OP 3, under the thermal limit and a grade-2 hold (R16, R21, R24). -/
def State.raised (s : State) (i : Nat) (x : Island) : Island :=
  { x with req := 3, eff := if i % 8 < 4 && s.held2 (i / 8) then min x.limit 1 else min 3 x.limit, changing := false }

/-- The islands of four dies that stand at the places `ks` of their die. -/
def islandsAt (ks : List Nat) : List Nat := (List.range 4).flatMap (fun d => ks.map (8 * d + ·))

theorem State.raiseIslands_eq (s : State) {ks : List Nat} (h : ∀ k ∈ ks, k < 8) :
    s.raiseIslands ks = { s with island := (islandsAt ks).foldl (fun u i => u.modify i (s.raised i)) s.island } := by
  unfold State.raiseIslands islandsAt
  rw [List.foldl_flatMap]
  congr 1
  refine List.foldl_ext _ _ _ fun t d _ => ?_
  rw [List.foldl_map]
  refine List.foldl_ext _ _ _ fun u k m => ?_
  have low := h k m
  refine congrArg (u.modify (8 * d + k)) (funext fun x => ?_)
  simp only [State.raised, show (8 * d + k) % 8 = k by omega, show (8 * d + k) / 8 = d by omega]

theorem State.raiseIslands_only (s : State) (ks : List Nat) : ∃ isl, s.raiseIslands ks = { s with island := isl } := ⟨_, rfl⟩

/-- An island that the bring-up raises. -/
theorem State.island_raiseIslands (s : State) {ks : List Nat} (h : ∀ k ∈ ks, k < 8) (nodup : (islandsAt ks).Nodup) {die k : Nat}
    (hd : die < 4) (hk : k ∈ ks) :
    (s.raiseIslands ks).island.get (8 * die + k) = s.raised (8 * die + k) (s.island.get (8 * die + k)) := by
  have listed : 8 * die + k ∈ islandsAt ks :=
    List.mem_flatMap.mpr ⟨die, List.mem_range.mpr hd, List.mem_map.mpr ⟨k, hk, rfl⟩⟩
  rw [s.raiseIslands_eq h]
  exact (get_foldl_modify _ _ nodup _).trans (if_pos listed)

/-- The arrays of the device are calibrated (R24, R202). -/
def State.calibrateAll (s : State) : State :=
  (List.range 240).foldl (fun x cl => (List.range 8).foldl (fun y a => y.calibrate cl a) x) s

/-- The calibration of arrays touches their clusters and the count of free values. -/
theorem State.calibrateAll_eq (s : State) : ∃ cls n, s.calibrateAll = { s with cluster := cls, free := n } := by
  have arrays (cl : Nat) (as : List Nat) (x : State) :
      ∃ cls n, as.foldl (fun y a => y.calibrate cl a) x = { x with cluster := cls, free := n } := by
    induction as generalizing x with
    | nil => exact ⟨_, _, rfl⟩
    | cons a r ih => exact ih (x.calibrate cl a)
  unfold State.calibrateAll
  generalize List.range 240 = is
  induction is generalizing s with
  | nil => exact ⟨_, _, rfl⟩
  | cons cl r ih =>
    obtain ⟨cls, n, e⟩ := arrays cl (List.range 8) s
    rw [List.foldl_cons, e]
    exact ih _

/-- The image that a bring-up step measures. -/
def State.imageContent (s : State) (n : Nat) : List Byte :=
  match s.imageOf n with
  | some k => (Config.flash k).content
  | none => []

theorem State.extendMeas_island (s : State) (i : Nat) (d : List Byte) : (s.extendMeas i d).island = s.island := rfl

theorem State.bringUp_five (s : State) :
    s.bringUp 5 = ((s.raiseIslands [0, 1, 2, 3, 5]).extendMeas 2 (s.imageContent 5)).calibrateAll := rfl

/-- What every step of the bring-up leaves alone: the cores, the partition table and what is in flight, and memory but for step 3. -/
theorem State.bringUp_frame (s : State) (n : Nat) :
    (s.bringUp n).core = s.core ∧ (s.bringUp n).part = s.part ∧ (s.bringUp n).agenda = s.agenda ∧
      (n ≠ 3 → (s.bringUp n).mem = s.mem) := by
  by_cases five : n = 5
  · obtain ⟨cls, m, e⟩ := ((s.raiseIslands [0, 1, 2, 3, 5]).extendMeas 2 (s.imageContent 5)).calibrateAll_eq
    obtain ⟨isl, raised⟩ := s.raiseIslands_only [0, 1, 2, 3, 5]
    rw [five, State.bringUp_five, e, raised]
    exact ⟨rfl, rfl, rfl, fun _ => rfl⟩
  · unfold State.bringUp
    dsimp only
    split
    · exact ⟨rfl, rfl, rfl, fun _ => rfl⟩
    · obtain ⟨isl, raised⟩ := s.raiseIslands_only [4, 6, 7]
      rw [raised]
      exact ⟨rfl, rfl, rfl, fun _ => rfl⟩
    · exact ⟨rfl, rfl, rfl, fun three => absurd rfl three⟩
    · exact absurd rfl five
    · exact ⟨rfl, rfl, rfl, fun _ => rfl⟩
    · exact ⟨rfl, rfl, rfl, fun _ => rfl⟩

/-- The islands that steps 2 and 5 raise. -/
theorem State.island_bringUp (s : State) {n die k : Nat} (hd : die < 4)
    (h : n = 2 ∧ k ∈ [4, 6, 7] ∨ n = 5 ∧ k ∈ [0, 1, 2, 3, 5]) :
    (s.bringUp n).island.get (8 * die + k) = s.raised (8 * die + k) (s.island.get (8 * die + k)) := by
  rcases h with ⟨rfl, hk⟩ | ⟨rfl, hk⟩
  · exact s.island_raiseIslands (by decide) (by decide) hd hk
  · obtain ⟨cls, m, e⟩ := ((s.raiseIslands [0, 1, 2, 3, 5]).extendMeas 2 (s.imageContent 5)).calibrateAll_eq
    rw [State.bringUp_five, e]
    show ((s.raiseIslands [0, 1, 2, 3, 5]).extendMeas 2 (s.imageContent 5)).island.get _ = _
    rw [State.extendMeas_island]
    exact s.island_raiseIslands (by decide) (by decide) hd hk

/-- A range that is cleared reads zero, and what lies outside it reads as before. -/
theorem memRead_clearRange {m : List Host.Cell} (h : Memory.wf m = true) (a n j : Nat) :
    memRead (clearRange m a n) j = if a ≤ j ∧ j < a + n then 0 else memRead m j := by
  have cleared : ∀ c, c ∈ clearRange m a n ↔ c ∈ m ∧ ¬ (a ≤ c.1 ∧ c.1 < a + n) := fun c => by
    simp only [clearRange, List.mem_filter, Bool.not_eq_true', Bool.and_eq_false_iff, decide_eq_false_iff_not, not_and_or]
  split
  · next inside =>
    by_contra nz
    exact ((cleared _).mp (mem_of_memRead nz)).2 inside
  · next outside =>
    by_cases z : memRead m j = 0
    · rw [z]
      by_contra nz
      have listed := ((cleared _).mp (mem_of_memRead nz)).1
      exact nz ((memRead_of_mem h listed).symm.trans z)
    · exact memRead_of_mem (clearRange_wf h a n) ((cleared _).mpr ⟨mem_of_memRead z, outside⟩)

/-- The state after a step of the bring-up that has completed: the next one is under way. -/
def State.stepDone (s : State) (n : Nat) : State :=
  let t : State := { s.bringUp n with sec := { (s.bringUp n).sec with boot := n } }
  if n < 7 then t.startStep (n + 1) else t

/-- What the start of the next step leaves of the state that a step of the bring-up gives. -/
theorem State.stepDone_frame (s : State) (n : Nat) :
    (s.stepDone n).sec.boot = n ∧ (s.stepDone n).core = (s.bringUp n).core ∧ (s.stepDone n).part = (s.bringUp n).part ∧
      (s.stepDone n).mem = (s.bringUp n).mem ∧ (s.stepDone n).link = (s.bringUp n).link ∧
      (s.stepDone n).island = (s.bringUp n).island := by
  unfold State.stepDone
  dsimp only
  split <;> exact ⟨rfl, rfl, rfl, rfl, rfl, rfl⟩

theorem State.agenda_stepDone (s : State) {n : Nat} (h : n < 7) :
    ∃ b, (s.stepDone n).agenda = s.agenda ++ [.bringUpStepComplete (n + 1) b] := by
  refine ⟨decide (Config.freeNat (s.bringUp n).free % 2 = 0), ?_⟩
  obtain ⟨-, -, agenda, -⟩ := s.bringUp_frame n
  rw [State.stepDone, if_pos h, ← agenda]
  rfl

section
variable {s : State} {n : Nat} (due : s.sec.boot + 1 = n) (le : n ≤ 7)
include due le

/-- A step that is due fails by its image, completes, or stops the sequence in recovery firmware (R24, R69). -/
theorem exec_bringUpStep (ok : Bool) : exec (.bringUpStepComplete n ok) s = .next
    (if s.imageFails n ∨ (n = 1 ∧ !ok) then s.imageFailed else if ok then s.stepDone n
      else { s with sec := { s.sec with recovery := true } }) :=
  congrArg Host.Outcome.next (if_neg (by omega))

theorem exec_bringUpStep_done (image : s.imageFails n = false) : exec (.bringUpStepComplete n true) s = .next (s.stepDone n) := by
  rw [exec_bringUpStep due le, if_neg (by simp [image]), if_pos rfl]

theorem exec_bringUpStep_image {ok : Bool} (fails : s.imageFails n = true ∨ n = 1 ∧ ok = false) :
    exec (.bringUpStepComplete n ok) s = .next s.imageFailed := by
  rw [exec_bringUpStep due le, if_pos (by simpa using fails)]

theorem exec_bringUpStep_stops (later : 1 < n) (image : s.imageFails n = false) :
    exec (.bringUpStepComplete n false) s = .next { s with sec := { s.sec with recovery := true } } := by
  rw [exec_bringUpStep due le, if_neg (by simp [image, Nat.ne_of_gt later]), if_neg Bool.false_ne_true]

end

/-! ## Islands (R16 to R18) -/

/-- A write of ISL.CTL that is refused: a reserved point, or OP 0 where it is not allowed or the quadrant is busy (R17). -/
def State.islRefused (s : State) (i req : Nat) : Prop :=
  4 ≤ req ∨ req = 0 ∧ (i % 8 ∈ [4, 6, 7] ∨ i % 8 < 4 ∧ s.quadrantBusy (i / 8) (i % 8) = true)

theorem State.islRefused_iff (s : State) (i req : Nat) :
    (decide (4 ≤ req) || (req == 0 && (i % 8 == 4 || i % 8 == 6 || i % 8 == 7)) ||
      (req == 0 && decide (i % 8 < 4) && s.quadrantBusy (i / 8) (i % 8))) = true ↔ s.islRefused i req := by
  simp only [State.islRefused, Bool.or_eq_true, Bool.and_eq_true, decide_eq_true_eq, beq_iff_eq, List.mem_cons, List.not_mem_nil, or_false]
  tauto

/-- An island whose change to point `req` is under way. -/
def State.pointChanging (s : State) (i req : Nat) : State :=
  { s with island := s.island.set i { s.island.get i with req := req, badreq := false, changing := true },
           agenda := s.agenda ++ [.operatingPointChangeDone i] }

section
variable {s : State} {i : Nat} (v : Word) (low : i < 32)
include low

theorem exec_islCtlWrite_refused (h : s.islRefused i (bits v 2 0)) :
    exec (.islCtlWrite i v) s = .next { s with island := s.island.set i { s.island.get i with badreq := true } } := by
  show Host.Outcome.next (if i < 32 then s.writeIslCtl i v else s) = _
  rw [if_pos low, State.writeIslCtl, if_pos ((s.islRefused_iff i _).mpr h)]

theorem exec_islCtlWrite_taken (h : ¬ s.islRefused i (bits v 2 0)) :
    exec (.islCtlWrite i v) s = .next (s.pointChanging i (bits v 2 0)) := by
  show Host.Outcome.next (if i < 32 then s.writeIslCtl i v else s) = _
  rw [if_pos low, State.writeIslCtl, if_neg (mt (s.islRefused_iff i _).mp h)]
  rfl

end

/-! ## An analogue island is gated (R18, R201) -/

@[simp] theorem State.arrayAt_modArray_same (s : State) (cl arr : Nat) (f : XbarArray → XbarArray) :
    (s.modArray cl arr f).arrayAt cl arr = f (s.arrayAt cl arr) := by
  simp [State.arrayAt, State.modArray, State.clusterAt, State.modCluster]

theorem State.arrayAt_modArray_ne (s : State) {cl arr dl brr : Nat} (f : XbarArray → XbarArray) (h : (dl, brr) ≠ (cl, arr)) :
    (s.modArray cl arr f).arrayAt dl brr = s.arrayAt dl brr := by
  by_cases e : dl = cl
  · have other : brr ≠ arr := fun b => h (by rw [e, b])
    simp [State.arrayAt, State.modArray, State.clusterAt, State.modCluster, e, Tab.get_modify_ne _ _ _ _ other]
  · simp [State.arrayAt, State.modArray, State.clusterAt, State.modCluster, Tab.get_modify_ne _ _ _ _ e]

/-- From `s` to `t` memory and the islands stand, and of the arrays at most `arr` of cluster `cl` has changed. -/
structure State.OnlyArray (s t : State) (cl arr : Nat) : Prop where
  mem : t.mem = s.mem
  island : t.island = s.island
  other : ∀ dl brr, (dl, brr) ≠ (cl, arr) → t.arrayAt dl brr = s.arrayAt dl brr

theorem State.OnlyArray.trans {s t u : State} {cl arr : Nat} (h : s.OnlyArray t cl arr) (g : t.OnlyArray u cl arr) :
    s.OnlyArray u cl arr :=
  ⟨g.mem.trans h.mem, g.island.trans h.island, fun dl brr ne => (g.other dl brr ne).trans (h.other dl brr ne)⟩

theorem State.modArray_onlyArray (s : State) (cl arr : Nat) (f : XbarArray → XbarArray) : s.OnlyArray (s.modArray cl arr f) cl arr :=
  ⟨rfl, rfl, fun _ _ ne => s.arrayAt_modArray_ne f ne⟩

/-- The result reads that see a product complete stand in contexts. -/
theorem State.noteProduct_eq (s : State) (cl arr : Nat) (c : XbarCmd) :
    s.noteProduct cl arr c = { s with core := (s.noteProduct cl arr c).core } := by
  unfold State.noteProduct
  dsimp only
  split <;> rfl

theorem State.noteProduct_onlyArray (s : State) (cl arr : Nat) (c : XbarCmd) : s.OnlyArray (s.noteProduct cl arr c) cl arr := by
  rw [State.noteProduct_eq]
  exact ⟨rfl, rfl, fun _ _ _ => rfl⟩

/-- The end of a command touches its array, contexts and what is in flight. -/
theorem State.xbarEnd_onlyArray (s : State) (cl arr : Nat) (c : XbarCmd) (v : Reply) : s.OnlyArray (s.xbarEnd cl arr c v) cl arr := by
  obtain ⟨mem, island, other⟩ := (s.noteProduct_onlyArray cl arr c).trans (State.modArray_onlyArray _ cl arr (fun a =>
    let b : XbarArray := { a with queue := a.queue.erase c, progDone := a.prog }
    if b.leaving && b.queue.isEmpty then b.erase else b))
  exact ⟨mem, island, other⟩

theorem State.driftEnd_onlyArray (s : State) (cl arr : Nat) (c : XbarCmd) : s.OnlyArray (s.driftEnd cl arr c) cl arr :=
  (s.modArray_onlyArray cl arr _).trans (State.xbarEnd_onlyArray _ cl arr c _)

theorem State.gateArray_onlyArray (s : State) (cl arr : Nat) : s.OnlyArray (s.gateArray cl arr) cl arr := by
  have ended (cs : List XbarCmd) (x : State) : x.OnlyArray (cs.foldl (fun y c => y.driftEnd cl arr c) x) cl arr := by
    induction cs generalizing x with
    | nil => exact ⟨rfl, rfl, fun _ _ _ => rfl⟩
    | cons c r ih => exact (x.driftEnd_onlyArray cl arr c).trans (ih _)
  exact (ended _ s).trans (State.modArray_onlyArray _ cl arr _)

/-- A gated array has lost its calibration. -/
theorem State.calok_gateArray (s : State) (cl arr : Nat) : ((s.gateArray cl arr).arrayAt cl arr).calok = false := by
  unfold State.gateArray
  dsimp only
  rw [State.arrayAt_modArray_same]

/-- The arrays of a list are gated: memory and the islands stand, and every one of them has lost its calibration. -/
theorem State.gateList_leaves (s : State) (ps : List (Nat × Nat)) :
    (ps.foldl (fun x p => x.gateArray p.1 p.2) s).mem = s.mem ∧ (ps.foldl (fun x p => x.gateArray p.1 p.2) s).island = s.island ∧
      ∀ p, p ∈ ps ∨ (s.arrayAt p.1 p.2).calok = false →
        ((ps.foldl (fun x p => x.gateArray p.1 p.2) s).arrayAt p.1 p.2).calok = false := by
  induction ps generalizing s with
  | nil => exact ⟨rfl, rfl, fun p h => h.resolve_left List.not_mem_nil⟩
  | cons q r ih =>
    obtain ⟨mem, island, calok⟩ := ih (s.gateArray q.1 q.2)
    obtain ⟨mem', island', other⟩ := s.gateArray_onlyArray q.1 q.2
    refine ⟨mem.trans mem', island.trans island', fun p h => calok p ?_⟩
    by_cases e : p = q
    · exact .inr (e ▸ s.calok_gateArray q.1 q.2)
    · rw [other p.1 p.2 e]
      exact h.imp_left fun m => (List.mem_cons.mp m).resolve_left e

/-- The arrays of a die. -/
def arraysOf (die : Nat) : List (Nat × Nat) := (List.range 60).flatMap (fun n => (List.range 8).map (fun a => (60 * die + n, a)))

theorem State.gateArrays_eq (s : State) (die : Nat) :
    s.gateArrays die = (arraysOf die).foldl (fun x p => x.gateArray p.1 p.2) s := by
  simp only [State.gateArrays, arraysOf, List.foldl_flatMap, List.foldl_map]

theorem mem_arraysOf {die n a : Nat} (hn : n < 60) (ha : a < 8) : (60 * die + n, a) ∈ arraysOf die :=
  List.mem_flatMap.mpr ⟨n, List.mem_range.mpr hn, List.mem_map.mpr ⟨a, List.mem_range.mpr ha, rfl⟩⟩

/-- An island at its new point (R16). -/
def State.pointTaken (s : State) (i : Nat) : State :=
  { s with island := s.island.modify i (fun x => { x with eff := s.pointOf i, changing := false }) }

theorem exec_operatingPointChangeDone (s : State) (i : Nat) : exec (.operatingPointChangeDone i) s = .next
    (if i % 8 == 5 && s.pointOf i == 0 && (s.island.get i).eff != 0 then (s.pointTaken i).gateArrays (i / 8) else s.pointTaken i) := rfl

theorem State.pointOf_eq (s : State) (i : Nat) : s.pointOf i = if i % 8 < 4 ∧ s.held2 (i / 8) = true
    then min (min (s.island.get i).req (s.island.get i).limit) 1 else min (s.island.get i).req (s.island.get i).limit := by
  simp [State.pointOf]

/-- What the end of a change of point leaves of an island and of the others (R16). -/
theorem State.island_pointTaken (s : State) (i : Nat) :
    ((s.pointTaken i).island.get i = { s.island.get i with eff := s.pointOf i, changing := false }) ∧
      ∀ j, j ≠ i → (s.pointTaken i).island.get j = s.island.get j :=
  ⟨Tab.get_modify_same .., fun _ ne => Tab.get_modify_ne _ _ _ _ ne⟩

/-- The end of a change of point leaves memory, and of the islands and arrays what R16 and R18 say. -/
theorem operatingPointChangeDone_leaves (s : State) (i : Nat) : ∃ t, exec (.operatingPointChangeDone i) s = .next t ∧ t.mem = s.mem ∧
    t.island = (s.pointTaken i).island ∧ (i % 8 ≠ 5 → t.cluster = s.cluster ∧ t.core = s.core) ∧
    (i % 8 = 5 → s.pointOf i = 0 → (s.island.get i).eff ≠ 0 → ∀ n a, n < 60 → a < 8 →
      (t.arrayAt (60 * (i / 8) + n) a).calok = false) := by
  refine ⟨_, exec_operatingPointChangeDone s i, ?_⟩
  split
  · next off =>
    simp only [Bool.and_eq_true, beq_iff_eq] at off
    obtain ⟨mem, island, calok⟩ := (s.pointTaken i).gateList_leaves (arraysOf (i / 8))
    rw [State.gateArrays_eq]
    obtain ⟨⟨analogue, -⟩, -⟩ := off
    exact ⟨mem, island, fun digital => absurd analogue digital,
      fun _ _ _ n a hn ha => calok (60 * (i / 8) + n, a) (.inl (mem_arraysOf hn ha))⟩
  · next stays =>
    refine ⟨rfl, rfl, fun _ => ⟨rfl, rfl⟩, fun analogue zero on => absurd ?_ stays⟩
    simp [analogue, zero, on]

/-! ## The statement -/

/-- Settles O46: a reset, the steps of the bring-up, ISL.CTL and the changes of point, each by the lemmas of its event. -/
theorem resetAndIslands : Obligations.ResetAndIslands := by
  refine ⟨fun s => ?reset, fun s n due le image => ?step, fun s n ok due le fails => ⟨fun first => ?recovers, fun second => ?fails⟩,
    fun s n due later le image => exec_bringUpStep_stops due le later image, fun s i v low => ⟨fun one three => ?run, fun zero may => ?gate,
      fun bad => exec_islCtlWrite_refused v low bad⟩, fun s i => ?point⟩
  case reset =>
    refine ⟨_, _, exec_deviceReset s, rfl, rfl, rfl, rfl, rfl, rfl, rfl, rfl, rfl, rfl, fun k => ?_, rfl⟩
    exact congrArg Island.eff (reset_island k)
  case step =>
    obtain ⟨boot, core, part, mem, link, island⟩ := s.stepDone_frame n
    obtain ⟨core', part', -, mem'⟩ := s.bringUp_frame n
    refine ⟨_, exec_bringUpStep_done due le image, boot, core.trans core', part.trans part', s.agenda_stepDone,
      fun other => mem.trans (mem' other), fun three wf => ?_, fun six => ?_, fun die k hd raised => ?_⟩
    · subst three
      have cleared : (s.stepDone 3).mem = clearRange s.mem 0 (2 ^ 39) := mem
      rw [cleared]
      exact ⟨fun a below => (memRead_clearRange wf ..).trans (if_pos (by omega)),
        fun a above => (memRead_clearRange wf ..).trans (if_neg (by omega))⟩
    · rw [link, six]
      rfl
    · rw [island, s.island_bringUp hd raised]
      have low : k < 8 := raised.elim (fun h => (by decide : ∀ j ∈ [4, 6, 7], j < 8) k h.2)
        fun h => (by decide : ∀ j ∈ [0, 1, 2, 3, 5], j < 8) k h.2
      simp only [State.raised, show (8 * die + k) % 8 = k by omega, show (8 * die + k) / 8 = die by omega]
      refine ⟨trivial, ?_⟩
      by_cases held : k < 4 ∧ s.held2 die = true <;> simp [held, Nat.min_comm]
  case recovers =>
    rw [exec_bringUpStep_image due le fails, State.imageFailed, if_neg (by simp [first])]
    exact ⟨_, _, rfl, rfl, rfl, rfl, rfl⟩
  case fails => rw [exec_bringUpStep_image due le fails, State.imageFailed, if_pos second]
  case run =>
    exact exec_islCtlWrite_taken v low fun bad => by
      rcases bad with high | ⟨zero, -⟩ <;> omega
  case gate =>
    rw [exec_islCtlWrite_taken v low fun bad => ?_, State.pointChanging, zero]
    rcases bad with high | ⟨-, fixed | ⟨quadrant, busy⟩⟩
    · omega
    · have place : i % 8 = 4 ∨ i % 8 = 6 ∨ i % 8 = 7 := by simpa using fixed
      rcases may with analogue | ⟨quadrant, -⟩ <;> omega
    · rcases may with analogue | ⟨-, idle⟩
      · omega
      · rw [idle] at busy
        cases busy
  case point =>
    obtain ⟨t, ended, mem, island, digital, analogue⟩ := operatingPointChangeDone_leaves s i
    obtain ⟨own, others⟩ := s.island_pointTaken i
    rw [← island] at own others
    have eff : (t.island.get i).eff = s.pointOf i := congrArg Island.eff own
    exact ⟨t, ended, mem, congrArg Island.changing own, by rw [own], eff.trans (s.pointOf_eq i), others, digital,
      fun place zero => analogue place (eff.symm.trans zero)⟩

end Sys2Proof.Machine
end

section
/-! A CPROG whose source names a device register (R271, R351, R433), and the refutation of the statement of the crossbar arrays. -/

namespace Sys2Proof.Machine

/-! ## Operand checks with a test of the state -/

/-- Registers that can be read and written at once are in no stream. -/
theorem noStream_ok {s : State} {op : Nat} {srcs dsts : List Nat} (h : s.canRun srcs dsts = true) :
    noStream op (srcs ++ dsts) s = .ok ((), s) := by
  have unstreamed : ((srcs ++ dsts).any fun k => (s.streamOf k).isSome) = false :=
    List.any_eq_false.mpr fun k m => by simp [State.canRun_stream h (List.mem_append.mp m)]
  unfold noStream
  rw [Act.get_bind]
  simp only [unstreamed]
  rfl

/-- Operands that can be read at once pass the checks of an instruction that may be ILL by their values, when it is not (R271). -/
theorem prepIll_ok {s : State} {op : Nat} {srcs dsts dec : List Nat} {bad : State → Bool} (h : s.canRun srcs dsts = true)
    (good : bad s = false) : prepIll op srcs dsts dec bad s = .ok ((), s) := by
  unfold prepIll prepEarly
  rw [Act.bind_ok (noStream_ok h), Act.bind_ok (waitPend_ok fun k m => (Ctx.plain_mem (State.canRun_plain h) m).2), Act.get_bind]
  have passed : (do let s ← get; if bad s then ill 0 : Act Unit) s = .ok ((), s) := by
    rw [Act.get_bind, Act.ite_apply, if_neg (by simp [good])]
    rfl
  have checked := poisonCheck_ok (State.canRun_unpoisoned h) fun _ m => m
  split
  · exact (Act.bind_ok passed).trans checked
  · exact checked

/-! ## CPROG -/

theorem noRegister_traps {p : Word} (h : isRegister p = true) (s : State) : noRegister p s = trapNow cALIGN p 0 s := by
  rw [noRegister, if_pos h]

/-- A CPROG within the array whose source names a device register traps ALIGN, as every operand of an engine there does (R351). -/
theorem exec_cprog_register {s : State} {a arr sa sb sc : Nat} (run : s.canRun [sa, sb, sc] [a] = true)
    (count : s.me.g.get sc ≠ 0) (rows : (s.me.g.get sb).toNat + (s.me.g.get sc).toNat ≤ 512)
    (register : isRegister (s.me.g.get sa) = true) :
    exec (.cprog a arr sa sb sc) s = .next (s.trapped cALIGN (s.me.g.get sa) 0) := by
  refine runAct_trap (m := cprogAct a arr sa sb sc) ?_
  unfold cprogAct
  rw [Act.bind_ok (prepIll_ok run (by simpa [rows] using count)), Act.bind_ok (readG_ok (State.canRun_stream run (by simp))),
    Act.bind_ok (readG_ok (State.canRun_stream run (by simp))), Act.bind_ok (readG_ok (State.canRun_stream run (by simp))),
    Act.bind_error (noRegister_traps register s)]
  rfl

/-! ## The refutation -/

/-- A context that may program one row of an array from a source that it gives as device register 0: register 1 is that pointer,
register 2 row 0, register 3 the count 1. -/
def registerSource : State :=
  State.reset.modCtx 0 0 (fun c => { c with phase := .running, g := ((Tab.const 0).set 1 0x32000000000000#64).set 3 1 })

/-- Its trap takes no slot of the core for an answer. -/
theorem slots_trapped_registerSource :
    ((registerSource.trapped cALIGN 0x32000000000000#64 0).coreAt 0).slots = (registerSource.coreAt 0).slots := rfl

/-- Refutes O37: its clause for CPROG asks of the source only that it is 64-byte aligned, and so takes in a pointer to a device register,
on which CPROG traps ALIGN at issue and queues nothing (R351). -/
theorem not_crossbarArrays : ¬ Obligations.CrossbarArrays := by
  unfold Obligations.CrossbarArrays
  rintro ⟨⟨issue, -⟩, -⟩
  have run : registerSource.canRun [1, 2, 3] [4] = true := by decide
  have settled : registerSource.settled := ⟨rfl, fun cl o ordered => by cases ordered⟩
  obtain ⟨-, programs, -⟩ := issue registerSource 4 0 1 2 3 settled (by decide) (by decide) (by decide)
  obtain ⟨t, queued, -, -, -, slots⟩ := programs run (by decide) (by decide) (by decide)
  have trapped := exec_cprog_register (a := 4) (arr := 0) run (by decide) (by decide) (by decide)
  obtain rfl : registerSource.trapped cALIGN 0x32000000000000#64 0 = t := Host.Outcome.next.inj (trapped.symm.trans queued)
  exact absurd (slots_trapped_registerSource.symm.trans slots) (Nat.ne_of_lt (Nat.lt_succ_self _))

end Sys2Proof.Machine
end

section
/-! Accesses with which nothing interferes: no engine owns a line, no partials and no error marks stand, and no ordered task is queued
(R23, R99, R135, R137). -/

namespace Sys2Proof.Machine

/-- Nothing interferes with an access of the fabric or of the host, wherever it goes. -/
structure State.Quiet (s : State) : Prop where
  owned : s.owned = []
  uline : s.uline = []
  badLines : s.badLines = []
  ord : ∀ cl, (s.clusterAt cl).ord = []

theorem State.still.quiet {s : State} (h : s.still) : s.Quiet := by
  obtain ⟨owned, uline, badLines, -, -, -, ord⟩ := h
  exact ⟨owned, uline, badLines, ord⟩

theorem State.ownedRange_of_quiet {s : State} (h : s.Quiet) (loc n : Nat) : s.ownedRange loc n = false := by
  simp [State.ownedRange, h.owned]

theorem State.recallRange_of_quiet {s : State} (h : s.Quiet) (loc n : Nat) : s.recallRange loc n = s := by
  simp [State.recallRange, h.uline]

theorem State.badRange_of_quiet {s : State} (h : s.Quiet) (loc n : Nat) : s.badRange loc n = false := by
  simp [State.badRange, h.badLines]

theorem State.liveOrd_of_quiet {s : State} (h : s.Quiet) : s.liveOrd = [] := by
  simp [State.liveOrd, h.ord]

theorem State.logInUse_of_quiet {s : State} (h : s.Quiet) (part : Nat) : s.logInUse part = false := by
  simp [State.logInUse, h.ord]

theorem State.inLog_of_quiet {s : State} (h : s.Quiet) (loc n : Nat) : s.inLog loc n = false := by
  unfold State.inLog
  split <;> simp [State.logInUse_of_quiet h]

theorem specAccess_of_quiet {s : State} (h : s.Quiet) (core k loc n : Nat) (write : Bool) :
    specAccess core k loc n write s = .ok ((), s) := by
  simp [specAccess, State.liveOrd_of_quiet h]

theorem remoteEnter_of_quiet {s : State} (h : s.Quiet) (part loc n : Nat) (write : Bool) :
    remoteEnter part loc n write s = .ok ((), s) := by
  unfold remoteEnter
  rw [Act.get_bind, State.ownedRange_of_quiet h]
  show specAccess _ 8 loc n write (s.recallRange loc n) = _
  rw [State.recallRange_of_quiet h, specAccess_of_quiet h]

theorem State.Quiet.putBytes {s : State} (h : s.Quiet) (loc : Nat) (bs : List Byte) : (s.putBytes loc bs).Quiet :=
  ⟨h.owned, h.uline, by simp [State.putBytes, h.badLines], h.ord⟩

theorem State.putBytes_of_quiet {s : State} (h : s.Quiet) (loc : Nat) (bs : List Byte) :
    s.putBytes loc bs = { s with mem := memWriteBytes s.mem loc bs } := by
  simp [State.putBytes, h.badLines]

/-- A state whose memory is that of `s` but for a write of bytes has stored them and nothing else (R5). -/
theorem State.stored_of_mem {s t : State} {loc : Nat} {bs : List Byte} (h : t.mem = memWriteBytes s.mem loc bs) : t.stored s loc bs :=
  ⟨h, fun wf _ outside => by rw [h]; exact memRead_memWriteBytes_outside wf loc bs outside⟩

/-- An action for each item of a list, none of which changes the state. -/
theorem forM_unchanged {α : Type} {f : α → Act Unit} {s : State} (h : ∀ x, f x s = .ok ((), s)) (l : List α) :
    l.forM f s = .ok ((), s) := by
  induction l with
  | nil => rfl
  | cons x xs ih => exact (Act.bind_ok (h x)).trans ih

end Sys2Proof.Machine
end

section
/-! The Cidan Link and the host's aperture (R35, R53 to R57, R61). -/

namespace Sys2Proof.Machine

/-! ## Completions that the link held (R56) -/

/-- Writing held completions changes the rings and what has been written to the host, where nothing is lost. -/
structure State.Flushed (s t : State) : Prop where
  link : t.link = s.link
  mem : t.mem = s.mem
  sec : t.sec = s.sec
  written : s.hostOut <+: t.hostOut

theorem State.Flushed.refl (s : State) : s.Flushed s := ⟨rfl, rfl, rfl, List.prefix_rfl⟩

theorem State.Flushed.trans {s t u : State} (h : s.Flushed t) (g : t.Flushed u) : s.Flushed u :=
  ⟨g.link.trans h.link, g.mem.trans h.mem, g.sec.trans h.sec, h.written.trans g.written⟩

theorem State.Flushed.linkUp {s t : State} (h : s.Flushed t) : t.linkUp = s.linkUp := by
  rw [State.linkUp, State.linkUp, h.link, h.sec]

theorem flushRing_flushed (n : Nat) (s : State) (k : Nat) :
    s.Flushed (flushRing n s k) ∧ ∀ j, j ≠ k → (flushRing n s k).ring.get j = s.ring.get j := by
  induction n generalizing s with
  | zero => exact ⟨.refl s, fun _ _ => rfl⟩
  | succ n ih =>
    unfold flushRing
    dsimp only
    split
    · exact ⟨.refl s, fun _ _ => rfl⟩
    · obtain ⟨flushed, others⟩ := ih _
      refine ⟨⟨flushed.link, flushed.mem, flushed.sec, (List.prefix_append ..).trans flushed.written⟩,
        fun j other => (others j other).trans ?_⟩
      exact Tab.get_set_ne _ _ _ _ other

theorem State.flush_flushed (s : State) (k : Nat) : s.Flushed (s.flush k) ∧ ∀ j, j ≠ k → (s.flush k).ring.get j = s.ring.get j := by
  unfold State.flush
  split
  · exact flushRing_flushed ..
  · exact ⟨.refl s, fun _ _ => rfl⟩

theorem State.flushes_flushed (s : State) (ks : List Nat) :
    s.Flushed (ks.foldl State.flush s) ∧ ∀ j, j ∉ ks → (ks.foldl State.flush s).ring.get j = s.ring.get j := by
  induction ks generalizing s with
  | nil => exact ⟨.refl s, fun _ _ => rfl⟩
  | cons k ks ih =>
    obtain ⟨first, kept⟩ := s.flush_flushed k
    obtain ⟨rest, others⟩ := ih (s.flush k)
    refine ⟨first.trans rest, fun j fresh => ?_⟩
    rw [List.mem_cons, not_or] at fresh
    exact (others j fresh.2).trans (kept j fresh.1)

/-- While the link is UP, the one completion that a ring holds is written in its turn. -/
theorem State.flush_writes {s : State} {k : Nat} {c : HostCompletion} (up : s.linkUp = true) (held : (s.ring.get k).held = [c])
    (turn : c.idx = (s.ring.get k).written) : c ∈ (s.flush k).hostOut := by
  simp [State.flush, up, held, flushRing, turn]

/-- Writing the completions of every ring writes each that was the one held by its ring, in its turn. -/
theorem State.flushes_write {s : State} {ks : List Nat} {k : Nat} {c : HostCompletion} (up : s.linkUp = true) (listed : k ∈ ks)
    (held : (s.ring.get k).held = [c]) (turn : c.idx = (s.ring.get k).written) : c ∈ (ks.foldl State.flush s).hostOut := by
  obtain ⟨before, after, rfl, fresh⟩ := List.eq_append_cons_of_mem listed
  obtain ⟨first, kept⟩ := s.flushes_flushed before
  rw [List.foldl_append, List.foldl_cons]
  refine (State.flushes_flushed _ after).1.written.subset (State.flush_writes (first.linkUp.trans up) ?_ ?_) <;>
    rwa [kept k fresh]

/-! ## The link (R35, R54, R55) -/

theorem exec_cidanLinkTrainingDone {s : State} (training : s.link.state = 1 ∨ s.link.state = 3) (ok : Bool) (version : BitVec 32)
    (features : Word) : exec (.cidanLinkTrainingDone ok version features) s = .next
      (if !ok then if s.link.state = 3 then s.linkDead else s
       else if version.toNat / 2 ^ 24 ≠ 1 then
         if s.link.state = 3 then ({ s with link := { s.link with vmismatch := true } } : State).linkDead
         else { s with link := { s.link with vmismatch := true } }
       else (List.range 64).foldl State.flush { s with
         link := { s.link with state := 2, failed := 0, idle := false, ver := 0, feat := ofN (bits features 3 0) } }) :=
  congrArg Host.Outcome.next (if_neg (by omega))

/-- The low four feature bits (R55). -/
theorem ofN_bits_low4 (w : Word) : ofN (bits w 3 0) = w &&& 15 := by
  refine BitVec.eq_of_toNat_eq ?_
  have low : w.toNat &&& 15 = w.toNat % 16 := Nat.and_two_pow_sub_one_eq_mod w.toNat 4
  simp only [ofN, bits, BitVec.toNat_ofNat, BitVec.toNat_and]
  show _ = w.toNat &&& 15
  omega

theorem cidanLinkTrainingDone_up {s : State} (training : s.link.state = 1 ∨ s.link.state = 3) {version : BitVec 32} (features : Word)
    (major : version.toNat / 2 ^ 24 = 1) : ∃ t, exec (.cidanLinkTrainingDone true version features) s = .next t ∧
      t.link = { s.link with state := 2, failed := 0, idle := false, ver := 0, feat := features &&& 15 } ∧ t.mem = s.mem ∧
      (s.sec.silent = false → ∀ k c, k < 64 → (s.ring.get k).held = [c] → c.idx = (s.ring.get k).written → c ∈ t.hostOut) := by
  let up : State := { s with link := { s.link with state := 2, failed := 0, idle := false, ver := 0, feat := ofN (bits features 3 0) } }
  obtain ⟨flushed, -⟩ := up.flushes_flushed (List.range 64)
  refine ⟨_, (exec_cidanLinkTrainingDone training ..).trans
    (congrArg Host.Outcome.next ((if_neg (by decide)).trans (if_neg (not_not.mpr major)))), ?_, flushed.mem, ?_⟩
  · rw [flushed.link, ← ofN_bits_low4]
  · intro talks k c ring held turn
    exact State.flushes_write (s := up) (by simp [up, State.linkUp, talks]) (List.mem_range.mpr ring) held turn

/-! ## The adapter (R53, R56) -/

/-- A write of the host while the link is not UP is dropped and counted (R56). -/
theorem State.hostWritten_down {s : State} (down : s.linkUp = false) (f : State → State) : s.hostWritten f = s.countDrop :=
  if_neg (by simp [down])

theorem exec_barAccess (write : Bool) (a : BarAccess) (s : State) : exec (.barAccessLinkDown write a) s = .next
    (if write then s.hostWritten (fun x => x.ringWrite a.fn a.off a.value)
     else if s.linkUp then (s.barRead a.fn a.off).2.barAnswer a.tag (bytesOf (s.barRead a.fn a.off).1.toNat 8)
     else s.barAnswer a.tag (List.replicate 8 0xFF)) := rfl

/-- The PF reads the count of dropped writes at offset 8 of BAR0 (R56). -/
theorem exec_barRead_drop {s : State} (up : s.linkUp = true) {fn : Nat} (pf : fn % 32 = 0) (v tag : Word) :
    exec (.barAccessLinkDown false ⟨fn, 8, v, tag⟩) s =
      .next (s.barAnswer tag (bytesOf (BitVec.ofNat 64 s.link.drop).toNat 8)) := by
  have read : s.barRead fn 8 = (ofN s.link.drop, s) := if_pos ⟨pf, rfl⟩
  rw [exec_barAccess, if_neg Bool.false_ne_true, if_pos up, read]
  rfl

/-! ## The order of a service core's accesses (R61) -/

/-- An access of the aperture that service core `sc` performs. -/
def isApertureOf (sc : Nat) : Event → Bool
  | .apertureRead a _ _ => apertureCore a == sc
  | .apertureWrite a _ => apertureCore a == sc
  | _ => false

theorem State.apertureTurn_eq (s : State) (pa : Nat) (e : Event) (f : State → State) : s.apertureTurn pa e f =
    if s.agenda.any (isApertureOf (apertureCore pa)) && s.turn != .event e then s.push e else f s := by
  have same : isApertureOf (apertureCore pa) = fun x => match x with
      | .apertureRead a _ _ => apertureCore a == apertureCore pa
      | .apertureWrite a _ => apertureCore a == apertureCore pa
      | _ => false := by
    funext x
    cases x <;> rfl
  rw [same]
  rfl

theorem State.apertureTurn_waits {s : State} {pa : Nat} {e x : Event} (f : State → State) (listed : x ∈ s.agenda)
    (earlier : isApertureOf (apertureCore pa) x = true) (turn : s.turn ≠ .event e) : s.apertureTurn pa e f = s.push e := by
  rw [State.apertureTurn_eq, if_pos (by simpa using ⟨⟨x, listed, earlier⟩, turn⟩)]

theorem State.apertureTurn_acts {s : State} (none : ∀ a m tag (bs : List Byte), .apertureRead a m tag ∉ s.agenda ∧ .apertureWrite a bs ∉ s.agenda)
    (pa : Nat) (e : Event) (f : State → State) : s.apertureTurn pa e f = f s := by
  have idle : s.agenda.any (isApertureOf (apertureCore pa)) = false := by
    refine List.any_eq_false.mpr fun x listed => ?_
    cases x
    case apertureRead a m tag => exact absurd listed (none a m tag []).1
    case apertureWrite a bs => exact absurd listed (none a 0 0 bs).2
    all_goals exact Bool.false_ne_true
  rw [State.apertureTurn_eq, idle]
  rfl

/-! ## The accesses (R57) -/

theorem hostEnter_of_quiet {s : State} (h : s.Quiet) (loc n : Nat) (write : Bool) : hostEnter loc n write s = .ok ((), s) := by
  unfold hostEnter
  rw [Act.get_bind, Act.bind_ok (forM_unchanged (fun p => remoteEnter_of_quiet h p loc n write) _), State.ownedRange_of_quiet h]
  show Except.ok ((), s.recallRange loc n) = _
  rw [State.recallRange_of_quiet h]

/-- An action of the host's aperture with which nothing interferes. -/
theorem runEvAct_hostEnter {s : State} (h : s.Quiet) (e : Event) (loc n : Nat) (write : Bool) (f : State → State) :
    s.runEvAct e (do hostEnter loc n write; modify f) = f s := by
  have run : (do hostEnter loc n write; modify f : Act Unit) s = .ok ((), f s) := Act.bind_ok (hostEnter_of_quiet h loc n write)
  rw [State.runEvAct, State.runEvKept, run]

section
variable {s : State} (up : s.linkUp = true)
  (first : ∀ a m tag (bs : List Byte), .apertureRead a m tag ∉ s.agenda ∧ .apertureWrite a bs ∉ s.agenda) (quiet : s.Quiet)
include up first quiet

theorem exec_apertureRead (pa n : Nat) (tag : Word) : exec (.apertureRead pa n tag) s = .next
    (if s.apertureClosed pa n then s.countDrop.barAnswer tag (s.readOpen pa (s.bytesAt pa n)) else s.barAnswer tag (s.bytesAt pa n)) := by
  show Host.Outcome.next (if !s.linkUp then _ else _) = _
  rw [if_neg (by simp [up]), State.apertureTurn_acts first, runEvAct_hostEnter quiet]
  simp only [State.hostBytes, State.badRange_of_quiet quiet, Bool.false_eq_true, if_false]

theorem exec_apertureWrite (pa : Nat) (bs : List Byte) : exec (.apertureWrite pa bs) s = .next
    (if s.apertureClosed pa bs.length then (s.putBytes pa (s.writeOpen pa bs)).countDrop else s.putBytes pa bs) := by
  show Host.Outcome.next (if !s.linkUp then _ else _) = _
  rw [if_neg (by simp [up]), State.apertureTurn_acts first, runEvAct_hostEnter quiet]
  simp only [quiet.badLines, State.putBytes_of_quiet quiet, List.filter_nil]

end

theorem length_memBytes (m : List Host.Cell) (a n : Nat) : (memBytes m a n).length = n := by
  induction n generalizing a with
  | zero => rfl
  | succ n ih => simp [memBytes, ih]

theorem memBytes_eq_map (m : List Host.Cell) (a n : Nat) : memBytes m a n = (List.range n).map (fun j => memRead m (a + j)) := by
  induction n generalizing a with
  | zero => rfl
  | succ n ih =>
    rw [memBytes, ih, List.range_succ_eq_map, List.map_cons, List.map_map]
    exact congrArg _ (List.map_congr_left fun j _ => by simp [Nat.add_assoc, Nat.add_comm 1])

/-- A list with the position of each of its items. -/
theorem range_zip_eq_map {α : Type} (l : List α) (d : α) : (List.range l.length).zip l = (List.range l.length).map (fun j => (j, l.getD j d)) := by
  refine List.ext_getElem (by simp) fun i below _ => ?_
  have bound : i < l.length := by simpa using below
  simp [bound]

theorem State.readOpen_bytesAt (s : State) (pa n : Nat) : s.readOpen pa (s.bytesAt pa n) =
    (List.range n).map (fun j => if s.byteClosed (pa + j) then 0 else memRead s.mem (pa + j)) := by
  have same : s.bytesAt pa n = (List.range n).map (fun j => memRead s.mem (pa + j)) := memBytes_eq_map ..
  rw [State.readOpen, range_zip_eq_map _ 0, same]
  simp +contextual

theorem State.writeOpen_eq (s : State) (pa : Nat) (bs : List Byte) : s.writeOpen pa bs =
    (List.range bs.length).map (fun j => if s.byteClosed (pa + j) then memRead s.mem (pa + j) else bs.getD j 0) := by
  rw [State.writeOpen, range_zip_eq_map _ 0, List.map_map]
  rfl

/-! ## The statement -/

/-- Settles O43: the host link's states, and an access of the aperture for a link that is not UP, for one that waits for its turn, and for
one that acts on open and on closed bytes. -/
theorem hostLinkAndAperture : Obligations.HostLinkAndAperture := by
  unfold Obligations.HostLinkAndAperture
  intro s dropped answered
  refine ⟨fun up => ⟨?good, fun below => ?bad, fun eighth => ?eighthBad⟩, fun down ok => ?down, fun training version features =>
    ⟨cidanLinkTrainingDone_up training features, fun other one => ?mismatch, fun other three => ?mismatchDead, fun three => ?recoveryFails,
      fun one => ?trainingFails⟩, fun running alive => ?lockLost, fun up agreed => ?idles, fun unable => ?staysAwake, rfl, fun tag => rfl,
    fun down fn off v tag pa n bs => ⟨?barWriteDown, ?barReadDown, ?readDown, ?writeDown⟩,
    fun up fn v tag pf => exec_barRead_drop up pf v tag, fun up pa a m n tag tag' bs same listed => ⟨fun turn => ?readWaits, fun turn => ?writeWaits⟩,
    fun up first pa n tag bs => ⟨fun still opened => ?read, fun still closed => ?readClosed, fun still opened => ?write,
      fun still closed => ?writeClosed⟩⟩
  case good => exact congrArg _ ((if_neg (by simp [up])).trans (if_pos rfl))
  case bad =>
    exact congrArg _ ((if_neg (by simp [up])).trans ((if_neg Bool.false_ne_true).trans (if_neg (Nat.not_le.mpr below))))
  case eighthBad => exact congrArg _ ((if_neg (by simp [up])).trans ((if_neg Bool.false_ne_true).trans (if_pos eighth)))
  case down => exact congrArg _ (if_pos (by simp [down]))
  case mismatch => rw [exec_cidanLinkTrainingDone training, if_neg (by decide), if_pos other, if_neg (by omega)]
  case mismatchDead =>
    rw [exec_cidanLinkTrainingDone training, if_neg (by decide), if_pos other, if_pos three]
    rfl
  case recoveryFails =>
    rw [exec_cidanLinkTrainingDone training, if_pos (by decide), if_pos three]
    rfl
  case trainingFails => rw [exec_cidanLinkTrainingDone training, if_pos (by decide), if_neg (by omega)]
  case lockLost => exact congrArg _ (if_neg (by simp [running, alive]))
  case idles => exact congrArg _ (if_pos (by simp [up, State.linkFeature, agreed]))
  case staysAwake => exact congrArg _ (if_neg (by rcases unable with h | h <;> simp [State.linkFeature, h]))
  case barWriteDown => exact congrArg _ ((if_pos rfl).trans (State.hostWritten_down down _))
  case barReadDown => exact congrArg _ ((if_neg Bool.false_ne_true).trans (if_neg (by simp [down])))
  case readDown => exact congrArg _ (if_pos (by simp [down]))
  case writeDown => exact congrArg _ (if_pos (by simp [down]))
  case readWaits =>
    exact congrArg _ ((if_neg (by simp [up])).trans (State.apertureTurn_waits _ listed (by simp [isApertureOf, same]) turn))
  case writeWaits =>
    exact congrArg _ ((if_neg (by simp [up])).trans (State.apertureTurn_waits _ listed (by simp [isApertureOf, same]) turn))
  case read =>
    rw [exec_apertureRead up first still.quiet, opened]
    rfl
  case readClosed =>
    rw [exec_apertureRead up first still.quiet, if_pos closed, State.readOpen_bytesAt]
    rfl
  case write =>
    exact ⟨_, (exec_apertureWrite up first still.quiet pa bs).trans (congrArg _ (if_neg (by simp [opened]))),
      State.stored_of_mem rfl, rfl, rfl⟩
  case writeClosed =>
    refine ⟨_, (exec_apertureWrite up first still.quiet pa bs).trans (congrArg _ (if_pos closed)), rfl, ?_⟩
    rw [← State.writeOpen_eq]
    exact State.stored_of_mem rfl

end Sys2Proof.Machine
end

section
/-! Fabric ports, the router, and the sending side of a stream (R25, R28, R31, R32, R34, R35, R37, R38, R40 to R42, R46, R52). -/

namespace Sys2Proof.Machine

/-! ## Ports (R34, R35, R52) -/

/-- The state differs from `s` at most in port `p`, which is as `y` says. -/
def State.portIs (t s : State) (p : Nat) (y : Port) : Prop :=
  t = { s with fab := { s.fab with port := t.fab.port } } ∧ t.fab.port.get p = y ∧ ∀ q, q ≠ p → t.fab.port.get q = s.fab.port.get q

theorem State.modPort_portIs (s : State) (p : Nat) (f : Port → Port) : (s.modPort p f).portIs s p (f (s.fab.port.get p)) :=
  ⟨rfl, Tab.get_modify_same .., fun _ other => Tab.get_modify_ne _ _ _ _ other⟩

theorem exec_modPort {i : Instr} {s : State} {p : Nat} {f : Port → Port} (h : exec i s = .next (s.modPort p f)) {y : Port}
    (same : f (s.fab.port.get p) = y) : ∃ t, exec i s = .next t ∧ t.portIs s p y :=
  ⟨_, h, same ▸ s.modPort_portIs p f⟩

theorem exec_linkTrainingWords (p : Nat) (version : BitVec 32) (features : Word) (s : State) :
    exec (.linkTrainingWords p version features) s = .next
      (if (s.fab.port.get p).state ≠ 1 then s
       else if version.toNat / 2 ^ 24 ≠ 1 then s.modPort p (fun x => { x with vmismatch := true })
       else s.modPort p (fun x => { x with state := 2, ver := 0, pfeat := features &&& fabFeat })) := rfl

theorem exec_retrain_port {p : Nat} (h : p < 6) (s : State) : exec (.retrain p) s = .next (s.retrainPort p) :=
  congrArg _ (if_neg (by omega))

theorem exec_disable_port {p : Nat} (h : p < 6) (hold : Bool) (s : State) : exec (.disable p hold) s = .next (s.disablePort p hold) :=
  congrArg _ (if_neg (by omega))

theorem exec_vmismatchClear_port {p : Nat} (h : p < 6) (s : State) :
    exec (.vmismatchClear p) s = .next (s.modPort p (fun x => { x with vmismatch := false })) :=
  congrArg _ (if_neg (by omega))

/-- RETRAIN takes the Cidan Link from DEAD alone (R54). -/
theorem exec_retrain_link (s : State) :
    exec (.retrain 6) s = .next (if s.link.state = 4 then { s with link := { s.link with state := 1 } } else s) := by
  refine congrArg Host.Outcome.next ((if_pos rfl).trans ?_)
  unfold State.retrainLink
  split <;> rfl

/-- The 24 bits that FAB.DIM holds (R52). -/
theorem ofN_bits_low24 (v : Word) : ofN (bits v 23 0) = (v.extractLsb' 0 24).setWidth 64 := by
  refine BitVec.eq_of_toNat_eq ?_
  simp only [ofN, bits, BitVec.toNat_ofNat, BitVec.toNat_setWidth, BitVec.extractLsb'_toNat, Nat.shiftRight_zero]
  omega

theorem exec_fabDimWrite (v : Word) (s : State) : exec (.fabDimWrite v) s = .next
    (if (List.range 6).any (fun q => (s.fab.port.get q).state == 1 || (s.fab.port.get q).state == 2) then s
     else { s with fab := { s.fab with dim := ofN (bits v 23 0) } }) := rfl

/-- A write of FAB.RTO: its base of 20 bits, never below 1,024, and the fields above it (R52). -/
theorem exec_fabRtoWrite (v : Word) (s : State) : exec (.fabRtoWrite v) s = .next { s with fab := { s.fab with
    rto := BitVec.ofNat 64 (v.toNat / 2 ^ 20 % 2 ^ 8 * 2 ^ 20 + max 1024 (v.toNat % 2 ^ 20)) } } := by
  have base : bits v 19 0 = v.toNat % 2 ^ 20 := by simp [bits]
  show Host.Outcome.next { s with fab := { s.fab with rto := ofN (bits v 27 20 * 2 ^ 20 + max 1024 (bits v 19 0)) } } = _
  rw [base]
  rfl

/-- The events of a port: a lost lock, training words, and the bits of FAB.PORT (R25, R34, R35, R52). -/
theorem fabricPorts (s : State) (p : Nat) :
    let x := s.fab.port.get p
    let port (i : Instr) (f : Port → Port) : Prop := ∃ t, exec i s = .next t ∧ t.portIs s p (f x)
    let dead (y : Port) : Port := { y with state := if y.state = 2 then 3 else y.state }
    port (.laneLockLoss p) dead ∧ port (.controlWordTimeout p) dead ∧
    (∀ version : BitVec 32, ∀ features : Word,
      (x.state = 1 → version.toNat / 2 ^ 24 = 1 →
        port (.linkTrainingWords p version features) (fun y => { y with state := 2, ver := 0, pfeat := features &&& 0x1F })) ∧
      (x.state = 1 → version.toNat / 2 ^ 24 ≠ 1 → port (.linkTrainingWords p version features) (fun y => { y with vmismatch := true })) ∧
      (x.state ≠ 1 → exec (.linkTrainingWords p version features) s = .next s)) ∧
    (p < 6 → port (.vmismatchClear p) (fun y => { y with vmismatch := false }) ∧
      port (.retrain p) (fun y => { y with
        crccnt := 0, crcTimes := [],
        state := if y.disable = false ∧ (y.state = 0 ∨ y.state = 3) ∧ bits s.fab.dim (4 * (p / 2) + 3) (4 * (p / 2)) ≠ 0 then 1 else y.state }) ∧
      port (.disable p true) (fun y => { y with disable := true, state := 0 }) ∧
      port (.disable p false) (fun y => { y with disable := false })) := by
  intro x port dead
  refine ⟨exec_modPort rfl rfl, exec_modPort rfl rfl, fun version features => ⟨fun training major => ?up, fun training other => ?mismatch,
    fun elsewhere => ?ignored⟩, fun low => ⟨exec_modPort (exec_vmismatchClear_port low s) rfl, exec_modPort (exec_retrain_port low s) ?_,
    exec_modPort (exec_disable_port low true s) rfl, exec_modPort (exec_disable_port low false s) rfl⟩⟩
  case up =>
    exact exec_modPort ((exec_linkTrainingWords ..).trans
      (congrArg _ ((if_neg (not_not.mpr training)).trans (if_neg (not_not.mpr major))))) rfl
  case mismatch =>
    exact exec_modPort ((exec_linkTrainingWords ..).trans (congrArg _ ((if_neg (not_not.mpr training)).trans (if_pos other)))) rfl
  case ignored => rw [exec_linkTrainingWords, if_pos elsewhere]
  · simp [x, and_assoc]

/-! ## Injection (R32) -/

/-- What sending flits that wait here changes: the streams' sending sides, the swap register, the acknowledgements that wait, the round
robin, and the wait of the head of the send queues, which it never prolongs. -/
structure State.SendsOnly (s t : State) : Prop where
  frame : t = { s with fab := { s.fab with tx := t.fab.tx, swap := t.fab.swap, rr := t.fab.rr, headWait := t.fab.headWait,
                                           sentAcks := t.fab.sentAcks } }
  waits : t.fab.headWait ≤ s.fab.headWait

theorem State.SendsOnly.refl (s : State) : s.SendsOnly s := ⟨rfl, Nat.le_refl _⟩

theorem State.SendsOnly.trans {s t u : State} (h : s.SendsOnly t) (g : t.SendsOnly u) : s.SendsOnly u :=
  ⟨by rw [g.frame, h.frame], Nat.le_trans g.waits h.waits⟩

theorem State.takeInject_sendsOnly {s t : State} {f : Flit} (h : s.takeInject = some (f, t)) : s.SendsOnly t := by
  unfold State.takeInject at h
  split at h
  · cases h
  · dsimp only at h
    split at h <;> cases h <;> exact ⟨rfl, Nat.zero_le _⟩

theorem injectLoop_sendsOnly (n : Nat) (s : State) (r : RouterAc) :
    s.SendsOnly (injectLoop n (s, r)).1 ∧ r.sent <+: (injectLoop n (s, r)).2.sent := by
  have here : s.SendsOnly s ∧ r.sent <+: r.sent := ⟨.refl s, List.prefix_rfl⟩
  induction n generalizing s r with
  | zero => exact here
  | succ n ih =>
    unfold injectLoop
    dsimp only
    split
    · exact here
    · split
      · exact here
      · next f u taken =>
        have sends : s.SendsOnly u := by
          split at taken
          · cases taken
            exact ⟨rfl, Nat.le_refl _⟩
          · exact State.takeInject_sendsOnly taken
        split
        · exact here
        · obtain ⟨more, sent⟩ := ih u _ ⟨.refl u, List.prefix_rfl⟩
          exact ⟨sends.trans more, (List.prefix_append ..).trans sent⟩

theorem swapStep_of_lt {s : State} {r : RouterAc} (h : s.fab.headWait < 64) : swapStep (s, r) = (s, r) :=
  if_neg (by omega)

theorem exec_flitArrive (fs : List ArrivingFlit) (s : State) : exec (.flitArrive fs) s = .next (s.routerAc fs) := rfl

/-! ## One arrival (R28, R31, R34) -/

/-- The free slots of each port when an ac begins. -/
def State.freeSlots (s : State) : List Nat := (List.range 6).map (fun p => if s.live p then 2 else 0)

theorem State.freeSlots_pos (s : State) (p : Nat) : decide (0 < s.freeSlots.getD p 0) = (decide (p < 6) && s.live p) := by
  unfold State.freeSlots
  by_cases low : p < 6
  · cases live : s.live p <;> simp [low, live]
  · simp [low]

def RouterAc.start (free : List Nat) : RouterAc := { free := free, sent := [], passing := 0, ej := 0, taken := false }

/-- An ac in which one good flit arrives and no head has waited long: it is routed, and then the waiting flits are sent. -/
theorem State.routerAc_good {s : State} {a : ArrivingFlit} (live : s.live a.port = true) (good : a.crcOk = true)
    (young : a.flit.age < 1023) {u : State} {r : RouterAc} (routed : routeOne (s, RouterAc.start s.freeSlots)
      { a.flit with age := a.flit.age + 1 } = (u, r)) (waits : u.fab.headWait < 64) :
    ∃ t w, u.SendsOnly t ∧ r.sent <+: w ∧ ∃ n, s.routerAc [a] = { t with fab := { t.fab with wire := w, headWait := n } } := by
  obtain ⟨sends, sent⟩ := injectLoop_sendsOnly 13 u r
  have settled : swapStep (injectLoop 13 (u, r)) = injectLoop 13 (u, r) := swapStep_of_lt (Nat.lt_of_le_of_lt sends.waits waits)
  refine ⟨_, _, sends, sent, ?_⟩
  simp only [State.freeSlots, RouterAc.start] at routed
  simp only [State.routerAc, live, good, List.filter_cons_of_pos, List.filter_nil, young, decide_true, Bool.not_true,
    Bool.false_eq_true, not_false_eq_true, List.filter_cons_of_neg, List.map_cons, List.map_nil, List.mergeSort_singleton, List.foldl_cons,
    List.foldl_nil, routed, settled, Nat.not_le.mpr young, decide_false]
  exact ⟨_, rfl⟩

/-- A flit for this device leaves at an ejection slot (R31). -/
theorem routeOne_ejects {s : State} {f : Flit} (here : f.dst = s.dev) (free : List Nat) :
    routeOne (s, RouterAc.start free) f = (s.eject f, { RouterAc.start free with ej := 1 }) :=
  if_pos ⟨here, Nat.zero_lt_succ 3⟩

/-- A flit for another device takes a slot of the port that it is given (R31). -/
theorem routeOne_passes {s : State} {r : RouterAc} {f : Flit} {p : Nat} (other : f.dst ≠ s.dev) (port : s.portFor r.free f = some p) :
    routeOne (s, r) f =
      (s, { r with free := r.free.set p (r.free.getD p 0 - 1), sent := r.sent ++ [(p, f)], passing := r.passing + 1 }) := by
  unfold routeOne
  dsimp only
  rw [if_neg (fun h => other h.1), port]

/-- A sequenced flit goes to its stream (R39). -/
theorem State.eject_stream {s : State} {f : Flit} (h5 : f.type ≠ 5) (h6 : f.type ≠ 6) : s.eject f = s.push (.flitDeliver f) :=
  if_neg (by omega)

section
variable {s : State} {f : Flit} (tag : s.tagOk f = true) (formed : malformedFlit f = false)
include tag formed

theorem State.eject_aresp (type : f.type = 5) : s.eject f = s.push (.aresp f) := by
  unfold State.eject
  rw [if_pos (.inl type), if_neg (by simp [tag]), if_neg (by simp [formed])]
  split
  case h_3 => rfl
  all_goals simp_all

theorem State.eject_ack {ps : List (Nat × BitVec 32)} (type : f.type = 6) (body : f.body = .ackPairs ps false) :
    s.eject f = s.push (.ack f.src ps) := by
  unfold State.eject
  rw [if_pos (.inr type), if_neg (by simp [tag]), if_neg (by simp [formed]), type, body]
  rfl

end

section
variable {s : State} {a : ArrivingFlit} (live : s.live a.port = true) (young : a.flit.age < 1023) (waits : s.fab.headWait < 64)
include live young waits

/-- A good flit for this device whose ejection puts one event in flight (R31, R39, R40, R42). -/
theorem flitArrive_ejected (good : a.crcOk = true) (here : a.flit.dst = s.dev) {e : Event}
    (ejected : s.eject { a.flit with age := a.flit.age + 1 } = s.push e) :
    ∃ t, exec (.flitArrive [a]) s = .next t ∧ t.agenda = s.agenda ++ [e] ∧ t.mem = s.mem := by
  have routed := routeOne_ejects (s := s) (f := { a.flit with age := a.flit.age + 1 }) here s.freeSlots
  rw [ejected] at routed
  obtain ⟨t, w, sends, -, n, result⟩ := State.routerAc_good live good young routed waits
  refine ⟨_, (exec_flitArrive ..).trans (congrArg _ result), ?_, ?_⟩ <;> rw [sends.frame] <;> rfl

/-- A good flit for another device leaves by its first productive live port (R31). -/
theorem flitArrive_forwarded (good : a.crcOk = true) (other : a.flit.dst ≠ s.dev) {p : Nat}
    (port : (s.productive a.flit.dst).find? (fun q => decide (q < 6) && s.live q) = some p) :
    ∃ t, exec (.flitArrive [a]) s = .next t ∧ (p, { a.flit with age := a.flit.age + 1 }) ∈ t.fab.wire ∧ t.agenda = s.agenda := by
  have given : s.portFor s.freeSlots { a.flit with age := a.flit.age + 1 } = some p := by
    simp only [State.portFor, State.freeSlots_pos, port]
  obtain ⟨t, w, sends, sent, n, result⟩ := State.routerAc_good live good young
    (routeOne_passes (r := RouterAc.start s.freeSlots) (f := { a.flit with age := a.flit.age + 1 }) other given) waits
  refine ⟨_, (exec_flitArrive ..).trans (congrArg _ result), sent.subset (List.mem_append_right _ (List.mem_singleton_self _)), ?_⟩
  rw [sends.frame]

end

/-- A flit with a bad CRC is counted, and the eighth within 2^20 ac makes its port DEAD; it goes no further (R28, R34). -/
theorem flitArrive_badCrc {s : State} {a : ArrivingFlit} (live : s.live a.port = true) (waits : s.fab.headWait < 64) (bad : a.crcOk = false) (room : (s.fab.port.get a.port).crccnt < 0xFFFF) :
    ∃ t, exec (.flitArrive [a]) s = .next t ∧ t.agenda = s.agenda ∧
      (t.fab.port.get a.port).crccnt = (s.fab.port.get a.port).crccnt + 1 ∧
      ((t.fab.port.get a.port).state = 3 ↔
        7 ≤ ((s.fab.port.get a.port).crcTimes.filter (fun t0 => decide (s.time < t0 + 2 ^ 20))).length) := by
  obtain ⟨sends, -⟩ := injectLoop_sendsOnly 13 s (RouterAc.start s.freeSlots)
  have settled : swapStep (injectLoop 13 (s, RouterAc.start s.freeSlots)) = injectLoop 13 (s, RouterAc.start s.freeSlots) :=
    swapStep_of_lt (Nat.lt_of_le_of_lt sends.waits waits)
  have up : (s.fab.port.get a.port).state = 2 := by
    simp only [State.live, Bool.and_eq_true, beq_iff_eq] at live
    exact live.1
  obtain ⟨w, n, result⟩ : ∃ w n, s.routerAc [a] = State.crcFail { (injectLoop 13 (s, RouterAc.start s.freeSlots)).1 with
      fab := { (injectLoop 13 (s, RouterAc.start s.freeSlots)).1.fab with wire := w, headWait := n } } a.port := by
    simp only [State.freeSlots, RouterAc.start] at settled
    simp only [State.routerAc, live, bad, List.filter_cons_of_pos, List.filter_nil, Bool.not_false,
      Bool.false_eq_true, not_false_eq_true, List.filter_cons_of_neg, List.map_nil, List.mergeSort_nil, List.foldl_cons,
      List.foldl_nil, settled, RouterAc.start, State.freeSlots]
    exact ⟨_, _, rfl⟩
  refine ⟨_, (exec_flitArrive ..).trans (congrArg _ result), ?_, ?_, ?_⟩ <;> rw [sends.frame]
  · rfl
  · simp only [State.crcFail, State.modPort, Tab.get_modify_same, sat16]
    omega
  · simp only [State.crcFail, State.modPort, Tab.get_modify_same, recent, List.length_append, List.length_singleton, up]
    simp

/-! ## The swap register (R32) -/

theorem arbBefore_of_age {a b : ArrivingFlit} (h : b.flit.age < a.flit.age) : arbBefore a b = true := by
  simp [arbBefore, h, Nat.ne_of_gt h]

/-- A flit leaves by the only port that has a free slot. -/
theorem State.portFor_only (s : State) {free : List Nat} {p : Nat} (f : Flit) (low : p < 6)
    (only : ∀ q, 0 < free.getD q 0 ↔ q = p) : s.portFor free f = some p := by
  have pick {l : List Nat} {q : Nat} (h : l.find? (fun q => decide (0 < free.getD q 0)) = some q) : q = p :=
    (only q).mp (by simpa using List.find?_some h)
  unfold State.portFor
  dsimp only
  split
  · next found => rw [pick found]
  · match found : (List.range 6).find? (fun q => decide (0 < free.getD q 0)) with
    | some q => rw [pick found]
    | none =>
      have free := List.find?_eq_none.mp found p (List.mem_range.mpr low)
      exact absurd (decide_eq_true ((only p).mpr rfl)) free

/-- The slots of six ports of which only port `p` has free ones, and `n` of them. -/
def slotsAt (p n : Nat) : List Nat := (List.range 6).map (fun q => if q = p then n else 0)

theorem State.freeSlots_only {s : State} {p : Nat} (only : ∀ q, q < 6 → (s.live q = true ↔ q = p)) : s.freeSlots = slotsAt p 2 :=
  List.map_congr_left fun q listed => by simp only [only q (List.mem_range.mp listed)]

theorem getD_slotsAt {p : Nat} (low : p < 6) (n q : Nat) : (slotsAt p n).getD q 0 = if q = p then n else 0 := by
  unfold slotsAt
  by_cases bound : q < 6
  · simp [bound]
  · simp [bound, show q ≠ p by omega]

theorem slotsAt_set {p : Nat} (n m : Nat) : (slotsAt p n).set p m = slotsAt p m := by
  refine List.ext_getElem (by simp [slotsAt]) fun q _ _ => ?_
  rw [List.getElem_set]
  split <;> simp_all [slotsAt, eq_comm]

/-- A flit for another device takes a slot of the only port that has one (R31). -/
theorem routeOne_onlyPort {s : State} {f : Flit} {p : Nat} (low : p < 6) (other : f.dst ≠ s.dev) (n : Nat) (sent : List (Nat × Flit))
    (passing ej : Nat) (taken : Bool) : routeOne (s, { free := slotsAt p (n + 1), sent, passing, ej, taken }) f =
      (s, { free := slotsAt p n, sent := sent ++ [(p, f)], passing := passing + 1, ej, taken }) := by
  have port : s.portFor (slotsAt p (n + 1)) f = some p := s.portFor_only f low fun q => by
    rw [getD_slotsAt low]
    split <;> simp_all
  rw [routeOne_passes (r := { free := slotsAt p (n + 1), sent, passing, ej, taken }) other port]
  simp only [getD_slotsAt low, slotsAt_set, if_true, Nat.add_sub_cancel]

/-- Nothing is injected when no slot is free (R32). -/
theorem injectLoop_full (n p : Nat) (s : State) (sent : List (Nat × Flit)) (passing ej : Nat) (taken : Bool) :
    injectLoop n (s, { free := slotsAt p 0, sent, passing, ej, taken }) = (s, { free := slotsAt p 0, sent, passing, ej, taken }) := by
  have full : (slotsAt p 0).all (fun k => k == 0) = true := by simp [slotsAt]
  cases n with
  | zero => rfl
  | succ n => exact if_pos full

theorem State.takeInject_some {s : State} {v : Nat} {k : Option Nat} {f : Flit} (h : s.nextInject = some (v, k, f)) :
    ∃ u, s.takeInject = some ({ f with age := 0 }, u) := by
  unfold State.takeInject
  rw [h]
  cases k <;> exact ⟨_, rfl⟩

/-- The head of the send queues takes the slot of the last of two passing flits, which waits in the swap register (R32). -/
theorem swapStep_two {s : State} (waits : 64 ≤ s.fab.headWait) (empty : s.fab.swap = none) {v : Nat} {k : Option Nat} {f : Flit}
    (next : s.nextInject = some (v, k, f)) (free : List Nat) (p : Nat) (x y : Flit) : ∃ u : State,
      swapStep (s, { free := free, sent := [(p, x), (p, y)], passing := 2, ej := 0, taken := false }) =
        ({ u with fab := { u.fab with swap := some y } },
          { free := free, sent := [(p, x), (p, { f with age := 0 })], passing := 2, ej := 0, taken := true }) := by
  obtain ⟨u, takes⟩ := State.takeInject_some next
  refine ⟨u, ?_⟩
  unfold swapStep
  dsimp only
  rw [if_pos ⟨waits, empty⟩, takes]
  rfl

theorem exec_swapInject_idle {s : State} (none : s.nextInject = none) (fs : List ArrivingFlit) :
    exec (.swapInject fs) s = exec (.flitArrive fs) s := congrArg Host.Outcome.next (if_pos (by simp [none]))

/-- The state in which the head of the send queues has waited 64 ac (R32). -/
def State.headWaited (s : State) : State := { s with fab := { s.fab with headWait := max 64 s.fab.headWait } }

theorem exec_swapInject_waited {s : State} {v : Nat} {k : Option Nat} {f : Flit} (next : s.nextInject = some (v, k, f))
    (fs : List ArrivingFlit) : exec (.swapInject fs) s = .next (s.headWaited.routerAc fs) :=
  congrArg Host.Outcome.next (if_neg (by simp [next]))

theorem swapInject_swaps {s : State} {p v : Nat} {k : Option Nat} {f : Flit} {a b : ArrivingFlit} (low : p < 6)
    (only : ∀ q, q < 6 → (s.live q = true ↔ q = p)) (hap : a.port = p) (hbp : b.port = p) (ha : a.crcOk = true) (hb : b.crcOk = true)
    (young : a.flit.age < 1023) (older : b.flit.age < a.flit.age) (hda : a.flit.dst ≠ s.dev) (hdb : b.flit.dst ≠ s.dev)
    (empty : s.fab.swap = none) (next : s.nextInject = some (v, k, f)) :
    ∃ t, exec (.swapInject [a, b]) s = .next t ∧ t.fab.swap = some { b.flit with age := b.flit.age + 1 } ∧
      t.fab.wire = [(p, { a.flit with age := a.flit.age + 1 }), (p, { f with age := 0 })] := by
  have liveA : s.headWaited.live a.port = true := (only a.port (hap ▸ low)).mpr hap
  have liveB : s.headWaited.live b.port = true := (only b.port (hbp ▸ low)).mpr hbp
  have slots : s.headWaited.freeSlots = slotsAt p 2 := State.freeSlots_only only
  have order : [{ a with flit := { a.flit with age := a.flit.age + 1 } }, { b with flit := { b.flit with age := b.flit.age + 1 } }].mergeSort
      arbBefore = [{ a with flit := { a.flit with age := a.flit.age + 1 } }, { b with flit := { b.flit with age := b.flit.age + 1 } }] :=
    List.mergeSort_of_pairwise (by simp [arbBefore_of_age, older])
  obtain ⟨u, swaps⟩ := swapStep_two (s := s.headWaited) (Nat.le_max_left ..) empty next (slotsAt p 0) p
    { a.flit with age := a.flit.age + 1 } { b.flit with age := b.flit.age + 1 }
  simp only [State.freeSlots] at slots
  have passA := routeOne_onlyPort (s := s.headWaited) (f := { a.flit with age := a.flit.age + 1 }) low hda
  have passB := routeOne_onlyPort (s := s.headWaited) (f := { b.flit with age := b.flit.age + 1 }) low hdb
  obtain ⟨n, result⟩ : ∃ n, s.headWaited.routerAc [a, b] = { u with fab := { u.fab with
      swap := some { b.flit with age := b.flit.age + 1 },
      wire := [(p, { a.flit with age := a.flit.age + 1 }), (p, { f with age := 0 })], headWait := n } } := by
    simp only [State.routerAc, liveA, liveB, ha, hb, List.filter_cons_of_pos, List.filter_nil, young, Nat.lt_trans older young,
      decide_true, Bool.not_true, Bool.false_eq_true, not_false_eq_true, List.filter_cons_of_neg, List.map_cons, List.map_nil, order,
      List.foldl_cons, List.foldl_nil, slots, Nat.not_le.mpr young, Nat.not_le.mpr (Nat.lt_trans older young), decide_false,
      passA, passB, injectLoop_full, swaps,
      List.nil_append, List.cons_append]
    exact ⟨_, rfl⟩
  exact ⟨_, (exec_swapInject_waited next _).trans (congrArg _ result), rfl, rfl⟩

/-! ## Acknowledgements (R38, R40, R42) -/

/-- A stream frees the flits that `done` says, and no other stream changes. -/
theorem State.freeHeld_frees (s : State) (k : Nat) (done : Flit × Nat → Bool) :
    s.freeHeld k done = { s with fab := { s.fab with tx := (s.freeHeld k done).fab.tx } } ∧
    ((s.freeHeld k done).fab.tx.get k).held = (s.fab.tx.get k).held.filter (fun e => !done e) ∧
    ∀ j, j ≠ k → (s.freeHeld k done).fab.tx.get j = s.fab.tx.get j := by
  unfold State.freeHeld
  dsimp only
  split
  · next all => exact ⟨rfl, (List.filter_eq_self.mpr (List.length_filter_eq_length_iff.mp all)).symm, fun _ _ => rfl⟩
  · exact ⟨rfl, by rw [Tab.get_set_same], fun j other => Tab.get_set_ne _ _ _ _ other⟩

/-- What an ACK of stream number `k` up to `n` covers: every sent flit up to it but ATOMIC requests (R38, R40). -/
def covers (n : BitVec 32) (e : Flit × Nat) : Bool := e.2 != 0 && e.1.type != 3 && seqLe e.1.seq n

theorem covers_iff (n : BitVec 32) (e : Flit × Nat) :
    covers n e = true ↔ e.2 ≠ 0 ∧ e.1.type ≠ 3 ∧ (n - e.1.seq).toNat < 2 ^ 31 := by
  simp only [covers, seqLe, Bool.and_eq_true, bne_iff_ne, decide_eq_true_eq, and_assoc]

theorem exec_ack_one (src vc : Nat) (n : BitVec 32) (s : State) :
    exec (.ack src [(vc, n)]) s = .next (s.freeHeld (streamNo src vc) (covers n)) := rfl

theorem ack_frees (s : State) (src vc : Nat) (n : BitVec 32) : ∃ t, exec (.ack src [(vc, n)]) s = .next t ∧ t.agenda = s.agenda ∧
    (∀ e, e ∈ (t.fab.tx.get (streamNo src vc)).held ↔ e ∈ (s.fab.tx.get (streamNo src vc)).held ∧
      ¬ (e.2 ≠ 0 ∧ e.1.type ≠ 3 ∧ (n - e.1.seq).toNat < 2 ^ 31)) ∧
    ∀ j, j ≠ streamNo src vc → t.fab.tx.get j = s.fab.tx.get j := by
  obtain ⟨frame, held, others⟩ := s.freeHeld_frees (streamNo src vc) (covers n)
  refine ⟨_, exec_ack_one src vc n s, by rw [frame], fun e => ?_, others⟩
  rw [held, List.mem_filter, Bool.not_eq_true', ← Bool.not_eq_true, covers_iff]

theorem exec_responseAck (src vc : Nat) (upTo : BitVec 32) (s : State) : exec (.responseAck src vc upTo) s = .next
    (if vc ≠ 2 then s
     else { s with fab := { s.fab with cache := s.fab.cache.filter (fun c => !(c.src == src && seqLe c.seq upTo)) } }) := rfl

theorem responseAck_frees (s : State) (src : Nat) (n : BitVec 32) : ∃ t, exec (.responseAck src 2 n) s = .next t ∧
    t = { s with fab := { s.fab with cache := t.fab.cache } } ∧
    ∀ c, c ∈ t.fab.cache ↔ c ∈ s.fab.cache ∧ ¬ (c.src = src ∧ (n - c.seq).toNat < 2 ^ 31) := by
  refine ⟨_, (exec_responseAck ..).trans (congrArg _ (if_neg (by decide))), rfl, fun c => ?_⟩
  simp only [List.mem_filter, Bool.not_eq_true', ← Bool.not_eq_true, Bool.and_eq_true, beq_iff_eq, seqLe, decide_eq_true_eq]

/-! ## The replay timer (R41, R46) -/

/-- A stream after an expiry: every sent flit is to be replayed (R41). -/
def TxStream.expired (st : TxStream) (timeout : Nat) (unreach : Bool) : TxStream :=
  { st with held := st.held.map (fun e => if e.2 = 1 then (e.1, 2) else e), timeout := timeout, expiries := st.expiries + 1,
            deadline := none, unreach := unreach }

def State.putTx (s : State) (k : Nat) (st : TxStream) : State := { s with fab := { s.fab with tx := s.fab.tx.set k st } }

/-- The expiries that make a stream UNREACH, and the longest timeout (R41, R52). -/
def State.replayLimit (s : State) : Nat := if bits s.fab.rto 23 20 = 0 then 16 else bits s.fab.rto 23 20
def State.longestTimeout (s : State) : Nat := bits s.fab.rto 19 0 * 2 ^ bits s.fab.rto 27 24

section
variable {s : State} {dst vc t0 : Nat} (deadline : (s.fab.tx.get (streamNo dst vc)).deadline = some t0) (past : t0 ≤ s.time)
  (held : (s.fab.tx.get (streamNo dst vc)).held ≠ [])
include deadline past held

theorem exec_replay_again (below : (s.fab.tx.get (streamNo dst vc)).expiries + 1 < s.replayLimit)
    (reached : (s.fab.tx.get (streamNo dst vc)).unreach = false) : exec (.replayTimerExpiry dst vc) s = .next
      (s.putTx (streamNo dst vc) ((s.fab.tx.get (streamNo dst vc)).expired
        (min (2 * s.timeoutOf (s.fab.tx.get (streamNo dst vc))) s.longestTimeout) (s.fab.tx.get (streamNo dst vc)).unreach)) := by
  refine congrArg Host.Outcome.next ?_
  simp only [State.replayLimit] at below
  simp only [deadline, Nat.not_lt.mpr past, held, or_self, if_false, reached, Nat.not_le.mpr below, decide_false, Bool.not_false,
    Bool.and_true, Bool.or_false, Bool.false_eq_true]
  rfl

theorem exec_replay_unreach (limit : s.replayLimit ≤ (s.fab.tx.get (streamNo dst vc)).expiries + 1)
    (reached : (s.fab.tx.get (streamNo dst vc)).unreach = false) : exec (.replayTimerExpiry dst vc) s = .next
      (({ s.putTx (streamNo dst vc) ((s.fab.tx.get (streamNo dst vc)).expired s.longestTimeout true) with
        mgmtLog := s.mgmtLog ++ [.memberLoss dst] } : State).unreached dst vc) := by
  refine congrArg Host.Outcome.next ?_
  simp only [State.replayLimit] at limit
  simp only [deadline, Nat.not_lt.mpr past, held, or_self, if_false, reached, limit, decide_true, Bool.not_false,
    Bool.and_true, Bool.or_true, if_true]
  rfl

theorem exec_replay_unreached (unreach : (s.fab.tx.get (streamNo dst vc)).unreach = true) : exec (.replayTimerExpiry dst vc) s = .next
    (s.putTx (streamNo dst vc) ((s.fab.tx.get (streamNo dst vc)).expired s.longestTimeout
      (s.fab.tx.get (streamNo dst vc)).unreach)) := by
  refine congrArg Host.Outcome.next ?_
  simp only [deadline, Nat.not_lt.mpr past, held, or_self, if_false, unreach, Bool.not_true, Bool.and_false, Bool.or_false, if_true,
    Bool.false_eq_true]
  rfl

end

theorem exec_replay_early {s : State} {dst vc : Nat}
    (early : ∀ u, (s.fab.tx.get (streamNo dst vc)).deadline = some u → s.time < u) : exec (.replayTimerExpiry dst vc) s = .next s := by
  refine congrArg Host.Outcome.next ?_
  dsimp only
  split
  · rfl
  · next u due => exact if_pos (.inl (early u due))

/-- Pushes the kick of every job of a list, and nothing else. -/
theorem foldl_kickMcast (ms : List McastJob) (s : State) : ms.foldl (fun (x : State) m => x.kickMcast m.job) s =
    { s with agenda := s.agenda ++ ms.map (fun m => .mcastStatus m.job s.dev 0) } := by
  induction ms generalizing s with
  | nil => simp
  | cons m ms ih =>
    rw [List.foldl_cons, ih, State.kickMcast]
    simp [State.push, State.dev]

/-- A multicast job without the answer of device `dev` (R46). -/
def McastJob.without (m : McastJob) (dev : Nat) : McastJob :=
  { m with waiting := m.waiting.filter (fun d => d != dev), failed := m.failed ++ [dev] }

/-- The stream of fabric operations to a device that is UNREACH fails the device in every multicast that waits for it (R46). -/
theorem State.unreached_multicast {s : State} (idle : s.net.open_ = []) (dst : Nat) :
    (s.unreached dst 4).fab = s.fab ∧ (s.unreached dst 4).mgmtLog = s.mgmtLog ∧
    ∀ m ∈ s.net.mcasts, dst ∈ m.waiting →
      .mcastStatus m.job s.dev 0 ∈ (s.unreached dst 4).agenda ∧ m.without dst ∈ (s.unreached dst 4).net.mcasts := by
  have fails : s.unreached dst 4 = s.mcastFails dst := by
    simp only [State.unreached, if_true, State.mcastFails, foldl_kickMcast, State.reductionsLose, idle, List.filter_nil, List.foldl_nil]
  rw [fails, State.mcastFails, foldl_kickMcast]
  refine ⟨rfl, rfl, fun m listed waits => ⟨?_, ?_⟩⟩
  · exact List.mem_append_right _ (List.mem_map.mpr ⟨m, List.mem_filter.mpr ⟨listed, by simpa using waits⟩, rfl⟩)
  · exact List.mem_map.mpr ⟨m, listed, if_pos (by simpa using waits)⟩

/-! ## Padding of an open group (R36, R37) -/

/-- One flit more is held by a stream, and its number is the next one (R30, R38). -/
theorem TxStream.put_counts (s : State) (st : TxStream) (f : Flit) :
    (st.put s f).held.length = st.held.length + 1 ∧ (st.put s f).next = st.next + 1 := by
  refine ⟨?_, rfl⟩
  unfold TxStream.put
  dsimp only
  rw [apply_ite List.length]
  simp only [List.length_map, List.length_append, List.length_singleton, ite_self]

/-- A PAD flit joins stream (`dst`, `vc`) for partition `part` (R37). -/
def State.padOne (s : State) (dst vc part : Nat) : State :=
  let y := s.fabSend dst vc 0 part 0 0 .pad
  if vc = 2 then y.seeResponse dst (s.fab.tx.get (streamNo dst vc)).next else y

theorem State.seeResponse_frame (s : State) (dev : Nat) (seq : BitVec 32) :
    (s.seeResponse dev seq).agenda = s.agenda ∧ (s.seeResponse dev seq).mem = s.mem ∧ (s.seeResponse dev seq).fab.tx = s.fab.tx ∧
      (s.seeResponse dev seq).fab.out = s.fab.out ∧ (s.seeResponse dev seq).fab.dim = s.fab.dim := by
  unfold State.seeResponse
  dsimp only
  split <;> exact ⟨rfl, rfl, rfl, rfl, rfl⟩

theorem State.padOne_counts (s : State) (dst vc part : Nat) : (s.padOne dst vc part).agenda = s.agenda ∧
    ((s.padOne dst vc part).fab.tx.get (streamNo dst vc)).held.length = (s.fab.tx.get (streamNo dst vc)).held.length + 1 ∧
    ((s.padOne dst vc part).fab.tx.get (streamNo dst vc)).next = (s.fab.tx.get (streamNo dst vc)).next + 1 := by
  have counts (f : Flit) := (s.fab.tx.get (streamNo dst vc)).put_counts s f
  have sent : (s.padOne dst vc part).agenda = s.agenda ∧
      (s.padOne dst vc part).fab.tx = (s.fabSend dst vc 0 part 0 0 .pad).fab.tx := by
    unfold State.padOne
    dsimp only
    split
    · obtain ⟨agenda, -, tx, -⟩ := (s.fabSend dst vc 0 part 0 0 .pad).seeResponse_frame dst (s.fab.tx.get (streamNo dst vc)).next
      exact ⟨agenda, tx⟩
    · exact ⟨rfl, rfl⟩
  obtain ⟨agenda, tx⟩ := sent
  rw [agenda, tx]
  refine ⟨rfl, ?_⟩
  simp only [State.fabSend, Tab.get_modify_same]
  exact counts _

theorem State.pads_count (l : List Nat) (s : State) (dst vc part : Nat) :
    let t := l.foldl (fun (x : State) _ => x.padOne dst vc part) s
    t.agenda = s.agenda ∧ (t.fab.tx.get (streamNo dst vc)).held.length = (s.fab.tx.get (streamNo dst vc)).held.length + l.length ∧
      (t.fab.tx.get (streamNo dst vc)).next = (s.fab.tx.get (streamNo dst vc)).next + BitVec.ofNat 32 l.length := by
  induction l generalizing s with
  | nil => simp
  | cons a l ih =>
    obtain ⟨agenda, held, next⟩ := ih (s.padOne dst vc part)
    obtain ⟨agenda1, held1, next1⟩ := s.padOne_counts dst vc part
    refine ⟨agenda.trans agenda1, ?_, ?_⟩
    · rw [List.foldl_cons, held, held1, List.length_cons]
      omega
    · rw [List.foldl_cons, next, next1, List.length_cons, BitVec.ofNat_add, BitVec.add_assoc, BitVec.add_comm 1]
      rfl

theorem exec_aeadPad (dst vc : Nat) (s : State) {f : Flit} (opened : s.openAead (streamNo dst vc) = some f) :
    exec (.aeadPad dst vc) s = .next (if !s.padDue (streamNo dst vc) then s
      else (List.range (4 - (s.fab.tx.get (streamNo dst vc)).next.toNat % 4)).foldl
        (fun (x : State) _ => x.padOne dst vc f.part) s) := by
  refine congrArg Host.Outcome.next ?_
  simp only [opened]
  rfl

section
variable {s : State} {dst vc : Nat} {f : Flit} {sent : Nat} (listed : (f, sent) ∈ (s.fab.tx.get (streamNo dst vc)).held)
  (group : f.seq.toNat / 4 = (s.fab.tx.get (streamNo dst vc)).next.toNat / 4) (mode : PartEntry.mode (s.part.get f.part) f.vc = 2)
include listed group mode

theorem State.openAead_some : ∃ g, s.openAead (streamNo dst vc) = some g := by
  have found : ((s.fab.tx.get (streamNo dst vc)).held.find? (fun e =>
      e.1.seq.toNat / 4 == (s.fab.tx.get (streamNo dst vc)).next.toNat / 4 && s.flitMode e.1 == 2)).isSome = true :=
    List.find?_isSome.mpr ⟨_, listed, by simp [group, State.flitMode, mode]⟩
  obtain ⟨e, he⟩ := Option.isSome_iff_exists.mp found
  exact ⟨e.1, congrArg (Option.map (fun e : Flit × Nat => e.1)) he⟩

/-- After 32 ac without further traffic the open group of a stream is completed (R37). -/
theorem aeadPad_completes (partial_ : (s.fab.tx.get (streamNo dst vc)).next.toNat % 4 ≠ 0)
    (quiet : (s.fab.tx.get (streamNo dst vc)).last + 32 ≤ s.time) : ∃ t, exec (.aeadPad dst vc) s = .next t ∧ t.agenda = s.agenda ∧
      (t.fab.tx.get (streamNo dst vc)).held.length =
        (s.fab.tx.get (streamNo dst vc)).held.length + (4 - (s.fab.tx.get (streamNo dst vc)).next.toNat % 4) ∧
      (t.fab.tx.get (streamNo dst vc)).next.toNat % 4 = 0 := by
  obtain ⟨g, opened⟩ := State.openAead_some listed group mode
  have due : s.padDue (streamNo dst vc) = true := by simp [State.padDue, opened, partial_, quiet]
  obtain ⟨agenda, held, next⟩ := s.pads_count (List.range (4 - (s.fab.tx.get (streamNo dst vc)).next.toNat % 4)) dst vc g.part
  refine ⟨_, (exec_aeadPad dst vc s opened).trans (congrArg _ (if_neg (by simp [due]))), agenda, by rw [held, List.length_range], ?_⟩
  rw [next, List.length_range, BitVec.toNat_add, BitVec.toNat_ofNat]
  omega

theorem aeadPad_waits (busy : s.time < (s.fab.tx.get (streamNo dst vc)).last + 32) : exec (.aeadPad dst vc) s = .next s := by
  obtain ⟨g, opened⟩ := State.openAead_some listed group mode
  have early : s.padDue (streamNo dst vc) = false := by simp [State.padDue, busy]
  exact (exec_aeadPad dst vc s opened).trans (congrArg _ (if_pos (by simp [early])))

end

/-! ## The statement -/

/-- Settles O42: the ports, then the flits that arrive in one ac, the swap register, and the acknowledgements, expiries and pads of a
stream. -/
theorem fabricPortsAndStreams : Obligations.FabricPortsAndStreams := by
  unfold Obligations.FabricPortsAndStreams
  refine ⟨fun s p v => ?ports, fun s a live low young waits => ?arrives,
    fun s p v k f a b low only hap hbp ha hb young older hda hdb empty next =>
      swapInject_swaps low only hap hbp ha hb young older hda hdb empty next,
    fun s fs idle => exec_swapInject_idle idle fs,
    fun s src vc n => ⟨ack_frees s src vc n, responseAck_frees s src n, fun other => (exec_responseAck ..).trans (congrArg _ (if_pos other))⟩,
    fun s dst vc t0 => ?timers⟩
  case ports =>
    obtain ⟨lost, timeout, training, bits⟩ := fabricPorts s p
    refine ⟨lost, timeout, training, bits, rfl, rfl, rfl, fun dead => (exec_retrain_link s).trans (congrArg _ (if_pos dead)),
      fun other => (exec_retrain_link s).trans (congrArg _ (if_neg other)), fun busy => ?_, fun free => ?_, exec_fabRtoWrite v s, rfl⟩
    · rw [exec_fabDimWrite, if_pos busy]
    · rw [exec_fabDimWrite, if_neg (by simp [free]), ofN_bits_low24]
  case arrives =>
    refine ⟨fun good here h5 h6 => flitArrive_ejected live young waits good here (State.eject_stream h5 h6),
      fun good here tag formed =>
        ⟨fun type => flitArrive_ejected live young waits good here (State.eject_aresp tag formed type),
          fun ps type body => flitArrive_ejected live young waits good here (State.eject_ack tag formed type body)⟩,
      fun p good other port => flitArrive_forwarded live young waits good other port,
      fun bad room => flitArrive_badCrc live waits bad room⟩
  case timers =>
    intro st base limit longest again put due
    refine ⟨fun ⟨set, past, held⟩ below reached => exec_replay_again set past held below reached,
      fun ⟨set, past, held⟩ reach reached h3 h4 => ?unreach, fun ⟨set, past, held⟩ reach reached vc4 idle => ?multicast,
      fun ⟨set, past, held⟩ unreach => exec_replay_unreached set past held unreach, exec_replay_early,
      fun f sent listed group mode partial_ => ⟨aeadPad_completes listed group mode partial_, aeadPad_waits listed group mode⟩⟩
    case unreach =>
      rw [exec_replay_unreach set past held reach reached, State.unreached, if_neg h4, if_neg h3]
      rfl
    case multicast =>
      subst vc4
      obtain ⟨fab, log, fails⟩ := State.unreached_multicast (s := { s.putTx (streamNo dst 4)
        ((s.fab.tx.get (streamNo dst 4)).expired s.longestTimeout true) with mgmtLog := s.mgmtLog ++ [.memberLoss dst] }) idle dst
      refine ⟨_, exec_replay_unreach set past held reach reached, ?_, log, fails⟩
      rw [fab]
      exact Tab.get_set_same ..

end Sys2Proof.Machine
end

section
/-! A device that is lost while a reduction with it is open (R43, R51, R192), and the refutation of the statement of the fabric's
deliveries. -/

namespace Sys2Proof.Machine

/-- Two devices, of which this is device 0. A reduction of both is open, and its job, job 0x30000 of core 0, holds an arrival entry at
device 1. -/
def lostWithArrival : State :=
  let entry : Arrival := { core := 0, addr := 0, len := 0, tag := 0, extra := 0, src := 0, hpc := 0, bytes := [] }
  let job : Job :=
    { id := 0x30000, ctx := 0, serial := 0, engine := 3, state := 2, pfail := 0, code := 0, pos := 0, cpl := 0, hpc := 0, tag := 0,
      buf := none, huddles := [], later := 0, sreg := 0, fmts := [], arr := some (1, entry), after := [], wrote := [], task := 0 }
  let reduction : Reduction :=
    { group := 2, rid := 9, part := 0, job := 0x30000, core := 0, dst := 0x30000000002000, op := 6, n := 1, c := 2, index := 0,
      parts := [0, 1], src := 0x30000000001000, partials := [], sent := false }
  { State.reset.modCore 0 (fun c => { c with jobs := [job] }) with
    fab := { State.reset.fab with dim := 1 }, net := { State.reset.net with open_ := [reduction] } }

/-- The end of the reduction completes its job, and freeing the job's arrival entry is a flit to the lost device. -/
theorem deviceLostDeclare_sends : ∃ t, exec (.deviceLostDeclare 1) lostWithArrival = .next t ∧
    (t.fab.tx.get (streamNo 1 0)).held.length = 1 := ⟨_, rfl, rfl⟩

/-- Refutes O60: its clause for a lost device asks nothing of the reductions that are open with it. The end of one in MEMBERLOSS completes
the job of its NRED as any job completes, and where that record holds an arrival entry at the lost device, a flit that frees the entry
joins a stream to it (R51, R192): the stream does not stay empty. -/
theorem not_fabricDeliveries : ¬ Obligations.FabricDeliveries := by
  unfold Obligations.FabricDeliveries
  rintro ⟨-, -, -, -, lost⟩
  obtain ⟨t, declared, -, -, -, empty, -⟩ := (lost lostWithArrival 1).2 (by decide) (by decide)
  obtain ⟨u, sends, held⟩ := deviceLostDeclare_sends
  obtain rfl : t = u := Host.Outcome.next.inj (declared.symm.trans sends)
  rw [empty 0 (by decide)] at held
  cases held

end Sys2Proof.Machine
end

section
/-! The end of a job: what completing it leaves alone, and that a job with no form of completion but its record is then done (R190, R391,
R408). -/

namespace Sys2Proof.Machine

/-! ## What the end of a job leaves alone -/

/-- The general registers, the PC, the streams and the message registers of a context are those of `c`. -/
structure Ctx.SameRun (d c : Ctx) : Prop where
  g : d.g = c.g
  pc : d.pc = c.pc
  lineN : d.lineN = c.lineN
  streams : d.streams = c.streams
  msgr : d.msgr = c.msgr

theorem Ctx.SameRun.refl (c : Ctx) : c.SameRun c := ⟨rfl, rfl, rfl, rfl, rfl⟩

theorem Ctx.SameRun.trans {a b c : Ctx} (h : c.SameRun b) (g : b.SameRun a) : c.SameRun a :=
  ⟨h.g.trans g.g, h.pc.trans g.pc, h.lineN.trans g.lineN, h.streams.trans g.streams, h.msgr.trans g.msgr⟩

/-- Memory, the network's records, the running agent, and what every context runs stay as they are. -/
structure State.KeepsWork (s t : State) : Prop where
  mem : t.mem = s.mem
  badLines : t.badLines = s.badLines
  uline : t.uline = s.uline
  net : t.net = s.net
  curCore : t.curCore = s.curCore
  curCtx : t.curCtx = s.curCtx
  ctxs : ∀ c k, (t.ctxAt c k).SameRun (s.ctxAt c k)

namespace State.KeepsWork

theorem refl (s : State) : s.KeepsWork s := ⟨rfl, rfl, rfl, rfl, rfl, rfl, fun _ _ => .refl _⟩

theorem trans {s t u : State} (h : s.KeepsWork t) (g : t.KeepsWork u) : s.KeepsWork u :=
  ⟨g.mem.trans h.mem, g.badLines.trans h.badLines, g.uline.trans h.uline, g.net.trans h.net,
    g.curCore.trans h.curCore, g.curCtx.trans h.curCtx, fun c k => (g.ctxs c k).trans (h.ctxs c k)⟩

theorem foldl {α : Type} {f : State → α → State} (h : ∀ (s : State) (a : α), s.KeepsWork (f s a)) (l : List α) (s : State) :
    s.KeepsWork (l.foldl f s) := by
  induction l generalizing s with
  | nil => exact .refl s
  | cons a l ih => exact (h s a).trans (ih _)

theorem me {s t : State} (h : s.KeepsWork t) : t.me.SameRun s.me := by
  rw [State.me, State.me, h.curCore, h.curCtx]
  exact h.ctxs _ _

theorem sameMem {s t : State} (h : s.KeepsWork t) : t.sameMem s := ⟨h.mem, h.badLines, h.uline⟩

theorem withNet {s t : State} (h : s.KeepsWork t) (n : NetEngine) :
    ({ s with net := n } : State).KeepsWork { t with net := n } :=
  ⟨h.mem, h.badLines, h.uline, rfl, h.curCore, h.curCtx, h.ctxs⟩

end State.KeepsWork

theorem modCore_keepsWork (s : State) (c : Nat) {f : Core → Core} (h : ∀ x, (f x).ctx = x.ctx) : s.KeepsWork (s.modCore c f) := by
  refine ⟨rfl, rfl, rfl, rfl, rfl, rfl, fun d k => ?_⟩
  by_cases same : d = c
  · subst same
    simp only [State.ctxAt, State.modCore, Tab.get_modify_same, h]
    exact .refl _
  · simp only [State.ctxAt, State.modCore, Tab.get_modify_ne _ _ _ _ same]
    exact .refl _

theorem modCtx_keepsWork (s : State) (c k : Nat) {f : Ctx → Ctx} (h : ∀ x, (f x).SameRun x) : s.KeepsWork (s.modCtx c k f) := by
  refine ⟨rfl, rfl, rfl, rfl, rfl, rfl, fun d j => ?_⟩
  by_cases same : d = c ∧ j = k
  · obtain ⟨rfl, rfl⟩ := same
    rw [State.ctxAt_modCtx_same]
    exact h _
  · rw [State.ctxAt_modCtx_ne _ _ _ _ _ _ same]
    exact .refl _

theorem latch_keepsWork (s : State) (core k b : Nat) : s.KeepsWork (s.latch core k b) := by
  unfold State.latch
  split
  · exact .refl s
  · exact modCtx_keepsWork s core k fun _ => ⟨rfl, rfl, rfl, rfl, rfl⟩

theorem latchCore_keepsWork (s : State) (core b : Nat) : s.KeepsWork (s.latchCore core b) :=
  .foldl (fun x k => latch_keepsWork x core k b) _ s

theorem modCluster_keepsWork (s : State) (c : Nat) (f : Cluster → Cluster) : s.KeepsWork (s.modCluster c f) :=
  ⟨rfl, rfl, rfl, rfl, rfl, rfl, fun _ _ => .refl _⟩

theorem fabSend_keepsWork (s : State) (dst vc type part xid aux : Nat) (body : FlitBody) :
    s.KeepsWork (s.fabSend dst vc type part xid aux body) := ⟨rfl, rfl, rfl, rfl, rfl, rfl, fun _ _ => .refl _⟩

theorem farDrop_keepsWork (s : State) (owner : Nat) : s.KeepsWork (s.farDrop owner) := by
  have unmet : s.KeepsWork (if s.meets.contains owner then { s with meets := s.meets.filter (fun a => a != owner) } else s) := by
    split <;> exact ⟨rfl, rfl, rfl, rfl, rfl, rfl, fun _ _ => .refl _⟩
  unfold State.farDrop
  generalize (if s.meets.contains owner then { s with meets := s.meets.filter (fun a => a != owner) } else s) = s1 at unmet ⊢
  have gone : s.KeepsWork { s1 with far := s1.far.filter (fun f => f.owner != owner) } :=
    unmet.trans ⟨rfl, rfl, rfl, rfl, rfl, rfl, fun _ _ => .refl _⟩
  dsimp only
  split
  · split
    · exact gone.trans (modCore_keepsWork _ _ fun _ => rfl)
    · exact gone
  · exact unmet

theorem farClear_keepsWork (s : State) (owner : Nat) : s.KeepsWork (s.farClear owner) := farDrop_keepsWork s owner

theorem bufPublish_keepsWork (s : State) (cl h : Nat) : s.KeepsWork (s.bufPublish cl h) := by
  have marked : s.KeepsWork (s.modBuf cl h (fun b => { b with pidx := b.pidx + 1 })) := by
    unfold State.modBuf
    split
    · exact modCluster_keepsWork ..
    · exact .refl s
  refine marked.trans (.foldl (fun x c => .foldl (fun y k => ?_) _ x) _ _)
  split
  · exact latch_keepsWork ..
  · exact .refl y

theorem modBarrier_keepsWork (s : State) (b : BarrierId) (f : Barrier → Barrier) : s.KeepsWork (s.modBarrier b f) := by
  cases b <;> exact ⟨rfl, rfl, rfl, rfl, rfl, rfl, fun _ _ => .refl _⟩

theorem barrierCheck_keepsWork (s : State) (b : BarrierId) : s.KeepsWork (s.barrierCheck b) := by
  unfold State.barrierCheck
  split
  · exact (modBarrier_keepsWork ..).trans (.foldl (fun x c => latchCore_keepsWork x c 5) _ _)
  · exact .refl s

theorem jobArrivals_keepsWork (s : State) (j : Job) : s.KeepsWork (s.jobArrivals j) :=
  .foldl (fun x _ => (modBarrier_keepsWork x _ _).trans (barrierCheck_keepsWork _ _)) _ s

theorem jobInterrupt_keepsWork (s : State) (j : Job) : s.KeepsWork (s.jobInterrupt j) := by
  unfold State.jobInterrupt
  dsimp only
  split
  · exact modCtx_keepsWork s _ _ fun _ => ⟨rfl, rfl, rfl, rfl, rfl⟩
  · exact .refl s

theorem readyArrival_keepsWork (s : State) (d : Arrival) : s.KeepsWork (s.readyArrival d) := by
  unfold State.readyArrival
  split
  · exact .refl s
  · refine .trans (modCore_keepsWork s d.core ?_) (latchCore_keepsWork ..)
    exact fun _ => rfl

theorem freeArrival_keepsWork (s : State) (d : Arrival) : s.KeepsWork (s.freeArrival d) := by
  unfold State.freeArrival
  split
  · exact .refl s
  · refine modCore_keepsWork s d.core ?_
    exact fun _ => rfl

theorem settleArrival_keepsWork (s : State) (part : Nat) (a : Nat × Arrival) (good : Bool) : s.KeepsWork (s.settleArrival part a good) := by
  unfold State.settleArrival
  split
  · split
    · exact readyArrival_keepsWork ..
    · exact freeArrival_keepsWork ..
  · exact fabSend_keepsWork ..

theorem modJob_keepsWork (s : State) (id : Word) (f : Job → Job) : s.KeepsWork (s.modJob id f) := modCore_keepsWork s _ fun _ => rfl

theorem ageJobs_keepsWork (s : State) (id : Word) : s.KeepsWork (s.ageJobs id) := modCore_keepsWork s _ fun _ => rfl

/-- The ready mark of the job's ring. -/
def State.publishOf (s : State) (j : Job) (cl : Nat) : State :=
  match j.buf with
  | some h => s.bufPublish cl h
  | none => s

/-- The arrival entry of the job's message. -/
def State.arriveOf (s : State) (j : Job) (part : Nat) : State :=
  match j.arr with
  | some a => s.settleArrival part a (j.code == 0)
  | none => s

/-- The latch of the context that issued the job, while that thread is in it. -/
def State.latchOf (s : State) (j : Job) (core : Nat) : State :=
  if (s.ctxAt core j.ctx).serial = j.serial then s.latch core j.ctx 0 else s

/-- Each form of completion of a job, up to its record. -/
def State.formsDone (s : State) (j : Job) (job : Word) : State :=
  ((((s.publishOf j (clusterOf (jobCore job))).jobArrivals j).jobInterrupt j).latchOf j (jobCore job)).arriveOf j
    ((s.partOfCore (jobCore job)).getD 0)

/-- The record of a completed job. -/
def State.recordDone (s : State) (job : Word) : State := ((s.disown job).modJob job (fun x => { x with state := 4 })).ageJobs job

/-- The ring of the job has no free slot (R408). -/
def State.ringFull (s : State) (j : Job) (job : Word) : Bool :=
  match j.buf.bind (s.bufOf (clusterOf (jobCore job))) with
  | some b => !b.room
  | none => false

theorem completeJob_eq {s : State} {job : Word} {j : Job} (h : s.jobOf job = some j) :
    s.completeJob job = if j.state = 4 then s else if s.ringFull j job then (s.disown job).push (.jobComplete job)
      else (s.formsDone j job).recordDone job := by
  unfold State.completeJob
  rw [h]
  rfl

theorem formsDone_keepsWork (s : State) (j : Job) (job : Word) : s.KeepsWork (s.formsDone j job) := by
  have published : s.KeepsWork (s.publishOf j (clusterOf (jobCore job))) := by
    unfold State.publishOf
    split
    · exact bufPublish_keepsWork ..
    · exact .refl s
  have latched (x : State) : x.KeepsWork (x.latchOf j (jobCore job)) := by
    unfold State.latchOf
    split
    · exact latch_keepsWork ..
    · exact .refl x
  have arrived (x : State) (part : Nat) : x.KeepsWork (x.arriveOf j part) := by
    unfold State.arriveOf
    split
    · exact settleArrival_keepsWork ..
    · exact .refl x
  exact published.trans ((jobArrivals_keepsWork ..).trans ((jobInterrupt_keepsWork ..).trans ((latched _).trans (arrived _ _))))

theorem recordDone_keepsWork (s : State) (job : Word) : s.KeepsWork (s.recordDone job) :=
  have disowned : s.KeepsWork (s.disown job) := ⟨rfl, rfl, rfl, rfl, rfl, rfl, fun _ _ => .refl _⟩
  disowned.trans ((modJob_keepsWork (s.disown job) job _).trans (ageJobs_keepsWork _ job))

theorem completeJob_keepsWork (s : State) (job : Word) : s.KeepsWork (s.completeJob job) := by
  cases h : s.jobOf job with
  | none =>
    unfold State.completeJob
    rw [h]
    exact .refl s
  | some j =>
    rw [completeJob_eq h]
    split
    · exact .refl s
    split
    · exact ⟨rfl, rfl, rfl, rfl, rfl, rfl, fun _ _ => .refl _⟩
    · exact (formsDone_keepsWork ..).trans (recordDone_keepsWork ..)

/-- The end of a job changes no memory, no reduction, and nothing of what a context runs (R190). -/
theorem finishJob_keepsWork (s : State) (id : Word) (status pfail : Nat) : s.KeepsWork (s.finishJob id status pfail) :=
  (farClear_keepsWork ..).trans ((farClear_keepsWork ..).trans ((modJob_keepsWork ..).trans (completeJob_keepsWork ..)))

/-! ## The record of a job -/

/-- Every core's jobs and this device's number stay as they are. -/
def State.KeepsJobs (s t : State) : Prop := (∀ c, (t.coreAt c).jobs = (s.coreAt c).jobs) ∧ t.dev = s.dev

theorem State.KeepsJobs.refl (s : State) : s.KeepsJobs s := ⟨fun _ => rfl, rfl⟩

theorem State.KeepsJobs.trans {s t u : State} (h : s.KeepsJobs t) (g : t.KeepsJobs u) : s.KeepsJobs u :=
  ⟨fun c => (g.1 c).trans (h.1 c), g.2.trans h.2⟩

theorem State.KeepsJobs.foldl {α : Type} {f : State → α → State} (h : ∀ (s : State) (a : α), s.KeepsJobs (f s a)) (l : List α)
    (s : State) : s.KeepsJobs (l.foldl f s) := by
  induction l generalizing s with
  | nil => exact .refl s
  | cons a l ih => exact (h s a).trans (ih _)

theorem State.KeepsJobs.jobOf {s t : State} (h : s.KeepsJobs t) (id : Word) : t.jobOf id = s.jobOf id := by
  obtain ⟨jobs, dev⟩ := h
  unfold State.jobOf
  rw [jobs, dev]

theorem State.KeepsJobs.openJob {s t : State} (h : s.KeepsJobs t) {id : Word} (o : s.openJob id) : t.openJob id := by
  obtain ⟨j, found, rest⟩ := o
  exact ⟨j, (h.jobOf id).trans found, rest⟩

theorem modCore_keepsJobs (s : State) (c : Nat) {f : Core → Core} (h : ∀ x, (f x).jobs = x.jobs) : s.KeepsJobs (s.modCore c f) := by
  refine ⟨fun d => ?_, rfl⟩
  by_cases same : d = c
  · subst same
    simp only [State.coreAt, State.modCore, Tab.get_modify_same, h]
  · simp only [State.coreAt, State.modCore, Tab.get_modify_ne _ _ _ _ same]

theorem farDrop_keepsJobs (s : State) (owner : Nat) : s.KeepsJobs (s.farDrop owner) := by
  have unmet : s.KeepsJobs (if s.meets.contains owner then { s with meets := s.meets.filter (fun a => a != owner) } else s) := by
    split <;> exact ⟨fun _ => rfl, rfl⟩
  unfold State.farDrop
  generalize (if s.meets.contains owner then { s with meets := s.meets.filter (fun a => a != owner) } else s) = s1 at unmet ⊢
  dsimp only
  split
  · split
    · exact unmet.trans (modCore_keepsJobs { s1 with far := _ } _ fun _ => rfl)
    · exact unmet.trans ⟨fun _ => rfl, rfl⟩
  · exact unmet

/-- A job with neither a ring, nor a huddle, nor an arrival entry completes with its latch and its interrupt. -/
theorem formsDone_keepsJobs {s : State} {j : Job} (job : Word) (buf : j.buf = none) (huddles : j.huddles = []) (arr : j.arr = none) :
    s.KeepsJobs (s.formsDone j job) := by
  have plain : s.formsDone j job = (s.jobInterrupt j).latchOf j (jobCore job) := by
    simp only [State.formsDone, State.publishOf, State.arriveOf, State.jobArrivals, buf, huddles, arr, List.foldl_nil]
  have interrupted : s.KeepsJobs (s.jobInterrupt j) := by
    unfold State.jobInterrupt
    dsimp only
    split
    · exact modCore_keepsJobs s _ fun _ => rfl
    · exact .refl s
  rw [plain]
  refine interrupted.trans ?_
  unfold State.latchOf State.latch
  split
  · split
    · exact .refl _
    · exact modCore_keepsJobs _ _ fun _ => rfl
  · exact .refl _

theorem find?_map_ofId {id : Word} (f : Job → Job) (l : List Job) (h : ∀ j, (f j).id = j.id) :
    (l.map (fun j => if j.id = id then f j else j)).find? (fun j => j.id == id) = (l.find? (fun j => j.id == id)).map f := by
  induction l with
  | nil => rfl
  | cons j l ih =>
    by_cases same : j.id = id
    · simp [same, h]
    · simp [same, ih]

theorem jobOf_modJob (s : State) (id : Word) (f : Job → Job) (h : ∀ j, (f j).id = j.id) :
    (s.modJob id f).jobOf id = (s.jobOf id).map f := by
  have jobs : ((s.modJob id f).coreAt (jobCore id)).jobs =
      (s.coreAt (jobCore id)).jobs.map (fun j => if j.id = id then f j else j) := by
    simp only [State.coreAt, State.modJob, State.modCore, Tab.get_modify_same]
  have dev : (s.modJob id f).dev = s.dev := rfl
  unfold State.jobOf
  rw [jobs, dev]
  split
  · rfl
  · exact find?_map_ofId f _ h

/-- The job that completes is not aged by it, and its record stays (R190). -/
theorem jobOf_ageJobs {s : State} {id : Word} {j : Job} (h : s.jobOf id = some j) (kept : j.later < 32) :
    (s.ageJobs id).jobOf id = some j := by
  let age (j : Job) : Job := if j.state = 4 ∧ j.id ≠ id then { j with later := j.later + 1 } else j
  have jobs : ((s.ageJobs id).coreAt (jobCore id)).jobs =
      ((s.coreAt (jobCore id)).jobs.map age).filter (fun j => decide (j.later < 32)) := by
    simp only [State.coreAt, State.ageJobs, State.modCore, Tab.get_modify_same, age]
  have id_age (x : Job) : (age x).id = x.id := by simp only [age]; split <;> rfl
  have dev : (s.ageJobs id).dev = s.dev := rfl
  unfold State.jobOf at h ⊢
  rw [jobs, dev]
  split at h
  · cases h
  next here =>
    rw [if_neg here, List.find?_filter, List.find?_map]
    obtain ⟨found, before, after, split, earlier⟩ := List.find?_eq_some_iff_append.mp h
    have own : j.id = id := eq_of_beq found
    have unaged : age j = j := if_neg fun aged => aged.2 own
    rw [split, List.find?_append, List.find?_eq_none.mpr, Option.none_or, List.find?_cons_of_pos]
    · rw [Option.map_some, unaged]
    · simp [unaged, own, kept]
    · intro x mem
      simpa [id_age] using fun _ => earlier x mem

theorem jobDone_of_jobOf {s : State} {id : Word} {j : Job} (h : s.jobOf id = some j) (done : j.state = 4) : s.jobDone id j.code := by
  rw [State.jobDone, h, Option.map_some, done]

/-- A job whose completion has no form but its latch, its interrupt and its record is done when it completes (R190). -/
theorem completeJob_done {s : State} {id : Word} {j : Job} (found : s.jobOf id = some j) (running : j.state ≠ 4) (kept : j.later < 32)
    (buf : j.buf = none) (huddles : j.huddles = []) (arr : j.arr = none) : (s.completeJob id).jobDone id j.code := by
  have roomy : s.ringFull j id = false := by simp only [State.ringFull, buf, Option.bind_none]
  have formed : (s.formsDone j id).jobOf id = some j := ((formsDone_keepsJobs id buf huddles arr).jobOf id).trans found
  have recorded := jobOf_modJob ((s.formsDone j id).disown id) id (fun x => { x with state := 4 }) fun _ => rfl
  rw [show ((s.formsDone j id).disown id).jobOf id = some j from formed, Option.map_some] at recorded
  rw [completeJob_eq found, if_neg running, if_neg (by simp [roomy])]
  exact jobDone_of_jobOf (j := { j with state := 4 }) (jobOf_ageJobs recorded kept) rfl

/-- The record of a job that ends with `status`, before its forms of completion. -/
def Job.ended (status pfail : Nat) (j : Job) : Job := { j with state := 2, code := status, pfail := pfail }

theorem finishJob_eq (s : State) (id : Word) (status pfail : Nat) : s.finishJob id status pfail =
    (((s.farClear (2 ^ 48 + id.toNat)).farClear (2 ^ 49 + id.toNat)).modJob id (Job.ended status pfail)).completeJob id := rfl

/-- An open job is done when it ends (R190). -/
theorem finishJob_done {s : State} {id : Word} (status pfail : Nat) (h : s.openJob id) :
    (s.finishJob id status pfail).jobDone id status := by
  obtain ⟨j, found, -, kept, buf, huddles, arr⟩ := h
  have cleared := ((farDrop_keepsJobs s (2 ^ 48 + id.toNat)).trans (farDrop_keepsJobs _ (2 ^ 49 + id.toNat))).jobOf id
  have ended : (((s.farClear (2 ^ 48 + id.toNat)).farClear (2 ^ 49 + id.toNat)).modJob id (Job.ended status pfail)).jobOf id =
      some (j.ended status pfail) := by
    rw [jobOf_modJob _ id (Job.ended status pfail) fun _ => rfl]
    exact congrArg (Option.map _) (cleared.trans found)
  rw [finishJob_eq]
  exact completeJob_done ended (by simp [Job.ended]) kept buf huddles arr

end Sys2Proof.Machine
end

section
/-! A reduction's arrivals that do not combine, and NRWAIT (R47, R48, R51, R406). -/

namespace Sys2Proof.Machine

/-! ## What a result leaves of the running thread -/

theorem ctxAt_modCore (s : State) (c : Nat) {f : Core → Core} (h : ∀ x, (f x).ctx = x.ctx) (d k : Nat) :
    (s.modCore c f).ctxAt d k = s.ctxAt d k := by
  by_cases same : d = c
  · subst same
    simp only [State.ctxAt, State.modCore, Tab.get_modify_same, h]
  · simp only [State.ctxAt, State.modCore, Tab.get_modify_ne _ _ _ _ same]

theorem ctxAt_dropJob (s : State) (id : Word) (d k : Nat) : (s.dropJob id).ctxAt d k = s.ctxAt d k := by
  unfold State.dropJob
  refine ctxAt_modCore s _ ?_ d k
  exact fun _ => rfl

/-- A thread that only writes a result and goes on, in a state where every context is as in `s`. -/
theorem wentOn_result {s u : State} (core : u.curCore = s.curCore) (ctx : u.curCtx = s.curCtx)
    (ctxs : ∀ d k, u.ctxAt d k = s.ctxAt d k) (a : Nat) (v : Word) : (u.setG a v).onward.wentOn s (s.me.g.set a v) := by
  have me : u.me = s.me := by rw [State.me, State.me, core, ctx, ctxs]
  have me' : (u.setG a v).onward.me = { s.me.setG a v with pc := nextPc (s.me.setG a v).pc (s.me.setG a v).lineN } := by
    rw [State.onward, State.me_modMe, State.me_setG, me]
  refine ⟨?_, ?_, ?_, ?_, core, ctx⟩
  · rw [me']; rfl
  · rw [me']; rfl
  · rw [me']
    exact ⟨rfl, rfl, rfl, rfl, rfl, rfl, rfl, rfl, rfl, rfl, rfl, rfl, rfl, rfl, rfl, rfl⟩
  · intro d k other
    rw [← core, ← ctx] at other
    have written : (u.setG a v).ctxAt d k = u.ctxAt d k := State.ctxAt_modCtx_ne u _ _ _ _ _ other
    have advanced : (u.setG a v).onward.ctxAt d k = (u.setG a v).ctxAt d k := State.ctxAt_modCtx_ne (u.setG a v) _ _ _ _ _ other
    rw [advanced, written, ctxs]

/-! ## NRWAIT (R406) -/

section
variable {s : State} {a sa : Nat} (h : s.canRun [sa] [a] = true)
include h

theorem nrwaitAct_of_noJob (none : s.jobHere (s.me.g.get sa) = none) : nrwaitAct a sa s = .ok ((), (s.setG a 2).onward) := by
  unfold nrwaitAct
  rw [Act.bind_ok (prep_ok h), Act.bind_ok (readG_ok (State.canRun_stream h (.inl (by simp)))), Act.get_bind]
  dsimp only
  rw [none]
  exact Act.bind_ok (writeG_ok (State.canRun_stream h (.inr (by simp))))

variable {j : Job} (found : s.jobHere (s.me.g.get sa) = some j)
include found

theorem nrwaitAct_of_otherEngine (low : j.engine < 3) : nrwaitAct a sa s = .ok ((), (s.setG a 3).onward) := by
  unfold nrwaitAct
  rw [Act.bind_ok (prep_ok h), Act.bind_ok (readG_ok (State.canRun_stream h (.inl (by simp)))), Act.get_bind]
  dsimp only
  rw [found]
  dsimp only
  rw [if_pos low]
  exact Act.bind_ok (writeG_ok (State.canRun_stream h (.inr (by simp))))

theorem nrwaitAct_of_openJob (high : ¬ j.engine < 3) (waits : j.state ≠ 4) : nrwaitAct a sa s = .error .stall := by
  unfold nrwaitAct
  rw [Act.bind_ok (prep_ok h), Act.bind_ok (readG_ok (State.canRun_stream h (.inl (by simp)))), Act.get_bind]
  dsimp only
  rw [found]
  dsimp only
  rw [if_neg high, if_pos waits]
  rfl

theorem nrwaitAct_of_doneJob (high : ¬ j.engine < 3) (done : j.state = 4) :
    nrwaitAct a sa s = .ok ((), ((s.dropJob (s.me.g.get sa)).setG a (BitVec.ofNat 64 j.code)).onward) := by
  have plain : (s.dropJob (s.me.g.get sa)).streamOf a = none := by
    have me : (s.dropJob (s.me.g.get sa)).me = s.me := ctxAt_dropJob ..
    rw [State.streamOf, me]
    exact State.canRun_stream h (.inr (by simp))
  unfold nrwaitAct
  rw [Act.bind_ok (prep_ok h), Act.bind_ok (readG_ok (State.canRun_stream h (.inl (by simp)))), Act.get_bind]
  dsimp only
  rw [found]
  dsimp only
  rw [if_neg high, if_neg (not_not.mpr done), readCode]
  exact Act.bind_ok (writeG_ok plain)

end

/-- NRWAIT answers EMPTY, REFUSED, or the code of a completed job of engine 3 or 4, and stays at one that is not completed (R406). -/
theorem nrwait_answers (s : State) (a sa : Nat) (h : s.canRun [sa] [a] = true) :
    let id := s.me.g.get sa
    let gives (v : Word) : Prop := ∃ t, exec (.nrwait a sa) s = .next t ∧ t.wentOn s (s.me.g.set a v) ∧ t.sameMem s
    (s.jobHere id = none → gives 2) ∧
    (∀ j, s.jobHere id = some j → (j.engine < 3 → gives 3) ∧ (3 ≤ j.engine → j.state ≠ 4 → exec (.nrwait a sa) s = .next s) ∧
      (3 ≤ j.engine → j.state = 4 → gives (BitVec.ofNat 64 j.code))) := by
  intro id gives
  refine ⟨fun none => ?_, fun j found => ⟨fun low => ?_, fun high waits => ?_, fun high done => ?_⟩⟩
  · exact ⟨_, runAct_ok (nrwaitAct_of_noJob h none), wentOn_result (u := s) rfl rfl (fun _ _ => rfl) a 2, rfl, rfl, rfl⟩
  · exact ⟨_, runAct_ok (nrwaitAct_of_otherEngine h found low), wentOn_result (u := s) rfl rfl (fun _ _ => rfl) a 3, rfl, rfl, rfl⟩
  · exact runAct_stall (nrwaitAct_of_openJob h found (by omega) waits)
  · refine ⟨_, runAct_ok (nrwaitAct_of_doneJob h found (by omega) done),
      wentOn_result (u := s.dropJob id) (s := s) rfl rfl (ctxAt_dropJob s id) a (BitVec.ofNat 64 j.code), rfl, rfl, rfl⟩

/-! ## A reduction that fails (R51) -/

theorem sendFail_keepsWork (s : State) (r : Reduction) (dev : Nat) : s.KeepsWork (s.sendFail r dev) := by
  unfold State.sendFail
  dsimp only
  split <;> exact fabSend_keepsWork ..

theorem sendFail_keepsJobs (s : State) (r : Reduction) (dev : Nat) : s.KeepsJobs (s.sendFail r dev) := by
  unfold State.sendFail
  dsimp only
  split <;> exact ⟨fun _ => rfl, rfl⟩

/-- The reductions without one of this group and identifier. -/
def State.dropReduction (s : State) (group rid : Nat) : State :=
  { s with net := { s.net with open_ := s.net.open_.filter (fun x => !(x.group == group && x.rid == rid)) } }

theorem dropReduction_find? (s : State) (group rid : Nat) :
    (s.dropReduction group rid).net.open_.find? (fun r => r.group == group && r.rid == rid) = none := by
  rw [State.dropReduction, List.find?_eq_none]
  intro r mem
  exact ne_true_of_eq_false ((Bool.not_eq_true' _).mp (List.mem_filter.mp mem).2)

/-- The words of a failure, to the neighbours in the tree. -/
def State.sendFails (s : State) (r : Reduction) : State :=
  (r.parts.filter (fun d => d != s.dev && !s.fab.lost.contains d)).foldl (fun x d => x.sendFail r d) s

theorem loseReduction_eq (s : State) (r : Reduction) :
    s.loseReduction r = ((s.sendFails r).dropReduction r.group r.rid).finishJob r.job 11 0 := rfl

theorem sendFails_keepsWork (s : State) (r : Reduction) : s.KeepsWork (s.sendFails r) :=
  .foldl (fun x d => sendFail_keepsWork x r d) _ s

theorem sendFails_keepsJobs (s : State) (r : Reduction) : s.KeepsJobs (s.sendFails r) :=
  .foldl (fun x d => sendFail_keepsJobs x r d) _ s

/-- The end of a reduction in MEMBERLOSS drops its record, and changes no memory and nothing of what a context runs (R51). -/
theorem loseReduction_keepsWork (s : State) (r : Reduction) : (s.dropReduction r.group r.rid).KeepsWork (s.loseReduction r) := by
  have sent := sendFails_keepsWork s r
  have dropped : (s.dropReduction r.group r.rid).KeepsWork ((s.sendFails r).dropReduction r.group r.rid) := by
    rw [State.dropReduction, State.dropReduction, sent.net]
    exact sent.withNet _
  rw [loseReduction_eq]
  exact dropped.trans (finishJob_keepsWork ..)

theorem loseReduction_done {s : State} (r : Reduction) (h : s.openJob r.job) : (s.loseReduction r).jobDone r.job 11 := by
  rw [loseReduction_eq]
  exact finishJob_done (s := (s.sendFails r).dropReduction r.group r.rid) 11 0 ((sendFails_keepsJobs s r).openJob h)

/-- The word of a failure for the open reduction ends it, whether it comes as a partial or as a result (R51). -/
theorem redFailed_open {s : State} {m : RedMsg} {r : Reduction} (use : s.redUse m.group m.rid m.sender = m.use)
    (here : s.net.open_.find? (fun r => r.group == m.group && r.rid == m.rid) = some r) : s.redFailed m = s.loseReduction r := by
  rw [State.redFailed, if_neg (by omega), if_neg (by omega), here]

/-- The word of a failure ends the open reduction and its job without a result (R51). -/
theorem reduction_fails (s : State) (m : RedMsg) (r : Reduction) (lost : m.status = 11) (use : s.redUse m.group m.rid m.sender = m.use)
    (here : s.net.open_.find? (fun r => r.group == m.group && r.rid == m.rid) = some r) :
    ∃ t, exec (.redr m) s = .next t ∧ exec (.redc m) s = .next t ∧ t.mem = s.mem ∧ (s.openJob r.job → t.jobDone r.job 11) ∧
      t.net.open_.find? (fun r => r.group == m.group && r.rid == m.rid) = none := by
  have failed := redFailed_open use here
  have group : r.group = m.group ∧ r.rid = m.rid := by simpa using List.find?_some here
  have kept := loseReduction_keepsWork s r
  refine ⟨s.loseReduction r, ?_, ?_, kept.mem, loseReduction_done r, ?_⟩
  · exact congrArg Host.Outcome.next ((if_pos lost).trans failed)
  · exact congrArg Host.Outcome.next ((if_pos lost).trans failed)
  · rw [kept.net, group.1, group.2]
    exact dropReduction_find? ..

/-! ## An arrival for another use of its identifier, or for no reduction (R47, R51) -/

theorem redr_noReduction {s : State} {m : RedMsg} (alive : m.status ≠ 11)
    (none : s.net.open_.find? (fun r => r.group == m.group && r.rid == m.rid) = none) :
    exec (.redr m) s = .next s := by
  refine congrArg Host.Outcome.next ((if_neg alive).trans ?_)
  split
  · rfl
  · rw [none]

section
variable {s : State} {m : RedMsg} (alive : m.status ≠ 11) (other : m.sender ≠ s.dev)
include alive other

theorem redc_early (h : s.redUse m.group m.rid m.sender < m.use) :
    exec (.redc m) s = .next { s with net := { s.net with early := s.net.early ++ [m] } } :=
  congrArg Host.Outcome.next ((if_neg alive).trans ((if_neg other).trans (if_pos h)))

theorem redc_late (h : m.use < s.redUse m.group m.rid m.sender) : exec (.redc m) s = .next s :=
  congrArg Host.Outcome.next ((if_neg alive).trans ((if_neg other).trans ((if_neg (by omega)).trans (if_pos h))))

theorem redr_otherUse (h : m.use ≠ s.redUse m.group m.rid m.sender) : exec (.redr m) s = .next s :=
  congrArg Host.Outcome.next ((if_neg alive).trans (if_pos ⟨other, h⟩))

theorem redc_noReduction (use : m.use = s.redUse m.group m.rid m.sender)
    (none : s.net.open_.find? (fun r => r.group == m.group && r.rid == m.rid) = none) : exec (.redc m) s = .next s := by
  refine congrArg Host.Outcome.next ((if_neg alive).trans ((if_neg other).trans ((if_neg (by omega)).trans ((if_neg (by omega)).trans ?_))))
  rw [none]

end

end Sys2Proof.Machine
end

section
/-! A scratchpad of the device's own cores, through a pointer of sub-space 0 (R127, R192). -/

namespace Sys2Proof.Machine

/-! ## The fields of the pointer -/

theorem spadPtr_toNat {p : Word} {off : Nat} (h : spadPtr p off) : p.toNat = 3 * 2 ^ 52 + off := by
  obtain ⟨rfl, range⟩ := h
  rw [BitVec.toNat_ofNat]
  omega

theorem spadPtr_bits {p : Word} {off : Nat} (h : spadPtr p off) :
    bits p 53 52 = 3 ∧ bits p 51 48 = 0 ∧ bits p 47 18 = 0 ∧ bits p 17 0 = off ∧ bits p 53 0 = 3 * 2 ^ 52 + off ∧
      bits p 5 0 = off % 64 := by
  have range := h.2
  simp only [bits, spadPtr_toNat h]
  omega

theorem spadPtr_ptrAdd {p : Word} {off d : Nat} (h : spadPtr p off) (fits : off + d < 2 ^ 18) : spadPtr (ptrAdd p d) (off + d) := by
  obtain ⟨-, -, -, -, whole, -⟩ := spadPtr_bits h
  refine ⟨?_, fits⟩
  rw [ptrAdd, setBits, whole, spadPtr_toNat h, wrap]
  congr 1
  omega

/-! ## Reads of a scratchpad with which nothing interferes -/

/-- Nothing of thread `k` of the core, of an engine, of an ordered task, or of the error marks stands in the way of an access of the core's
own scratchpad. -/
structure State.OwnPlain (s : State) (core k : Nat) : Prop where
  cur : s.curCore = core
  curCtx : s.curCtx = k
  acquire : s.acquireOut core k = false
  meets : s.meets = []
  owned : s.owned = []
  uline : s.uline = []
  live : s.liveOrd = []
  bad : s.badLines = []

theorem bytesAt_append (s : State) (loc m n : Nat) : s.bytesAt loc m ++ s.bytesAt (loc + m) n = s.bytesAt loc (m + n) := by
  induction m generalizing loc with
  | zero => rw [Nat.zero_add]; rfl
  | succ m ih =>
    have rest := ih (loc + 1)
    rw [Nat.add_assoc, Nat.add_comm 1 m] at rest
    rw [Nat.add_right_comm]
    exact congrArg (memRead s.mem loc :: ·) rest

section
variable {s : State} {core k : Nat} (h : s.OwnPlain core k)
include h

theorem acquireWait_plain : acquireWait s = .ok ((), s) := by
  have out : s.acquireOut s.curCore s.curCtx = false := by rw [h.cur, h.curCtx, h.acquire]
  rw [acquireWait, Act.get_bind, out]
  rfl

theorem resolve_spad {p : Word} {off : Nat} (ptr : spadPtr p off) (a : Access) :
    resolve p a s = .ok (.mem (spadLoc core off) 0, s) := by
  obtain ⟨space, sub, high, low, -, -⟩ := spadPtr_bits ptr
  unfold resolve
  rw [Act.bind_ok (acquireWait_plain h), Act.get_bind, h.meets]
  have found : resolveAt s.curCore s.curPart (s.sregAt s.curCore s.curCtx) p a s = .ok (.ok (.mem (spadLoc core off) 0), s) := by
    unfold resolveAt
    rw [Act.get_bind]
    simp only [space, sub, high, low, h.cur]
    rfl
  exact Act.bind_ok found

theorem enterLine_plain {off n : Nat} (range : off < 2 ^ 18) (write : Bool) : enterLine core k (spadLoc core off) n write s = .ok ((), s) := by
  have peer : s.peerOut core k (spadLoc core off) n = false := by
    have own : (2 ^ 40 + core * 2 ^ 18 + off - 2 ^ 40) / 2 ^ 18 = core := by omega
    have near : s.peerLoc (spadLoc core off) = false := by rw [State.peerLoc, spadLoc, h.cur, own, bne_self_eq_false, Bool.and_false]
    rw [State.peerOut, near, Bool.false_and]
  have wait : s.ownerWait core k (spadLoc core off) n = false := by simp [State.ownerWait, State.ownedRange, h.owned]
  have recalled : s.recallRange (spadLoc core off) n = s := by simp [State.recallRange, h.uline]
  have spec : specAccess core k (spadLoc core off) n write s = .ok ((), s) := by simp [specAccess, h.live]
  have high : ¬ spadLoc core off < 2 ^ 39 := by unfold spadLoc; omega
  have away : s.homeCounts core k (spadLoc core off) = false := by simp only [State.homeCounts, high, decide_false, Bool.false_and]
  unfold enterLine
  rw [Act.get_bind]
  simp only [h.acquire, peer, wait, Bool.or_self, Bool.and_false, Bool.false_eq_true, if_false]
  rw [Act.modify_bind, recalled, Act.bind_ok spec, Act.modify_apply, away]
  rfl

/-- A read of the core's own scratchpad gives its bytes and changes nothing. -/
theorem readLoc_plain {off n : Nat} (range : off < 2 ^ 18) (log : s.inLog (spadLoc core off) n = false) (p : Word) :
    readLoc core k (spadLoc core off) n p s = .ok (s.bytesAt (spadLoc core off) n, s) := by
  have good : s.badRange (spadLoc core off) n = false := by simp [State.badRange, h.bad]
  unfold readLoc
  rw [Act.bind_ok (enterLine_plain h range false), Act.get_bind]
  simp only [good, log, Bool.false_eq_true, if_false]
  rfl

theorem readPtr_spad {p : Word} {off : Nat} (ptr : spadPtr p off) {n : Nat} (log : s.inLog (spadLoc core off) n = false) :
    readPtr p n s = .ok (s.bytesAt (spadLoc core off) n, s) := by
  unfold readPtr
  rw [Act.get_bind, Act.bind_ok (resolve_spad h ptr .read), h.cur, h.curCtx]
  exact readLoc_plain h ptr.2 log p

/-- A read of an engine, cut at lines of 64 bytes. -/
theorem readChunks_spad (log : ∀ loc n, s.inLog loc n = false) {fuel : Nat} {p : Word} {off n : Nat} (ptr : spadPtr p off)
    (fits : off + n ≤ 2 ^ 18) (fuelled : n + off % 64 ≤ 64 * fuel) :
    ∃ xs, (chunksOf fuel p n).mapM (fun c => readPtr c.1 c.2) s = .ok (xs, s) ∧ xs.flatten = s.bytesAt (spadLoc core off) n := by
  induction fuel generalizing p off n with
  | zero =>
    obtain rfl : n = 0 := by omega
    exact ⟨[], rfl, rfl⟩
  | succ fuel ih =>
    obtain ⟨-, -, -, -, -, inLine⟩ := spadPtr_bits ptr
    rw [chunksOf, inLine]
    split
    next none =>
      subst none
      exact ⟨[], rfl, rfl⟩
    next some =>
      let m := min n (64 - off % 64)
      have rest : ∃ ys, (chunksOf fuel (ptrAdd p m) (n - m)).mapM (fun c => readPtr c.1 c.2) s = .ok (ys, s) ∧
          ys.flatten = s.bytesAt (spadLoc core (off + m)) (n - m) := by
        by_cases last : n - m = 0
        · rw [last]
          cases fuel <;> exact ⟨[], rfl, rfl⟩
        · exact ih (spadPtr_ptrAdd ptr (by omega)) (by omega) (by omega)
      obtain ⟨ys, read, bytes⟩ := rest
      refine ⟨s.bytesAt (spadLoc core off) m :: ys, ?_, ?_⟩
      · rw [List.mapM_cons, Act.bind_ok (readPtr_spad h ptr (log _ _)), Act.bind_ok read]
        rfl
      · rw [List.flatten_cons, bytes, show spadLoc core (off + m) = spadLoc core off + m from (Nat.add_assoc ..).symm, bytesAt_append,
          show m + (n - m) = n by omega]

theorem readBytes_spad (log : ∀ loc n, s.inLog loc n = false) {p : Word} {off n : Nat} (ptr : spadPtr p off) (fits : off + n ≤ 2 ^ 18) :
    readBytes p n s = .ok (s.bytesAt (spadLoc core off) n, s) := by
  obtain ⟨xs, read, bytes⟩ := readChunks_spad h log (fuel := n / 64 + 2) ptr fits (by omega)
  unfold readBytes chunks
  rw [Act.bind_ok read, bytes]
  rfl

/-- A write of the core's own scratchpad, with no table of ordinary accesses to note. -/
theorem writeLoc_plain {off : Nat} (range : off < 2 ^ 18) (bs : List Byte) :
    writeLoc core k (spadLoc core off) bs s = .ok ((), s.putBytes (spadLoc core off) bs) := by
  have high : ¬ spadLoc core off < 2 ^ 39 := by unfold spadLoc; omega
  have noted : s.noteTable core k (spadLoc core off) bs.length = s := if_neg fun both => high both.2
  unfold writeLoc
  rw [Act.bind_ok (enterLine_plain h range true), Act.modify_apply, noted]

/-- A write of one line by an engine. -/
theorem writePtr_engine (engine : 8 ≤ k) {p : Word} {off : Nat} (ptr : spadPtr p off) {bs : List Byte} (line : bs.length ≤ 64 - off % 64) :
    writePtr p bs s = .ok ((), s.putBytes (spadLoc core off) bs) := by
  obtain ⟨-, -, -, -, -, inLine⟩ := spadPtr_bits ptr
  have cut : [({ ptr := p, bytes := bs } : Piece)].flatMap (fun x => cutPiece (x.bytes.length / 64 + 2) x) = [{ ptr := p, bytes := bs }] := by
    simp only [List.flatMap_singleton, cutPiece, inLine, if_pos line]
  have target : targets [{ ptr := p, bytes := bs }] s = .ok ([({ ptr := p, bytes := bs }, .mem (spadLoc core off) 0)], s) := by
    unfold targets
    rw [Act.bind_ok (resolve_spad h ptr .write)]
    rfl
  unfold writePtr writePieces
  rw [cut, Act.bind_ok target, Act.get_bind, if_pos (h.curCtx ▸ engine)]
  refine (Act.bind_ok (s' := s.putBytes (spadLoc core off) bs) (a := ()) ?_).trans rfl
  unfold enginePiece
  rw [Act.get_bind]
  dsimp only
  unfold overLoc
  dsimp only [List.isEmpty_nil, Bool.not_true]
  rw [if_neg (by decide), Act.get_bind, h.cur, h.curCtx]
  exact writeLoc_plain h ptr.2 bs

end

/-! ## A state in which nothing is under way -/

theorem State.still.ordOf {s : State} (h : s.still) (core k : Nat) : s.ordOf core k = none := by
  unfold State.ordOf
  split
  · split
    · simp [h.2.2.2.2.2.2]
    · rfl
  · rfl

/-- The engine of a job, in a state in which nothing is under way. -/
theorem State.still.engine {s : State} (h : s.still) (core sreg : Nat) (job : Word) :
    (s.asEngine core sreg job).OwnPlain core (8 + sreg) := by
  obtain ⟨owned, uline, bad, meets, out, -, ord⟩ := id h
  refine ⟨rfl, rfl, ?_, meets, owned, uline, ?_, bad⟩
  · have none : (s.asEngine core sreg job).ordOf core (8 + sreg) = none := h.ordOf core (8 + sreg)
    have noneOut : (s.asEngine core sreg job).outOf core (8 + sreg) = [] := by
      rw [State.outOf, show (s.asEngine core sreg job).fab.out = [] from out, List.filter_nil]
    rw [State.acquireOut, State.heldOf, none, noneOut]
    rfl
  · exact State.liveOrd_of_quiet (s := s.asEngine core sreg job) ⟨owned, uline, bad, ord⟩

end Sys2Proof.Machine
end

section
/-! A reduction's partial and its result (R47, R48, R405). -/

namespace Sys2Proof.Machine

/-! ## What a stream that held nothing holds after a send (R38, R42) -/

/-- Sealing changes no flit's body (R36). -/
theorem sealGroup_body {key : List Byte} {epoch : BitVec 32} {g : List Flit} {x : Flit} (h : x ∈ sealGroup key epoch g) :
    ∃ y ∈ g, x.body = y.body := by
  cases g with
  | nil => cases h
  | cons f g =>
    obtain ⟨p, mem, rfl⟩ := List.mem_map.mp h
    exact ⟨p.2, (List.of_mem_zip mem).2, rfl⟩

/-- The flit that joins an empty stream is held there with its body. -/
theorem TxStream.put_body (s : State) {st : TxStream} (empty : st.held = []) (f : Flit) :
    ∃ e ∈ (st.put s f).held, e.1.body = f.body := by
  unfold TxStream.put
  dsimp only
  rw [empty, List.nil_append]
  generalize hg : (if s.flitMode { f with seq := st.next, grp := st.next.toNat % 4 } == 2 then
      { f with seq := st.next, grp := st.next.toNat % 4 }
    else { f with seq := st.next, grp := st.next.toNat % 4, tag := s.tagFor { f with seq := st.next, grp := st.next.toNat % 4 } } : Flit) = g
  have body : g.body = f.body := by
    rw [← hg]
    split <;> rfl
  split
  · refine ⟨_, List.mem_map_of_mem (List.mem_singleton_self _), ?_⟩
    split
    · cases found : (sealGroup _ _ _).find? _ with
      | none => exact body
      | some x =>
        obtain ⟨y, mem, same⟩ := sealGroup_body (List.mem_of_find?_eq_some found)
        obtain ⟨e, kept, rfl⟩ := List.mem_map.mp mem
        obtain rfl := List.mem_singleton.mp (List.mem_filter.mp kept).1
        exact same.trans body
    · exact body
  · exact ⟨_, List.mem_singleton_self _, body⟩

/-- What a device sends in one flit on an empty stream is held there. -/
theorem fabSend_holds (s : State) {dst vc : Nat} (empty : (s.fab.tx.get (streamNo dst vc)).held = []) (type part xid aux : Nat) {body : FlitBody}
    {n : Nat} (one : bodyLens body = [n]) :
    ∃ e ∈ ((s.fabSend dst vc type part xid aux body).fab.tx.get (streamNo dst vc)).held, e.1.body = body := by
  have sent (f : Flit) : flitsWith f (bodyLens body) = [{ f with len := n, first := true, last := true, payload := payloadOf f.body 0 }] := by
    rw [one]
    rfl
  simp only [State.fabSend, Tab.get_modify_same, sent, List.foldl_cons, List.foldl_nil]
  exact TxStream.put_body s empty _

/-! ## An action of an engine (R192) -/

theorem inEngine_ok {α : Type} {s x : State} {core sreg : Nat} {job : Word} {m : Act α} {a : α}
    (h : m (s.asEngine core sreg job) = .ok (a, x)) :
    s.inEngine core sreg job m = (some a, { x with curCore := s.curCore, curCtx := s.curCtx, curJob := s.curJob }) := by
  unfold State.inEngine
  rw [h]

theorem catchFault_ok {α : Type} {m : Act α} {s x : State} {a : α} (h : m s = .ok (a, x)) : catchFault m s = .ok (.ok a, x) := by
  unfold catchFault
  rw [h]

theorem State.still.engine_still {s : State} (h : s.still) (core sreg : Nat) (job : Word) : (s.asEngine core sreg job).still := h

/-- An engine reads its core's scratchpad, in a state in which nothing is under way. -/
theorem inEngine_readBytes {s : State} (h : s.still) (core sreg : Nat) (job : Word) {p : Word} {off n : Nat} (ptr : spadPtr p off)
    (fits : off + n ≤ 2 ^ 18) :
    s.inEngine core sreg job (catchFault (readBytes p n)) = (some (.ok (s.bytesAt (spadLoc core off) n)), s) := by
  have log : ∀ loc n, (s.asEngine core sreg job).inLog loc n = false := State.inLog_of_quiet (h.engine_still core sreg job).quiet
  exact inEngine_ok (x := s.asEngine core sreg job) (catchFault_ok (readBytes_spad (h.engine core sreg job) log ptr fits))

/-- An engine writes one line of its core's scratchpad. -/
theorem inEngine_writeBytes {s : State} (h : s.still) (core sreg : Nat) (job : Word) {p : Word} {off : Nat} {bs : List Byte}
    (ptr : spadPtr p off) (filled : bs ≠ []) (line : bs.length ≤ 64 - off % 64) :
    s.inEngine core sreg job (writeBytes p bs) = (some none, s.putBytes (spadLoc core off) bs) := by
  obtain ⟨-, -, -, -, -, inLine⟩ := spadPtr_bits ptr
  have count : bs.length ≠ 0 := by rwa [Ne, List.length_eq_zero_iff]
  have one : chunks p bs.length = [(p, bs.length)] := by
    rw [chunks, chunksOf, if_neg count, inLine, Nat.min_eq_left line]
    dsimp only
    rw [Nat.sub_self, chunksOf, if_pos rfl]
  have written := writePtr_engine (h.engine core sreg job) (by omega) ptr (bs := bs) line
  refine inEngine_ok (x := (s.asEngine core sreg job).putBytes (spadLoc core off) bs) ?_
  rw [writeBytes, one, writeChunks, List.take_length]
  exact Act.bind_ok (catchFault_ok written)

/-! ## A partial that completes its node (R47) -/

/-- The reduction's record with its partials. -/
def Reduction.heard (r : Reduction) (m : RedMsg) : Reduction := { r with partials := r.partials ++ [m] }

/-- The open reductions, with one record replaced. -/
def State.setReduction (s : State) (r : Reduction) : State :=
  { s with net := { s.net with open_ := s.net.open_.map (fun q => if q.group = r.group ∧ q.rid = r.rid then r else q) } }

theorem redc_here {s : State} {m : RedMsg} {r : Reduction} (alive : m.status ≠ 11) (other : m.sender ≠ s.dev)
    (use : m.use = s.redUse m.group m.rid m.sender)
    (here : s.net.open_.find? (fun r => r.group == m.group && r.rid == m.rid) = some r) :
    exec (.redc m) s = .next ((s.setReduction (r.heard m)).redTry (r.heard m)) := by
  refine congrArg Host.Outcome.next ((if_neg alive).trans ((if_neg other).trans ((if_neg (by omega)).trans ((if_neg (by omega)).trans ?_))))
  rw [here]
  rfl

theorem redOfBytes_word {bs : List Byte} (len : bs.length = 8) : redOfBytes 6 1 bs = [BitVec.ofNat 64 (natOfBytes bs)] := by
  have all : fieldAt bs 0 8 = natOfBytes bs := by rw [fieldAt, List.drop_zero, List.take_of_length_le (by omega)]
  exact congrArg (fun n => [BitVec.ofNat 64 n]) all

/-- A good partial of one word, of operation 6. -/
def Reduction.wordPartial (r : Reduction) (dev : Nat) (v : Word) : RedMsg :=
  { group := r.group, rid := r.rid, sender := dev, op := 6, n := 1, status := 0, elems := [v] }

theorem wordPartial_lens (r : Reduction) (dev use : Nat) (v : Word) : bodyLens (.red { r.wordPartial dev v with use := use }) = [8] := by
  simp [bodyLens, Reduction.wordPartial, redBytes]

/-- MAX64U of a node's own word and of its one child's (R48). -/
theorem combine_word {r : Reduction} {m : RedMsg} {bs : List Byte} (dev : Nat) (op : r.op = 6) (mop : m.op = 6) (n : r.n = 1) (mn : m.n = 1)
    (good : m.status = 0) (one : m.elems.length = 1) (len : bs.length = 8) :
    r.combine (.ok bs) [m] dev = r.wordPartial dev
      (if (BitVec.ofNat 64 (natOfBytes bs)).ult (m.elems.headD 0) then m.elems.headD 0 else BitVec.ofNat 64 (natOfBytes bs)) := by
  obtain ⟨e, elems⟩ := List.length_eq_one_iff.mp one
  simp only [Reduction.combine, List.foldl_cons, List.foldl_nil, op, mop, n, mn, good, elems, redOfBytes_word len, ne_eq, not_true,
    if_false, or_self, List.headD_cons]
  rfl

/-- The last missing partial of a node that is not the root sends the combined one to the parent (R47). -/
theorem redTry_sends {s : State} (h : s.still) {r : Reduction} {m : RedMsg} {d so : Nat} (declared : r.c ≠ 0) (open_ : r.sent = false)
    (kids : childrenOf r.parts r.index = [m.sender]) (partials : r.partials = [m]) (parent : parentOf r.parts r.index = [d])
    (op : r.op = 6) (mop : m.op = 6) (n : r.n = 1) (mn : m.n = 1) (good : m.status = 0) (one : m.elems.length = 1)
    (ptr : spadPtr r.src so) (fits : so + 8 ≤ 2 ^ 18) (empty : (s.fab.tx.get (streamNo d 4)).held = []) :
    let own := BitVec.ofNat 64 (natOfBytes (s.bytesAt (spadLoc r.core so) 8))
    (s.redTry r).mem = s.mem ∧ ∃ f ∈ ((s.redTry r).fab.tx.get (streamNo d 4)).held, ∃ e, f.1.body = .red e ∧ e.status = 0 ∧
      e.sender = s.dev ∧ e.elems = [if own.ult (m.elems.headD 0) then m.elems.headD 0 else own] := by
  intro own
  have found : r.partials.find? (fun x => x.sender == m.sender) = some m := by
    rw [partials]
    exact List.find?_cons_of_pos (beq_self_eq_true _)
  have bytes : redBytes r.op r.n = 8 := by rw [op, n]; rfl
  have read := inEngine_readBytes h r.core (s.jobSreg r.job) r.job ptr fits
  have combined := combine_word (r := r) (m := m) s.dev op mop n mn good one (length_memBytes s.mem (spadLoc r.core so) 8)
  have sends : s.redTry r = (s.setReduction { r with sent := true }).fabSend d 4 10 r.part 0 r.rid
      (.red { r.wordPartial s.dev (if own.ult (m.elems.headD 0) then m.elems.headD 0 else own) with
        use := (s.setReduction { r with sent := true }).redUse r.group r.rid d }) := by
    unfold State.redTry
    rw [if_neg declared, kids, List.map_singleton, found, open_, bytes, read, parent]
    exact congrArg (fun c : RedMsg => (s.setReduction { r with sent := true }).fabSend d 4 10 r.part 0 r.rid
      (.red { c with use := (s.setReduction { r with sent := true }).redUse r.group r.rid d })) combined
  rw [sends]
  obtain ⟨f, held, body⟩ := fabSend_holds (s.setReduction { r with sent := true }) (dst := d) (vc := 4) empty 10 r.part 0 r.rid
    (wordPartial_lens ..)
  exact ⟨rfl, f, held, _, body, rfl, rfl, rfl⟩

/-! ## The root's result (R48, R405) -/

/-- The end of a reduction whose result stands in its destination, at a node with no children. -/
theorem redFinish_word {s : State} (h : s.still) {r : Reduction} {m : RedMsg} {off : Nat} (good : m.status = 0) (op : r.op = 6)
    (one : m.elems.length = 1) (leaf : childrenOf r.parts r.index = []) (ptr : spadPtr r.dst off) (aligned : off % 8 = 0) :
    s.redFinish r m = ((s.putBytes (spadLoc r.core off) (bytesOf (m.elems.headD 0).toNat 8)).dropReduction r.group r.rid).finishJob
      r.job 0 0 := by
  obtain ⟨e, elems⟩ := List.length_eq_one_iff.mp one
  have bytes : redToBytes r.op m.elems = bytesOf e.toNat 8 := by
    rw [op, elems]
    exact List.append_nil _
  have line : (bytesOf e.toNat 8).length ≤ 64 - off % 64 := by
    rw [show (bytesOf e.toNat 8).length = 8 from rfl]
    omega
  have written := inEngine_writeBytes h r.core (s.jobSreg r.job) r.job (bs := bytesOf e.toNat 8) ptr (List.cons_ne_nil _ _) line
  unfold State.redFinish
  rw [if_neg (not_not.mpr good), bytes, written, leaf, elems]
  rfl

/-- The end of a reduction at a node with no children stores the result, ends the job with OK, and closes the reduction (R47). -/
theorem redFinish_stores {s : State} (h : s.still) {r : Reduction} {m : RedMsg} {off : Nat} (good : m.status = 0) (op : r.op = 6)
    (one : m.elems.length = 1) (leaf : childrenOf r.parts r.index = []) (ptr : spadPtr r.dst off) (aligned : off % 8 = 0) :
    (s.redFinish r m).stored s (spadLoc r.core off) (bytesOf (m.elems.headD 0).toNat 8) ∧
      (s.openJob r.job → (s.redFinish r m).jobDone r.job 0) ∧
      (s.redFinish r m).net.open_.find? (fun x => x.group == r.group && x.rid == r.rid) = none := by
  let w := s.putBytes (spadLoc r.core off) (bytesOf (m.elems.headD 0).toNat 8)
  have kept := finishJob_keepsWork (w.dropReduction r.group r.rid) r.job 0 0
  rw [redFinish_word h good op one leaf ptr aligned]
  refine ⟨State.stored_of_mem kept.mem, fun job => ?_, ?_⟩
  · have same : s.KeepsJobs (w.dropReduction r.group r.rid) := ⟨fun _ => rfl, rfl⟩
    exact finishJob_done 0 0 (same.openJob job)
  · rw [kept.net]
    exact dropReduction_find? ..

theorem redr_here {s : State} {m : RedMsg} {r : Reduction} (alive : m.status ≠ 11) (use : m.use = s.redUse m.group m.rid m.sender)
    (here : s.net.open_.find? (fun r => r.group == m.group && r.rid == m.rid) = some r) : exec (.redr m) s = .next (s.redFinish r m) := by
  refine congrArg Host.Outcome.next ((if_neg alive).trans ((if_neg (by simp [use])).trans ?_))
  rw [here]

end Sys2Proof.Machine
end

section
/-! Multicast: the members' answers and a copy at a member (R46, R129, R407). -/

namespace Sys2Proof.Machine

/-! ## The members' answers (R46) -/

/-- The multicast jobs without one. -/
def State.dropMcast (s : State) (job : Word) : State :=
  { s with net := { s.net with mcasts := s.net.mcasts.filter (fun x => x.job != job) } }

theorem dropMcast_find? (s : State) (job : Word) : (s.dropMcast job).net.mcasts.find? (fun x => x.job == job) = none := by
  rw [State.dropMcast, List.find?_eq_none]
  intro m mem
  simpa using (List.mem_filter.mp mem).2

/-- The end of a multicast job completes it with its status and leaves memory alone. -/
theorem endMcast_ends (s : State) (m : McastJob) (status : Nat) :
    (s.endMcast m status).mem = s.mem ∧ (s.openJob m.job → (s.endMcast m status).jobDone m.job status) ∧
      (s.endMcast m status).net.mcasts.find? (fun x => x.job == m.job) = none := by
  have kept := finishJob_keepsWork (s.dropMcast m.job) m.job status 0
  refine ⟨kept.mem, fun job => ?_, ?_⟩
  · have same : s.KeepsJobs (s.dropMcast m.job) := ⟨fun _ => rfl, rfl⟩
    exact finishJob_done status 0 (same.openJob job)
  · exact (congrArg (fun n : NetEngine => n.mcasts.find? (fun x => x.job == m.job)) kept.net).trans (dropMcast_find? ..)

/-- A job of which every member has answered ends with OK, or with MEMBERLOSS and no mask. -/
theorem mcastCheck_ends {s : State} {m : McastJob} (started : m.started = true) (answered : m.waiting = [])
    (masked : m.failed = [] ∨ m.maskp = 0) : s.mcastCheck m = s.endMcast m (if m.failed = [] then 0 else 11) := by
  unfold State.mcastCheck
  rw [if_neg (by simp [started, answered])]
  by_cases good : m.failed = []
  · rw [if_pos (by simp [good]), if_pos good]
    rfl
  · rw [if_neg (by simpa using good), if_pos (masked.resolve_left good), if_neg good]
    rfl

/-- The record of a multicast job when the last member has answered. -/
def McastJob.answered (m : McastJob) (member : Nat) (st : Word) : McastJob :=
  { m with waiting := [], failed := if st = 0 then [] else [member] }

/-- The last answer ends the job (R46). -/
theorem mcastStatus_last {s : State} {job st : Word} {member : Nat} {m : McastJob}
    (here : s.net.mcasts.find? (fun x => x.job == job) = some m) (started : m.started = true) (other : member ≠ s.dev)
    (last : m.waiting = [member]) (good : m.failed = []) (masked : st = 0 ∨ m.maskp = 0) :
    exec (.mcastStatus job member st) s =
      .next ((s.setMcast (m.answered member st)).endMcast (m.answered member st) (if st = 0 then 0 else 11)) := by
  have failed : (m.answered member st).failed = [] ↔ st = 0 := by
    simp [McastJob.answered]
  have ends := mcastCheck_ends (s := s.setMcast (m.answered member st)) (m := m.answered member st) started rfl
    (masked.imp_left failed.mpr)
  simp only [failed] at ends
  rw [← ends]
  refine congrArg Host.Outcome.next ?_
  dsimp only
  rw [here]
  dsimp only
  rw [if_neg other, if_neg (by simp [last])]
  simp [last, good, McastJob.answered]

/-! ## A copy at a member (R46, R129, R407) -/

section
variable {s : State} {c : McastCopy} (sub : bits c.dst 53 52 ≠ 0)
include sub

theorem mcastLoc_outside (out : 2 ^ 18 ≤ bits c.dst 47 0) :
    mcastLoc c 0 s = .ok (.error { cause := 4, addr := ofN (bits c.dst 53 0), info := 0 }, s) := by
  unfold mcastLoc
  rw [if_neg sub]
  simp only [Nat.add_zero]
  rw [if_pos out]
  rfl

theorem mcastLoc_inside (core : c.tcore < 1920) (here : s.swappedCore c.tcore = none) (part : s.partOfCore c.tcore = some c.part)
    (fits : bits c.dst 47 0 < 2 ^ 18) : mcastLoc c 0 s = .ok (.ok (spadLoc c.tcore (bits c.dst 47 0)), s) := by
  unfold mcastLoc
  rw [if_neg sub]
  simp only [Nat.add_zero]
  rw [if_neg (by omega)]
  generalize bits c.dst 47 0 = o at fits ⊢
  have value : (ofN (2 ^ 52 + c.tcore * 2 ^ 28 + o)).toNat = 2 ^ 52 + c.tcore * 2 ^ 28 + o := by
    rw [ofN, BitVec.toNat_ofNat]
    omega
  have space : bits (ofN (2 ^ 52 + c.tcore * 2 ^ 28 + o)) 53 52 = 1 := by
    rw [bits, value]
    omega
  have named : bits (ofN (2 ^ 52 + c.tcore * 2 ^ 28 + o)) 39 28 = c.tcore := by
    rw [bits, value]
    omega
  have off : bits (ofN (2 ^ 52 + c.tcore * 2 ^ 28 + o)) 27 0 = o := by
    rw [bits, value]
    omega
  unfold remoteLoc
  rw [Act.get_bind]
  simp only [space, named, off]
  rw [if_neg (by omega), if_neg (by simp [part]), State.spadOf, here]
  rfl

end

/-- A copy with no arrival handler, at a member in whose partition the group is. -/
theorem mcastCopyAct_writes {s t : State} {c : McastCopy} {r : Option Poison} (part : (s.net.groups.get c.group).part = some c.part)
    (noHandler : c.ahpc = 0) (eight : c.bytes.length = 8) (written : mcastWrite c 2 0 s = .ok (r, t)) :
    mcastCopyAct c s = .ok (r.elim 0 (fun q => st63 q.cause), t) := by
  unfold mcastCopyAct
  rw [Act.get_bind, if_neg (by simp [part]), if_pos noHandler, eight, Act.bind_ok written]
  cases r <;> rfl

/-- The answer to a copy goes to its sender in one flit (R46). -/
theorem mcastCopy_answers {s t : State} {c : McastCopy} {st : Word} (copied : mcastCopyAct c s = .ok (st, t)) (dev : t.dev = s.dev)
    (empty : (t.fab.tx.get (streamNo c.srcDev 4)).held = []) :
    ∃ u, exec (.mcastCopy c) s = .next u ∧ u.mem = t.mem ∧
      ∃ f ∈ (u.fab.tx.get (streamNo c.srcDev 4)).held, f.1.body = .mcastStatus c.job s.dev st := by
  have run : (do let st ← mcastCopyAct c
                 modify (fun x => x.fabSend c.srcDev 4 12 c.part 0 (2 ^ 22) (.mcastStatus c.job x.dev st)) : Act Unit) s =
      .ok ((), t.fabSend c.srcDev 4 12 c.part 0 (2 ^ 22) (.mcastStatus c.job t.dev st)) := Act.bind_ok copied
  refine ⟨t.fabSend c.srcDev 4 12 c.part 0 (2 ^ 22) (.mcastStatus c.job t.dev st), congrArg Host.Outcome.next ?_, rfl, ?_⟩
  · unfold State.runEvKept
    dsimp only
    rw [run]
  · rw [dev]
    exact fabSend_holds t empty 12 c.part 0 (2 ^ 22) (n := 8) rfl

theorem mcastWrite_outside {s : State} {c : McastCopy} (sub : bits c.dst 53 52 ≠ 0) (eight : c.bytes.length = 8)
    (out : 2 ^ 18 ≤ bits c.dst 47 0) :
    mcastWrite c 2 0 s = .ok (some { cause := 4, addr := ofN (bits c.dst 53 0), info := 0 }, s) := by
  unfold mcastWrite
  dsimp only
  rw [if_neg (by omega), Act.bind_ok (mcastLoc_outside sub out)]
  rfl

/-- Eight bytes at a multiple of 8 are within one line. -/
theorem mcastWrite_inside {s : State} (h : s.Quiet) {c : McastCopy} (sub : bits c.dst 53 52 ≠ 0) (core : c.tcore < 1920)
    (here : s.swappedCore c.tcore = none) (part : s.partOfCore c.tcore = some c.part) (eight : c.bytes.length = 8)
    (aligned : bits c.dst 47 0 % 8 = 0) (fits : bits c.dst 47 0 < 2 ^ 18) :
    mcastWrite c 2 0 s = .ok (none, s.putBytes (spadLoc c.tcore (bits c.dst 47 0)) c.bytes) := by
  have line : min (c.bytes.length - 0) (64 - (bits c.dst 27 0 + 0) % 64) = 8 := by
    simp only [bits] at aligned ⊢
    omega
  have rest (u : State) : mcastWrite c 1 (0 + 8) u = .ok (none, u) := by
    unfold mcastWrite
    dsimp only
    rw [if_pos (by omega)]
    rfl
  unfold mcastWrite
  dsimp only
  rw [if_neg (by omega), Act.bind_ok (mcastLoc_inside sub core here part fits), line]
  dsimp only
  rw [Act.bind_ok (remoteEnter_of_quiet h ..), Act.modify_bind, rest, List.drop_zero, List.take_of_length_le (by omega)]

end Sys2Proof.Machine
end

section
/-! Migrating threads (R122, R123, R364). -/

namespace Sys2Proof.Machine

/-! ## The request and the reply (R122, R123) -/

theorem migReply_here {s : State} {m : Migration} (here : m.srcDev = s.dev) (ok : Bool) :
    s.migReply m ok = s.push (.migrationReply m ok) := if_pos here

/-- A core with a free context, on a live partition and no reserved cluster, reserves its lowest-numbered one and accepts. -/
theorem migrationRequest_accepted {s : State} {m : Migration} {k : Nat} {rest : List Nat} (here : m.srcDev = s.dev)
    (free : s.freeTaskCtx m.dstCore = k :: rest) (part : s.partOfCore m.dstCore = some m.part)
    (runs : (s.part.get m.part).state = 2 ∨ (s.part.get m.part).state = 3) (unreserved : s.reservedCl (clusterOf m.dstCore) = false) :
    exec (.migrationRequest m) s = .next ((s.modCtx m.dstCore k (fun c => { c with phase := .moving })).push
      (.migrationReply { m with dstDev := s.dev, dstCtx := k } true)) := by
  have fits : (s.partOfCore m.dstCore == some m.part && [2, 3].contains (s.part.get m.part).state &&
      !s.reservedCl (clusterOf m.dstCore)) = true := by
    simp [part, unreserved, runs]
  refine congrArg Host.Outcome.next ?_
  dsimp only
  rw [free]
  dsimp only
  rw [if_pos fits]
  exact if_pos here

theorem migrationRequest_refused {s : State} {m : Migration} (here : m.srcDev = s.dev) (none : s.freeTaskCtx m.dstCore = []) :
    exec (.migrationRequest m) s = .next (s.push (.migrationReply m false)) := by
  refine congrArg Host.Outcome.next ?_
  dsimp only
  rw [none]
  exact migReply_here here false

theorem migrationReply_refused {s : State} {m : Migration} (moving : (s.ctxAt m.srcCore m.srcCtx).phase = .moving) :
    exec (.migrationReply m false) s =
      .next (s.modCtx m.srcCore m.srcCtx (fun c => { c with phase := .running, stay := true, moveDev := none })) :=
  congrArg Host.Outcome.next (if_neg (not_not.mpr moving))

theorem migrationReply_accepted {s : State} {m : Migration} (moving : (s.ctxAt m.srcCore m.srcCtx).phase = .moving)
    (target : m.dstDev = s.dev) :
    exec (.migrationReply m true) s =
      .next (s.push (.migrationImage { m with image := s.migImage m.srcCore m.srcCtx m.access })) :=
  congrArg Host.Outcome.next ((if_neg (not_not.mpr moving)).trans (if_pos target))

/-! ## The image at the target (R123, R364) -/

/-- The context that the image of a migration gives, before MIGR's destination is written. -/
def Ctx.restored (c : Ctx) (m : Migration) : Ctx :=
  let b := c.ofImage m.image
  { b with ident := { b.ident with vtime := m.vtime } }

/-- The context that the image of a migration gives. -/
def Ctx.migrated (c : Ctx) (m : Migration) : Ctx := if m.access then c.restored m else (c.restored m).setG m.statusReg 0

/-- The task that a thread of this device keeps, with its new place. -/
def State.movedTask (s : State) (m : Migration) : Nat × State :=
  match (s.ctxAt m.srcCore m.srcCtx).work with
  | .task id =>
    (id, s.modTask id (fun t =>
      { t with threads := [(m.dstCore, m.dstCtx)],
               clockEnd := t.clockEnd.map (fun e => s.coreAc m.dstCore + (e - s.coreAc m.srcCore)) }))
  | _ => s.fresh

/-- The holds and the noted words of the thread, under its new place. -/
def State.moveNotes (s2 s : State) (m : Migration) : State :=
  let src := s.ctxAt m.srcCore m.srcCtx
  { s2 with
    holds := s2.holds.map (fun h =>
      if m.srcDev = s.dev ∧ h.core = m.srcCore ∧ h.ctx = m.srcCtx ∧ h.serial = src.serial then
        { h with core := m.dstCore, ctx := m.dstCtx, serial := (s2.ctxAt m.dstCore m.dstCtx).serial }
      else h),
    stale := s2.stale.map (fun x =>
      if m.srcDev = s.dev ∧ x.core = m.srcCore ∧ x.serial = src.serial then
        { x with core := m.dstCore, serial := (s2.ctxAt m.dstCore m.dstCtx).serial }
      else x) }

theorem migrationImage_eq {s : State} {m : Migration} (here : m.srcDev = s.dev)
    (moving : (s.ctxAt m.dstCore m.dstCtx).phase = .moving) (clean : imageClean m.image = true) :
    exec (.migrationImage m) s =
      .next ((((s.movedTask m).2.startCtx m.dstCore m.dstCtx (.task (s.movedTask m).1) 0 (fun c => c.migrated m)).moveNotes s m).push
        (.migrationImageAck m)) := by
  refine congrArg Host.Outcome.next ((if_neg (not_not.mpr moving)).trans ((if_neg (by simp [clean])).trans ?_))
  rw [if_pos here]
  dsimp only
  rw [if_pos here]
  rfl

theorem movedTask_agenda (s : State) (m : Migration) : (s.movedTask m).2.agenda = s.agenda := by
  unfold State.movedTask State.modTask State.fresh
  split
  · dsimp only
    split <;> rfl
  · rfl

theorem get_foldl_set {α : Type} (v : Nat → α) (g : Tab α) (n j : Nat) (h : j < n) :
    ((List.range n).foldl (fun t r => t.set r (v r)) g).get j = v j := by
  induction n with
  | zero => omega
  | succ n ih =>
    rw [List.range_succ, List.foldl_append, List.foldl_cons, List.foldl_nil]
    by_cases last : j = n
    · subst last
      exact Tab.get_set_same ..
    · rw [Tab.get_set_ne _ _ _ _ last, ih (by omega)]

theorem Ctx.restored_image (c : Ctx) (m : Migration) :
    (c.restored m).phase = c.phase ∧ (c.restored m).pc = wordAt m.image 128 ∧ (c.restored m).ident.vtime = m.vtime ∧
      ∀ r, r < 16 → (c.restored m).g.get r = wordAt m.image (8 * r) := by
  simp only [Ctx.restored, Ctx.ofImage, Ctx.setCsw, true_and]
  intro r h
  rw [get_foldl_set (fun r => wordAt m.image (8 * r)) _ _ _ h]

/-- What the thread resumes with: the registers and the PC of the image, its virtual time, and OK in MIGR's destination. -/
theorem Ctx.migrated_resumes (m : Migration) (c : Ctx) (running : c.phase = .running) :
    (c.migrated m).phase = .running ∧ (c.migrated m).pc = wordAt m.image 128 ∧
      (∀ r, r < 16 → (m.access = true ∨ r ≠ m.statusReg) → (c.migrated m).g.get r = wordAt m.image (8 * r)) ∧
      (m.access = false → (c.migrated m).g.get m.statusReg = 0) ∧ (c.migrated m).ident.vtime = m.vtime := by
  obtain ⟨phase, pc, vtime, image⟩ := c.restored_image m
  unfold Ctx.migrated
  generalize c.restored m = d at phase pc vtime image ⊢
  cases access : m.access
  · rw [if_neg (by decide)]
    refine ⟨phase.trans running, pc, fun r h other => ?_, fun _ => Tab.get_set_same .., vtime⟩
    exact (Tab.get_set_ne _ _ _ _ (other.resolve_left (by simp))).trans (image r h)
  · rw [if_pos rfl]
    exact ⟨phase.trans running, pc, fun r h _ => image r h, fun off => absurd off (by simp), vtime⟩

/-- The thread resumes at the target (R123). -/
theorem migrationImage_resumes {s : State} {m : Migration} (here : m.srcDev = s.dev)
    (moving : (s.ctxAt m.dstCore m.dstCtx).phase = .moving) (clean : imageClean m.image = true) :
    ∃ t, exec (.migrationImage m) s = .next t ∧ (∃ c : Ctx, c.phase = .running ∧ t.ctxAt m.dstCore m.dstCtx = c.migrated m) ∧
      t.agenda = s.agenda ++ [.migrationImageAck m] := by
  refine ⟨_, migrationImage_eq here moving clean, ⟨_, ?_, State.ctxAt_modCtx_same _ m.dstCore m.dstCtx _⟩, ?_⟩
  · rfl
  · exact congrArg (· ++ [_]) (movedTask_agenda s m)

/-! ## The source's context (R123) -/

theorem migrationImageAck_eq {s : State} {m : Migration} (moving : (s.ctxAt m.srcCore m.srcCtx).phase = .moving)
    (target : m.dstDev = s.dev) :
    exec (.migrationImageAck m) s = .next ((s.freeHolds m.srcCore m.srcCtx).freeCtx m.srcCore m.srcCtx) := by
  refine congrArg Host.Outcome.next ((if_neg (not_not.mpr moving)).trans ?_)
  refine congrArg (fun x : State => (x.freeHolds m.srcCore m.srcCtx).freeCtx m.srcCore m.srcCtx) ?_
  split
  · split
    · exact if_pos target
    · rfl
  · rfl

theorem freeHolds_mem (s : State) (core k : Nat) : (s.freeHolds core k).mem = s.mem := by
  unfold State.freeHolds
  split <;> rfl

theorem freeCtx_frees (s : State) (core k : Nat) : ((s.freeCtx core k).ctxAt core k).phase = .idle ∧ (s.freeCtx core k).mem = s.mem := by
  have window : (s.freeWindow core k).mem = s.mem := by
    unfold State.freeWindow
    dsimp only
    split <;> rfl
  have ports (x : State) : (x.closePorts core k).mem = x.mem := by
    unfold State.closePorts
    dsimp only
    split <;> rfl
  have faults (x : State) : (x.dropFaults core k).mem = x.mem := by
    unfold State.dropFaults
    dsimp only
    split <;> rfl
  refine ⟨?_, by rw [State.freeCtx, State.modCtx_mem, faults, (farDrop_keepsWork _ _).mem, ports, window]⟩
  rw [State.freeCtx, State.ctxAt_modCtx_same]
  rfl

end Sys2Proof.Machine
end

section
/-! The block of NRED and NMCAST, the job that they issue, and what they write (R351, R391, R405, R407). -/

namespace Sys2Proof.Machine

/-! ## The block (R380) -/

theorem acquireOut_of_noOrd {s : State} {core k : Nat} (ord : s.ordOf core k = none)
    (acq : (s.outOf core k).any (fun o => o.acq) = false) : s.acquireOut core k = false := by
  rw [State.acquireOut, acq, State.heldOf, ord]
  rfl

theorem State.calm.ownPlain {s : State} (h : s.calm) : s.OwnPlain s.curCore s.curCtx := by
  obtain ⟨-, -, owned, live, uline, bad, meets, -, ord, acq⟩ := h
  exact ⟨rfl, rfl, acquireOut_of_noOrd ord acq, meets, owned, uline, live.1, bad⟩

theorem inLog_of_notInUse {s : State} {off n : Nat} (range : off < 2 ^ 18) (free : 0x3C000 < off + n → s.logInUse s.curPart = false) :
    s.inLog (spadLoc s.curCore off) n = false := by
  have core : (spadLoc s.curCore off - 2 ^ 40) / 2 ^ 18 = s.curCore := by unfold spadLoc; omega
  have low : (spadLoc s.curCore off - 2 ^ 40) % 2 ^ 18 = off := by unfold spadLoc; omega
  unfold State.inLog
  rw [core, low]
  by_cases high : 0x3C000 < off + n
  · have unused := free high
    unfold State.curPart at unused
    cases part : s.partOfCore s.curCore with
    | none => exact Bool.and_false _
    | some p =>
      rw [part, Option.getD_some] at unused
      dsimp only
      rw [unused, Bool.and_false]
  · rw [decide_eq_false high, Bool.and_false, Bool.false_and]

/-- A block in the scratchpad is read whole. -/
theorem readBlock_ok {s : State} {p : Word} {align n off : Nat} (h : s.blockAt p align n off) :
    readBlock p align n s = .ok (s.block off n, s) := by
  obtain ⟨ptr, aligned, fits, free, calm⟩ := h
  obtain ⟨space, sub, -, low, -, -⟩ := spadPtr_bits ptr
  have log : (decide (0x3C000 < off + n) && s.logInUse s.curPart) = false := by
    by_cases high : 0x3C000 < off + n
    · rw [free high, Bool.and_false]
    · rw [decide_eq_false high, Bool.false_and]
  unfold readBlock
  rw [Act.get_bind, calm.1]
  dsimp only
  rw [low, if_neg (not_not.mpr aligned), space, sub, if_neg (by omega), log]
  exact readLoc_plain calm.ownPlain ptr.2 (inLog_of_notInUse ptr.2 free) p

theorem holding_ok {s : State} (ord : s.ordOf s.curCore s.curCtx = none) (i : Instr) (dsts : List Nat) (blk : Option (List Byte))
    (m : Act Unit) : holding i dsts blk m s = m s := by
  unfold holding
  rw [ord]

theorem fieldIll_ok {bad : Bool} (h : bad = false) (off : Nat) (s : State) : fieldIll off bad s = .ok ((), s) := by
  rw [fieldIll, h]
  rfl

section
variable {cpl : Word} (small : cpl.toNat < 2)
include small

theorem cplCheck_ok (off : Nat) (s : State) : cplCheck cpl off false s = .ok ((), s) := by
  have high : bits cpl 63 17 = 0 := by unfold bits; omega
  have arrival : bit cpl 16 = false := by
    have : cpl.toNat / 2 ^ 16 = 0 := by omega
    rw [bit, this]
    rfl
  exact fieldIll_ok (by rw [high, arrival]; rfl) off s

theorem cplBuffer_none (s : State) : cplBuffer cpl s = .ok (none, s) := by
  have publish : cplPublish cpl = false := by
    have : cpl.toNat / 2 ^ 1 = 0 := by omega
    rw [cplPublish, bit, this]
    rfl
  rw [cplBuffer, publish]
  rfl

theorem jobHuddles_nil (s : State) : s.jobHuddles cpl = [] := by
  have huddle : bit cpl 2 = false := by
    have : cpl.toNat / 2 ^ 2 = 0 := by omega
    rw [bit, this]
    rfl
  unfold State.jobHuddles
  split
  · rw [cplHuddles, huddle]
    exact ite_self _
  · rfl

end

theorem noRegister_ok {p : Word} (h : isRegister p = false) (s : State) : noRegister p s = .ok ((), s) := by
  rw [noRegister, h]
  rfl

/-! ## The job (R188, R391) -/

/-- The identifier of the next job of the running core. -/
def State.nextJob (s : State) (engine : Nat) : Word :=
  ofN ((s.coreAt s.curCore).jobSeq % 65536 + engine * 2 ^ 16 + s.curCore * 2 ^ 19 + s.dev * 2 ^ 30)

/-- The record of a job with no form of completion but its latch, its interrupt and its record. -/
def State.plainJob (s : State) (engine : Nat) (cpl hpc tag : Word) (fmts : List (Nat × Nat)) : Job :=
  { id := s.nextJob engine, ctx := s.curCtx, serial := s.me.serial, engine := engine, state := 1, pfail := 0, code := 0, pos := 0,
    cpl := cpl, hpc := hpc, tag := tag, buf := none, huddles := [], later := 0, sreg := s.sregAt s.curCore s.curCtx,
    fmts := fmts, arr := none, after := distinct (s.owned.map (fun p => p.2)), wrote := [], task := s.me.ident.taskId }

/-- The state in which a job has been issued. -/
def State.withJob (s : State) (j : Job) : State :=
  (s.modCore s.curCore (fun c => { c with jobs := c.jobs ++ [j], jobSeq := c.jobSeq + 1 })).modMe
    (fun c => { c with msgr := { c.msgr with jobLast := j.id } })

theorem issueJob_ok {s : State} (ord : s.ordOf s.curCore s.curCtx = none) (out : s.outOf s.curCore s.curCtx = [])
    (room : (s.coreAt s.curCore).jobs.length < 32) {cpl : Word} (small : cpl.toNat < 2) (engine : Nat) (hpc tag : Word)
    (fmts : List (Nat × Nat)) :
    issueJob engine cpl hpc tag none fmts none s = .ok (s.nextJob engine, s.withJob (s.plainJob engine cpl hpc tag fmts)) := by
  have released : releaseWait 2 s = .ok ((), s) := by
    have held : heldWait s = .ok ((), s) := by
      rw [heldWait, Act.get_bind, State.heldOf, ord]
      rfl
    unfold releaseWait
    rw [Act.get_bind, out]
    exact held
  have roomy : jobRoom s = .ok ((), s) := by
    have some := List.length_filter_le (fun j : Job => j.state != 4) (s.coreAt s.curCore).jobs
    unfold jobRoom
    rw [Act.get_bind, if_neg (by omega)]
    rfl
  unfold issueJob
  rw [Act.bind_ok released, Act.bind_ok roomy, Act.get_bind, jobHuddles_nil small]
  rfl

/-- Of the running thread, the job's issue changes the register that names the job (R391). -/
theorem withJob_me (s : State) (j : Job) :
    (s.withJob j).me = { s.me with msgr := { s.me.msgr with jobLast := j.id } } := by
  have kept : (s.modCore s.curCore (fun c => { c with jobs := c.jobs ++ [j], jobSeq := c.jobSeq + 1 })).me = s.me :=
    State.me_modCore s _ fun _ => rfl
  rw [State.withJob, State.me_modMe, kept]

theorem withJob_jobs (s : State) (j : Job) : ((s.withJob j).coreAt s.curCore).jobs = (s.coreAt s.curCore).jobs ++ [j] := by
  simp only [State.withJob, State.modMe, State.modCtx, State.coreAt, State.modCore, Tab.get_modify_same]

/-- A fresh job is open (R391). -/
theorem withJob_openJob {s : State} (fresh : s.freshJob) {engine : Nat} (known : engine < 8) (cpl hpc tag : Word)
    (fmts : List (Nat × Nat)) : (s.withJob (s.plainJob engine cpl hpc tag fmts)).openJob (s.nextJob engine) := by
  obtain ⟨core, dev, other⟩ := fresh
  have value : (s.nextJob engine).toNat =
      (s.coreAt s.curCore).jobSeq % 65536 + engine * 2 ^ 16 + s.curCore * 2 ^ 19 + s.dev * 2 ^ 30 := by
    rw [State.nextJob, ofN, BitVec.toNat_ofNat]
    omega
  have high : bits (s.nextJob engine) 63 42 = 0 := by rw [bits, value]; omega
  have device : bits (s.nextJob engine) 41 30 = s.dev := by rw [bits, value]; omega
  have owner : jobCore (s.nextJob engine) = s.curCore := by rw [jobCore, bits, value]; omega
  have low : bits (s.nextJob engine) 15 0 = (s.coreAt s.curCore).jobSeq % 65536 := by rw [bits, value]; omega
  refine ⟨s.plainJob engine cpl hpc tag fmts, ?_, show 1 < 4 by decide, show 0 < 32 by decide, rfl, rfl, rfl⟩
  have here : (s.withJob (s.plainJob engine cpl hpc tag fmts)).dev = s.dev := rfl
  have own : (s.plainJob engine cpl hpc tag fmts).id = s.nextJob engine := rfl
  unfold State.jobOf
  rw [here, owner, if_neg (by omega), withJob_jobs, List.find?_append, List.find?_eq_none.mpr]
  · rw [Option.none_or, List.find?_cons_of_pos (by rw [own, beq_self_eq_true])]
  · intro j mem
    have distinct := other j mem
    rintro same
    exact distinct ((eq_of_beq same) ▸ low)

/-! ## What the running thread goes on with -/

/-- The running thread of `t` is that of `s`, up to what an issued job sets, and memory is that of `s`. -/
structure State.SameThread (s t : State) : Prop where
  g : t.me.g = s.me.g
  pc : t.me.pc = s.me.pc
  lineN : t.me.lineN = s.me.lineN
  streams : t.me.streams = s.me.streams
  mem : t.sameMem s

theorem State.SameThread.trans {s t u : State} (h : s.SameThread t) (w : t.SameThread u) : s.SameThread u := by
  obtain ⟨mem, bad, uline⟩ := h.mem
  obtain ⟨mem', bad', uline'⟩ := w.mem
  exact ⟨w.g.trans h.g, w.pc.trans h.pc, w.lineN.trans h.lineN, w.streams.trans h.streams,
    mem'.trans mem, bad'.trans bad, uline'.trans uline⟩

theorem State.KeepsWork.sameThread {s t : State} (h : s.KeepsWork t) : s.SameThread t :=
  ⟨h.me.g, h.me.pc, h.me.lineN, h.me.streams, h.sameMem⟩

theorem withJob_sameThread (s : State) (j : Job) : s.SameThread (s.withJob j) := by
  refine ⟨?_, ?_, ?_, ?_, rfl, rfl, rfl⟩ <;> rw [withJob_me]

/-- The last step of an instruction that answers and goes on. -/
theorem State.SameThread.answers {s t : State} (h : s.SameThread t) {a : Nat} (plain : s.streamOf a = none) (v : Word) :
    (do writeG a v; advance : Act Unit) t = .ok ((), (t.setG a v).onward) := by
  have plain' : t.streamOf a = none := by rw [State.streamOf, h.streams]; exact plain
  exact Act.bind_ok (writeG_ok plain')

theorem State.SameThread.passed {s t : State} (h : s.SameThread t) (a : Nat) (v : Word) :
    ((t.setG a v).onward).passed s (s.me.g.set a v) := by
  obtain ⟨mem, bad, uline⟩ := h.mem
  have me : (t.setG a v).onward.me = { t.me.setG a v with pc := nextPc (t.me.setG a v).pc (t.me.setG a v).lineN } := by
    rw [State.onward, State.me_modMe, State.me_setG]
  refine ⟨?_, ?_, mem, bad, uline⟩
  · rw [me]
    exact congrArg (fun g => g.set a v) h.g
  · rw [me]
    exact congrArg₂ nextPc h.pc h.lineN

theorem answered_msgr (t : State) (a : Nat) (v : Word) : (t.setG a v).onward.me.msgr = t.me.msgr := by
  rw [State.onward, State.me_modMe, State.me_setG]
  rfl

theorem answered_keepsJobs (t : State) (a : Nat) (v : Word) : t.KeepsJobs (t.setG a v).onward :=
  .trans (t := t.setG a v) (modCore_keepsJobs t t.curCore fun _ => rfl) (modCore_keepsJobs (t.setG a v) t.curCore fun _ => rfl)

end Sys2Proof.Machine
end

section
/-! NRED (R48, R51, R351, R405). -/

namespace Sys2Proof.Machine

/-! ## The lines of a destination in the scratchpad (R193) -/

theorem mapM_nil {α β : Type} {f : α → Act (List β)} {s : State} {l : List α} (h : ∀ x ∈ l, f x s = .ok ([], s)) :
    l.mapM f s = .ok (l.map (fun _ => []), s) := by
  induction l with
  | nil => rfl
  | cons x xs ih =>
    rw [List.mapM_cons, Act.bind_ok (h x List.mem_cons_self), Act.bind_ok (ih fun y mem => h y (List.mem_cons_of_mem _ mem))]
    rfl

/-- No line of a scratchpad is noted: an engine's lines are of device memory. -/
theorem linesAt_spad {s : State} {core k : Nat} (h : s.OwnPlain core k) {p : Word} {off n : Nat} (ptr : spadPtr p off)
    (fits : off + n ≤ 2 ^ 18) : linesAt p n s = .ok ([], s) := by
  obtain ⟨-, -, -, -, whole, -⟩ := spadPtr_bits ptr
  have line (j : Nat) (mem : j ∈ lineNumbers p n) : spadPtr (ofN (j * 64)) (j * 64 - 3 * 2 ^ 52) := by
    have range := ptr.2
    rw [lineNumbers, whole] at mem
    split at mem
    · cases mem
    · obtain ⟨i, within, rfl⟩ := List.mem_map.mp mem
      have := List.mem_range.mp within
      exact ⟨congrArg ofN (by omega), by omega⟩
  have high (off : Nat) : ¬ spadLoc core off < 2 ^ 39 := by unfold spadLoc; omega
  have mapped : lineMap p n s = .ok ([], s) := by
    unfold lineMap
    rw [Act.bind_ok (mapM_nil fun j mem => ?_), List.flatten_eq_nil_iff.mpr]
    · rfl
    · simp
    · rw [Act.bind_ok (catchFault_ok (resolve_spad h (line j mem) .write))]
      dsimp only
      rw [if_neg (high _)]
      rfl
  rw [linesAt, Act.bind_ok mapped]
  rfl

/-! ## The instruction after the checks of its block's form (R405) -/

/-- The reduction that NRED opens for job `id`. -/
def State.newReduction (s : State) (k : NredBlock) (parts : List Nat) (id : Word) : Reduction :=
  { group := k.grp, rid := k.rid, part := s.curPart, job := id, core := s.curCore, dst := k.dst, op := k.op, n := k.n,
    c := k.c, index := parts.findIdx (fun d => d == s.dev), parts := parts, src := k.src,
    partials := s.net.early.filter (s.earlyFor k), sent := false }

/-- The participants of a reduction: those of the word of its failure, where one came first (R47, R51). -/
def State.redParts (s : State) (k : NredBlock) : List Nat :=
  match s.redHeard k with
  | some m => m.parts
  | none => (s.liveMembers k.grp).take k.c

/-- The reduction engine with a new reduction, where `s` is the state in which NRED was issued. -/
def State.withReduction (x s : State) (k : NredBlock) (id : Word) (ls : List Nat) : State :=
  let y := (x.own id ls).redOpened k.grp k.rid ((s.redParts k).filter (fun d => d != s.dev))
  { y with net := { y.net with
    open_ := y.net.open_ ++ [s.newReduction k (s.redParts k) id], early := y.net.early.filter (fun m => !s.earlyFor k m),
    failed := y.net.failed.filter (fun f => !(f.group == k.grp && f.rid == k.rid && decide (f.use ≤ y.redUse k.grp k.rid f.sender))) } }

/-- The reduction engine's first step with it. -/
def State.firstLook (z s : State) (k : NredBlock) (id : Word) : State :=
  if (s.redHeard k).isSome then z.loseReduction (s.newReduction k (s.redParts k) id) else z.kickRed k.grp k.rid

/-- NRED from its checks of registers on, where `s` is the state in which it is issued. -/
def nredChecked (a : Nat) (k : NredBlock) (s : State) : Act Unit := do
  noRegister k.src
  noRegister k.dst
  let cb ← cplBuffer k.cpl
  if s.nredStatus k ≠ stOK then writeG a (ofN (s.nredStatus k))
  else
    let ls ← linesAt k.dst (redBytes k.op k.n)
    let id ← issueJob 3 k.cpl k.hpc 0 cb [] none
    modify (fun x => (x.withReduction s k id ls).firstLook s k id)
    writeG a (ofN stOK)
  advance

/-- The form of NRED's block: its reserved fields are zero, and its completion publishes nothing (R405). -/
structure State.NredForm (s : State) (a sa off : Nat) : Prop where
  run : s.canRun [sa] [a] = true
  block : s.blockAt (s.me.g.get sa) 64 64 off
  grp : fieldAt (s.block off 64) 16 2 < 64
  rid : fieldAt (s.block off 64) 18 4 % 2 ^ 32 < 2 ^ 23
  op : fieldAt (s.block off 64) 22 1 < 16
  pad : fieldAt (s.block off 64) 23 1 = 0
  cpl : (wordAt (s.block off 64) 32).toNat < 2
  rest : fieldAt (s.block off 64) 48 16 = 0

section
variable {s : State} {a sa off : Nat} (h : s.NredForm a sa off)
include h

theorem nredAct_checked : nredAct a sa s = nredChecked a (nredBlock (s.block off 64)) s s := by
  have ord : s.ordOf s.curCore s.curCtx = none := by
    obtain ⟨-, -, -, -, -, -, -, -, ord, -⟩ := h.block.2.2.2.2
    exact ord
  have grp : (fieldAt (s.block off 64) 16 2 / 64 != 0) = false := by simp [Nat.div_eq_of_lt h.grp]
  have rid : (fieldAt (s.block off 64) 18 4 / 2 ^ 23 % 2 ^ 9 != 0) = false := by
    have := h.rid
    simp
    omega
  have op : (fieldAt (s.block off 64) 22 1 / 16 != 0) = false := by simp [Nat.div_eq_of_lt h.op]
  have pad : (fieldAt (s.block off 64) 23 1 != 0) = false := by simp [h.pad]
  have rest : (fieldAt (s.block off 64) 48 16 != 0) = false := by simp [h.rest]
  unfold nredAct
  rw [Act.bind_ok (prep_ok h.run), Act.bind_ok (readG_ok (State.canRun_stream h.run (.inl (by simp)))), Act.bind_ok (readBlock_ok h.block),
    holding_ok ord, Act.bind_ok (fieldIll_ok grp 16 s), Act.bind_ok (fieldIll_ok rid 18 s), Act.bind_ok (fieldIll_ok op 22 s),
    Act.bind_ok (fieldIll_ok pad 23 s), Act.bind_ok (cplCheck_ok h.cpl 32 s), Act.bind_ok (fieldIll_ok rest 48 s), Act.get_bind]
  rfl

end

/-! ## The registers and the refusals (R351, R405) -/

section
variable {s : State} {a : Nat} {k : NredBlock}

theorem nredChecked_srcRegister (src : isRegister k.src = true) : nredChecked a k s s = trapNow cALIGN k.src 0 s :=
  Act.bind_error (noRegister_traps src s)

theorem nredChecked_dstRegister (src : isRegister k.src = false) (dst : isRegister k.dst = true) :
    nredChecked a k s s = trapNow cALIGN k.dst 0 s := by
  unfold nredChecked
  rw [Act.bind_ok (noRegister_ok src s)]
  exact Act.bind_error (noRegister_traps dst s)

variable (src : isRegister k.src = false) (dst : isRegister k.dst = false) (cpl : k.cpl.toNat < 2) (plain : s.streamOf a = none)
include src dst cpl plain

theorem nredChecked_refused (refused : s.nredStatus k ≠ stOK) :
    nredChecked a k s s = .ok ((), (s.setG a (BitVec.ofNat 64 (s.nredStatus k))).onward) := by
  unfold nredChecked
  rw [Act.bind_ok (noRegister_ok src s), Act.bind_ok (noRegister_ok dst s), Act.bind_ok (cplBuffer_none cpl s)]
  dsimp only
  rw [if_pos refused]
  exact Act.bind_ok (writeG_ok plain)

end

/-! ## The reduction that is opened (R47, R51, R405) -/

theorem redOpened_frame (s : State) (group rid : Nat) (parts : List Nat) :
    ∃ uses, s.redOpened group rid parts = { s with net := { s.net with uses := uses } } := by
  unfold State.redOpened
  induction parts generalizing s with
  | nil => exact ⟨s.net.uses, rfl⟩
  | cons d parts ih =>
    obtain ⟨uses, rest⟩ := ih { s with net := { s.net with
      uses := s.net.uses.filter (fun u => u.1 != (group, rid, d)) ++ [((group, rid, d), s.redUse group rid d + 1)] } }
    exact ⟨uses, rest⟩

theorem withReduction_frame (x s : State) (k : NredBlock) (id : Word) (ls : List Nat) :
    ∃ net owned, x.withReduction s k id ls = { x with net := net, owned := owned } ∧
      net.open_ = x.net.open_ ++ [s.newReduction k (s.redParts k) id] := by
  obtain ⟨uses, opened⟩ := redOpened_frame (x.own id ls) k.grp k.rid ((s.redParts k).filter (fun d => d != s.dev))
  unfold State.withReduction
  rw [opened]
  exact ⟨_, _, rfl, rfl⟩

theorem withReduction_sameThread (x s : State) (k : NredBlock) (id : Word) (ls : List Nat) : x.SameThread (x.withReduction s k id ls) := by
  obtain ⟨net, owned, frame, -⟩ := withReduction_frame x s k id ls
  rw [frame]
  exact ⟨rfl, rfl, rfl, rfl, rfl, rfl, rfl⟩

theorem withReduction_msgr (x s : State) (k : NredBlock) (id : Word) (ls : List Nat) :
    (x.withReduction s k id ls).me.msgr = x.me.msgr := by
  obtain ⟨net, owned, frame, -⟩ := withReduction_frame x s k id ls
  rw [frame]
  rfl

theorem withReduction_keepsJobs (x s : State) (k : NredBlock) (id : Word) (ls : List Nat) : x.KeepsJobs (x.withReduction s k id ls) := by
  obtain ⟨net, owned, frame, -⟩ := withReduction_frame x s k id ls
  rw [frame]
  exact ⟨fun _ => rfl, rfl⟩

/-- The state in which NRED's job is issued and its reduction is open. -/
def State.nredIssued (s : State) (k : NredBlock) : State :=
  (s.withJob (s.plainJob 3 k.cpl k.hpc 0 [])).withReduction s k (s.nextJob 3) []

theorem nredIssued_sameThread (s : State) (k : NredBlock) : s.SameThread (s.nredIssued k) :=
  (withJob_sameThread s _).trans (withReduction_sameThread ..)

theorem nredIssued_jobLast (s : State) (k : NredBlock) : (s.nredIssued k).me.msgr.jobLast = s.nextJob 3 := by
  rw [State.nredIssued, withReduction_msgr, withJob_me]
  rfl

theorem nredIssued_open (s : State) (k : NredBlock) :
    (s.nredIssued k).net.open_ = s.net.open_ ++ [s.newReduction k (s.redParts k) (s.nextJob 3)] := by
  obtain ⟨net, owned, frame, opened⟩ := withReduction_frame (s.withJob (s.plainJob 3 k.cpl k.hpc 0 [])) s k (s.nextJob 3) []
  rw [State.nredIssued, frame]
  exact opened

theorem nredIssued_openJob {s : State} (fresh : s.freshJob) (k : NredBlock) : (s.nredIssued k).openJob (s.nextJob 3) :=
  (withReduction_keepsJobs ..).openJob (withJob_openJob fresh (by decide) ..)

/-- The first look at a reduction leaves the running thread alone: it puts a step in flight, or ends the reduction. -/
theorem firstLook_sameThread (z s : State) (k : NredBlock) (id : Word) :
    z.SameThread (z.firstLook s k id) ∧ (z.firstLook s k id).me.msgr = z.me.msgr := by
  unfold State.firstLook
  split
  · let r := s.newReduction k (s.redParts k) id
    have dropped : z.SameThread (z.dropReduction r.group r.rid) := ⟨rfl, rfl, rfl, rfl, rfl, rfl, rfl⟩
    have lost := loseReduction_keepsWork z r
    exact ⟨dropped.trans lost.sameThread, lost.me.msgr⟩
  · exact ⟨⟨rfl, rfl, rfl, rfl, rfl, rfl, rfl⟩, rfl⟩

/-- NRED with status OK issues its job and opens its reduction. -/
theorem nredChecked_opens {s : State} {a : Nat} {k : NredBlock} (src : isRegister k.src = false) (dst : isRegister k.dst = false)
    (cpl : k.cpl.toNat < 2) (plain : s.streamOf a = none) (own : s.OwnPlain s.curCore s.curCtx)
    (ord : s.ordOf s.curCore s.curCtx = none) (out : s.outOf s.curCore s.curCtx = []) (room : (s.coreAt s.curCore).jobs.length < 32)
    (ok : s.nredStatus k = stOK) {d : Nat} (ptr : spadPtr k.dst d) (fits : d + redBytes k.op k.n ≤ 2 ^ 18) :
    nredChecked a k s s = .ok ((), (((s.nredIssued k).firstLook s k (s.nextJob 3)).setG a 0).onward) := by
  have same := (nredIssued_sameThread s k).trans (firstLook_sameThread (s.nredIssued k) s k (s.nextJob 3)).1
  unfold nredChecked
  rw [Act.bind_ok (noRegister_ok src s), Act.bind_ok (noRegister_ok dst s), Act.bind_ok (cplBuffer_none cpl s)]
  dsimp only
  rw [if_neg (not_not.mpr ok), Act.bind_ok (linesAt_spad own ptr fits), Act.bind_ok (issueJob_ok ord out room cpl 3 k.hpc 0 []), Act.modify_bind]
  exact same.answers plain 0

/-! ## What NRED leaves (R47, R51) -/

/-- The state after NRED with status OK. -/
def State.nredDone (s : State) (a : Nat) (k : NredBlock) : State := (((s.nredIssued k).firstLook s k (s.nextJob 3)).setG a 0).onward

theorem nredDone_passed (s : State) (a : Nat) (k : NredBlock) : (s.nredDone a k).passed s (s.me.g.set a 0) :=
  ((nredIssued_sameThread s k).trans (firstLook_sameThread (s.nredIssued k) s k (s.nextJob 3)).1).passed a 0

theorem nredDone_jobLast (s : State) (a : Nat) (k : NredBlock) : (s.nredDone a k).me.msgr.jobLast = s.nextJob 3 := by
  rw [State.nredDone, answered_msgr, (firstLook_sameThread (s.nredIssued k) s k (s.nextJob 3)).2, nredIssued_jobLast]

/-- Where the word of a failure came first, the job ends in MEMBERLOSS at once (R51). -/
theorem nredDone_lost {s : State} {k : NredBlock} {m : RedMsg} (heard : s.redHeard k = some m) (a : Nat) (fresh : s.freshJob) :
    (s.nredDone a k).jobDone (s.nextJob 3) 11 := by
  have lost : (s.nredIssued k).firstLook s k (s.nextJob 3) = (s.nredIssued k).loseReduction (s.newReduction k (s.redParts k) (s.nextJob 3)) :=
    if_pos (by rw [heard]; rfl)
  have done := loseReduction_done (s.newReduction k (s.redParts k) (s.nextJob 3)) (nredIssued_openJob fresh k)
  rw [State.jobDone, State.nredDone, lost, (answered_keepsJobs _ a 0).jobOf]
  exact done

theorem nredDone_open {s : State} {k : NredBlock} (heard : s.redHeard k = none) (a : Nat) :
    (s.nredDone a k).net.open_ = s.net.open_ ++ [s.newReduction k ((s.liveMembers k.grp).take k.c) (s.nextJob 3)] := by
  have looked : (s.nredIssued k).firstLook s k (s.nextJob 3) = (s.nredIssued k).kickRed k.grp k.rid :=
    if_neg (by rw [heard]; decide)
  have parts : s.redParts k = (s.liveMembers k.grp).take k.c := by rw [State.redParts, heard]
  rw [← parts, ← nredIssued_open, State.nredDone, looked]
  rfl

end Sys2Proof.Machine
end

section
/-! NMCAST (R46, R351, R407). -/

namespace Sys2Proof.Machine

theorem fieldFormat_ok {s : State} {core : Nat} {p : Word} (h : bits p 57 54 ≠ 1 ∧ bits p 57 54 ≠ 2 ∧
    ((s.coreAt core).elem (bits p 63 58)).isSome = true) (off : Nat) : ∃ e, fieldFormat core p off s = .ok (e, s) := by
  obtain ⟨first, second, known⟩ := h
  obtain ⟨e, elem⟩ := Option.isSome_iff_exists.mp known
  refine ⟨e, ?_⟩
  unfold fieldFormat
  rw [Act.get_bind, if_neg (by simp [first, second]), elem]
  rfl

/-- The formats that the job of a multicast keeps. -/
def State.mcastFormats (s : State) (b : List Byte) : List (Nat × Nat) :=
  (s.curCore, bits (wordAt b 0) 63 58) :: (s.curCore, bits (wordAt b 8) 63 58) ::
    (if wordAt b 56 = 0 then [] else [(s.curCore, bits (wordAt b 56) 63 58)])

/-- The multicast that NMCAST starts with job `id`. -/
def State.newMcast (s : State) (b : List Byte) (id : Word) : McastJob :=
  { job := id, core := s.curCore, part := s.curPart, group := fieldAt b 16 2 % 64, src := wordAt b 0, dst := wordAt b 8,
    len := fieldAt b 20 4, tcore := fieldAt b 18 2 % 2 ^ 11, tag := wordAt b 24, ahpc := wordAt b 48,
    maskp := wordAt b 56, started := false, waiting := [], failed := [] }

/-- The multicast unit with a new job, and the step that makes it look. -/
def State.withMcast (x s : State) (b : List Byte) (id : Word) : State :=
  ({ x with net := { x.net with mcasts := x.net.mcasts ++ [s.newMcast b id] } } : State).kickMcast id

/-- NMCAST from its checks of registers on, where `s` is the state in which it is issued. -/
def nmcastChecked (a : Nat) (b : List Byte) (s : State) : Act Unit := do
  noRegister (wordAt b 0)
  noRegister (wordAt b 8)
  noRegister (wordAt b 56)
  let cb ← cplBuffer (wordAt b 32)
  if s.nmcastStatus b ≠ stOK then writeG a (ofN stREFUSED)
  else
    let id ← issueJob 4 (wordAt b 32) (wordAt b 40) 0 cb (s.mcastFormats b) none
    modify (fun x => x.withMcast s b id)
    writeG a (ofN stOK)
  advance

/-- The form of NMCAST's block: its reserved fields are zero, its completion publishes nothing, and its pointers have formats (R407). -/
structure State.NmcastForm (s : State) (a sa off : Nat) : Prop where
  run : s.canRun [sa] [a] = true
  block : s.blockAt (s.me.g.get sa) 64 64 off
  grp : fieldAt (s.block off 64) 16 2 < 64
  core : fieldAt (s.block off 64) 18 2 < 2 ^ 11
  cpl : (wordAt (s.block off 64) 32).toNat < 2
  formats : ∀ k ∈ [0, 8, 56], bits (wordAt (s.block off 64) k) 57 54 ≠ 1 ∧ bits (wordAt (s.block off 64) k) 57 54 ≠ 2 ∧
    ((s.coreAt s.curCore).elem (bits (wordAt (s.block off 64) k) 63 58)).isSome = true

theorem nmcastAct_checked {s : State} {a sa off : Nat} (h : s.NmcastForm a sa off) :
    nmcastAct a sa s = nmcastChecked a (s.block off 64) s s := by
  have ord : s.ordOf s.curCore s.curCtx = none := by
    obtain ⟨-, -, -, -, -, -, -, -, ord, -⟩ := h.block.2.2.2.2
    exact ord
  have grp : (fieldAt (s.block off 64) 16 2 / 64 != 0) = false := by simp [Nat.div_eq_of_lt h.grp]
  have core : (fieldAt (s.block off 64) 18 2 / 2 ^ 11 != 0) = false := by simpa using h.core
  obtain ⟨e0, src⟩ := fieldFormat_ok (h.formats 0 (by simp)) 0
  obtain ⟨e1, dst⟩ := fieldFormat_ok (h.formats 8 (by simp)) 8
  obtain ⟨e2, mask⟩ := fieldFormat_ok (h.formats 56 (by simp)) 56
  unfold nmcastAct
  rw [Act.bind_ok (prep_ok h.run), Act.bind_ok (readG_ok (State.canRun_stream h.run (.inl (by simp)))), Act.bind_ok (readBlock_ok h.block),
    holding_ok ord, Act.bind_ok (fieldIll_ok grp 16 s), Act.bind_ok (fieldIll_ok core 18 s), Act.bind_ok (cplCheck_ok h.cpl 32 s),
    Act.get_bind, Act.bind_ok src, Act.bind_ok dst, Act.bind_ok mask]
  rfl

/-! ## The registers and the refusal (R351, R407) -/

/-- The first of the block's pointers that names a register traps. -/
theorem nmcastChecked_register {s : State} {a k : Nat} {b : List Byte} (first : [0, 8, 56].find? (fun k => isRegister (wordAt b k)) = some k) :
    nmcastChecked a b s s = trapNow cALIGN (wordAt b k) 0 s := by
  unfold nmcastChecked
  cases src : isRegister (wordAt b 0) with
  | true =>
    rw [List.find?_cons_of_pos (p := fun k => isRegister (wordAt b k)) src, Option.some.injEq] at first
    subst first
    exact Act.bind_error (noRegister_traps src s)
  | false =>
    rw [List.find?_cons_of_neg (by simp [src])] at first
    rw [Act.bind_ok (noRegister_ok src s)]
    cases dst : isRegister (wordAt b 8) with
    | true =>
      rw [List.find?_cons_of_pos (p := fun k => isRegister (wordAt b k)) dst, Option.some.injEq] at first
      subst first
      exact Act.bind_error (noRegister_traps dst s)
    | false =>
      rw [List.find?_cons_of_neg (by simp [dst])] at first
      rw [Act.bind_ok (noRegister_ok dst s)]
      have mask := List.find?_some first
      obtain rfl := List.mem_singleton.mp (List.mem_of_find?_eq_some first)
      exact Act.bind_error (noRegister_traps mask s)

/-- The state in which NMCAST's job is issued and its multicast is listed. -/
def State.nmcastIssued (s : State) (b : List Byte) : State :=
  (s.withJob (s.plainJob 4 (wordAt b 32) (wordAt b 40) 0 (s.mcastFormats b))).withMcast s b (s.nextJob 4)

theorem nmcastIssued_sameThread (s : State) (b : List Byte) : s.SameThread (s.nmcastIssued b) :=
  (withJob_sameThread s (s.plainJob 4 (wordAt b 32) (wordAt b 40) 0 (s.mcastFormats b))).trans ⟨rfl, rfl, rfl, rfl, rfl, rfl, rfl⟩

section
variable {s : State} {a : Nat} {b : List Byte} (registers : ∀ k ∈ [0, 8, 56], isRegister (wordAt b k) = false)
  (cpl : (wordAt b 32).toNat < 2) (plain : s.streamOf a = none)
include registers cpl plain

theorem nmcastChecked_refused (refused : s.nmcastStatus b ≠ stOK) : nmcastChecked a b s s = .ok ((), (s.setG a 3).onward) := by
  unfold nmcastChecked
  rw [Act.bind_ok (noRegister_ok (registers 0 (by simp)) s), Act.bind_ok (noRegister_ok (registers 8 (by simp)) s),
    Act.bind_ok (noRegister_ok (registers 56 (by simp)) s), Act.bind_ok (cplBuffer_none cpl s)]
  dsimp only
  rw [if_pos refused]
  exact Act.bind_ok (writeG_ok plain)

/-- NMCAST with status OK issues its job and lists its multicast. -/
theorem nmcastChecked_starts (ord : s.ordOf s.curCore s.curCtx = none) (out : s.outOf s.curCore s.curCtx = [])
    (room : (s.coreAt s.curCore).jobs.length < 32) (ok : s.nmcastStatus b = stOK) :
    nmcastChecked a b s s = .ok ((), ((s.nmcastIssued b).setG a 0).onward) := by
  unfold nmcastChecked
  rw [Act.bind_ok (noRegister_ok (registers 0 (by simp)) s), Act.bind_ok (noRegister_ok (registers 8 (by simp)) s),
    Act.bind_ok (noRegister_ok (registers 56 (by simp)) s), Act.bind_ok (cplBuffer_none cpl s)]
  dsimp only
  rw [if_neg (not_not.mpr ok), Act.bind_ok (issueJob_ok ord out room cpl 4 (wordAt b 40) 0 (s.mcastFormats b)), Act.modify_bind]
  exact (nmcastIssued_sameThread s b).answers plain 0

end

theorem nmcastIssued_jobLast (s : State) (a : Nat) (b : List Byte) :
    ((s.nmcastIssued b).setG a 0).onward.me.msgr.jobLast = s.nextJob 4 := by
  have job := withJob_me s (s.plainJob 4 (wordAt b 32) (wordAt b 40) 0 (s.mcastFormats b))
  rw [answered_msgr]
  exact congrArg (fun c : Ctx => c.msgr.jobLast) job

end Sys2Proof.Machine
end

section
/-! The network's operations: reductions, multicast and migration (R46 to R48, R51, R122, R123, R364, R405 to R407). -/

namespace Sys2Proof.Machine

/-- Settles O39, operation by operation. NRED and NMCAST: the block is read, its form is good, and what is left is the checks of registers,
the status, and the job. The end of a reduction or of a multicast job is `finishJob`, which leaves memory and the engines' records alone and
leaves an open job done. A partial and a result go through the scratchpad of a state in which nothing is under way. A migrating thread is
followed through the context tables. -/
theorem fabricOperations : Obligations.FabricOperations := by
  unfold Obligations.FabricOperations
  refine ⟨⟨?nred, nrwait_answers, ?arrivals, reduction_fails⟩, ⟨?nmcast, ?mcastStatus, ?mcastCopy, ?migration⟩⟩
  case nred =>
    intro s a sa off run block b k grp rid op pad cpl rest room settled
    have form : s.NredForm a sa off := ⟨run, block, grp, rid, op, pad, cpl, rest⟩
    have checked := nredAct_checked form
    have plain : s.streamOf a = none := State.canRun_stream run (.inr (by simp))
    obtain ⟨-, -, -, -, calm⟩ := id block
    have ord : s.ordOf s.curCore s.curCtx = none := by
      obtain ⟨-, -, -, -, -, -, -, -, ord, -⟩ := calm
      exact ord
    have opens (src : isRegister k.src = false) (dst : isRegister k.dst = false) (ok : s.nredStatus k = 0)
        (fits : ∃ d, spadPtr k.dst d ∧ d + redBytes k.op k.n ≤ 2 ^ 18) : exec (.nred a sa) s = .next (s.nredDone a k) := by
      obtain ⟨d, ptr, fits⟩ := fits
      exact runAct_ok (checked.trans (nredChecked_opens src dst cpl plain calm.ownPlain ord settled.1 room ok ptr fits))
    refine ⟨fun src => ?_, fun src dst => ?_, fun src dst => ⟨fun refused => ?_, fun m ok heard fits => ?_, fun ok heard fits => ?_⟩⟩
    · exact runAct_trap (checked.trans (nredChecked_srcRegister src))
    · exact runAct_trap (checked.trans (nredChecked_dstRegister src dst))
    · exact ⟨_, runAct_ok (checked.trans (nredChecked_refused src dst cpl plain refused)),
        wentOn_result (u := s) rfl rfl (fun _ _ => rfl) a _, ⟨rfl, rfl, rfl⟩, rfl⟩
    · refine ⟨_, opens src dst ok fits, nredDone_passed s a k, fun fresh => ?_⟩
      rw [nredDone_jobLast]
      exact nredDone_lost heard a fresh
    · exact ⟨_, _, opens src dst ok fits, nredDone_passed s a k, nredDone_open heard a, rfl, rfl, (nredDone_jobLast s a k).symm, rfl, rfl⟩
  case arrivals =>
    intro s m alive other
    refine ⟨fun early => ?_, fun late => ?_, fun use none => ?_, ?_, ?_⟩
    · exact ⟨redr_otherUse alive other (by omega), _, redc_early alive other early, rfl, rfl⟩
    · exact ⟨redc_late alive other late, redr_otherUse alive other (by omega)⟩
    · exact ⟨redc_noReduction alive other use none, redr_noReduction alive none⟩
    · intro r d so use here h declared unsent partials op mop n mn good one kids parent ptr fits empty own
      have sent := redTry_sends (s := s.setReduction (r.heard m)) h (r := r.heard m) (m := m) declared unsent kids
        (congrArg (· ++ [m]) partials) parent op mop n mn good one ptr fits empty
      exact ⟨_, redc_here alive other use here, sent⟩
    · intro r off use here h good op one leaf ptr aligned fits
      have same : r.group = m.group ∧ r.rid = m.rid := by simpa using List.find?_some here
      obtain ⟨stored, done, gone⟩ := redFinish_stores h good op one leaf ptr aligned
      rw [same.1, same.2] at gone
      exact ⟨s.redFinish r m, redr_here alive use here, stored, done, gone⟩
  case nmcast =>
    intro s a sa off run block b grp core cpl room settled formats
    have form : s.NmcastForm a sa off := ⟨run, block, grp, core, cpl, formats⟩
    have checked := nmcastAct_checked form
    have plain : s.streamOf a = none := State.canRun_stream run (.inr (by simp))
    have ord : s.ordOf s.curCore s.curCtx = none := by
      obtain ⟨-, -, -, -, -, -, -, -, -, -, -, -, ord, -⟩ := id block
      exact ord
    refine ⟨fun k first => ?_, fun registers => ⟨fun refused => ?_, fun ok => ?_⟩⟩
    · exact runAct_trap (checked.trans (nmcastChecked_register first))
    · exact ⟨_, runAct_ok (checked.trans (nmcastChecked_refused registers cpl plain refused)),
        wentOn_result (u := s) rfl rfl (fun _ _ => rfl) a 3, ⟨rfl, rfl, rfl⟩, rfl⟩
    · exact ⟨_, s.newMcast b (s.nextJob 4),
        runAct_ok (checked.trans (nmcastChecked_starts registers cpl plain ord settled.1 room ok)),
        (nmcastIssued_sameThread s b).passed a 0, rfl, (nmcastIssued_jobLast s a b).symm, rfl, rfl, rfl, rfl⟩
  case mcastStatus =>
    intro s job st member m here started other last good masked
    obtain rfl : m.job = job := eq_of_beq (List.find?_some (p := fun x : McastJob => x.job == job) here)
    have ends := endMcast_ends (s.setMcast (m.answered member st)) (m.answered member st) (if st = 0 then 0 else 11)
    exact ⟨_, mcastStatus_last here started other last good masked, ends⟩
  case mcastCopy =>
    intro s c still group noHandler sub core here part eight aligned empty
    refine ⟨fun fits => ?_, fun out => ?_⟩
    · have written := mcastWrite_inside still.quiet sub core here part eight aligned (by omega)
      obtain ⟨u, ran, mem, answer⟩ := mcastCopy_answers (mcastCopyAct_writes group noHandler eight written) rfl empty
      exact ⟨u, ran, State.stored_of_mem mem, answer⟩
    · exact mcastCopy_answers (mcastCopyAct_writes group noHandler eight (mcastWrite_outside sub eight out)) rfl empty
  case migration =>
    intro s m here
    refine ⟨fun k rest free part runs unreserved => ?_, migrationRequest_refused here, fun moving => ⟨?_, migrationReply_accepted moving⟩,
      fun moving clean => ?_, fun moving target => ?_⟩
    · refine ⟨_, migrationRequest_accepted here free part runs unreserved, ?_, rfl⟩
      exact congrArg Ctx.phase (State.ctxAt_modCtx_same s m.dstCore k _)
    · refine ⟨_, migrationReply_refused moving, ?_, ?_, rfl⟩ <;> rw [State.ctxAt_modCtx_same]
    · obtain ⟨t, ran, ⟨c, running, image⟩, agenda⟩ := migrationImage_resumes here moving clean
      obtain ⟨phase, pc, regs, status, vtime⟩ := c.migrated_resumes m running
      rw [← image] at phase pc regs status vtime
      exact ⟨t, ran, phase, pc, regs, status, vtime, agenda⟩
    · obtain ⟨idle, mem⟩ := freeCtx_frees (s.freeHolds m.srcCore m.srcCtx) m.srcCore m.srcCtx
      exact ⟨_, migrationImageAck_eq moving target, idle, mem.trans (freeHolds_mem ..)⟩

end Sys2Proof.Machine
end

section
/-! Host rings and host commands (R56, R58 to R60). -/

namespace Sys2Proof.Machine

/-! ## Completions (R56, R60) -/

/-- A completion joins those that its ring holds. -/
def State.holdCompletion (s : State) (c : HostCompletion) : State :=
  { s with ring := s.ring.modify c.ring (fun r => { r with held := r.held ++ [c] }) }

theorem exec_hostCmdComplete (c : HostCompletion) (s : State) :
    exec (.hostCmdComplete c) s = .next ((s.holdCompletion c).flush c.ring) := rfl

/-- A ring that holds one completion writes it where the link is UP and the completion is its next. -/
theorem State.flush_one {s : State} {k : Nat} {c : HostCompletion} (held : (s.ring.get k).held = [c]) : s.flush k =
    if s.linkUp = true ∧ c.idx = (s.ring.get k).written then
      { s with ring := s.ring.set k { s.ring.get k with written := (s.ring.get k).written + 1, held := [] }, hostOut := s.hostOut ++ [c] }
    else s := by
  by_cases up : s.linkUp = true <;> by_cases turn : c.idx = (s.ring.get k).written <;> simp [State.flush, flushRing, held, up, turn]

/-- A completion of a ring that holds none is written in its turn, or held (R56, R60). -/
theorem hostCmdComplete_ends {s : State} {c : HostCompletion} (empty : (s.ring.get c.ring).held = []) :
    ∃ t, exec (.hostCmdComplete c) s = .next t ∧ t.mem = s.mem ∧
      (s.linkUp = true → c.idx = (s.ring.get c.ring).written →
        t.hostOut = s.hostOut ++ [c] ∧ (t.ring.get c.ring).written = c.idx + 1 ∧ (t.ring.get c.ring).held = []) ∧
      (s.linkUp = false ∨ c.idx ≠ (s.ring.get c.ring).written → t.hostOut = s.hostOut ∧ (t.ring.get c.ring).held = [c]) := by
  have ring : (s.holdCompletion c).ring.get c.ring = { s.ring.get c.ring with held := [c] } := by simp [State.holdCompletion, empty]
  have link : (s.holdCompletion c).linkUp = s.linkUp := rfl
  have flushed := State.flush_one (s := s.holdCompletion c) (k := c.ring) (c := c) (by rw [ring])
  rw [link, ring] at flushed
  refine ⟨_, (exec_hostCmdComplete c s).trans (congrArg _ flushed), ?_, fun up turn => ?_, fun waits => ?_⟩
  · split <;> rfl
  · rw [if_pos ⟨up, turn⟩]
    exact ⟨rfl, by rw [Tab.get_set_same, turn], by rw [Tab.get_set_same]⟩
  · rw [if_neg (by rintro ⟨up, turn⟩; exact waits.elim (by simp [up]) (· turn)), ring]
    exact ⟨rfl, rfl⟩

/-! ## The registers of a ring (R56, R58) -/

theorem exec_hrCtlWrite (fn ring : Nat) (v : Word) (s : State) :
    exec (.hrCtlWrite fn ring v) s = .next (s.hostWritten (fun x => x.ringCtl fn ring v)) := rfl

theorem exec_hrTailWrite (fn ring : Nat) (v : Word) (s : State) :
    exec (.hrTailWrite fn ring v) s = .next (s.hostWritten (fun x => x.ringTail fn ring v)) := rfl

theorem State.hostWritten_up {s : State} (up : s.linkUp = true) (f : State → State) : s.hostWritten f = f s := if_pos up

/-- The value of a register of a ring, at its offset from the ring's first. -/
def Ring.register (r : Ring) : Nat → Word
  | 0x00 => r.base
  | 0x08 => ofN (r.en.toNat * 2 ^ 63 + r.sc * 2 ^ 20 + r.size * 2 ^ 11 + r.vec)
  | 0x10 => ofN r.tail
  | 0x18 => ofN r.head
  | 0x20 => ofN (r.badcfg.toNat * 2 + r.stopped.toNat)
  | _ => 0

/-- A function reads the registers of its own rings, and zero in the place of another's. -/
theorem State.barRead_ring (s : State) (fn : Nat) {ring k : Nat} (hr : ring < 64) (hk : k < 0x40) :
    s.barRead fn (0x10000 + 0x40 * ring + k) = (if (s.ring.get ring).owner = fn then (s.ring.get ring).register k else 0, s) := by
  have index : (0x10000 + 0x40 * ring + k - 0x10000) / 0x40 = ring := by omega
  have offset : (0x10000 + 0x40 * ring + k - 0x10000) % 0x40 = k := by omega
  unfold State.barRead
  dsimp only
  rw [if_neg (by omega), index, if_pos ⟨by omega, hr⟩, offset]
  rfl

theorem exec_barRead_ring {s : State} (up : s.linkUp = true) (fn : Nat) {ring k : Nat} (hr : ring < 64) (hk : k < 0x40) (v tag : Word) :
    exec (.barAccessLinkDown false ⟨fn, 0x10000 + 0x40 * ring + k, v, tag⟩) s =
      .next (s.barAnswer tag (bytesOf (if (s.ring.get ring).owner = fn then (s.ring.get ring).register k else 0).toNat 8)) := by
  rw [exec_barAccess, if_neg Bool.false_ne_true, if_pos up, s.barRead_ring fn hr hk]

/-- What a write of HR.CTL by its function makes of a ring that does not ignore it. -/
def Ring.control (r : Ring) (v : Word) : Ring :=
  let set : Ring := { r with sc := bits v 23 20, size := bits v 14 11, vec := bits v 10 0 }
  if r.en then (if bit v 63 then set else { set with en := false, head := 0, tail := 0, stopped := true })
  else if !bit v 63 then { set with head := 0, tail := 0 }
  else if bits v 14 11 < 4 ∨ 12 < bits v 14 11 then { set with badcfg := true }
  else { set with en := true, stopped := false }

/-- A write of HR.CTL alters what an enabled ring must keep. -/
def Ring.alters (r : Ring) (v : Word) : Prop := bits v 23 20 ≠ r.sc ∨ bits v 14 11 ≠ r.size ∨ bits v 10 0 ≠ r.vec

theorem Ring.alters_iff (r : Ring) (v : Word) :
    (r.sc != bits v 23 20 || r.size != bits v 14 11 || r.vec != bits v 10 0) = true ↔ r.alters v := by
  simp only [Ring.alters, Bool.or_eq_true, bne_iff_ne, or_assoc, ne_comm]

theorem State.ringCtl_foreign {s : State} {fn ring : Nat} (other : (s.ring.get ring).owner ≠ fn) (v : Word) : s.ringCtl fn ring v = s :=
  if_pos (.inr other)

theorem State.ringTail_foreign {s : State} {fn ring : Nat} (other : (s.ring.get ring).owner ≠ fn) (v : Word) : s.ringTail fn ring v = s :=
  if_pos (.inr other)

section
variable {s : State} {fn ring : Nat} (hr : ring < 64) (own : (s.ring.get ring).owner = fn)
include hr own

theorem State.ringCtl_ignored {v : Word} (en : (s.ring.get ring).en = true) (h : (s.ring.get ring).alters v) : s.ringCtl fn ring v = s :=
  (if_neg (by omega)).trans (if_pos (Bool.and_eq_true_iff.mpr ⟨en, (Ring.alters_iff _ v).mpr h⟩))

theorem State.ringCtl_obeyed {v : Word} (h : (s.ring.get ring).en = true → ¬ (s.ring.get ring).alters v) :
    s.ringCtl fn ring v = { s with ring := s.ring.set ring ((s.ring.get ring).control v) } := by
  refine (if_neg (by omega)).trans (if_neg fun ignored => ?_)
  obtain ⟨en, altered⟩ := Bool.and_eq_true_iff.mp ignored
  exact h en ((Ring.alters_iff _ v).mp altered)

/-- TAIL is written as given; one more than 2^SIZE ahead of HEAD sets BADCFG and STOPPED. -/
theorem State.ringTail_own (v : Word) : s.ringTail fn ring v =
    let r := s.ring.get ring
    let far := decide (2 ^ r.size < (bits v 15 0 + 2 ^ 16 - r.head) % 2 ^ 16)
    { s with ring := s.ring.set ring { r with tail := bits v 15 0, badcfg := r.badcfg || far, stopped := r.stopped || far } } :=
  if_neg (by omega)

end

end Sys2Proof.Machine
end

section
/-! What a service core does with a host command: it waits, is refused, or is performed and completes (R59 to R61). -/

namespace Sys2Proof.Machine

/-! ## The course of a command (R59 to R61) -/

/-- What the action of a command answers, where another event does not complete it: status, faulting address and data; and the state that
it leaves. -/
abbrev CmdAnswer : Type := Option (Nat × Word × List Byte) × State

/-- The state after a command that the service core took in `s`. -/
def State.afterCmd (s : State) (c : HostCmd) : CmdAnswer → State
  | (some (st, fa, bs), t) => (t.take c).push (.hostCmdComplete (s.completion c st fa bs))
  | (none, t) => t.take c

section
variable {s : State} {c : HostCmd} {op : Nat} {again : Event} {uses aligned : Bool} {f : Act (Option (Nat × Word × List Byte))}

theorem hostCmd_waits (cannot : s.canTake c = false) : hostCmd c op again uses aligned f s = s :=
  if_pos (by simp [cannot])

theorem hostCmd_refuses (can : s.canTake c = true) (mine : c.op = op ∨ 6 < c.op) (bad : s.cmdBad c uses aligned = true) :
    hostCmd c op again uses aligned f s = (s.take c).push (.hostCmdComplete (s.completion c stREFUSED 0 [])) := by
  refine (if_neg ?_).trans (if_pos bad)
  rcases mine with rfl | reserved
  · simp [can]
  · simp [can, Nat.not_le.mpr reserved]

theorem hostCmd_acts (can : s.canTake c = true) (mine : c.op = op) (good : s.cmdBad c uses aligned = false)
    {a : CmdAnswer} (ran : f s = .ok a) : hostCmd c op again uses aligned f s = s.afterCmd c a := by
  have acts : hostCmd c op again uses aligned f s = s.runEvAct again (do
      let k := s.completion c stOK 0 []
      let r ← f
      modify (fun x => match r with
        | some (st, fa, bs) => (x.take c).push (.hostCmdComplete { k with status := st, faddr := fa, data := bs })
        | none => x.take c)) :=
    (if_neg (by simp [can, mine])).trans (if_neg (by simp [good]))
  rw [acts, State.runEvAct, State.runEvKept, Act.bind_ok ran]
  obtain ⟨r, t⟩ := a
  cases r <;> rfl

end

/-- A command is refused for its reserved operation. -/
theorem State.cmdBad_of_reservedOp (s : State) {c : HostCmd} (h : 6 < c.op) (uses aligned : Bool) : s.cmdBad c uses aligned = true := by
  simp [State.cmdBad, h]

theorem State.cmdBad_of_reserved (s : State) {c : HostCmd} (h : c.reservedZero = false) (uses aligned : Bool) :
    s.cmdBad c uses aligned = true := by
  simp [State.cmdBad, h]

theorem State.cmdBad_of_unaligned (s : State) (c : HostCmd) (uses : Bool) : s.cmdBad c uses false = true := by
  simp [State.cmdBad]

theorem State.cmdBad_of_long (s : State) {c : HostCmd} (h : 2 ^ 32 < c.len) (uses aligned : Bool) : s.cmdBad c uses aligned = true := by
  have long : decide (2 ^ 32 < c.len) = true := decide_eq_true h
  simp only [State.cmdBad, long, Bool.or_true, Bool.true_or]

/-! ## The physical form of an address (R59) -/

theorem memWriteBytes_append (m : List Host.Cell) (a : Nat) (xs ys : List Byte) :
    memWriteBytes m a (xs ++ ys) = memWriteBytes (memWriteBytes m a xs) (a + xs.length) ys := by
  induction xs generalizing m a with
  | nil => rfl
  | cons x xs ih =>
    rw [List.cons_append, memWriteBytes, ih, memWriteBytes, List.length_cons, Nat.add_assoc, Nat.add_comm 1]

theorem memWriteBytes_split (m : List Host.Cell) (a : Nat) {k : Nat} {bs : List Byte} (h : k ≤ bs.length) :
    memWriteBytes (memWriteBytes m a (bs.take k)) (a + k) (bs.drop k) = memWriteBytes m a bs := by
  have joined := memWriteBytes_append m a (bs.take k) (bs.drop k)
  rwa [List.take_append_drop, List.length_take, Nat.min_eq_left h, eq_comm] at joined

/-- An address of device memory that is neither hidden nor in a sealed region. -/
structure State.Open (s : State) (a : Nat) : Prop where
  seen : a < 2 ^ 39 - 2 ^ 26
  unsealed : s.sealedAt a = none

theorem hostLoc_open {s : State} {a : Nat} (h : s.Open a) (write region : Bool) : hostLoc none a write region s = .ok (some a, s) := by
  obtain ⟨seen, unsealed⟩ := h
  have shown : ¬ (2 ^ 39 ≤ a ∨ hidden a = true) := by
    simp only [hidden, decide_eq_true_eq]
    omega
  unfold hostLoc
  dsimp only
  rw [Act.get_bind, if_neg (by simpa using shown), unsealed]
  rfl

theorem hostBytes_of_quiet {s : State} (h : s.Quiet) (loc n : Nat) : s.hostBytes loc n = (s.bytesAt loc n, s) :=
  if_neg (by simp [State.badRange_of_quiet h])

theorem pageChunk_cases (va n : Nat) :
    pageChunk va n = n ∨ pageChunk va n = 4096 - va % 4096 ∧ (va + pageChunk va n) % 4096 = 0 ∧ pageChunk va n ≤ n := by
  unfold pageChunk
  omega

/-- The part of a write of the host that lies in the page of its first address. -/
theorem hostWrite_page {s : State} (h : s.Quiet) (region : Bool) (n : Nat) {va : Nat} (opened : s.Open va) {bs : List Byte} (some_ : bs ≠ []) :
    hostWrite none region (n + 1) va bs s =
      hostWrite none region n (va + pageChunk va bs.length) (bs.drop (pageChunk va bs.length))
        { s with mem := memWriteBytes s.mem va (bs.take (pageChunk va bs.length)) } := by
  rw [← State.putBytes_of_quiet h]
  cases bs with
  | nil => exact absurd rfl some_
  | cons b bs =>
    exact (Act.bind_ok (hostLoc_open opened true region)).trans ((Act.bind_ok (hostEnter_of_quiet h ..)).trans (Act.modify_bind ..))

/-- A write of the host, page by page, where nothing interferes. The fuel suffices for every page. -/
theorem hostWrite_open {s : State} (h : s.Quiet) (region : Bool) {n va : Nat} {bs : List Byte}
    (fuel : bs.length ≠ 0 → bs.length + va % 4096 ≤ 4096 * n)
    (opened : ∀ j, j < bs.length → s.Open (va + j)) :
    hostWrite none region n va bs s = .ok (none, { s with mem := memWriteBytes s.mem va bs }) := by
  induction n generalizing s va bs with
  | zero =>
    obtain rfl : bs = [] := List.eq_nil_of_length_eq_zero (by omega)
    rfl
  | succ n ih =>
    by_cases empty : bs = []
    · subst empty
      rfl
    · have long : 0 < bs.length := List.length_pos_iff.mpr empty
      have chunk := pageChunk_cases va bs.length
      rw [hostWrite_page h region n (va := va) (opened 0 long) empty]
      generalize pageChunk va bs.length = k at chunk
      have rest := ih (s := { s with mem := memWriteBytes s.mem va (bs.take k) }) (va := va + k) (bs := bs.drop k)
        ⟨h.owned, h.uline, h.badLines, h.ord⟩ (by rw [List.length_drop]; omega) (fun j below => by
          obtain ⟨seen, unsealed⟩ := opened (k + j) (by rw [List.length_drop] at below; omega)
          rw [← Nat.add_assoc] at seen unsealed
          exact ⟨seen, unsealed⟩)
      rw [rest, memWriteBytes_split s.mem va (by omega)]

/-- A read of the host, page by page, where nothing interferes. -/
theorem hostRead_open {s : State} (h : s.Quiet) {n va len : Nat} (fuel : len ≠ 0 → len + va % 4096 ≤ 4096 * n)
    (opened : ∀ j, j < len → s.Open (va + j)) : hostRead none n va len s = .ok ((s.bytesAt va len, none), s) := by
  induction n generalizing va len with
  | zero =>
    obtain rfl : len = 0 := by omega
    rfl
  | succ n ih =>
    unfold hostRead
    by_cases empty : len = 0
    · subst empty
      rfl
    · have chunk := pageChunk_cases va len
      have rest := ih (va := va + pageChunk va len) (len := len - pageChunk va len) (by omega) (fun j below => by
        have at_ := opened (pageChunk va len + j) (by omega)
        rwa [← Nat.add_assoc] at at_)
      rw [if_neg empty, Act.bind_ok (hostLoc_open (a := va) (opened 0 (by omega)) false false)]
      dsimp only
      rw [Act.bind_ok (hostEnter_of_quiet h ..), Act.get_bind, hostBytes_of_quiet h]
      dsimp only
      rw [Act.set_bind, Act.bind_ok rest]
      show Except.ok ((s.bytesAt va _ ++ s.bytesAt _ _, none), s) = _
      rw [bytesAt_append, Nat.add_sub_cancel' (by omega)]

end Sys2Proof.Machine
end

section
/-! The statement of host rings and host commands (R56, R58 to R60). -/

namespace Sys2Proof.Machine

/-! ## The registers of a ring (R56, R58) -/

section
variable {s : State} (up : s.linkUp = true) {fn ring : Nat} (hr : ring < 64)
include up hr

theorem barRead_own (own : (s.ring.get ring).owner = fn) {k : Nat} (hk : k < 0x40) (v tag : Word) :
    exec (.barAccessLinkDown false ⟨fn, 0x10000 + 0x40 * ring + k, v, tag⟩) s =
      .next (s.barAnswer tag (bytesOf ((s.ring.get ring).register k).toNat 8)) := by
  rw [exec_barRead_ring up fn hr hk, if_pos own]

theorem barRead_foreign (other : (s.ring.get ring).owner ≠ fn) {k : Nat} (hk : k < 0x40) (v tag : Word) :
    exec (.barAccessLinkDown false ⟨fn, 0x10000 + 0x40 * ring + k, v, tag⟩) s = .next (s.barAnswer tag (bytesOf (0 : Word).toNat 8)) := by
  rw [exec_barRead_ring up fn hr hk, if_neg other]

end

section
variable {s : State} (up : s.linkUp = true) {fn ring : Nat} (hr : ring < 64) (own : (s.ring.get ring).owner = fn) (v : Word)
include up hr own

/-- HR.CTL: the ring enables, refuses its SIZE, disables, or ignores the write (R58). -/
theorem hrCtlWrite_own : ∃ t, exec (.hrCtlWrite fn ring v) s = .next t ∧ t.mem = s.mem ∧
    let r := s.ring.get ring
    let q := t.ring.get ring
    (r.en = false → bit v 63 = true → 4 ≤ bits v 14 11 → bits v 14 11 ≤ 12 →
      q.en = true ∧ q.sc = bits v 23 20 ∧ q.size = bits v 14 11 ∧ q.vec = bits v 10 0 ∧ q.stopped = false) ∧
    (r.en = false → bit v 63 = true → (bits v 14 11 < 4 ∨ 12 < bits v 14 11) → q.en = false ∧ q.badcfg = true) ∧
    (r.en = true → bits v 23 20 = r.sc → bits v 14 11 = r.size → bits v 10 0 = r.vec → bit v 63 = false →
      q.en = false ∧ q.head = 0 ∧ q.tail = 0) ∧
    (r.en = true → (bits v 23 20 ≠ r.sc ∨ bits v 14 11 ≠ r.size ∨ bits v 10 0 ≠ r.vec) → t = s) := by
  have ran := (exec_hrCtlWrite fn ring v s).trans (congrArg _ (State.hostWritten_up up _))
  by_cases ignored : (s.ring.get ring).en = true ∧ (s.ring.get ring).alters v
  · obtain ⟨en, altered⟩ := ignored
    refine ⟨s, ran.trans (congrArg _ (State.ringCtl_ignored hr own en altered)), rfl, ?_⟩
    simp only [en, Bool.true_eq_false, false_imp_iff, true_and, implies_true, and_true]
    exact fun _ sc size vec => absurd altered (by simp [Ring.alters, sc, size, vec])
  · have set := State.ringCtl_obeyed hr own (v := v) (fun en altered => ignored ⟨en, altered⟩)
    refine ⟨_, ran.trans (congrArg _ set), rfl, ?_⟩
    dsimp only
    rw [Tab.get_set_same]
    refine ⟨fun off on low high => ?_, fun off on size => ?_, fun on _ _ _ off => ?_, fun on altered => absurd ⟨on, altered⟩ ignored⟩
    · simp [Ring.control, off, on, Nat.not_lt.mpr low, Nat.not_lt.mpr high]
    · simp [Ring.control, off, on, size]
    · simp [Ring.control, off, on]

/-- HR.TAIL: a doorbell more than 2^SIZE ahead of HEAD stops the ring (R58). -/
theorem hrTailWrite_own : ∃ t, exec (.hrTailWrite fn ring v) s = .next t ∧ t.mem = s.mem ∧
    let r := s.ring.get ring
    let q := t.ring.get ring
    q.tail = bits v 15 0 ∧ q.head = r.head ∧
      (2 ^ r.size < (bits v 15 0 + 2 ^ 16 - r.head) % 2 ^ 16 → q.badcfg = true ∧ q.stopped = true) ∧
      ((bits v 15 0 + 2 ^ 16 - r.head) % 2 ^ 16 ≤ 2 ^ r.size → q.badcfg = r.badcfg ∧ q.stopped = r.stopped) := by
  refine ⟨_, (exec_hrTailWrite fn ring v s).trans (congrArg _ ((State.hostWritten_up up _).trans (State.ringTail_own hr own v))), rfl, ?_⟩
  dsimp only
  rw [Tab.get_set_same]
  refine ⟨rfl, rfl, fun far => ?_, fun near => ?_⟩
  · rw [decide_eq_true far]
    exact ⟨Bool.or_true _, Bool.or_true _⟩
  · rw [decide_eq_false (Nat.not_lt.mpr near)]
    exact ⟨Bool.or_false _, Bool.or_false _⟩

end

/-! ## The commands (R59, R60) -/

section
variable {s t : State} {c : HostCmd} (can : s.canTake c = true) (good : s.cmdBad c false true = false) (physical : s.cmdVirtual c = false)
include can good physical

theorem hostWrite_completes (op : c.op = 1) (device : c.daddr.toNat % 64 = 0) (host : c.haddr.toNat % 64 = 0)
    (ran : hostWrite none true (c.len / 4096 + 2) c.daddr.toNat (c.data.take c.len) s = .ok (none, t)) :
    exec (.hostWrite c) s = .next ((t.take c).push (.hostCmdComplete (s.completion c 0 0 []))) := by
  refine congrArg Host.Outcome.next (hostCmd_acts can op ?_ (a := (some (0, 0, []), t)) ?_)
  · rwa [physical, decide_eq_true device, decide_eq_true host]
  · rw [State.cmdTables, physical]
    exact Act.bind_ok ran

theorem hostRead_completes (op : c.op = 2) (device : c.daddr.toNat % 64 = 0) (host : c.haddr.toNat % 64 = 0) {bs : List Byte}
    (ran : hostRead none (c.len / 4096 + 2) c.daddr.toNat c.len s = .ok ((bs, none), t)) :
    exec (.hostRead c) s = .next ((t.take c).push (.hostCmdComplete (s.completion c 0 0 bs))) := by
  refine congrArg Host.Outcome.next (hostCmd_acts can op ?_ (a := (some (0, 0, bs), t)) ?_)
  · rwa [physical, decide_eq_true device, decide_eq_true host]
  · rw [State.cmdTables, physical]
    exact Act.bind_ok ran

theorem hostSignal_completes (op : c.op = 4) (device : c.daddr.toNat % 8 = 0)
    (ran : hostWrite none false 2 c.daddr.toNat (bytesOf c.arg0.toNat 8) s = .ok (none, t)) :
    exec (.hostSignal c) s = .next ((t.take c).push (.hostCmdComplete (s.completion c 0 0 []))) := by
  refine congrArg Host.Outcome.next (hostCmd_acts can op ?_ (a := (some (0, 0, []), t)) ?_)
  · rwa [physical, decide_eq_true device]
  · rw [State.cmdTables, physical]
    exact Act.bind_ok ran

end

theorem State.cmdNames_partition {s : State} {c : HostCmd} {p : Nat} (h : s.cmdVf c = some p ∨ s.cmdVf c = none ∧ c.part = p) :
    s.cmdNames c true = some p := by
  rcases h with vf | ⟨pf, rfl⟩
  · simp [State.cmdNames, vf]
  · simp [State.cmdNames, pf]

/-- LAUNCH submits its body to a queue of the command's partition, which completes the command; it is refused for another's (R59, R60). -/
theorem hostLaunch_submits {s : State} {c : HostCmd} (can : s.canTake c = true) (op : c.op = 3) (good : s.cmdBad c true true = false) {p : Nat}
    (names : s.cmdNames c true = some p) : exec (.hostLaunch c) s = .next
      (if s.partOfQueue (bits c.arg0 5 0) = some p then
        (s.take c).push (.launchSubmit
          { q := bits c.arg0 5 0, part := p, record := c.body, reply := none, host := some (s.completion c stOK 0 []) })
      else (s.take c).push (.hostCmdComplete (s.completion c stREFUSED 0 []))) := by
  by_cases own : s.partOfQueue (bits c.arg0 5 0) = some p
  · rw [if_pos own]
    refine congrArg Host.Outcome.next (hostCmd_acts can op good (a := (none, s.push _)) ?_)
    rw [Act.get_bind, names]
    exact congrFun (if_neg (not_not.mpr own)) s
  · rw [if_neg own]
    refine congrArg Host.Outcome.next (hostCmd_acts can op good (a := (some (stREFUSED, 0, []), s)) ?_)
    rw [Act.get_bind, names]
    exact congrFun (if_pos own) s

/-! ## The statement -/

/-- Settles O44: a completion, the registers of a ring in its own and in another function, and each command as it waits, is refused or is
performed. A physical transfer goes page by page over open addresses, with which nothing interferes. -/
theorem hostRingsAndCommands : Obligations.HostRingsAndCommands := by
  unfold Obligations.HostRingsAndCommands
  intro s
  refine ⟨fun c empty => hostCmdComplete_ends empty, fun fn ring v hr => ⟨fun down => ?down, fun up other => ?foreign, fun up tag => ⟨?ownReads,
    ?foreignReads⟩, fun up own => ⟨hrCtlWrite_own up hr own v, hrTailWrite_own up hr own v⟩⟩, fun c => ⟨fun cannot => ?waits, fun can =>
    ⟨fun refused => ?nopRefused, fun op good => ?nop, fun op unaligned => ?writeRefused, fun op long => ?readRefused,
      fun good pf phys still range unsealed _ => ?transfers, fun p op part good => ?launch⟩⟩⟩
  case down => exact ⟨congrArg _ (State.hostWritten_down down _), congrArg _ (State.hostWritten_down down _)⟩
  case foreign =>
    exact ⟨congrArg _ ((State.hostWritten_up up _).trans (State.ringCtl_foreign other v)),
      congrArg _ ((State.hostWritten_up up _).trans (State.ringTail_foreign other v))⟩
  case ownReads =>
    intro own
    have reads {k : Nat} (hk : k < 0x40) := barRead_own up hr own hk v tag
    exact ⟨reads (k := 0) (by decide), reads (k := 0x10) (by decide), reads (k := 0x18) (by decide), reads (k := 0x20) (by decide),
      reads (k := 8) (by decide)⟩
  case foreignReads =>
    intro other
    have reads {k : Nat} (hk : k < 0x40) := barRead_foreign up hr other hk v tag
    exact ⟨reads (by decide), reads (by decide), reads (by decide), reads (by decide), reads (by decide)⟩
  case waits =>
    have same {x : State} (h : x = s) : Host.Outcome.next (φ := Fault) (ρ := Refusal) x = .next s := congrArg _ h
    exact ⟨same (hostCmd_waits cannot), same (hostCmd_waits cannot), same (hostCmd_waits cannot), same (hostCmd_waits cannot),
      same (hostCmd_waits cannot), same (hostCmd_waits cannot)⟩
  case nopRefused =>
    rcases refused with reserved | ⟨op, field⟩
    · exact congrArg Host.Outcome.next (hostCmd_refuses can (.inr reserved) (s.cmdBad_of_reservedOp reserved _ _))
    · exact congrArg Host.Outcome.next (hostCmd_refuses can (.inl op) (s.cmdBad_of_reserved field _ _))
  case nop => exact congrArg Host.Outcome.next (hostCmd_acts can op good (Act.pure_apply ..))
  case writeRefused =>
    refine congrArg Host.Outcome.next (hostCmd_refuses can (.inl op) ?_)
    rw [decide_eq_false unaligned]
    exact s.cmdBad_of_unaligned c _
  case readRefused => exact congrArg Host.Outcome.next (hostCmd_refuses can (.inl op) (s.cmdBad_of_long long _ _))
  case transfers =>
    have physical : s.cmdVirtual c = false := by simp [State.cmdVirtual, pf, phys]
    have opened (j : Nat) (below : j < c.len) : s.Open (c.daddr.toNat + j) := ⟨by omega, unsealed j below⟩
    refine ⟨fun op device host => ?write, fun op device host => ?read, fun op len device => ?signal⟩
    case write =>
      have short : (c.data.take c.len).length ≤ c.len := List.length_take_le ..
      have ran := hostWrite_open still.quiet true (n := c.len / 4096 + 2) (va := c.daddr.toNat) (bs := c.data.take c.len) (fun _ => by omega)
        (fun j below => opened j (by omega))
      exact ⟨_, hostWrite_completes can good physical op device host ran, State.stored_of_mem rfl, rfl⟩
    case read =>
      exact hostRead_completes can good physical op device host (hostRead_open still.quiet (fun _ => by omega) opened)
    case signal =>
      have eight : (bytesOf c.arg0.toNat 8).length = 8 := rfl
      have ran := hostWrite_open still.quiet false (n := 2) (va := c.daddr.toNat) (bs := bytesOf c.arg0.toNat 8) (fun _ => by omega)
        (fun j below => opened j (by omega))
      exact ⟨_, hostSignal_completes can good physical op device ran, State.stored_of_mem rfl, rfl⟩
  case launch =>
    have submits := hostLaunch_submits can op good (State.cmdNames_partition part)
    exact ⟨fun own => ⟨_, submits.trans (congrArg _ (if_pos own)), rfl, rfl, rfl, rfl, rfl⟩,
      fun other => submits.trans (congrArg _ (if_neg other))⟩

end Sys2Proof.Machine
end

section
/-! Gates of sealed regions, and attestation (R55, R67, R68, R70, R71). -/

namespace Sys2Proof.Machine

/-- A command ends at once with a status and no data. -/
def State.endsWith (t : State) (st : Nat) : CmdAnswer := (some (st, 0, []), t)

/-- The region that a GATE command names. -/
def gateRegion (c : HostCmd) : Nat := bits c.arg0 2 0

/-- A GATE asks for the digest, and the link lacks the feature (R55). -/
def State.digestUnknown (s : State) (c : HostCmd) : Bool := bit c.arg1 1 && !s.linkFeature 1

theorem State.digestUnknown_of_without {s : State} {c : HostCmd} (asks : bit c.arg1 1 = true) (without : s.linkFeature 1 = false) :
    s.digestUnknown c = true := by
  simp [State.digestUnknown, asks, without]

theorem State.digestUnknown_of_agreed {s : State} {c : HostCmd} (h : bit c.arg1 1 = false ∨ s.linkFeature 1 = true) :
    s.digestUnknown c = false := by
  rcases h with plain | agreed
  · simp [State.digestUnknown, plain]
  · simp [State.digestUnknown, agreed]

/-! ## GATE closes a region (R67) -/

/-- A close waits for the region's bound tasks; with none bound, the region has drained. -/
def State.closing (s : State) (c : HostCmd) : State :=
  let y := s.toMgmt.modSealed (gateRegion c) (fun k => { k with gate := 1, waiting := k.waiting ++ [s.completion c stOK 0 []] })
  if (s.sealed_.get (gateRegion c)).count = 0 then y.push (.gateDrained (gateRegion c)) else y

theorem State.closing_agenda (s : State) (c : HostCmd) : (s.closing c).agenda =
    s.agenda ++ (if (s.sealed_.get (gateRegion c)).count = 0 then [Event.gateDrained (gateRegion c)] else []) := by
  unfold State.closing
  dsimp only
  split
  · rfl
  · exact (List.append_nil _).symm

theorem State.closing_sealed (s : State) (c : HostCmd) : (s.closing c).mem = s.mem ∧ (s.closing c).sealed_ =
    s.sealed_.modify (gateRegion c) (fun k => { k with gate := 1, waiting := k.waiting ++ [s.completion c stOK 0 []] }) := by
  unfold State.closing
  dsimp only
  split <;> exact ⟨rfl, rfl⟩

/-- What GATE close answers: at once where it is refused or the region has drained, and else when it drains. -/
def State.closeAnswer (s : State) (c : HostCmd) : CmdAnswer :=
  if s.digestUnknown c then s.toMgmt.endsWith stREFUSED
  else if (s.sealed_.get (gateRegion c)).gate = 2 then s.toMgmt.endsWith stOK
  else (none, s.closing c)

/-! ## GATE opens a region (R67, R68, R70) -/

/-- The region is open, and nothing waits for it. -/
def State.opened (s : State) (c : HostCmd) : State := s.modSealed (gateRegion c) (fun k => { k with gate := 0, waiting := [] })

/-- The digest of what a region holds. -/
def State.regionDigest (s : State) (c : HostCmd) : List Byte :=
  Config.sha3 (s.bytesAt (s.sealed_.get (gateRegion c)).base (s.sealed_.get (gateRegion c)).size)

theorem State.extendMeas_agenda (s : State) (i : Nat) (d : List Byte) : (s.extendMeas i d).agenda = s.agenda := rfl

/-- What GATE open answers. Opening a region that closes ends the closes that wait; a check opens a drained region only with the digest of
what the region holds, which MEAS3 is extended by. -/
def State.openAnswer (s : State) (c : HostCmd) : CmdAnswer :=
  let g := s.sealed_.get (gateRegion c)
  if s.digestUnknown c then s.toMgmt.endsWith stREFUSED
  else if g.gate = 1 then
    ((s.toMgmt.opened c).pushAll (g.waiting.map (fun k => Event.hostCmdComplete { k with status := stREFUSED }))).endsWith stOK
  else if g.gate = 2 && bit c.arg1 1 then
    if s.regionDigest c = c.body.take 32 then
      ((s.toMgmt.opened c).extendMeas 3 (bytesOf (gateRegion c) 1 ++ s.regionDigest c)).endsWith stOK
    else s.toMgmt.endsWith stNOMATCH
  else (s.toMgmt.opened c).endsWith stOK

/-! ## ATTEST (R55, R71) -/

/-- ATTEST cannot be answered: without the feature, the room, the image or the key. -/
def State.attestUnable (s : State) (c : HostCmd) : Bool :=
  !s.linkFeature 0 || decide (c.len < 2676) || s.sec.recovery || !s.sec.idKey

/-- What ATTEST answers: the report and its signature. -/
def State.attestAnswer (s : State) (c : HostCmd) : CmdAnswer :=
  if s.attestUnable c then s.toMgmt.endsWith stREFUSED
  else (some (stOK, 0, s.reportBody c ++ padTo 2420 (Config.sign s.sec.xi (s.reportBody c))), s.toMgmt)

theorem length_padTo (n : Nat) (bs : List Byte) : (padTo n bs).length = n := by
  rw [padTo, List.length_append, List.length_take, List.length_replicate]
  omega

/-! ## The commands -/

section
variable {s : State} {c : HostCmd} (can : s.canTake c = true) (good : s.cmdBad c false true = false)
include can good

theorem gateClose_answers (op : c.op = 5) (closes : bit c.arg1 0 = false) {a : CmdAnswer} (answer : s.closeAnswer c = a) :
    exec (.gateClose c) s = .next (s.afterCmd c a) := by
  subst answer
  refine congrArg Host.Outcome.next ((if_neg (by simp [closes])).trans (hostCmd_acts can op good ?_))
  rw [Act.get_bind, Act.modify_bind]
  unfold State.closeAnswer State.digestUnknown gateRegion
  split
  · rfl
  · split <;> rfl

theorem gateOpen_answers (op : c.op = 5) (opens : bit c.arg1 0 = true) {a : CmdAnswer} (answer : s.openAnswer c = a) :
    exec (.gateOpen c) s = .next (s.afterCmd c a) := by
  subst answer
  refine congrArg Host.Outcome.next ((if_neg (by simp [opens])).trans (hostCmd_acts can op good ?_))
  rw [Act.get_bind, Act.modify_bind]
  unfold State.openAnswer State.digestUnknown State.regionDigest gateRegion
  dsimp only
  split
  · rfl
  · split
    · rfl
    · split
      · split <;> rfl
      · rfl

theorem attest_answers (op : c.op = 6) {a : CmdAnswer} (answer : s.attestAnswer c = a) : exec (.attest c) s = .next (s.afterCmd c a) := by
  subst answer
  refine congrArg Host.Outcome.next (hostCmd_acts can op good ?_)
  rw [Act.get_bind, Act.modify_bind]
  unfold State.attestAnswer State.attestUnable
  split <;> rfl

end

end Sys2Proof.Machine
end

section
/-! Writes of partition entries, and the statement of gates, attestation and partition entries (R55, R64, R67, R68, R71, R154, R194). -/

namespace Sys2Proof.Machine

/-! ## A partition entry (R64, R154, R194) -/

/-- The entry as it is written: of CLMASK 240 bits, of PTROOT bits [51:12]. -/
def entryStored (e : PartEntry) : PartEntry :=
  { e with clmask := e.clmask &&& BitVec.ofNat 256 (2 ^ 240 - 1), ptroot := ofN (bits e.ptroot 51 12 * 4096) }

theorem clmask_low {m : BitVec 256} (h : m.toNat < 2 ^ 240) : m &&& BitVec.ofNat 256 (2 ^ 240 - 1) = m := by
  refine BitVec.eq_of_toNat_eq ?_
  rw [BitVec.toNat_and, BitVec.toNat_ofNat, Nat.mod_eq_of_lt (by decide), Nat.and_two_pow_sub_one_eq_mod, Nat.mod_eq_of_lt h]

theorem ptroot_page {w : Word} (low : bits w 11 0 = 0) (high : bits w 63 52 = 0) : ofN (bits w 51 12 * 4096) = w := by
  have bound := w.isLt
  refine BitVec.eq_of_toNat_eq ?_
  simp only [ofN, bits, BitVec.toNat_ofNat] at low high ⊢
  omega

theorem entryStored_of_fits {e : PartEntry} (clmask : e.clmask.toNat < 2 ^ 240) (low : bits e.ptroot 11 0 = 0)
    (high : bits e.ptroot 63 52 = 0) : entryStored e = e := by
  rw [entryStored, clmask_low clmask, ptroot_page low high]

/-- A cluster of the entry has arrays that are still to be erased (R194). -/
def State.entryWaits (s : State) (e : PartEntry) : Bool := (List.range 240).any (fun c => e.clmask.getLsbD c && s.erasing c)

theorem State.entryWaits_iff (s : State) (e : PartEntry) :
    s.entryWaits e = true ↔ ∃ c, c < 240 ∧ e.clmask.getLsbD c = true ∧ s.erasing c = true := by
  simp [State.entryWaits]

/-- The clusters that leave a partition with the write of an entry. -/
def State.leavers (s : State) (part : Nat) (e : PartEntry) : List Nat :=
  (List.range 240).filter (fun c => (s.part.get part).state != 0 && (s.part.get part).clmask.getLsbD c && !e.clmask.getLsbD c)

/-- The entry stands, and the arrays of the clusters that leave are erased. -/
def State.entrySet (s : State) (part : Nat) (e : PartEntry) : State :=
  (s.leavers part e).foldl State.eraseArrays { s with part := s.part.set part e }

/-- Building an entry writes the partition's range table (R154). -/
def State.tableBuilt (s : State) (part : Nat) (e : PartEntry) : State :=
  if e.state = 1 then
    { s with range := s.range.set part { entries := [{ lo := 0, last := 0xFFFFFFFF, dev := e.tanch, moving := false }], tver := 0 } }
  else s

/-- Entering RUNNING is measured (R69, R70). -/
def State.entryMeasured (s : State) (was : Nat) (e : PartEntry) : State :=
  if e.state = 2 ∧ was ≠ 2 then s.extendMeas 3 (bytesOfWords (partWords e)) else s

theorem exec_partitionEntryWrite (p : Nat) (e : PartEntry) (s : State) : exec (.partitionEntryWrite p e) s = .next
    (if s.toMgmt.entryBad p (entryStored e) then s.toMgmt
     else if s.entryWaits (entryStored e) then s.push (.partitionEntryWrite p e)
     else ((s.toMgmt.entrySet p (entryStored e)).tableBuilt p (entryStored e)).entryMeasured (s.part.get p).state (entryStored e)) := rfl

theorem State.toMgmt_entryBad (s : State) (p : Nat) (e : PartEntry) : s.toMgmt.entryBad p e = s.entryBad p e := rfl

theorem State.entryBad_of_field (s : State) {p : Nat} {e : PartEntry}
    (h : 16 ≤ p ∨ 5 < e.state ∨ 1920 ≤ e.supv ∨ e.key ∉ s.sec.keys ∨ s.devices ≤ e.tanch) : s.entryBad p e = true := by
  unfold State.entryBad
  rcases h with part | state | supv | key | tanch
  · simp [part]
  · simp [state]
  · simp [Nat.not_lt.mpr supv]
  · simp [key]
  · simp [tanch]

/-! ## What the write of an entry leaves (R194) -/

theorem State.modArrays_eq (s : State) (cl : Nat) (as : List Nat) (f : XbarArray → XbarArray) :
    as.foldl (fun (x : State) a => x.modArray cl a f) s =
      { s with cluster := (as.foldl (fun (x : State) a => x.modArray cl a f) s).cluster } := by
  induction as generalizing s with
  | nil => rfl
  | cons a as ih =>
    rw [List.foldl_cons, ih]
    rfl

theorem State.eraseArrays_eq (s : State) (cl : Nat) : s.eraseArrays cl = { s with cluster := (s.eraseArrays cl).cluster } :=
  s.modArrays_eq cl _ _

theorem State.eraseAll_eq (s : State) (cls : List Nat) :
    cls.foldl State.eraseArrays s = { s with cluster := (cls.foldl State.eraseArrays s).cluster } := by
  induction cls generalizing s with
  | nil => rfl
  | cons cl cls ih => rw [List.foldl_cons, ih, State.eraseArrays_eq]

theorem State.entrySet_eq (s : State) (p : Nat) (e : PartEntry) :
    s.entrySet p e = { s with part := s.part.set p e, cluster := (s.entrySet p e).cluster } :=
  State.eraseAll_eq ..

theorem State.entryMeasured_frame (s : State) (was : Nat) (e : PartEntry) : (s.entryMeasured was e).part = s.part ∧
    (s.entryMeasured was e).mem = s.mem ∧ (s.entryMeasured was e).core = s.core ∧ (s.entryMeasured was e).range = s.range := by
  unfold State.entryMeasured
  split <;> exact ⟨rfl, rfl, rfl, rfl⟩

theorem State.tableBuilt_frame (s : State) (p : Nat) (e : PartEntry) : (s.tableBuilt p e).part = s.part ∧
    (s.tableBuilt p e).mem = s.mem ∧ (s.tableBuilt p e).core = s.core := by
  unfold State.tableBuilt
  split <;> exact ⟨rfl, rfl, rfl⟩

section
variable {s : State} {p : Nat} {e : PartEntry} (stored : entryStored e = e) (good : s.entryBad p e = false)
include stored good

theorem partitionEntryWrite_waits (waits : s.entryWaits e = true) :
    exec (.partitionEntryWrite p e) s = .next (s.push (.partitionEntryWrite p e)) := by
  rw [exec_partitionEntryWrite, stored, State.toMgmt_entryBad, if_neg (by simp [good]), if_pos waits]

theorem partitionEntryWrite_stands (free : s.entryWaits e = false) : ∃ t, exec (.partitionEntryWrite p e) s = .next t ∧
    t.part = s.part.set p e ∧ t.mem = s.mem ∧ t.core = s.core ∧
    (e.state = 1 → (t.range.get p).entries = [RangeEntry.mk 0 0xFFFFFFFF e.tanch false] ∧ (t.range.get p).tver = 0) ∧
    (e.state ≠ 1 → t.range = s.range) := by
  have ran : exec (.partitionEntryWrite p e) s =
      .next (((s.toMgmt.entrySet p e).tableBuilt p e).entryMeasured (s.part.get p).state e) := by
    rw [exec_partitionEntryWrite, stored, State.toMgmt_entryBad, if_neg (by simp [good]), if_neg (by simp [free])]
  obtain ⟨part, mem, core, range⟩ := State.entryMeasured_frame ((s.toMgmt.entrySet p e).tableBuilt p e) (s.part.get p).state e
  obtain ⟨tpart, tmem, tcore⟩ := State.tableBuilt_frame (s.toMgmt.entrySet p e) p e
  have set := s.toMgmt.entrySet_eq p e
  refine ⟨_, ran, ?_, ?_, ?_, fun builds => ?_, fun stays => ?_⟩
  · rw [part, tpart, set]
    rfl
  · rw [mem, tmem, set]
    rfl
  · rw [core, tcore, set]
    rfl
  · rw [range, State.tableBuilt, if_pos builds, Tab.get_set_same]
    exact ⟨rfl, rfl⟩
  · rw [range, State.tableBuilt, if_neg stays, set]
    rfl

end

/-! ## A region that has drained (R67, R68) -/

theorem gateDrained_completes {s : State} {r : Nat} (closing : (s.sealed_.get r).gate = 1) (unbound : (s.sealed_.get r).count = 0) :
    exec (.gateDrained r) s = .next ((s.modSealed r (fun k => { k with gate := 2, waiting := [] })).pushAll
      ((s.sealed_.get r).waiting.map Event.hostCmdComplete)) :=
  congrArg Host.Outcome.next (if_neg (by simp [closing, unbound]))

theorem State.get_modSealed (s : State) (r : Nat) (f : Sealed → Sealed) : (s.modSealed r f).sealed_.get r = f (s.sealed_.get r) :=
  Tab.get_modify_same ..

/-! ## The statement -/

section
variable {s : State} {c : HostCmd} (can : s.canTake c = true) (good : s.cmdBad c false true = false)
include can good

/-- GATE closes (R55, R67). -/
theorem gateClose_closes (op : c.op = 5) (closes : bit c.arg1 0 = false) :
    let r := gateRegion c
    let g := s.sealed_.get r
    (bit c.arg1 1 = true → s.linkFeature 1 = false → ∃ t, exec (.gateClose c) s = .next t ∧ t.sealed_ = s.sealed_ ∧
      t.agenda = s.agenda ++ [Event.hostCmdComplete (s.completion c 3 0 [])]) ∧
    (bit c.arg1 1 = false ∨ s.linkFeature 1 = true → g.gate = 2 → ∃ t, exec (.gateClose c) s = .next t ∧
      t.agenda = s.agenda ++ [Event.hostCmdComplete (s.completion c 0 0 [])] ∧ t.sealed_ = s.sealed_) ∧
    (bit c.arg1 1 = false ∨ s.linkFeature 1 = true → g.gate ≠ 2 → ∃ t, exec (.gateClose c) s = .next t ∧
      (t.sealed_.get r).gate = 1 ∧ t.mem = s.mem ∧ (t.sealed_.get r).waiting = g.waiting ++ [s.completion c 0 0 []] ∧
      t.agenda = s.agenda ++ (if g.count = 0 then [Event.gateDrained r] else [])) := by
  intro r g
  have answers {a : CmdAnswer} (h : s.closeAnswer c = a) := gateClose_answers can good op closes h
  refine ⟨fun asks without => ?_, fun agreed drained => ?_, fun agreed standing => ?_⟩
  · exact ⟨_, answers (if_pos (State.digestUnknown_of_without asks without)), rfl, rfl⟩
  · have known := State.digestUnknown_of_agreed agreed
    exact ⟨_, answers ((if_neg (by simp [known])).trans (if_pos drained)), rfl, rfl⟩
  · have known := State.digestUnknown_of_agreed agreed
    obtain ⟨mem, set⟩ := s.closing_sealed c
    have region : (s.closing c).sealed_.get r = { g with gate := 1, waiting := g.waiting ++ [s.completion c 0 0 []] } := by
      rw [set, Tab.get_modify_same]
      rfl
    exact ⟨_, answers ((if_neg (by simp [known])).trans (if_neg standing)), congrArg Sealed.gate region, mem,
      congrArg Sealed.waiting region, s.closing_agenda c⟩

/-- GATE opens (R55, R67, R68). -/
theorem gateOpen_opens (op : c.op = 5) (opens : bit c.arg1 0 = true) :
    let r := gateRegion c
    let g := s.sealed_.get r
    let ok := s.completion c 0 0 []
    (bit c.arg1 1 = false → g.gate ≠ 1 → ∃ t, exec (.gateOpen c) s = .next t ∧ (t.sealed_.get r).gate = 0 ∧
      (t.sealed_.get r).base = g.base ∧ (t.sealed_.get r).size = g.size ∧ t.agenda = s.agenda ++ [Event.hostCmdComplete ok]) ∧
    (bit c.arg1 1 = false ∨ s.linkFeature 1 = true → g.gate = 1 → ∃ t, exec (.gateOpen c) s = .next t ∧ (t.sealed_.get r).gate = 0 ∧
      (t.sealed_.get r).waiting = [] ∧
      t.agenda = s.agenda ++ g.waiting.map (fun k => Event.hostCmdComplete { k with status := 3 }) ++ [Event.hostCmdComplete ok]) ∧
    (bit c.arg1 1 = true → s.linkFeature 1 = false → ∃ t, exec (.gateOpen c) s = .next t ∧ t.sealed_ = s.sealed_ ∧
      t.agenda = s.agenda ++ [Event.hostCmdComplete (s.completion c 3 0 [])]) ∧
    (bit c.arg1 1 = true → s.linkFeature 1 = true → g.gate = 2 →
      (s.regionDigest c = c.body.take 32 → ∃ t, exec (.gateOpen c) s = .next t ∧ (t.sealed_.get r).gate = 0 ∧
        t.agenda = s.agenda ++ [Event.hostCmdComplete ok]) ∧
      (s.regionDigest c ≠ c.body.take 32 → ∃ t, exec (.gateOpen c) s = .next t ∧ t.sealed_ = s.sealed_ ∧
        t.agenda = s.agenda ++ [Event.hostCmdComplete (s.completion c 9 0 [])])) := by
  intro r g ok
  have answers {a : CmdAnswer} (h : s.openAnswer c = a) := gateOpen_answers can good op opens h
  have region : (s.opened c).sealed_.get r = { g with gate := 0, waiting := [] } := s.get_modSealed r _
  refine ⟨fun plain still => ?_, fun agreed closing => ?_, fun asks without => ?_, fun asks agreed drained => ?_⟩
  · have known := State.digestUnknown_of_agreed (s := s) (.inl plain)
    refine ⟨_, answers ((if_neg (by simp [known])).trans ((if_neg still).trans (if_neg (by simp [plain])))), ?_⟩
    have base : ((s.opened c).sealed_.get r).base = g.base := by rw [region]
    have size : ((s.opened c).sealed_.get r).size = g.size := by rw [region]
    exact ⟨congrArg Sealed.gate region, base, size, rfl⟩
  · have known := State.digestUnknown_of_agreed agreed
    refine ⟨_, answers ((if_neg (by simp [known])).trans (if_pos closing)), ?_⟩
    exact ⟨congrArg Sealed.gate region, congrArg Sealed.waiting region, rfl⟩
  · exact ⟨_, answers (if_pos (State.digestUnknown_of_without asks without)), rfl, rfl⟩
  · have known := State.digestUnknown_of_agreed (c := c) (.inr agreed)
    have standing : g.gate ≠ 1 := fun closing => absurd (drained.symm.trans closing) (by decide)
    have measured : (decide (g.gate = 2) && bit c.arg1 1) = true := by simp [asks, drained]
    have checks {a : CmdAnswer} (h : _ = a) := answers ((if_neg (by simp [known])).trans
      ((if_neg standing).trans ((if_pos measured).trans h)))
    have pending := (s.toMgmt.opened c).extendMeas_agenda 3 (bytesOf r 1 ++ s.regionDigest c)
    exact ⟨fun same => ⟨_, checks (if_pos same), congrArg Sealed.gate region, congrArg (· ++ [Event.hostCmdComplete ok]) pending⟩,
      fun differs => ⟨_, checks (if_neg differs), rfl, rfl⟩⟩

/-- ATTEST (R55, R71). -/
theorem attest_reports (op : c.op = 6) :
    (s.linkFeature 0 = true → 2676 ≤ c.len → s.sec.recovery = false → s.sec.idKey = true →
      ∃ t sig, exec (.attest c) s = .next t ∧ sig.length = 2420 ∧ sig.take 2420 = padTo 2420 (Config.sign s.sec.xi (s.reportBody c)) ∧
        t.agenda = s.agenda ++ [Event.hostCmdComplete (s.completion c 0 0 (s.reportBody c ++ sig))]) ∧
    ((s.linkFeature 0 = false ∨ c.len < 2676 ∨ s.sec.recovery = true ∨ s.sec.idKey = false) →
      ∃ t, exec (.attest c) s = .next t ∧ t.agenda = s.agenda ++ [Event.hostCmdComplete (s.completion c 3 0 [])]) := by
  refine ⟨fun agreed room image key => ?_, fun unable => ?_⟩
  · have able : s.attestUnable c = false := by simp [State.attestUnable, agreed, room, image, key]
    have long := length_padTo 2420 (Config.sign s.sec.xi (s.reportBody c))
    exact ⟨_, _, attest_answers can good op (if_neg (by simp [able])), long, List.take_of_length_le long.le, rfl⟩
  · have cannot : s.attestUnable c = true := by rcases unable with h | h | h | h <;> simp [State.attestUnable, h]
    exact ⟨_, attest_answers can good op (if_pos cannot), rfl⟩

end

/-- Settles O45: the two forms of GATE and ATTEST by what each answers, a drained region by its event, and the write of an entry by the
clusters that it waits for. -/
theorem gatesAndPartitions : Obligations.GatesAndPartitions := by
  unfold Obligations.GatesAndPartitions
  intro s
  refine ⟨fun c can good => ⟨gateClose_closes can good, gateOpen_opens can good, attest_reports can good⟩, fun r closing unbound => ?drained,
    fun p e => ⟨fun field => ?refused, fun clmask low high good waits => ?waits, fun clmask low high good free => ?stands⟩⟩
  case drained =>
    have region := s.get_modSealed r (fun k => { k with gate := 2, waiting := [] })
    exact ⟨_, gateDrained_completes closing unbound, congrArg Sealed.gate region, congrArg Sealed.waiting region, rfl⟩
  case refused => exact (exec_partitionEntryWrite p e s).trans (congrArg _ (if_pos (s.toMgmt.entryBad_of_field (e := entryStored e) field)))
  case waits => exact partitionEntryWrite_waits (entryStored_of_fits clmask low high) good ((s.entryWaits_iff e).mpr waits)
  case stands =>
    refine partitionEntryWrite_stands (entryStored_of_fits clmask low high) good (Bool.eq_false_iff.mpr fun waits => ?_)
    obtain ⟨c, below, mine, erasing⟩ := (s.entryWaits_iff e).mp waits
    exact absurd erasing (by simp [free c below mine])

end Sys2Proof.Machine
end

section
/-! Launch queues: submissions, LQ.CFG and the periods of a queue (R60, R63, R81, R82, R84, R283, R457). -/

namespace Sys2Proof.Machine

/-! ## Submissions (R63, R81, R283) -/

/-- A submission's status and the state after it: one of a partition that has ended is dropped. -/
def State.submission (s : State) (r : Submission) : Nat × State :=
  if [0, 5].contains (s.part.get r.part).state then (stREFUSED, s) else s.submit r

/-- A record on its way to its queue, with the dependences that it does not have already met. -/
def State.recordOf (s : State) (r : Submission) : LaunchRec :=
  { uid := s.uid, bytes := r.record, placed := 0, dep0 := wordAt r.record 48 == 0, dep1 := wordAt r.record 56 == 0 }

/-- The record has joined its queue. -/
def State.joined (s : State) (r : Submission) : State :=
  { s with uid := s.uid + 1, launch := s.launch.modify r.q (fun l => { l with recs := l.recs ++ [s.recordOf r] }),
           records := assocSet s.records s.uid (s.recordOf r).tasks }

/-- The status goes to the register that waits for it, or completes the host's command. -/
def State.answerSubmitter (s : State) (r : Submission) (st : Nat) : State :=
  let replied := match r.reply with
    | some d => s.push (.pendingValueArrive d (.value (ofN st)))
    | none => s
  match r.host with
  | some c => replied.push (.hostCmdComplete { c with status := st })
  | none => replied

theorem exec_launchSubmit (r : Submission) (s : State) :
    exec (.launchSubmit r) s = .next ((s.submission r).2.answerSubmitter r (s.submission r).1) := rfl

section
variable {s : State} {r : Submission}

theorem State.submission_ended (ended : (s.part.get r.part).state = 0 ∨ (s.part.get r.part).state = 5) :
    s.submission r = (stREFUSED, s) :=
  if_pos (by simpa using ended)

/-- A record that is not well formed is refused, whatever its partition does. -/
theorem State.submission_bad (bad : s.recordBad r.part r.record = true) : s.submission r = (stREFUSED, s) := by
  unfold State.submission
  split
  · rfl
  · exact if_pos bad

theorem State.submission_taken (stands : (s.part.get r.part).state ≠ 0 ∧ (s.part.get r.part).state ≠ 5)
    (good : s.recordBad r.part r.record = false) :
    s.submission r = if 256 ≤ (s.launch.get r.q).recs.length then (stFULL, s) else (stOK, s.joined r) := by
  refine (if_neg ?_).trans (if_neg (by simp [good]))
  simpa using stands

/-- The submitter's register gets the status. -/
theorem launchSubmit_replies {d : RegDest} (reply : r.reply = some d) (host : r.host = none) {st : Nat} {t : State}
    (h : s.submission r = (st, t)) : exec (.launchSubmit r) s = .next (t.push (.pendingValueArrive d (.value (ofN st)))) := by
  rw [exec_launchSubmit, h, State.answerSubmitter, reply, host]

/-- The host's command completes with the status. -/
theorem launchSubmit_completes {c : HostCompletion} (reply : r.reply = none) (host : r.host = some c) {st : Nat} {t : State}
    (h : s.submission r = (st, t)) : exec (.launchSubmit r) s = .next (t.push (.hostCmdComplete { c with status := st })) := by
  rw [exec_launchSubmit, h, State.answerSubmitter, reply, host]

end

/-- A record with a field outside its limits is refused (R63). -/
theorem State.recordBad_of_field (s : State) (part : Nat) {b : List Byte}
    (h : fieldAt b 0 4 % 4 = 3 ∨ 8 < fieldAt b 0 4 / 2 ^ 16 % 16 ∨ fieldAt b 32 4 = 0 ∨ fieldAt b 36 4 = 0 ∨ bit (wordAt b 8) 5 = true ∨
      fieldAt b 40 1 % 8 ≠ 0) : s.recordBad part b = true := by
  simp only [State.recordBad, Bool.or_eq_true, beq_iff_eq, bne_iff_ne, decide_eq_true_eq]
  tauto

/-! ## LQ.CFG and periods (R82, R84) -/

/-- Where no task runs, nothing is charged. -/
theorem State.charge_idle {s : State} (idle : s.tasks = []) : s.charge = s := by
  rw [State.charge, idle, List.foldl_nil, List.map_nil, ← idle]

/-- A queue at the start of a period. -/
def LaunchQ.started (l : LaunchQ) (start : Nat) : LaunchQ :=
  { l with left := (l.budget : Int) * 8192 + min l.left 0, raised := false,
           dl := if l.period = 0 then BitVec.allOnes 64 else ofN (start + l.period * 1024) }

theorem State.startPeriod_idle {s : State} (idle : s.tasks = []) (q start : Nat) :
    (s.startPeriod q start).launch.get q = (s.launch.get q).started start := by
  unfold State.startPeriod
  rw [State.charge_idle idle]
  simp only [LaunchQ.started, Nat.cast_mul, Nat.cast_ofNat, Tab.get_set_same]

/-- A queue as a write of LQ.CFG sets it. -/
def LaunchQ.configured (l : LaunchQ) (v : Word) : LaunchQ :=
  { l with en := bit v 63, budget := bits v 48 28, period := bits v 19 0 }

/-- A write of LQ.CFG alters what an enabled queue must keep. -/
def LaunchQ.alters (l : LaunchQ) (v : Word) : Prop := bits v 48 28 ≠ l.budget ∨ bits v 19 0 ≠ l.period

theorem LaunchQ.alters_iff (l : LaunchQ) (v : Word) : (l.budget != bits v 48 28 || l.period != bits v 19 0) = true ↔ l.alters v := by
  simp only [LaunchQ.alters, Bool.or_eq_true, bne_iff_ne, ne_comm]

/-- The queue holds the fields of the write. -/
def State.configureQueue (s : State) (q : Nat) (v : Word) : State :=
  { s with launch := s.launch.set q ((s.launch.get q).configured v) }

@[simp] theorem State.get_configureQueue (s : State) (q : Nat) (v : Word) :
    (s.configureQueue q v).launch.get q = (s.launch.get q).configured v :=
  Tab.get_set_same ..

/-- A queue that is disabled has no deadline and no reservation. -/
def State.disableQueue (s : State) (q : Nat) : State :=
  { s with launch := s.launch.modify q (fun l => { l with dl := BitVec.allOnes 64 }),
           reserved := s.reserved.filter (fun r => r.2.1 != q) }

theorem exec_launchQueueCfgWrite (q : Nat) (v : Word) (s : State) : exec (.launchQueueCfgWrite q v) s = .next (s.writeLqCfg q v) := rfl

section
variable {s : State} {q : Nat} {v : Word}

theorem State.writeLqCfg_ignored (on : (s.launch.get q).en = true) (alters : (s.launch.get q).alters v) : s.writeLqCfg q v = s :=
  if_pos (Bool.and_eq_true_iff.mpr ⟨on, (LaunchQ.alters_iff _ v).mpr alters⟩)

theorem State.writeLqCfg_obeyed (h : (s.launch.get q).en = true → ¬ (s.launch.get q).alters v) : s.writeLqCfg q v =
    if bit v 63 && !(s.launch.get q).en && bits v 19 0 != 0 then (s.configureQueue q v).startPeriod q s.time
    else if !bit v 63 then (s.configureQueue q v).disableQueue q
    else s.configureQueue q v := by
  refine if_neg fun ignored => ?_
  obtain ⟨on, alters⟩ := Bool.and_eq_true_iff.mp ignored
  exact h on ((LaunchQ.alters_iff _ v).mp alters)

theorem State.writeLqCfg_enables (off : (s.launch.get q).en = false) (on : bit v 63 = true) (idle : s.tasks = []) :
    (s.writeLqCfg q v).launch.get q = if bits v 19 0 = 0 then (s.launch.get q).configured v
      else ((s.launch.get q).configured v).started s.time := by
  rw [State.writeLqCfg_obeyed (by simp [off]), off, on]
  by_cases period : bits v 19 0 = 0
  · simp [period]
  · simp [period, State.startPeriod_idle (s := s.configureQueue q v) idle]

theorem State.writeLqCfg_disables (off : bit v 63 = false) (same : ¬ (s.launch.get q).alters v) :
    s.writeLqCfg q v = (s.configureQueue q v).disableQueue q := by
  rw [State.writeLqCfg_obeyed fun _ => same, off]
  rfl

end

theorem exec_periodStart (q : Nat) (s : State) : exec (.periodStart q) s = .next
    (if (s.launch.get q).en && (s.launch.get q).period != 0 then
      s.startPeriod q (if (s.launch.get q).dl = BitVec.allOnes 64 then s.time else (s.launch.get q).dl.toNat)
     else s) := rfl

/-! ## CORE.MQCAP (R457) -/

theorem exec_coreMqcapWrite (core : Nat) (v : Word) (s : State) :
    exec (.coreMqcapWrite core v) s = .next (s.modCore core (fun c => { c with mqcap := ofN (bits v 6 0) })) := rfl

end Sys2Proof.Machine
end

section
/-! The dependences of the head of a launch queue, and the statement of launch queues (R60, R62, R63, R76, R81, R82, R84, R85, R283, R457). -/

namespace Sys2Proof.Machine

/-! ## What a walk leaves of a state with which nothing interferes -/

theorem State.sameButWalk_quiet {s u : State} (walked : u.sameButWalk s) (h : s.Quiet) : u.Quiet := by
  obtain ⟨-, clusters, -, mem⟩ := id walked
  obtain ⟨-, bad, partials⟩ := mem h.uline
  obtain ⟨-, -, -, -, -, -, owned, -⟩ := State.sameButWalk_cur walked
  exact ⟨owned.trans h.owned, partials.trans h.uline, bad.trans h.badLines, fun cl => by rw [clusters cl]; exact h.ord cl⟩

theorem State.sameButWalk_launch {s u : State} (walked : u.sameButWalk s) : u.launch = s.launch := by
  obtain ⟨-, -, same, -⟩ := walked
  rw [same]

/-! ## One dependence (R62, R76, R85) -/

/-- A job has completed: its record says so, or it has none and was issued. -/
def State.jobMet (s : State) (id : Word) : Bool :=
  match s.jobOf id with
  | some j => j.state == 4
  | none => s.jobIssued id

theorem depTest_job (s : State) (p : Nat) {d : Word} (job : bit d 63 = true) :
    depTest p d s = .ok (.ok (s.jobMet (ofN (bits d 62 0))), s) := by
  have set : d ≠ 0 := by
    rintro rfl
    exact absurd job (by decide)
  unfold depTest
  rw [Act.get_bind, if_neg set, if_pos job]
  rfl

section
variable {s u : State} {p : Nat} {l : Leaf}

/-- An access of the device finds the page of a partition's address. -/
theorem actionLoc_ok {va : Nat} {a : Access} (free : s.holdOn p va = none) (walked : s.walk devWalker p va = (.ok l, u))
    (allowed : s.allows p 0 l.entry (l.phys va) a = true) : actionLoc p va a s = .ok (.ok (l.phys va), u) := by
  unfold actionLoc
  rw [Act.get_bind, if_neg (by simp [free]), walked]
  dsimp only
  rw [Act.set_bind, if_pos allowed]
  rfl

/-- A counter is met when its word is zero. -/
theorem depTest_counter (quiet : s.Quiet) {d : Word} (set : d ≠ 0) (counter : bit d 63 = false) (free : s.holdOn p (bits d 51 0) = none)
    (walked : s.walk devWalker p (bits d 51 0) = (.ok l, u))
    (allowed : s.allows p 0 l.entry (l.phys (bits d 51 0)) .read = true) :
    depTest p d s = .ok (.ok (s.wordAtLoc (l.phys (bits d 51 0)) == 0), u) := by
  have frame := walk_frame s devWalker p (bits d 51 0)
  rw [walked] at frame
  obtain ⟨mem, -, -⟩ := frame.2.2.2 quiet.uline
  have after := State.sameButWalk_quiet frame quiet
  have word : u.wordAtLoc (l.phys (bits d 51 0)) = s.wordAtLoc (l.phys (bits d 51 0)) := by rw [State.wordAtLoc, State.wordAtLoc, mem]
  unfold depTest
  rw [Act.get_bind, if_neg set, if_neg (by simp [counter]), Act.bind_ok (actionLoc_ok free walked allowed)]
  dsimp only
  rw [Act.get_bind, if_neg (by simp [State.badRange_of_quiet after]), Act.bind_ok (remoteEnter_of_quiet after ..), Act.get_bind, word]
  rfl

end

/-! ## The head of a queue (R62, R85) -/

theorem State.runEng_ok {s t : State} {m : Act Unit} (h : m s = .ok ((), t)) : s.runEng m = t := by
  rw [State.runEng, h]

theorem exec_dependenceTest {s t : State} {q : Nat} (h : dependenceAct q s = .ok ((), t)) : exec (.dependenceTest q) s = .next t :=
  congrArg Host.Outcome.next (State.runEng_ok h)

/-- The dependences of a record of a queue as they were found. -/
def State.dependencesFound (s : State) (q uid : Nat) (m0 m1 : Bool) : State :=
  { s with launch := s.launch.modify q (fun l =>
      { l with recs := l.recs.map (fun y => if y.uid = uid then { y with dep0 := m0, dep1 := m1 } else y) }) }

section
variable {s t : State} {q p : Nat} {r : LaunchRec} {rest : List LaunchRec} (head : (s.launch.get q).recs = r :: rest)
  (part : s.partOfQueue q = some p)
include head part

theorem dependenceAct_empty (empty : r.tasks = 0) : dependenceAct q s = .ok ((), s.removeHead q r.uid) := by
  unfold dependenceAct
  rw [Act.get_bind, head, part]
  dsimp only
  rw [if_pos empty]
  rfl

theorem dependenceAct_first (tasks : r.tasks ≠ 0) (shape : s.shapeBad p r = false) (open_ : r.dep0 = false) (met : r.dep1 = true)
    {m : Bool} (test : depTest p (wordAt r.bytes 48) s = .ok (.ok m, t)) :
    dependenceAct q s = .ok ((), t.dependencesFound q r.uid m true) := by
  unfold dependenceAct
  rw [Act.get_bind, head, part]
  dsimp only
  rw [if_neg tasks, if_neg (by simp [shape]), if_neg (by simp [open_]), Act.bind_ok test]
  dsimp only
  rw [if_pos met]
  rfl

end

theorem State.removeHead_recs {s : State} {q : Nat} {r : LaunchRec} {rest : List LaunchRec} (head : (s.launch.get q).recs = r :: rest) :
    ((s.removeHead q r.uid).launch.get q).recs = rest := by
  show ((s.launch.modify q (fun l => { l with recs := l.recs.drop 1 })).get q).recs = rest
  rw [Tab.get_modify_same, head]
  rfl

/-- Only the head bears its number. -/
theorem State.dependencesFound_recs {s : State} {q : Nat} {r : LaunchRec} {rest : List LaunchRec}
    (head : (s.launch.get q).recs = r :: rest) (met : r.dep1 = true) (fresh : ∀ y ∈ rest, y.uid ≠ r.uid) (m : Bool) :
    ((s.dependencesFound q r.uid m true).launch.get q).recs = { r with dep0 := m } :: rest := by
  have others : rest.map (fun y => if y.uid = r.uid then { y with dep0 := m, dep1 := true } else y) = rest :=
    (List.map_congr_left fun y listed => if_neg (fresh y listed)).trans (List.map_id rest)
  rw [State.dependencesFound, Tab.get_modify_same, head, List.map_cons, others, if_pos rfl, ← met]

/-- The first dependence of a head whose second is met. -/
theorem dependenceTest_first {s t : State} {q p : Nat} {r : LaunchRec} {rest : List LaunchRec} (head : (s.launch.get q).recs = r :: rest)
    (part : s.partOfQueue q = some p) (tasks : r.tasks ≠ 0) (shape : s.shapeBad p r = false) (open_ : r.dep0 = false) (met : r.dep1 = true)
    (fresh : ∀ y ∈ rest, y.uid ≠ r.uid) {m : Bool} (test : depTest p (wordAt r.bytes 48) s = .ok (.ok m, t)) (launch : t.launch = s.launch)
    (mem : t.mem = s.mem) : ∃ u, exec (.dependenceTest q) s = .next u ∧ u.mem = s.mem ∧
      (u.launch.get q).recs = { r with dep0 := m } :: rest :=
  ⟨_, exec_dependenceTest (dependenceAct_first head part tasks shape open_ met test), mem,
    State.dependencesFound_recs (by rw [launch, head]) met fresh m⟩

/-! ## The statement -/

/-- LQ.CFG (R82, R84). -/
theorem launchQueueCfg_sets (s : State) (q : Nat) (v : Word) :
    let l := s.launch.get q
    (l.en = true → (bits v 48 28 ≠ l.budget ∨ bits v 19 0 ≠ l.period) → exec (.launchQueueCfgWrite q v) s = .next s) ∧
    (l.en = false → bit v 63 = true → s.tasks = [] → ∃ t, exec (.launchQueueCfgWrite q v) s = .next t ∧
      let m := t.launch.get q
      m.en = true ∧ m.budget = bits v 48 28 ∧ m.period = bits v 19 0 ∧ m.recs = l.recs ∧
        m.left = (if bits v 19 0 = 0 then l.left else (bits v 48 28 : Int) * 8192 + min l.left 0) ∧
        m.dl = (if bits v 19 0 = 0 then l.dl else BitVec.ofNat 64 (s.time + bits v 19 0 * 1024))) ∧
    (bit v 63 = false → bits v 48 28 = l.budget → bits v 19 0 = l.period → ∃ t, exec (.launchQueueCfgWrite q v) s = .next t ∧
      (t.launch.get q).en = false ∧ (t.launch.get q).dl = BitVec.allOnes 64 ∧ (t.launch.get q).recs = l.recs ∧
      ∀ r ∈ t.reserved, r.2.1 ≠ q) := by
  refine ⟨fun on alters => congrArg _ (State.writeLqCfg_ignored on alters), fun off on idle => ⟨_, exec_launchQueueCfgWrite q v s, ?_⟩,
    fun off budget period => ⟨_, (exec_launchQueueCfgWrite q v s).trans (congrArg _ (State.writeLqCfg_disables off ?_)), ?_⟩⟩
  · dsimp only
    rw [State.writeLqCfg_enables off on idle]
    by_cases period : bits v 19 0 = 0
    · simp [period, LaunchQ.configured, on]
    · simp [period, LaunchQ.configured, LaunchQ.started, on, ofN]
  · simp [LaunchQ.alters, budget, period]
  · simp [State.disableQueue, LaunchQ.configured, off]

/-- A period begins at the end of the last (R84). -/
theorem periodStart_starts (s : State) (q : Nat) :
    let l := s.launch.get q
    (l.en = false ∨ l.period = 0 → exec (.periodStart q) s = .next s) ∧
    (l.en = true → l.period ≠ 0 → s.tasks = [] → ∃ t, exec (.periodStart q) s = .next t ∧
      (t.launch.get q).left = (l.budget : Int) * 8192 + min l.left 0 ∧ (t.launch.get q).raised = false ∧ (t.launch.get q).dl =
        BitVec.ofNat 64 ((if l.dl = BitVec.allOnes 64 then s.time else l.dl.toNat) + l.period * 1024)) := by
  refine ⟨fun rests => (exec_periodStart q s).trans (congrArg _ (if_neg ?_)), fun on period idle =>
    ⟨_, (exec_periodStart q s).trans (congrArg _ (if_pos ?_)), ?_⟩⟩
  · rcases rests with off | aperiodic
    · simp [off]
    · simp [aperiodic]
  · simp [on, period]
  · rw [State.startPeriod_idle idle]
    exact ⟨rfl, rfl, if_neg period⟩

/-- Settles O48: a submission by its status, the registers of a queue and of a core, the start of a period, and the head's dependences by
what the test of one answers. -/
theorem launchQueues : Obligations.LaunchQueues := by
  unfold Obligations.LaunchQueues
  intro s
  refine ⟨fun r d reply host ended => launchSubmit_replies reply host (State.submission_ended ended), fun r d reply host lives stands =>
    ⟨fun bad => launchSubmit_replies reply host (State.submission_bad bad), fun good full => ?full, fun good room => ?joins⟩,
    fun r c reply host bad => launchSubmit_completes reply host (State.submission_bad bad), fun part b field => s.recordBad_of_field part field,
    launchQueueCfg_sets s, fun core v => ⟨_, exec_coreMqcapWrite core v s, ?mqcap⟩, periodStart_starts s,
    fun q p r rest head part => ⟨fun empty => ?empty, fun tasks shape open_ met fresh job => ?job,
      fun l u tasks shape open_ met fresh set counter free walked allowed still => ?counter⟩⟩
  case full => exact launchSubmit_replies reply host ((State.submission_taken ⟨lives, stands⟩ good).trans (if_pos full))
  case joins =>
    have taken := (State.submission_taken ⟨lives, stands⟩ good).trans (if_neg (Nat.not_le.mpr room))
    have queue : (s.joined r).launch.get r.q = { s.launch.get r.q with recs := (s.launch.get r.q).recs ++ [s.recordOf r] } :=
      Tab.get_modify_same ..
    exact ⟨_, s.recordOf r, launchSubmit_replies reply host taken, congrArg LaunchQ.recs queue, rfl, rfl, rfl,
      fun q other => Tab.get_modify_ne _ _ _ _ other, rfl⟩
  case mqcap =>
    rw [State.coreAt_modCore_same]
    exact ⟨rfl, rfl, rfl⟩
  case empty => exact ⟨_, exec_dependenceTest (dependenceAct_empty head part empty), State.removeHead_recs head, rfl⟩
  case job => exact dependenceTest_first head part tasks shape open_ met fresh (depTest_job s p job) rfl rfl
  case counter =>
    have frame := walk_frame s devWalker p (bits (wordAt r.bytes 48) 51 0)
    rw [walked] at frame
    exact dependenceTest_first head part tasks shape open_ met fresh (depTest_counter still.quiet set counter free walked allowed)
      (State.sameButWalk_launch frame) (frame.2.2.2 still.quiet.uline).1

end Sys2Proof.Machine
end

section
/-! Taking a trap, and the trap of a poisoned register (R97, R119, R120, R196, R272 to R274). -/

namespace Sys2Proof.Machine

/-! ## ECAUSE (R272) -/

theorem ecauseOf_toNat (t : Trap) (handler intv : Bool) : (ecauseOf t handler intv).toNat =
    t.cause % 256 + t.eng.toNat * 2 ^ 8 + handler.toNat * 2 ^ 10 + t.pois.toNat * 2 ^ 11 + intv.toNat * 2 ^ 12 := by
  have eng := t.eng.toNat_le
  have han := handler.toNat_le
  have pois := t.pois.toNat_le
  have inv := intv.toNat_le
  rw [ecauseOf, ofN, BitVec.toNat_ofNat]
  omega

theorem ecauseOf_fields (t : Trap) (handler intv : Bool) :
    bits (ecauseOf t handler intv) 7 0 = t.cause % 256 ∧ bit (ecauseOf t handler intv) 8 = t.eng ∧
      bit (ecauseOf t handler intv) 10 = handler ∧ bit (ecauseOf t handler intv) 11 = t.pois ∧
      bit (ecauseOf t handler intv) 12 = intv := by
  have eng := t.eng.toNat_le
  have han := handler.toNat_le
  have pois := t.pois.toNat_le
  have inv := intv.toNat_le
  have value := ecauseOf_toNat t handler intv
  refine ⟨?_, bit_eq_of_toNat ?_, bit_eq_of_toNat ?_, bit_eq_of_toNat ?_, bit_eq_of_toNat ?_⟩
  · rw [bits, value]; omega
  all_goals rw [value]; omega

/-! ## Delivery (R273, R274) -/

/-- A context that enters its TVEC handler for a trap (R273). -/
def Ctx.entersTvec (c : Ctx) (t : Trap) : Ctx :=
  { c with pc := c.trap.tvec, sleep := none, xread := none,
           trap := { c.trap with epc := t.epc, ecause := ecauseOf t false true, eaddr := t.eaddr, einfo := t.einfo, ejob := t.job } }

/-- A context that parks for a trap with the ECAUSE and the park count given, as a handler or not (R274). -/
def Ctx.parks (c : Ctx) (t : Trap) (ec : Word) (count : Nat) (handler : Bool) : Ctx :=
  { c with phase := .parked, parkCount := count, sleep := none, xread := none, pc := t.epc,
           blocked := c.blocked.filter (fun r => r.kind != .withdraw), sendBuf := if handler then [] else c.sendBuf, deferred := false,
           trap := { c.trap with epc := t.epc, ecause := ec, eaddr := t.eaddr, einfo := t.einfo, ejob := t.job } }

/-- The trap goes to the context's TVEC handler (R273). -/
def State.tvecTakes (s : State) (core k : Nat) (t : Trap) : Prop :=
  (tvecCause t.cause = true ∨ t.eng = true) ∧ (s.ctxAt core k).trap.tvec ≠ 0 ∧ k < 4 ∧ (s.ctxAt core k).intv = false

theorem tvecCause_iff (c : Nat) : tvecCause c = true ↔ c ∈ [11, 12, 13, 14, 17, 18] := List.contains_iff_mem

theorem deliverTrap_tvec {s : State} {core k : Nat} {t : Trap} (h : s.tvecTakes core k t) :
    s.deliverTrap core k t = s.modCtx core k (·.entersTvec t) := by
  obtain ⟨level, tvec, task, outside⟩ := h
  have takes : ((tvecCause t.cause || t.eng) && (s.ctxAt core k).trap.tvec != 0 && !decide (4 ≤ k) && !(s.ctxAt core k).intv) = true := by
    simp only [Bool.and_eq_true, Bool.or_eq_true, bne_iff_ne, Bool.not_eq_true', decide_eq_false_iff_not, Nat.not_le]
    exact ⟨⟨⟨level, tvec⟩, task⟩, outside⟩
  exact if_pos takes

/-- The device when the thread's clock has stopped and, for a handler, its entry has gone back to its queue (R103, R117). -/
def State.aborted (s : State) (core k : Nat) : State :=
  (if decide (4 ≤ k) = true then s.abortEntry core (s.ctxAt core k).work else s).stopClock core k

/-- The record of a parked context for the supervisor of its partition (R274). -/
def State.parkRecord (s : State) (core k : Nat) (t : Trap) (ec : Word) (count : Nat) : TrapRecord :=
  let c := s.ctxAt core k
  { part := (s.partOfCore core).getD 0, score := core, backoff := 64,
    words := [ec, t.epc, t.eaddr, t.einfo, t.job, parkHandle core k count, c.ident.taskId,
      if decide (4 ≤ k) = true then c.msgr.id else 0] }

theorem deliverTrap_parks {s : State} {core k : Nat} {t : Trap} (h : ¬ s.tvecTakes core k t) :
    s.deliverTrap core k t =
      let c := s.ctxAt core k
      let count := (c.parkCount + 1) % 2 ^ 32
      let ec := ecauseOf t (decide (4 ≤ k)) c.intv
      ((s.aborted core k).modCtx core k (·.parks t ec count (decide (4 ≤ k)))).push
        (.trapDeliverSupervisor (s.parkRecord core k t ec count)) := by
  have parks : ¬ ((tvecCause t.cause || t.eng) && (s.ctxAt core k).trap.tvec != 0 && !decide (4 ≤ k) && !(s.ctxAt core k).intv) = true := by
    simp only [Bool.and_eq_true, Bool.or_eq_true, bne_iff_ne, Bool.not_eq_true', decide_eq_false_iff_not, Nat.not_le]
    exact fun ⟨⟨⟨level, tvec⟩, task⟩, outside⟩ => h ⟨level, tvec, task, outside⟩
  exact if_neg parks

theorem modTask_keepsWork (s : State) (id : Nat) (f : Task → Task) : s.KeepsWork (s.modTask id f) := by
  unfold State.modTask
  split
  · exact ⟨rfl, rfl, rfl, rfl, rfl, rfl, fun _ _ => .refl _⟩
  · exact .refl s

theorem abortEntry_keepsWork (s : State) (core : Nat) (w : Work) : s.KeepsWork (s.abortEntry core w) := by
  unfold State.abortEntry
  split
  · exact modCore_keepsWork s core fun _ => rfl
  · exact modCore_keepsWork s core fun _ => rfl
  · exact .refl s

theorem stopClock_keepsWork (s : State) (core k : Nat) : s.KeepsWork (s.stopClock core k) := by
  unfold State.stopClock
  split
  · exact modTask_keepsWork ..
  · exact modCtx_keepsWork s core k fun _ => ⟨rfl, rfl, rfl, rfl, rfl⟩

theorem aborted_keepsWork (s : State) (core k : Nat) : s.KeepsWork (s.aborted core k) := by
  unfold State.aborted
  split
  · exact (abortEntry_keepsWork ..).trans (stopClock_keepsWork ..)
  · exact stopClock_keepsWork ..

theorem abortEntry_agenda (s : State) (core : Nat) (w : Work) : (s.abortEntry core w).agenda = s.agenda := by cases w <;> rfl

theorem modTask_agenda (s : State) (id : Nat) (f : Task → Task) : (s.modTask id f).agenda = s.agenda := by
  unfold State.modTask
  split <;> rfl

theorem stopClock_agenda (s : State) (core k : Nat) : (s.stopClock core k).agenda = s.agenda := by
  unfold State.stopClock
  split
  · exact modTask_agenda ..
  · rfl

theorem aborted_agenda (s : State) (core k : Nat) : (s.aborted core k).agenda = s.agenda := by
  unfold State.aborted
  rw [stopClock_agenda]
  split
  · exact abortEntry_agenda ..
  · rfl

/-- The context of a trap that parks, in full. -/
theorem takeTrap_parks_ctxAt {s : State} {core k : Nat} {t : Trap} (spec : s.specAt core k = false) (pend : (s.ctxAt core k).pend = 0)
    (parks : ¬ s.tvecTakes core k t) : (s.takeTrap core k t).ctxAt core k = ((s.aborted core k).ctxAt core k).parks t
      (ecauseOf t (decide (4 ≤ k)) (s.ctxAt core k).intv) (((s.ctxAt core k).parkCount + 1) % 2 ^ 32) (decide (4 ≤ k)) := by
  rw [takeTrap_now t spec pend, deliverTrap_parks parks]
  exact State.ctxAt_modCtx_same ..

/-- What a trap that parks leaves of its context, of memory and of the events in flight (R272, R274). -/
theorem takeTrap_parks {s : State} {core k : Nat} {t : Trap} (spec : s.specAt core k = false) (pend : (s.ctxAt core k).pend = 0)
    (parks : ¬ s.tvecTakes core k t) :
    let c := s.ctxAt core k
    let u := s.takeTrap core k t
    let d := u.ctxAt core k
    d.phase = .parked ∧ d.pc = t.epc ∧ d.trap.epc = t.epc ∧ d.trap.ecause = ecauseOf t (decide (4 ≤ k)) c.intv ∧
      d.trap.eaddr = t.eaddr ∧ d.trap.einfo = t.einfo ∧ d.parkCount = (c.parkCount + 1) % 2 ^ 32 ∧ d.g = c.g ∧ u.mem = s.mem ∧
      u.agenda = s.agenda ++ [.trapDeliverSupervisor (s.parkRecord core k t d.trap.ecause d.parkCount)] := by
  intro c u d
  have ctx : d = _ := takeTrap_parks_ctxAt spec pend parks
  rw [ctx]
  refine ⟨rfl, rfl, rfl, rfl, rfl, rfl, rfl, ((aborted_keepsWork s core k).ctxs core k).g, takeTrap_mem .., ?_⟩
  rw [show u = _ from (takeTrap_now t spec pend).trans (deliverTrap_parks parks)]
  exact congrArg (· ++ [_]) (aborted_agenda s core k)

/-! ## The trap of a poisoned register (R120, R196) -/

/-- The trap that the mark `p` raises in the running thread. -/
def State.poisonTrap (s : State) (p : Poison) : Trap :=
  { cause := p.cause, epc := s.me.pc, eaddr := p.addr, einfo := p.info, pois := true, eng := false, job := 0 }

theorem runAct_poison {m : Act Unit} {s : State} {t : Trap} {r : Nat} (h : m s = .error (.trap t (some r))) :
    runAct m s = .next (((s.farClear (8 * s.curCore + s.curCtx)).modMe
      (fun c => { c with seen := c.seen ||| BitVec.ofNat 16 (2 ^ r) })).takeTrap s.curCore s.curCtx t) := by
  simp [runAct, h]

section
variable {s : State} {r : Nat} {p : Poison} (streams : s.me.streams = []) (pend : s.me.pend = 0) (mark : s.me.poison = [(r, p)])
  (unseen : s.me.seen.getLsbD r = false)

include streams in
theorem streamOf_of_noStreams (k : Nat) : s.streamOf k = none := by
  rw [State.streamOf, streams]
  rfl

include pend in
theorem waitPend_of_nonePending (ks : List Nat) : waitPend ks s = .ok ((), s) :=
  waitPend_ok fun k _ => by rw [pend]; exact BitVec.getLsbD_zero

include mark unseen in
theorem poisonCheck_traps {js : List Nat} (reads : r ∈ js) : poisonCheck js s = .error (.trap (s.poisonTrap p) (some r)) := by
  have found : s.me.poison.find? (fun q => js.contains q.1 && !s.me.seen.getLsbD q.1) = some (r, p) := by
    rw [mark]
    exact List.find?_cons_of_pos (by simp [reads, unseen])
  unfold poisonCheck
  rw [found]
  rfl

include streams pend mark unseen in
theorem prepS_poisoned {op : Nat} {srcs dsts : List Nat} (reads : r ∈ srcs) (reg : r < 16) :
    prepS op srcs dsts [] s = .error (.trap (s.poisonTrap p) (some r)) := by
  have plain := streamOf_of_noStreams streams
  unfold prepS
  rw [Act.get_bind]
  dsimp only
  rw [if_neg (by simp [plain]), Act.bind_ok (waitPend_of_nonePending pend _)]
  exact poisonCheck_traps mark unseen (by simp [reads, reg])

include streams pend mark unseen in
theorem prep_poisoned {op : Nat} {srcs dsts : List Nat} (reads : r ∈ srcs) :
    prep op srcs dsts s = .error (.trap (s.poisonTrap p) (some r)) := by
  have plain := streamOf_of_noStreams streams
  have unstreamed : noStream op (srcs ++ dsts) s = .ok ((), s) := by
    unfold noStream
    rw [Act.get_bind, if_neg (by simp [plain])]
    rfl
  unfold prep
  rw [Act.bind_ok unstreamed, Act.bind_ok (waitPend_of_nonePending pend _)]
  exact poisonCheck_traps mark unseen reads

end

/-- Settles O20: a trap is held, enters TVEC or parks its context by what `takeTrap` answers, and each of the four instructions reads the
poisoned register in its operand check. -/
theorem trapsAndPoison : Obligations.TrapsAndPoison := by
  unfold Obligations.TrapsAndPoison
  refine ⟨fun s core k t => ⟨takeTrap_held t, fun spec pend task level tvec outside => ?tvec, fun spec pend other => ?parks⟩,
    fun s d a ty r sat p streams pend mark reg unseen => ⟨?add, ?mov, ?bz, ?migr⟩⟩
  case tvec =>
    have takes : s.tvecTakes core k t := ⟨level.symm.imp_left (tvecCause_iff t.cause).mpr, tvec, task, outside⟩
    obtain ⟨cause, -, -, -, intv⟩ := ecauseOf_fields t false true
    rw [takeTrap_now t spec pend, deliverTrap_tvec takes]
    dsimp only
    rw [State.ctxAt_modCtx_same]
    exact ⟨rfl, rfl, cause, intv, rfl, rfl, rfl, rfl, rfl, rfl, rfl⟩
  case parks =>
    have parks : ¬ s.tvecTakes core k t := by
      rintro ⟨level, tvec, task, outside⟩
      rcases other with none | zero | handler | inside
      · exact none (level.symm.imp_right (tvecCause_iff t.cause).mp)
      · exact tvec zero
      · exact absurd task (Nat.not_lt.mpr handler)
      · exact Bool.false_ne_true (outside.symm.trans inside)
    obtain ⟨phase, pc, epc, ecause, eaddr, einfo, count, g, mem, agenda⟩ := takeTrap_parks spec pend parks
    obtain ⟨cause, eng, handler, pois, -⟩ := ecauseOf_fields t (decide (4 ≤ k)) (s.ctxAt core k).intv
    rw [← ecause] at cause eng handler pois
    refine ⟨phase, pc, epc, cause, handler, pois, eng, eaddr, einfo, count, g, mem, _, agenda, rfl, ?_⟩
    simp only [State.parkRecord, parkHandle, ofN, count, Nat.mod_mod, decide_eq_true_eq]
  case add => exact runAct_poison (Act.bind_error (prepS_poisoned streams pend mark unseen (by simp) reg))
  case mov => exact runAct_poison (Act.bind_error (prepS_poisoned streams pend mark unseen (by simp) reg))
  case bz => exact runAct_poison (Act.bind_error (prepS_poisoned streams pend mark unseen (by simp) reg))
  case migr => exact runAct_poison (Act.bind_error (prep_poisoned streams pend mark unseen (by simp)))

end Sys2Proof.Machine
end

section
/-! SPAWN and SPAWNT (R92, R95, R96, R421, R422). -/

namespace Sys2Proof.Machine

/-! ## Slots, pending registers and the end of an instruction (R119) -/

/-- The state in which the running core has taken one more long-latency slot. -/
def State.slotTaken (s : State) : State := s.modCore s.curCore (fun c => { c with slots := c.slots + 1 })

theorem takeSlot_ok {s : State} (room : (s.coreAt s.curCore).slots < 64) : takeSlot s.curCore s = .ok ((), s.slotTaken) := by
  unfold takeSlot
  rw [Act.get_bind, if_neg (Nat.not_le.mpr room)]
  rfl

theorem me_slotTaken (s : State) : s.slotTaken.me = s.me := State.me_modCore s _ fun _ => rfl

theorem dest_slotTaken (s : State) (a : Nat) : s.slotTaken.dest a = s.dest a := by
  rw [State.dest, me_slotTaken]
  rfl

theorem me_asked (s : State) (a : Nat) : (s.asked a).me =
    { s.me with pend := s.me.pend ||| BitVec.ofNat 16 (2 ^ a), poison := s.me.poison.filter (fun p => p.1 != a) } := by
  have me : (s.asked a).me = (s.slotTaken.modMe (fun c =>
      { c with pend := c.pend ||| BitVec.ofNat 16 (2 ^ a), poison := c.poison.filter (fun p => p.1 != a) })).me := rfl
  rw [me, State.me_modMe, me_slotTaken]

theorem getLsbD_or_twoPow (x : BitVec 16) {a : Nat} (reg : a < 16) : (x ||| BitVec.ofNat 16 (2 ^ a)).getLsbD a = true := by
  rw [BitVec.getLsbD_or, BitVec.getLsbD_ofNat, Nat.testBit_two_pow_self, decide_eq_true reg, Bool.and_self, Bool.or_true]

theorem coreAt_modCtx (s : State) (c k : Nat) (f : Ctx → Ctx) (d : Nat) :
    (s.modCtx c k f).coreAt d = { s.coreAt d with ctx := ((s.modCtx c k f).coreAt d).ctx } := by
  by_cases same : d = c
  · subst same
    rw [State.modCtx, State.coreAt_modCore_same]
  · rw [State.modCtx, State.coreAt_modCore_ne _ _ _ _ same]

/-- Of a core, an instruction that writes a register and goes on changes the contexts alone. -/
theorem coreAt_answered (s : State) (a : Nat) (v : Word) (d : Nat) :
    ((s.setG a v).onward).coreAt d = { s.coreAt d with ctx := (((s.setG a v).onward).coreAt d).ctx } := by
  have moved : ((s.setG a v).onward).coreAt d = { (s.setG a v).coreAt d with ctx := (((s.setG a v).onward).coreAt d).ctx } :=
    coreAt_modCtx (s.setG a v) ..
  have wrote : (s.setG a v).coreAt d = { s.coreAt d with ctx := ((s.setG a v).coreAt d).ctx } := coreAt_modCtx s ..
  rw [moved, wrote]

/-- A result that is written ends the instruction. -/
theorem answer_ok {s : State} {a : Nat} (plain : s.streamOf a = none) (v : Word) :
    (do writeG a v; advance : Act Unit) s = .ok ((), (s.setG a v).onward) :=
  Act.bind_ok (writeG_ok plain)

theorem releaseWait_ok {s : State} (ord : s.ordOf s.curCore s.curCtx = none) (out : s.outOf s.curCore s.curCtx = []) :
    releaseWait 2 s = .ok ((), s) := by
  have held : heldWait s = .ok ((), s) := by
    rw [heldWait, Act.get_bind, State.heldOf, ord]
    rfl
  unfold releaseWait
  rw [Act.get_bind, out]
  exact held

/-- A thread whose operand block stands in its scratchpad undisturbed runs no ordered task. -/
theorem State.blockAt.noOrd {s : State} {p : Word} {align n off : Nat} (h : s.blockAt p align n off) :
    s.ordOf s.curCore s.curCtx = none := by
  obtain ⟨-, -, -, -, -, -, -, -, -, -, -, -, ord, -⟩ := h
  exact ord

/-! ## Operand checks whose ILL comes before poison (R271) -/

theorem prepEarly_ok {s : State} {op : Nat} {srcs dsts dec : List Nat} {chk : Act Unit} (h : s.canRun srcs dsts = true)
    (good : chk s = .ok ((), s)) : prepEarly op srcs dsts dec chk s = .ok ((), s) := by
  unfold prepEarly
  rw [Act.bind_ok (noStream_ok h), Act.bind_ok (waitPend_ok fun k m => (Ctx.plain_mem (State.canRun_plain h) m).2), Act.get_bind]
  have checked := poisonCheck_ok (State.canRun_unpoisoned h) fun _ m => m
  split
  · exact (Act.bind_ok good).trans checked
  · exact checked

/-! ## The entry's block (R421) -/

/-- The fields of a task entry's block are within their limits (R421). -/
def goodEntry (b : List Byte) : Prop :=
  bit (wordAt b 0) 5 = false ∧ bits (wordAt b 0) 63 52 = 0 ∧ bits (wordAt b 16) 2 0 = 0 ∧
    (fieldAt b 24 1 % 32 = 0 ∨ 10 ≤ fieldAt b 24 1 % 32 ∧ fieldAt b 24 1 % 32 ≤ 30) ∧ fieldAt b 24 2 / 32 % 32 = 0 ∧ fieldAt b 26 2 = 0

theorem entryChecks_ok {b : List Byte} (good : goodEntry b) (s : State) : entryChecks b s = .ok ((), s) := by
  obtain ⟨aligned, range, cnt, shot, reserved, rest⟩ := good
  have clock : (decide (1 ≤ fieldAt b 24 1 % 32) && decide (fieldAt b 24 1 % 32 ≤ 9) || fieldAt b 24 1 % 32 == 31) = false := by
    rw [Bool.or_eq_false_iff, Bool.and_eq_false_iff, decide_eq_false_iff_not, decide_eq_false_iff_not, beq_eq_false_iff_ne]
    omega
  unfold entryChecks
  rw [Act.bind_ok (fieldIll_ok (by rw [aligned, range]; rfl) 0 s), Act.bind_ok (fieldIll_ok (by rw [cnt]; rfl) 16 s),
    Act.bind_ok (fieldIll_ok clock 24 s), Act.bind_ok (fieldIll_ok (by rw [reserved]; rfl) 24 s)]
  exact fieldIll_ok (by rw [rest]; rfl) 26 s

/-- An entry whose PC is no PC is ILL with the offset of that field, 0 (R389, R421). -/
theorem entryChecks_badPc {b : List Byte} (bad : bit (wordAt b 0) 5 = true ∨ bits (wordAt b 0) 63 52 ≠ 0) (s : State) :
    entryChecks b s = ill 0 s := by
  have traps : (bit (wordAt b 0) 5 || bits (wordAt b 0) 63 52 != 0) = true := by simpa using bad
  have first : fieldIll 0 (bit (wordAt b 0) 5 || bits (wordAt b 0) 63 52 != 0) s = ill 0 s := by rw [fieldIll, if_pos traps]
  exact Act.bind_error first

/-- An entry holds what its block gives (R92, R421). -/
def TaskEntry.ofBlock (e : TaskEntry) (b : List Byte) : Prop :=
  e.entry = wordAt b 0 ∧ e.arg = wordAt b 8 ∧ e.cnt = wordAt b 16 ∧ e.shot = fieldAt b 24 1 % 32 ∧ e.idx = fieldAt b 28 4

theorem State.entryOf_ofBlock (s : State) (b : List Byte) : (s.entryOf b).ofBlock b := ⟨rfl, rfl, rfl, rfl, rfl⟩

/-! ## SPAWN (R421) -/

section
variable {s : State} {a sa off : Nat} (run : s.canRun [sa] [a] = true) (block : s.blockAt (s.me.g.get sa) 32 32 off)

/-- The entry of a block joins the running core's task queue (R92). -/
def State.spawned (s : State) (b : List Byte) : State :=
  s.modCore s.curCore (fun c => { c with taskq := c.taskq ++ [s.entryOf b] })

theorem me_spawned (s : State) (b : List Byte) : (s.spawned b).me = s.me := State.me_modCore s _ fun _ => rfl

/-- SPAWN once its block has been read (R421). -/
def spawnChecked (a : Nat) (b : List Byte) : Act Unit := do
  entryChecks b
  let s ← get
  if 128 ≤ (s.coreAt s.curCore).taskq.length then writeG a (ofN stFULL)
  else
    modify (fun x => x.modCore x.curCore (fun c => { c with taskq := c.taskq ++ [s.entryOf b] }))
    writeG a (ofN stOK)
  advance

include run block

theorem spawnAct_checked : spawnAct a sa s = spawnChecked a (s.block off 32) s := by
  unfold spawnAct
  rw [Act.bind_ok (prep_ok run), Act.bind_ok (readG_ok (State.canRun_stream run (by simp))), Act.bind_ok (readBlock_ok block),
    holding_ok block.noOrd]
  rfl

theorem spawn_badPc (bad : bit (wordAt (s.block off 32) 0) 5 = true ∨ bits (wordAt (s.block off 32) 0) 63 52 ≠ 0) :
    exec (.spawn a sa) s = .next (s.trapped 1 0 0) :=
  runAct_ill (m := spawnAct a sa) ((spawnAct_checked run block).trans (Act.bind_error (entryChecks_badPc bad s)))

theorem spawn_full (good : goodEntry (s.block off 32)) (full : 128 ≤ (s.coreAt s.curCore).taskq.length) :
    exec (.spawn a sa) s = .next (s.setG a 1).onward := by
  refine runAct_ok (m := spawnAct a sa) ((spawnAct_checked run block).trans ?_)
  unfold spawnChecked
  rw [Act.bind_ok (entryChecks_ok good s), Act.get_bind, if_pos full]
  exact answer_ok (State.canRun_stream run (by simp)) 1

theorem spawn_joins (good : goodEntry (s.block off 32)) (room : (s.coreAt s.curCore).taskq.length < 128) :
    exec (.spawn a sa) s = .next ((s.spawned (s.block off 32)).setG a 0).onward := by
  refine runAct_ok (m := spawnAct a sa) ((spawnAct_checked run block).trans ?_)
  have plain : (s.spawned (s.block off 32)).streamOf a = none := by
    rw [State.streamOf, me_spawned]
    exact State.canRun_stream run (by simp)
  unfold spawnChecked
  rw [Act.bind_ok (entryChecks_ok good s), Act.get_bind, if_neg (Nat.not_le.mpr room), Act.modify_bind]
  exact answer_ok plain 0

end

theorem ctxAt_spawned (s : State) (b : List Byte) (d k : Nat) : (s.spawned b).ctxAt d k = s.ctxAt d k := by
  refine ctxAt_modCore s _ ?_ d k
  exact fun _ => rfl

theorem spawned_wentOn (s : State) (a : Nat) (b : List Byte) :
    (((s.spawned b).setG a 0).onward).wentOn s (s.me.g.set a 0) :=
  wentOn_result (s := s) (u := s.spawned b) rfl rfl (ctxAt_spawned s b) a 0

theorem spawned_taskq (s : State) (a : Nat) (b : List Byte) :
    ((((s.spawned b).setG a 0).onward).coreAt s.curCore).taskq = (s.coreAt s.curCore).taskq ++ [s.entryOf b] := by
  rw [coreAt_answered, State.spawned, State.coreAt_modCore_same]

/-! ## SPAWNT (R95, R96, R422) -/

section
variable {s : State} {a sa sb off : Nat} (ask : s.canAsk [sa, sb] a) (block : s.blockAt (s.me.g.get sa) 32 32 off)
  (good : goodEntry (s.block off 32))

/-- The timestamp is below the spawner's own, or below GVT (R422). -/
def State.tooEarly (s : State) (ts : Word) : Prop :=
  (s.me.ident.vtime ≠ BitVec.allOnes 64 ∧ ts.toNat < s.me.ident.vtime.toNat) ∨ ts.toNat < (s.umpire.get s.curPart).gvt.toNat

/-- The entry of an ordered task that the running thread spawns (R95, R96). -/
def State.ordEntry (s : State) (ts : Word) (b : List Byte) (cl : Nat) : OrdTask :=
  { uid := s.uid, ts := ts, spCore := s.curCore, spCount := (s.coreAt s.curCore).spawnCount, entry := s.entryOf b,
    state := .queued, irrevocable := false, aborted := false, core := 8 * cl, ctx := 0, serial := 0, slot := none, log := [], reads := [],
    writes := [], held := [], sends := [] }

/-- The entry stands in the table of its cluster. -/
def State.ordPlaced (s : State) (ts : Word) (b : List Byte) (cl : Nat) : State :=
  (({ s with uid := s.uid + 1 } : State).modCluster cl (fun c => { c with ord := c.ord ++ [s.ordEntry ts b cl] })).modCore s.curCore
    (fun c => { c with spawnCount := (c.spawnCount + 1) % 2 ^ 32 })

/-- SPAWNT once its block has been read (R422). -/
def spawntChecked (a : Nat) (ts : Word) (b : List Byte) : Act Unit := do
  entryChecks b
  let s ← get
  let vt := s.me.ident.vtime
  if (vt != BitVec.allOnes 64 && ts.ult vt) || ts.ult (s.umpire.get s.curPart).gvt then writeG a (ofN stREFUSED)
  else
    takeSlot s.curCore
    let reply (st : Nat) : Act Unit :=
      modify (fun x => (x.setPend (x.dest a)).push (.pendingValueArrive (x.dest a) (.value (ofN st))))
    match s.spawnOrder.find? (fun cl => decide ((s.clusterAt cl).ord.length < 64)) with
    | none => reply stFULL
    | some cl =>
      modify (fun x => x.ordPlaced ts b cl)
      reply stOK
  advance

theorem tooEarly_iff (ts : Word) : ((s.me.ident.vtime != BitVec.allOnes 64 && ts.ult s.me.ident.vtime) ||
    ts.ult (s.umpire.get s.curPart).gvt) = true ↔ s.tooEarly ts := by
  simp [State.tooEarly, BitVec.ult]

include ask block good

theorem spawntAct_checked : spawntAct a sa sb s = spawntChecked a (s.me.g.get sb) (s.block off 32) s := by
  obtain ⟨run, -, -, ord, -⟩ := id ask
  refine (Act.bind_ok (prepEarly_ok run ?early)).trans ?_
  case early =>
    obtain ⟨ptr, aligned, fits, -, calm⟩ := id block
    obtain ⟨space, sub, -, low, -, -⟩ := spadPtr_bits ptr
    have now : s.blockNow (s.me.g.get sa) 32 32 = some (s.block off 32) := by
      unfold State.blockNow
      rw [calm.1]
      dsimp only
      rw [low, space, sub, if_neg (by simp [aligned]; omega)]
      rfl
    rw [Act.get_bind, now]
    exact entryChecks_ok good s
  rw [Act.bind_ok (readG_ok (State.canRun_stream run (by simp))), Act.bind_ok (readG_ok (State.canRun_stream run (by simp))),
    Act.bind_ok (readBlock_ok block), holding_ok ord]
  rfl

theorem spawnt_refused (early : s.tooEarly (s.me.g.get sb)) : exec (.spawnt a sa sb) s = .next (s.setG a 3).onward := by
  refine runAct_ok (m := spawntAct a sa sb) ((spawntAct_checked ask block good).trans ?_)
  unfold spawntChecked
  rw [Act.bind_ok (entryChecks_ok good s), Act.get_bind, if_pos ((tooEarly_iff _).mpr early)]
  exact answer_ok (State.canRun_stream ask.1 (by simp)) 3

/-- The table of the spawner's own cluster comes first (R96). -/
theorem spawnt_placed (timely : ¬ s.tooEarly (s.me.g.get sb)) (room : (s.clusterAt (clusterOf s.curCore)).ord.length < 64) :
    exec (.spawnt a sa sb) s = .next
      (let x := s.slotTaken.ordPlaced (s.me.g.get sb) (s.block off 32) (clusterOf s.curCore)
       ((x.setPend (x.dest a)).push (.pendingValueArrive (x.dest a) (.value 0))).onward) := by
  obtain ⟨-, -, slot, -, -⟩ := id ask
  have own : s.spawnOrder.find? (fun cl => decide ((s.clusterAt cl).ord.length < 64)) = some (clusterOf s.curCore) :=
    List.find?_cons_of_pos (decide_eq_true room)
  refine runAct_ok (m := spawntAct a sa sb) ((spawntAct_checked ask block good).trans ?_)
  unfold spawntChecked
  rw [Act.bind_ok (entryChecks_ok good s), Act.get_bind, if_neg (mt (tooEarly_iff _).mp timely), Act.bind_ok (takeSlot_ok slot), own]
  rfl

end

/-- What the placed entry leaves of the running thread. -/
theorem ordPlaced_frame (s : State) (ts : Word) (b : List Byte) (cl : Nat) :
    (s.ordPlaced ts b cl).me = s.me ∧ ((s.ordPlaced ts b cl).clusterAt cl).ord = (s.clusterAt cl).ord ++ [s.ordEntry ts b cl] := by
  refine ⟨State.me_modCore _ _ fun _ => rfl, ?_⟩
  show ((s.cluster.modify cl (fun c => { c with ord := c.ord ++ [s.ordEntry ts b cl] })).get cl).ord = _
  rw [Tab.get_modify_same]
  rfl

end Sys2Proof.Machine
end

section
/-! POPT, STEAL, TABORT and LNCH, and the statement of spawns and steals (R67, R92 to R96, R102, R421 to R426). -/

namespace Sys2Proof.Machine

/-! ## The place of a block that is written (R389) -/

theorem blockLoc_ok {s : State} {p : Word} {align n off : Nat} (h : s.blockAt p align n off) :
    blockLoc p align n s = .ok (spadLoc s.curCore off, s) := by
  obtain ⟨ptr, aligned, fits, free, -⟩ := h
  obtain ⟨space, sub, -, low, -, -⟩ := spadPtr_bits ptr
  have log : (decide (0x3C000 < off + n) && s.logInUse s.curPart) = false := by
    by_cases high : 0x3C000 < off + n
    · rw [free high, Bool.and_false]
    · rw [decide_eq_false high, Bool.false_and]
  unfold blockLoc
  rw [Act.get_bind]
  dsimp only
  rw [low, if_neg (not_not.mpr aligned), space, sub, if_neg (by omega), log]
  rfl

/-! ## Cores, contexts and actions of the device -/

theorem coreAt_of_core {s t : State} (h : t.core = s.core) (d : Nat) : t.coreAt d = s.coreAt d := by
  rw [State.coreAt, State.coreAt, h]

theorem ctxAt_of_core {s t : State} (h : t.core = s.core) (d k : Nat) : t.ctxAt d k = s.ctxAt d k := by
  rw [State.ctxAt, State.ctxAt, h]

theorem runEvAct_ok {s t : State} {m : Act Unit} (h : m s = .ok ((), t)) (again : Event) : s.runEvAct again m = t := by
  unfold State.runEvAct State.runEvKept
  rw [h]

/-! ## The count of a sealed region (R67) -/

theorem unbind_core (s : State) (sreg n : Nat) : (s.unbind sreg n).core = s.core := by
  unfold State.unbind
  dsimp only
  split
  · rfl
  · split <;> rfl

theorem unbind_frame (s : State) (sreg n : Nat) : (s.unbind sreg n).mem = s.mem ∧ (s.unbind sreg n).curCore = s.curCore ∧
    (s.unbind sreg n).curCtx = s.curCtx ∧ (s.unbind sreg n).tasks = s.tasks := by
  unfold State.unbind
  dsimp only
  split
  · exact ⟨rfl, rfl, rfl, rfl⟩
  · split <;> exact ⟨rfl, rfl, rfl, rfl⟩

theorem unbind_count (s : State) {sreg : Nat} (bound : sreg ≠ 0) (n : Nat) :
    ((s.unbind sreg n).sealed_.get (sreg - 1)).count = (s.sealed_.get (sreg - 1)).count - n := by
  let r := s.sealed_.get (sreg - 1)
  have region : (s.unbind sreg n).sealed_ = s.sealed_.set (sreg - 1) { r with count := r.count - n } := by
    unfold State.unbind
    dsimp only
    rw [if_neg bound]
    split <;> rfl
  rw [region, Tab.get_set_same]

theorem unbind_zero (s : State) (n : Nat) : s.unbind 0 n = s := if_pos rfl

/-! ## POPT (R93, R423) -/

section
variable {s : State} {a sa off : Nat} (run : s.canRun [sa] [a] = true) (block : s.blockAt (s.me.g.get sa) 32 32 off)

/-- The entry stands in its block, and the queue `q` of the core has lost it. -/
def State.entryTaken (s : State) (core loc : Nat) (q : List TaskEntry) (e : TaskEntry) : State :=
  ((s.putBytes loc e.bytes).modCore core (fun c => { c with taskq := q })).unbind e.sreg 1

theorem entryTaken_core (s : State) (core loc : Nat) (q : List TaskEntry) (e : TaskEntry) :
    (s.entryTaken core loc q e).core = (s.modCore core (fun c => { c with taskq := q })).core := by
  rw [State.entryTaken, unbind_core]
  simp only [State.modCore, State.putBytes]

theorem entryTaken_count (s : State) (core loc : Nat) (q : List TaskEntry) {e : TaskEntry} (bound : e.sreg ≠ 0) :
    ((s.entryTaken core loc q e).sealed_.get (e.sreg - 1)).count = (s.sealed_.get (e.sreg - 1)).count - 1 := by
  rw [State.entryTaken, unbind_count _ bound]
  simp only [State.modCore_sealed_, State.putBytes]

theorem entryTaken_agenda (s : State) (core loc : Nat) (q : List TaskEntry) {e : TaskEntry} (unbound : e.sreg = 0) :
    (s.entryTaken core loc q e).agenda = s.agenda := by
  rw [State.entryTaken, unbound, unbind_zero]
  simp only [State.modCore_agenda, State.putBytes]

theorem entryTaken_taskq (s : State) (core loc : Nat) (q : List TaskEntry) (e : TaskEntry) :
    ((s.entryTaken core loc q e).coreAt core).taskq = q := by
  rw [coreAt_of_core (entryTaken_core ..), State.coreAt_modCore_same]

theorem entryTaken_ctxAt (s : State) (core loc : Nat) (q : List TaskEntry) (e : TaskEntry) (d k : Nat) :
    (s.entryTaken core loc q e).ctxAt d k = s.ctxAt d k :=
  (ctxAt_of_core (entryTaken_core ..) d k).trans (ctxAt_modCore s core (f := fun c => { c with taskq := q }) (fun _ => rfl) d k)

theorem entryTaken_frame (s : State) (core loc : Nat) (q : List TaskEntry) (e : TaskEntry) :
    (s.entryTaken core loc q e).mem = memWriteBytes s.mem loc e.bytes ∧ (s.entryTaken core loc q e).curCore = s.curCore ∧
      (s.entryTaken core loc q e).curCtx = s.curCtx := by
  obtain ⟨mem, core, ctx, -⟩ := unbind_frame ((s.putBytes loc e.bytes).modCore core (fun c => { c with taskq := q })) e.sreg 1
  rw [State.entryTaken, mem, core, ctx]
  simp only [State.modCore_mem, State.modCore_curCore, State.modCore_curCtx, State.putBytes, and_self]

include run block

theorem popt_empty (empty : (s.coreAt s.curCore).taskq = []) : exec (.popt a sa) s = .next (s.setG a 2).onward := by
  refine runAct_ok (m := poptAct a sa) ?_
  unfold poptAct
  rw [Act.bind_ok (prep_ok run), Act.bind_ok (readG_ok (State.canRun_stream run (by simp))), Act.bind_ok (blockLoc_ok block),
    holding_ok block.noOrd, Act.get_bind, empty]
  exact answer_ok (State.canRun_stream run (by simp)) 2

theorem popt_takes {es : List TaskEntry} {e : TaskEntry} (queue : (s.coreAt s.curCore).taskq = es ++ [e]) :
    exec (.popt a sa) s = .next ((s.entryTaken s.curCore (spadLoc s.curCore off) es e).setG a 0).onward := by
  obtain ⟨ptr, -, -, -, calm⟩ := id block
  have taken (bs : List Byte) : (s.putBytes (spadLoc s.curCore off) bs).modCore s.curCore (fun c => { c with taskq := c.taskq.dropLast }) =
      (s.putBytes (spadLoc s.curCore off) bs).modCore s.curCore (fun c => { c with taskq := es }) := by
    have last : (s.core.get s.curCore).taskq.dropLast = es := by
      rw [show (s.core.get s.curCore).taskq = es ++ [e] from queue, List.dropLast_concat]
    simp only [State.modCore, Tab.modify, State.putBytes, last]
  have plain : (s.entryTaken s.curCore (spadLoc s.curCore off) es e).streamOf a = none := by
    obtain ⟨-, core, ctx⟩ := entryTaken_frame s s.curCore (spadLoc s.curCore off) es e
    rw [State.streamOf, State.me, core, ctx, entryTaken_ctxAt]
    exact State.canRun_stream run (by simp)
  refine runAct_ok (m := poptAct a sa) ?_
  unfold poptAct
  rw [Act.bind_ok (prep_ok run), Act.bind_ok (readG_ok (State.canRun_stream run (by simp))), Act.bind_ok (blockLoc_ok block),
    holding_ok block.noOrd, Act.get_bind, queue, List.getLast?_concat]
  dsimp only
  rw [Act.bind_ok (writeLoc_plain calm.ownPlain ptr.2 e.bytes), Act.modify_bind]
  refine Eq.trans ?_ (answer_ok plain 0)
  rw [State.entryTaken, ← taken]
  generalize e.bytes = bs
  rfl

end

/-! ## STEAL (R94, R424) -/

section
variable {s : State} {a sa sb off : Nat} (ask : s.canAsk [sa, sb] a) (block : s.blockAt (s.me.g.get sb) 32 32 off)
  (core : (s.me.g.get sa).toNat < 1920)

/-- STEAL once its operands have been checked (R424). -/
def stealChecked (a victim off : Nat) : Act Unit := do
  let s ← get
  if s.partOfCore victim ≠ s.partOfCore s.curCore then writeG a (ofN stREFUSED)
  else
    takeSlot s.curCore
    modify (fun x => (x.setPend (x.dest a)).push (.victimQueueSteal { dest := x.dest a, victim := victim, block := off }))
  advance

include ask block core

theorem stealAct_checked : stealAct a sa sb s = stealChecked a (s.me.g.get sa).toNat off s := by
  obtain ⟨run, -, -, ord, -⟩ := id ask
  obtain ⟨ptr, aligned, -, -, -⟩ := id block
  obtain ⟨-, -, -, low, -, -⟩ := spadPtr_bits ptr
  have high : bits (s.me.g.get sa) 63 11 = 0 := by unfold bits; omega
  have victim : bits (s.me.g.get sa) 10 0 = (s.me.g.get sa).toNat := by unfold bits; omega
  unfold stealAct
  rw [Act.bind_ok (prepIll_ok run (by rw [high]; rfl)), Act.bind_ok (readG_ok (State.canRun_stream run (by simp))),
    Act.bind_ok (readG_ok (State.canRun_stream run (by simp))), low, victim, if_neg (not_not.mpr aligned), if_neg (Nat.not_le.mpr core)]
  refine (Act.bind_ok (blockLoc_ok block)).trans ?_
  rw [holding_ok ord]
  rfl

theorem steal_asks (same : s.partOfCore (s.me.g.get sa).toNat = s.partOfCore s.curCore) : exec (.steal a sa sb) s =
    .next ((s.asked a).push (.victimQueueSteal { dest := s.dest a, victim := (s.me.g.get sa).toNat, block := off })).onward := by
  obtain ⟨-, -, slot, -, -⟩ := id ask
  refine runAct_ok (m := stealAct a sa sb) ((stealAct_checked ask block core).trans ?_)
  unfold stealChecked
  rw [Act.get_bind, if_neg (not_not.mpr same), Act.bind_ok (takeSlot_ok slot), Act.modify_bind, dest_slotTaken]
  rfl

theorem steal_refused (other : s.partOfCore (s.me.g.get sa).toNat ≠ s.partOfCore s.curCore) :
    exec (.steal a sa sb) s = .next (s.setG a 3).onward := by
  refine runAct_ok (m := stealAct a sa sb) ((stealAct_checked ask block core).trans ?_)
  unfold stealChecked
  rw [Act.get_bind, if_pos other]
  exact answer_ok (State.canRun_stream ask.1 (by simp)) 3

end

/-! ## The victim's queue (R94, R424) -/

/-- Nothing stands in the way of a write of the device in a state in which nothing is under way, wherever it goes. -/
theorem enterLine_still {s : State} (h : s.still) (core loc n : Nat) : enterLine core 8 loc n true s = .ok ((), s) := by
  have noneOut : s.outOf core 8 = [] := by rw [State.outOf, h.2.2.2.2.1, List.filter_nil]
  have acquire : s.acquireOut core 8 = false := acquireOut_of_noOrd (h.ordOf core 8) (by rw [noneOut]; rfl)
  have peer : s.peerOut core 8 loc n = false := by
    rw [State.peerOut, noneOut, State.heldOf, h.ordOf core 8]
    exact Bool.and_false _
  have away : s.homeCounts core 8 loc = false := by simp [State.homeCounts]
  unfold enterLine
  rw [Act.get_bind, acquire, peer]
  refine Eq.trans (Act.modify_bind ..) ?_
  rw [State.recallRange_of_quiet h.quiet, Act.bind_ok (specAccess_of_quiet h.quiet ..), Act.modify_apply, away]
  rfl

theorem writeLoc_still {s : State} (h : s.still) (core loc : Nat) (bs : List Byte) :
    writeLoc core 8 loc bs s = .ok ((), s.putBytes loc bs) := by
  have noted : s.noteTable core 8 loc bs.length = s := if_neg fun both => absurd both.1 (by decide)
  unfold writeLoc
  rw [Act.bind_ok (enterLine_still h ..), Act.modify_apply, noted]

theorem victimQueueSteal_empty {s : State} {q : StealReq} (empty : (s.coreAt q.victim).taskq = []) :
    exec (.victimQueueSteal q) s = .next (s.push (.pendingValueArrive q.dest (.value 2))) := by
  have act : stealServeAct q s = .ok ((), s.push (.pendingValueArrive q.dest (.value 2))) := by
    unfold stealServeAct
    rw [Act.get_bind, empty]
    rfl
  exact congrArg Host.Outcome.next (runEvAct_ok act _)

theorem victimQueueSteal_takes {s : State} (h : s.still) {q : StealReq} {e : TaskEntry} {r : List TaskEntry}
    (queue : (s.coreAt q.victim).taskq = e :: r) : exec (.victimQueueSteal q) s =
      .next ((s.entryTaken q.victim (spadLoc q.dest.core q.block) r e).push (.pendingValueArrive q.dest (.value 0))) := by
  have act : stealServeAct q s =
      .ok ((), (s.entryTaken q.victim (spadLoc q.dest.core q.block) r e).push (.pendingValueArrive q.dest (.value 0))) := by
    unfold stealServeAct
    rw [Act.get_bind, queue]
    refine Eq.trans (Act.bind_ok (writeLoc_still h ..)) ?_
    rfl
  exact congrArg Host.Outcome.next (runEvAct_ok act _)

/-! ## Withdrawn requests (R165) -/

/-- The state differs from `s` at most in events in flight and in the fabric. -/
def State.OnlySends (s t : State) : Prop := t = { s with agenda := t.agenda, fab := t.fab }

namespace State.OnlySends

theorem refl (s : State) : s.OnlySends s := rfl

theorem trans {s t u : State} (h : s.OnlySends t) (g : t.OnlySends u) : s.OnlySends u := by
  unfold State.OnlySends at h g ⊢
  rw [g, h]

theorem foldl {α : Type} {f : State → α → State} (h : ∀ (s : State) (a : α), s.OnlySends (f s a)) (l : List α) (s : State) :
    s.OnlySends (l.foldl f s) := by
  induction l generalizing s with
  | nil => exact .refl s
  | cons a l ih => exact (h s a).trans (ih _)

theorem fields {s t : State} (h : s.OnlySends t) : t.core = s.core ∧ t.cluster = s.cluster ∧ t.tasks = s.tasks ∧ t.mem = s.mem ∧
    t.curCore = s.curCore ∧ t.curCtx = s.curCtx := by
  rw [show t = { s with agenda := t.agenda, fab := t.fab } from h]
  exact ⟨rfl, rfl, rfl, rfl, rfl, rfl⟩

end State.OnlySends

theorem withdrawAll_onlySends (s : State) (core k : Nat) : s.OnlySends (s.withdrawAll core k) := by
  have sent (x : State) (d : Nat) (r : TupleReq) : x.OnlySends (x.tupleTo d r) := by
    unfold State.tupleTo
    split <;> rfl
  refine .foldl (fun x r => ?_) _ s
  split
  · exact sent ..
  · exact .refl x

/-! ## TABORT (R425) -/

section
variable {s : State}

theorem tabort_ill (none : 4 ≤ s.curCtx ∨ s.taskOf s.curCore s.curCtx = none) : exec .tabort s = .next (s.trapped 1 0 0) := by
  refine runAct_ill (m := tabortAct) ?_
  unfold tabortAct
  rw [Act.get_bind]
  by_cases handler : 4 ≤ s.curCtx
  · rw [if_pos handler]
    rfl
  · rw [if_neg handler, none.resolve_left handler]

theorem tabort_aborts {id : Nat} {x : Task} (task : s.curCtx < 4) (runs : s.taskOf s.curCore s.curCtx = some (id, x))
    (ord : s.ordOf s.curCore s.curCtx = none) : exec .tabort s = .next (s.abortTask id x) := by
  refine runAct_ok (m := tabortAct) ?_
  unfold tabortAct
  rw [Act.get_bind, if_neg (Nat.not_le.mpr task), runs, ord]
  rfl

/-- The task's one thread stops, and its end is in flight (R425). -/
theorem abortTask_one {core k : Nat} (id : Nat) {x : Task} (one : x.threads = [(core, k)]) :
    ((s.abortTask id x).ctxAt core k).phase = .ended ∧ ((s.abortTask id x).ctxAt core k).sendBuf = [] ∧
      Event.taskEnd id ∈ (s.abortTask id x).agenda ∧ (s.abortTask id x).mem = s.mem ∧
      (s.abortTask id x).curCore = s.curCore ∧ (s.abortTask id x).curCtx = s.curCtx := by
  obtain ⟨-, -, -, mem, curCore, curCtx⟩ := (withdrawAll_onlySends s core k).fields
  have state : s.abortTask id x = ((s.withdrawAll core k).modCtx core k (fun c =>
      { c with phase := .ended, sendBuf := [], sleep := none, heldTrap := none, waitIntr := [] })).endTask id := by
    rw [State.abortTask, one]
    rfl
  have ctx := State.ctxAt_modCtx_same (s.withdrawAll core k) core k (fun c =>
    { c with phase := .ended, sendBuf := [], sleep := none, heldTrap := none, waitIntr := [] })
  rw [state]
  exact ⟨congrArg Ctx.phase ctx, congrArg Ctx.sendBuf ctx, List.mem_append_right _ (List.mem_singleton_self _), mem, curCore, curCtx⟩

end

/-! ## LNCH (R426) -/

section
variable {s : State} {a sa sb off : Nat} (ask : s.canAsk [sa, sb] a) (block : s.blockAt (s.me.g.get sa) 64 64 off)

/-- LNCH once its block has been read (R426). -/
def lnchChecked (a q : Nat) (b : List Byte) : Act Unit := do
  let s ← get
  if 63 < q || !(bit (s.part.get s.curPart).qmask q) then writeG a (ofN stREFUSED)
  else
    releaseWait 2
    takeSlot s.curCore
    modify (fun x => (x.setPend (x.dest a)).push
      (.launchSubmit { q := q, part := x.curPart, record := b, reply := some (x.dest a), host := none }))
  advance

include ask block

theorem lnchAct_checked : lnchAct a sa sb s = lnchChecked a (s.me.g.get sb).toNat (s.block off 64) s := by
  obtain ⟨run, -, -, ord, -⟩ := id ask
  unfold lnchAct
  rw [Act.bind_ok (prep_ok run), Act.bind_ok (readG_ok (State.canRun_stream run (by simp))),
    Act.bind_ok (readG_ok (State.canRun_stream run (by simp))), Act.bind_ok (readBlock_ok block), holding_ok ord]
  rfl

theorem lnch_submits (low : (s.me.g.get sb).toNat < 64) (owned : bit (s.part.get s.curPart).qmask (s.me.g.get sb).toNat = true) :
    exec (.lnch a sa sb) s = .next ((s.asked a).push (.launchSubmit
      { q := (s.me.g.get sb).toNat, part := s.curPart, record := s.block off 64, reply := some (s.dest a), host := none })).onward := by
  obtain ⟨-, -, slot, ord, out⟩ := id ask
  refine runAct_ok (m := lnchAct a sa sb) ((lnchAct_checked ask block).trans ?_)
  have mine : ¬ (decide (63 < (s.me.g.get sb).toNat) || !(bit (s.part.get s.curPart).qmask (s.me.g.get sb).toNat)) = true := by
    simp [owned]; omega
  unfold lnchChecked
  rw [Act.get_bind, if_neg mine, Act.bind_ok (releaseWait_ok ord out), Act.bind_ok (takeSlot_ok slot), Act.modify_bind, dest_slotTaken]
  rfl

theorem lnch_refused (bad : 64 ≤ (s.me.g.get sb).toNat ∨ bit (s.part.get s.curPart).qmask (s.me.g.get sb).toNat = false) :
    exec (.lnch a sa sb) s = .next (s.setG a 3).onward := by
  refine runAct_ok (m := lnchAct a sa sb) ((lnchAct_checked ask block).trans ?_)
  have other : (decide (63 < (s.me.g.get sb).toNat) || !(bit (s.part.get s.curPart).qmask (s.me.g.get sb).toNat)) = true := by
    rcases bad with high | foreign
    · rw [decide_eq_true (show 63 < _ from high), Bool.true_or]
    · rw [foreign, Bool.not_false, Bool.or_true]
  unfold lnchChecked
  rw [Act.get_bind, if_pos other]
  exact answer_ok (State.canRun_stream ask.1 (by simp)) 3

end

/-! ## The statement -/

/-- What SPAWNT leaves once it has placed its entry (R95, R96, R422). -/
theorem spawnt_leaves {s : State} {a : Nat} (reg : a < 16) (ts : Word) (b : List Byte) (cl : Nat) :
    let x := s.slotTaken.ordPlaced ts b cl
    let t := ((x.setPend (x.dest a)).push (.pendingValueArrive (x.dest a) (.value 0))).onward
    (t.clusterAt cl).ord = (s.clusterAt cl).ord ++ [s.slotTaken.ordEntry ts b cl] ∧
      t.agenda = s.agenda ++ [.pendingValueArrive (s.dest a) (.value 0)] ∧ t.me.pend.getLsbD a = true ∧ t.passed s s.me.g := by
  intro x t
  obtain ⟨me, ord⟩ := ordPlaced_frame s.slotTaken ts b cl
  have same : x.me = s.me := me.trans (me_slotTaken s)
  have dest : x.dest a = s.dest a := by
    rw [State.dest, same]
    rfl
  have tme : t.me = { (s.asked a).me with pc := nextPc s.me.pc s.me.lineN } := by
    have pended : ((x.setPend (x.dest a)).push (.pendingValueArrive (x.dest a) (.value 0))).me =
        (s.asked a).me := by
      rw [me_asked, ← same]
      exact State.me_modMe x _
    rw [show t.me = _ from State.me_onward _, State.nextOf, pended, me_asked]
  refine ⟨ord, congrArg (fun d => s.agenda ++ [Event.pendingValueArrive d (.value 0)]) dest, ?_, ?_⟩
  · rw [tme, me_asked]
    exact getLsbD_or_twoPow _ reg
  · refine ⟨?_, ?_, rfl, rfl, rfl⟩
    · rw [tme, me_asked]
    · rw [tme]

/-- Settles O56: each instruction by the state that its checked form answers, and a steal at the victim by the entry taken. -/
theorem spawnsAndSteals : Obligations.SpawnsAndSteals := by
  unfold Obligations.SpawnsAndSteals
  intro s
  refine ⟨fun a sa sb off run block => ⟨spawn_badPc run block, fun aligned range cnt shot reserved rest => ?spawn⟩,
    fun a sa off run block => ⟨popt_empty run block, fun es e queue => ?popt⟩,
    fun a sa sb off ask block core => ⟨steal_asks ask block core, steal_refused ask block core⟩,
    fun q still => ⟨victimQueueSteal_empty, fun e r queue => ?steal⟩, tabort_ill, fun id x task runs ord one => ?tabort,
    fun a sa sb off ask block => ⟨lnch_submits ask block, lnch_refused ask block⟩⟩
  case spawn =>
    have good : goodEntry (s.block off 32) := ⟨aligned, range, cnt, shot, reserved, rest⟩
    refine ⟨fun room => ⟨_, s.entryOf (s.block off 32), spawn_joins run block good room, spawned_wentOn s a _, ⟨rfl, rfl, rfl⟩,
      spawned_taskq s a _, s.entryOf_ofBlock _⟩, spawn_full run block good, fun ask => ⟨spawnt_refused ask block good, ?_⟩⟩
    intro timely room
    obtain ⟨ord, agenda, pend, passed⟩ := spawnt_leaves ask.2.1 (s.me.g.get sb) (s.block off 32) (clusterOf s.curCore) (s := s)
    exact ⟨_, _, spawnt_placed ask block good timely room, ord, rfl, rfl, rfl, State.entryOf_ofBlock .., agenda, pend, passed⟩
  case popt =>
    obtain ⟨mem, core, ctx⟩ := entryTaken_frame s s.curCore (spadLoc s.curCore off) es e
    refine ⟨_, popt_takes run block queue, wentOn_result core ctx (entryTaken_ctxAt s _ _ _ _) a 0, ?_, fun bound => ?_,
      State.stored_of_mem ?_⟩
    · rw [coreAt_answered]
      exact entryTaken_taskq ..
    · rw [State.onward, State.modMe_sealed_, State.setG_sealed_]
      exact entryTaken_count s _ _ _ bound
    · rw [State.onward, State.modMe_mem, State.setG_mem]
      exact mem
  case steal =>
    obtain ⟨mem, -, -⟩ := entryTaken_frame s q.victim (spadLoc q.dest.core q.block) r e
    refine ⟨_, victimQueueSteal_takes still queue, entryTaken_taskq .., List.mem_append_right _ (List.mem_singleton_self _),
      fun unbound => congrArg (· ++ [_]) (entryTaken_agenda s _ _ _ unbound), entryTaken_count s _ _ _, State.stored_of_mem mem⟩
  case tabort =>
    obtain ⟨phase, sends, ends, mem, core, ctx⟩ := abortTask_one (s := s) id one
    refine ⟨_, tabort_aborts task runs ord, ?_, ?_, ends, mem⟩
    · rw [State.me, core, ctx, phase]
    · rw [State.me, core, ctx, sends]

end Sys2Proof.Machine
end

section
/-! The placement of tasks (R86 to R88). -/

namespace Sys2Proof.Machine

/-! ## The one candidate (R86) -/

theorem exec_taskPlace_only {s : State} {q : Nat} (low : q < 64) (only : ∀ x, x < 64 → (s.candidate x = true ↔ x = q)) :
    exec .taskPlace s = .next (placeOne (false, s) q).2 := by
  have one : (List.range 64).filter s.candidate = [q] :=
    filter_range_eq_singleton low ((only q low).mpr rfl) fun j lt ne => Bool.eq_false_iff.mpr (mt (only j lt).mp ne)
  refine congrArg Host.Outcome.next ?_
  dsimp only
  rw [one, List.mergeSort_singleton]
  rfl

section
variable {s s' : State} {q p : Nat} {r : LaunchRec} {rest : List LaunchRec} (head : (s.launch.get q).recs = r :: rest)
  (part : s.partOfQueue q = some p)
include head part

theorem placeOne_thread (kind : r.kind = 0) (placed : s.placeThread q p r = some s') : placeOne (false, s) q = (true, s') := by
  unfold placeOne
  dsimp only
  rw [if_neg (by decide), head, part]
  dsimp only
  rw [if_pos kind, placed]

theorem placeOne_gang (kind : r.kind ≠ 0) (free : s.partReserved p = none) (placed : s.placeGang q p r = some s') :
    placeOne (false, s) q = (true, s') := by
  unfold placeOne
  dsimp only
  rw [if_neg (by decide), head, part]
  dsimp only
  rw [if_neg kind, free]
  dsimp only
  rw [placed]

end

/-! ## What a placement leaves alone -/

theorem bind_frame (s : State) (sreg : Nat) : (s.bind sreg).core = s.core ∧ (s.bind sreg).cluster = s.cluster ∧
    (s.bind sreg).launch = s.launch := by
  unfold State.bind
  split <;> exact ⟨rfl, rfl, rfl⟩

theorem placedOne_frame (s : State) (q : Nat) (r : LaunchRec) :
    (s.placedOne q r).core = s.core ∧ (s.placedOne q r).cluster = s.cluster := by
  obtain ⟨core, cluster, -⟩ := bind_frame (if r.tasks ≤ r.placed + 1 then s.popHead q
    else { s with launch := s.launch.modify q (fun l =>
      { l with recs := l.recs.map (fun y => if y.uid = r.uid then { y with placed := y.placed + 1 } else y) }) }) r.sreg
  refine ⟨core.trans ?_, cluster.trans ?_⟩ <;> split <;> rfl

/-- The record leaves its queue with its last task (R85). -/
theorem placedOne_last {s : State} {q : Nat} {r : LaunchRec} (last : r.tasks ≤ r.placed + 1) :
    ((s.placedOne q r).launch.get q).recs = (s.launch.get q).recs.drop 1 := by
  unfold State.placedOne
  rw [if_pos last, (bind_frame _ _).2.2, State.popHead, Tab.get_modify_same]

/-! ## A thread task joins the shortest queue (R87) -/

/-- The core takes thread tasks of the partition: it stands in a cluster of it that is not reserved (R87). -/
def State.takesThreads (s : State) (p c : Nat) : Prop :=
  c < 1920 ∧ (s.part.get p).clmask.getLsbD (c / 8) = true ∧ s.reservedCl (c / 8) = false

/-- The cores that take thread tasks of the partition, in ascending order. -/
def State.threadCores (s : State) (p : Nat) : List Nat := ((s.clustersOf p).filter (fun c => !s.reservedCl c)).flatMap coresOf

theorem mem_coresOf {cl c : Nat} : c ∈ coresOf cl ↔ c / 8 = cl := by
  simp only [coresOf, List.mem_map, List.mem_range]
  exact ⟨fun ⟨k, lt, e⟩ => by omega, fun e => ⟨c % 8, by omega, by omega⟩⟩

theorem mem_threadCores {s : State} {p c : Nat} : c ∈ s.threadCores p ↔ s.takesThreads p c := by
  simp only [State.threadCores, State.clustersOf, List.mem_flatMap, List.mem_filter, List.mem_range, mem_coresOf, Bool.not_eq_true']
  constructor
  · rintro ⟨cl, ⟨⟨low, mask⟩, free⟩, rfl⟩
    exact ⟨by omega, mask, free⟩
  · rintro ⟨low, mask, free⟩
    exact ⟨c / 8, ⟨⟨by omega, mask⟩, free⟩, rfl⟩

/-- A pass over a list that keeps the first least element. -/
theorem foldl_least (f : Nat → Nat) (l : List Nat) (m : Nat) :
    l.foldl (fun m x => if f x < f m then x else m) m ∈ m :: l ∧
      ∀ x ∈ m :: l, f (l.foldl (fun m x => if f x < f m then x else m) m) ≤ f x := by
  induction l generalizing m with
  | nil => simp
  | cons a l ih =>
    obtain ⟨mem, least⟩ := ih (if f a < f m then a else m)
    have low : f (if f a < f m then a else m) ≤ f m ∧ f (if f a < f m then a else m) ≤ f a := by split <;> omega
    have start := least _ List.mem_cons_self
    refine ⟨?_, fun x at_ => ?_⟩
    · rcases List.mem_cons.mp mem with first | later
      · rw [List.foldl_cons, first]
        split <;> simp
      · exact List.mem_cons_of_mem _ (List.mem_cons_of_mem _ later)
    · rcases List.mem_cons.mp at_ with rfl | later
      · exact start.trans low.1
      · rcases List.mem_cons.mp later with rfl | deeper
        · exact start.trans low.2
        · exact least x (List.mem_cons_of_mem _ deeper)

/-- The entry of the next task of a record (R87, R92). -/
def LaunchRec.threadEntry (r : LaunchRec) (q : Nat) : TaskEntry :=
  { entry := r.entry, arg := r.arg, cnt := r.cnt, shot := r.shot, origq := q, idx := r.placed, record := some r.uid,
    ident := some (r.ident q r.placed 0 1 0 0), sreg := r.sreg, spawned := false }

/-- The entry has joined the queue of core `c`. -/
def State.threadPlaced (s : State) (q c : Nat) (r : LaunchRec) : State :=
  (s.modCore c (fun x => { x with taskq := x.taskq ++ [r.threadEntry q] })).placedOne q r

theorem placeThread_shortest {s : State} {p : Nat} (q : Nat) (r : LaunchRec)
    (room : ∃ c, s.takesThreads p c ∧ (s.coreAt c).taskq.length < 128) :
    ∃ c, s.placeThread q p r = some (s.threadPlaced q c r) ∧ s.takesThreads p c ∧
      ∀ x, s.takesThreads p x → (s.coreAt c).taskq.length ≤ (s.coreAt x).taskq.length := by
  obtain ⟨c, takes, short⟩ := room
  let len (c : Nat) : Nat := (s.coreAt c).taskq.length
  have open_ (x : Nat) : x ∈ (s.threadCores p).filter (fun c => decide (len c < 128)) ↔ s.takesThreads p x ∧ len x < 128 := by
    rw [List.mem_filter, mem_threadCores, decide_eq_true_eq]
  obtain ⟨c0, others, roomy⟩ := List.exists_cons_of_ne_nil (List.ne_nil_of_mem ((open_ c).mpr ⟨takes, short⟩))
  obtain ⟨mem, least⟩ := foldl_least len others c0
  rw [← roomy] at mem least
  refine ⟨others.foldl (fun m x => if len x < len m then x else m) c0, ?_, ((open_ _).mp mem).1, fun x at_ => ?_⟩
  · unfold State.threadCores at roomy
    unfold State.placeThread
    dsimp only
    rw [roomy]
    rfl
  · by_cases fits : len x < 128
    · exact least x ((open_ x).mpr ⟨at_, fits⟩)
    · exact (((open_ _).mp mem).2.trans_le (Nat.not_lt.mp fits)).le

/-! ## The threads of a task start (R77, R88) -/

/-- A context has started work at `entry` with ARG in register 1 and every other register 0 (R77). -/
structure Ctx.Begun (c : Ctx) (entry arg : Word) : Prop where
  phase : c.phase = .running
  pc : c.pc = entry
  arg : c.g.get 1 = arg
  zero : ∀ j, j ≠ 1 → c.g.get j = 0
  vwin : c.vwin = 0

/-- One thread of task `id` starts. -/
def State.startThread (id : Nat) (entry arg : Word) (s : State) (p : Nat × Nat × Ident) : State :=
  s.startCtx p.1 p.2.1 (.task id) entry (fun c => { c with g := c.g.set 1 arg, ident := p.2.2 })

theorem startThread_begun (id : Nat) (entry arg : Word) (s : State) (p : Nat × Nat × Ident) :
    ((s.startThread id entry arg p).ctxAt p.1 p.2.1).Begun entry arg ∧ ((s.startThread id entry arg p).ctxAt p.1 p.2.1).ident = p.2.2 := by
  have ctx : (s.startThread id entry arg p).ctxAt p.1 p.2.1 = _ := State.ctxAt_modCtx_same ({ s with uid := s.uid + 1 } : State) p.1 p.2.1 _
  rw [ctx]
  exact ⟨⟨rfl, rfl, Tab.get_set_same .., fun j other => Tab.get_set_ne _ _ _ _ other, rfl⟩, rfl⟩

theorem startThread_other (id : Nat) (entry arg : Word) (s : State) (p : Nat × Nat × Ident) {d j : Nat} (other : ¬ (d = p.1 ∧ j = p.2.1)) :
    (s.startThread id entry arg p).ctxAt d j = s.ctxAt d j :=
  State.ctxAt_modCtx_ne ({ s with uid := s.uid + 1 } : State) _ _ _ _ _ other

/-- Every context that a task starts on, or that has so started already, has started. -/
theorem startThreads_begun (id : Nat) (entry arg : Word) {core k : Nat} (ids : List (Nat × Nat × Ident)) (s : State)
    (h : (s.ctxAt core k).Begun entry arg ∨ ∃ i, (core, k, i) ∈ ids) :
    ((ids.foldl (State.startThread id entry arg) s).ctxAt core k).Begun entry arg := by
  induction ids generalizing s with
  | nil =>
    obtain begun | ⟨i, none⟩ := h
    · exact begun
    · cases none
  | cons p ids ih =>
    refine ih _ ?_
    by_cases same : core = p.1 ∧ k = p.2.1
    · obtain ⟨rfl, rfl⟩ := same
      exact .inl (startThread_begun ..).1
    · rw [startThread_other id entry arg s p same]
      refine h.imp_right fun ⟨i, mem⟩ => ⟨i, (List.mem_cons.mp mem).resolve_left ?_⟩
      rintro rfl
      exact same ⟨rfl, rfl⟩

/-- The task stands in the device's table, with its clock running (R103). -/
def State.withTask (s : State) (t : Task) : State :=
  { s with uid := s.uid + 1,
           tasks := assocSet s.tasks s.uid { t with start := s.time, clockEnd := some (s.taskAc t + shotLen t.shot) } }

theorem startTask_eq (s : State) (t : Task) (ids : List (Nat × Nat × Ident)) (entry arg : Word) :
    s.startTask t ids entry arg = ids.foldl (State.startThread s.uid entry arg) (s.withTask t) := rfl

/-! ## A squad starts all its threads (R88) -/

/-- A pass over clusters that updates each changes the clusters alone. -/
theorem foldl_modCluster_eq {α : Type} (f : α → Nat) (g : α → Cluster → Cluster) (l : List α) (s : State) :
    l.foldl (fun x a => x.modCluster (f a) (g a)) s =
      { s with cluster := (l.foldl (fun x a => x.modCluster (f a) (g a)) s).cluster } := by
  induction l generalizing s with
  | nil => rfl
  | cons a l ih =>
    rw [List.foldl_cons, ih]
    rfl

theorem openBarriers_core (s : State) (t : Task) (id : Nat) : (s.openBarriers t id).core = s.core := by
  unfold State.openBarriers
  dsimp only
  split <;> rw [foldl_modCluster_eq (fun cl => cl)]

theorem mem_take_zip_range {w c : Nat} {l : List Nat} (h : c ∈ l.take w) : ∃ i, (i, c) ∈ (List.range w).zip l := by
  obtain ⟨i, low, rfl⟩ := List.mem_iff_getElem.mp h
  rw [List.length_take] at low
  refine ⟨i, List.mem_iff_getElem.mpr ⟨i, by rw [List.length_zip, List.length_range]; omega, ?_⟩⟩
  rw [List.getElem_zip, List.getElem_range, List.getElem_take]

theorem headD_freeTaskCtx {s : State} {cl c : Nat} (h : c ∈ s.openCores cl) :
    (s.freeTaskCtx c).headD 0 < 4 ∧ (s.ctxAt c ((s.freeTaskCtx c).headD 0)).phase = .idle := by
  obtain ⟨-, some_⟩ := List.mem_filter.mp h
  cases free : s.freeTaskCtx c with
  | nil => rw [free] at some_; cases some_
  | cons k ks =>
    have first : k ∈ s.freeTaskCtx c := by rw [free]; exact List.mem_cons_self
    obtain ⟨low, idle⟩ := List.mem_filter.mp first
    exact ⟨List.mem_range.mp low, eq_of_beq idle⟩

/-- The squad starts on the first cluster that qualifies: one thread on each of its first cores with a free task context (R88). -/
theorem placeGang_squad {s : State} {q p cl : Nat} {r : LaunchRec} (kind : r.kind = 1) (first : (s.qualifying p r.sqw).head? = some cl) :
    ∃ t ids res, (∀ c ∈ (s.openCores cl).take r.sqw, ∃ i, (c, (s.freeTaskCtx c).headD 0, i) ∈ ids) ∧
      s.placeGang q p r = some { (((s.startTask t ids r.entry r.arg).openBarriers t s.uid).modCluster cl
        (fun k => { k with gang := some s.uid })).placedOne q r with reserved := res } := by
  have cls : s.gangClusters p r = some [cl] := by
    unfold State.gangClusters
    dsimp only
    rw [if_pos kind, first]
    rfl
  unfold State.placeGang
  rw [cls]
  refine ⟨_, _, _, fun c mem => ?_, rfl⟩
  obtain ⟨i, at_⟩ := mem_take_zip_range mem
  exact ⟨_, List.mem_flatMap.mpr ⟨(0, cl), List.mem_cons_self, List.mem_map.mpr ⟨(i, c), at_, rfl⟩⟩⟩

theorem placeGang_starts {s : State} {q p cl : Nat} {r : LaunchRec} (kind : r.kind = 1) (first : (s.qualifying p r.sqw).head? = some cl) :
    ∃ u, s.placeGang q p r = some u ∧ (u.clusterAt cl).gang.isSome = true ∧ ∀ c ∈ (s.openCores cl).take r.sqw,
      ∃ k, k < 4 ∧ (s.ctxAt c k).phase = .idle ∧ (u.ctxAt c k).Begun r.entry r.arg := by
  obtain ⟨t, ids, res, all, placed⟩ := placeGang_squad (q := q) kind first
  obtain ⟨core, cluster⟩ := placedOne_frame (((s.startTask t ids r.entry r.arg).openBarriers t s.uid).modCluster cl
    (fun k => { k with gang := some s.uid })) q r
  refine ⟨_, placed, ?_, fun c mem => ?_⟩
  · show ((Tab.get (State.cluster (State.placedOne ..)) cl).gang).isSome = true
    rw [cluster, State.modCluster, Tab.get_modify_same]
    rfl
  · obtain ⟨low, idle⟩ := headD_freeTaskCtx (List.mem_of_mem_take mem)
    refine ⟨_, low, idle, ?_⟩
    have ctx : ∀ j, (({ (((s.startTask t ids r.entry r.arg).openBarriers t s.uid).modCluster cl
        (fun k => { k with gang := some s.uid })).placedOne q r with reserved := res } : State)).ctxAt c j =
          (s.startTask t ids r.entry r.arg).ctxAt c j := fun j =>
      congrArg (fun x : Tab Core => (x.get c).ctx.get j) (core.trans (openBarriers_core ..))
    rw [ctx, startTask_eq]
    exact startThreads_begun _ _ _ ids _ (.inr (all c mem))

end Sys2Proof.Machine
end

section
/-! The start of a task on a free context, and its end (R76, R77, R93). -/

namespace Sys2Proof.Machine

/-! ## Starts (R93) -/

theorem exec_taskStart {s : State} {core p k : Nat} {ks : List Nat} (part : s.partOfCore core = some p)
    (free : s.freeTaskCtx core = k :: ks) (may : s.mayStart p = true) (open_ : s.reservedCl (clusterOf core) = false) :
    exec (.taskStart core) s = .next (s.startOn p core k) := by
  refine congrArg Host.Outcome.next ?_
  dsimp only
  rw [part, free]
  dsimp only
  rw [if_pos (by rw [may, open_]; rfl)]

/-- A task of one thread has started on a context, in a state whose contexts and memory are those of `s`. -/
structure State.StartsOne (u s : State) (core k : Nat) (entry arg : Word) : Prop where
  begun : (u.ctxAt core k).Begun entry arg
  others : u.otherCtxs s core k
  mem : u.mem = s.mem

theorem startTask_one {s s1 : State} (ctxs : ∀ d j, s1.ctxAt d j = s.ctxAt d j) (mem : s1.mem = s.mem) (t : Task) (core k : Nat)
    (id : Ident) (entry arg : Word) :
    (s1.startTask t [(core, k, id)] entry arg).StartsOne s core k entry arg ∧
      ((s1.startTask t [(core, k, id)] entry arg).ctxAt core k).ident = id := by
  obtain ⟨begun, ident⟩ := startThread_begun s1.uid entry arg (s1.withTask t) (core, k, id)
  exact ⟨⟨begun, fun d j other => (startThread_other s1.uid entry arg _ (core, k, id) other).trans (ctxs d j), mem⟩, ident⟩

theorem coreAt_startTask_one (s : State) (t : Task) (core k : Nat) (id : Ident) (entry arg : Word) (d : Nat) :
    (s.startTask t [(core, k, id)] entry arg).coreAt d =
      { s.coreAt d with ctx := ((s.startTask t [(core, k, id)] entry arg).coreAt d).ctx } :=
  coreAt_modCtx ({ s.withTask t with uid := s.uid + 2 } : State) core k _ d

section
variable {s : State} {p core k : Nat}

theorem startOn_residual {e : ResidEntry} (queue : (s.coreAt core).residq = [e]) :
    (s.startOn p core k).StartsOne s core k e.entry e.arg ∧ ((s.startOn p core k).coreAt core).residq = [] := by
  have start : ∃ t id, s.startOn p core k = (s.modCore core (fun x =>
      { x with residq := x.residq.filter (fun y => y.node != e.node), startAc := some (s.coreAc core) })).startTask t [(core, k, id)]
        e.entry e.arg := by
    unfold State.startOn
    dsimp only
    rw [queue]
    exact ⟨_, _, rfl⟩
  obtain ⟨t, id, start⟩ := start
  have ctxs : ∀ d j, (s.modCore core (fun x =>
      { x with residq := x.residq.filter (fun y => y.node != e.node), startAc := some (s.coreAc core) })).ctxAt d j = s.ctxAt d j := by
    refine ctxAt_modCore s _ ?_
    exact fun _ => rfl
  rw [start]
  refine ⟨(startTask_one ctxs rfl ..).1, ?_⟩
  rw [coreAt_startTask_one, State.coreAt_modCore_same, queue]
  simp

theorem startOn_ordered {o : OrdTask} (none : (s.coreAt core).residq = []) (table : (s.clusterAt (clusterOf core)).ord = [o])
    (queued : o.state = .queued) :
    (s.startOn p core k).StartsOne s core k o.entry.entry o.entry.arg ∧ ((s.startOn p core k).ctxAt core k).ident.vtime = o.ts := by
  have first : s.earliest (clusterOf core) = some o := by
    unfold State.earliest
    rw [table, List.filter_cons_of_pos (by rw [queued]; rfl)]
    rfl
  have start : ∃ (s1 : State) (t : Task) (id : Ident), s.startOn p core k =
      s1.startTask t [(core, k, id)] o.entry.entry o.entry.arg ∧ s1.core = s.core ∧ s1.mem = s.mem ∧ id.vtime = o.ts := by
    unfold State.startOn
    dsimp only
    rw [none]
    dsimp only [bestResidual]
    rw [first]
    exact ⟨_, _, _, rfl, rfl, rfl, rfl⟩
  obtain ⟨s1, t, id, start, same, mem, vtime⟩ := start
  rw [start]
  obtain ⟨starts, ident⟩ := startTask_one (s := s) (s1 := s1) (fun d j => by rw [State.ctxAt, same]; rfl) mem t core k id
    o.entry.entry o.entry.arg
  exact ⟨starts, by rw [ident, vtime]⟩

theorem startOn_tail {es : List TaskEntry} {e : TaskEntry} (none : (s.coreAt core).residq = [])
    (unqueued : ∀ o ∈ (s.clusterAt (clusterOf core)).ord, o.state ≠ .queued) (queue : (s.coreAt core).taskq = es ++ [e]) :
    (s.startOn p core k).StartsOne s core k e.entry e.arg ∧ ((s.startOn p core k).coreAt core).taskq = es := by
  have noOrd : s.earliest (clusterOf core) = Option.none := by
    unfold State.earliest
    rw [List.filter_eq_nil_iff.mpr fun o mem => by simpa using unqueued o mem]
  have start : ∃ t id, s.startOn p core k = (s.modCore core (fun x => { x with taskq := x.taskq.dropLast })).startTask t [(core, k, id)]
      e.entry e.arg := by
    unfold State.startOn
    dsimp only
    rw [none]
    dsimp only [bestResidual]
    rw [noOrd, queue, List.getLast?_concat]
    exact ⟨_, _, rfl⟩
  obtain ⟨t, id, start⟩ := start
  have ctxs : ∀ d j, (s.modCore core (fun x => { x with taskq := x.taskq.dropLast })).ctxAt d j = s.ctxAt d j := by
    refine ctxAt_modCore s _ ?_
    exact fun _ => rfl
  rw [start]
  refine ⟨(startTask_one ctxs rfl ..).1, ?_⟩
  rw [coreAt_startTask_one, State.coreAt_modCore_same, queue]
  exact List.dropLast_concat

end

end Sys2Proof.Machine
end

section
/-! The end of a task (R76). -/

namespace Sys2Proof.Machine

/-! ## What the last steps of a task's end leave alone -/

theorem recordEnd_frame (s : State) (r : Option Nat) : (s.recordEnd r).mem = s.mem ∧ (s.recordEnd r).core = s.core ∧
    (s.recordEnd r).tasks = s.tasks := by
  unfold State.recordEnd
  split
  · exact ⟨rfl, rfl, rfl⟩
  · split <;> exact ⟨rfl, rfl, rfl⟩

theorem overrunCheck_frame (s : State) (q : Nat) : (s.overrunCheck q).mem = s.mem ∧ (s.overrunCheck q).core = s.core ∧
    (s.overrunCheck q).tasks = s.tasks := by
  unfold State.overrunCheck
  dsimp only
  split <;> exact ⟨rfl, rfl, rfl⟩

theorem freeHolds_tasks (s : State) (core k : Nat) : (s.freeHolds core k).tasks = s.tasks := by
  unfold State.freeHolds
  split <;> rfl

theorem farDrop_tasks (s : State) (owner : Nat) : (s.farDrop owner).tasks = s.tasks := by
  have unmet : (if s.meets.contains owner then { s with meets := s.meets.filter (fun a => a != owner) } else s).tasks = s.tasks := by
    split <;> rfl
  unfold State.farDrop
  generalize (if s.meets.contains owner then { s with meets := s.meets.filter (fun a => a != owner) } else s) = s1 at unmet ⊢
  dsimp only
  split
  · split <;> exact unmet
  · exact unmet

theorem freeCtx_tasks (s : State) (core k : Nat) : (s.freeCtx core k).tasks = s.tasks := by
  have window : (s.freeWindow core k).tasks = s.tasks := by
    unfold State.freeWindow
    dsimp only
    split <;> rfl
  have ports (x : State) : (x.closePorts core k).tasks = x.tasks := by
    unfold State.closePorts
    dsimp only
    split <;> rfl
  have faults (x : State) : (x.dropFaults core k).tasks = x.tasks := by
    unfold State.dropFaults
    dsimp only
    split <;> rfl
  rw [State.freeCtx, State.modCtx_tasks, faults, farDrop_tasks, ports, window]

/-- The buffers of a work are freed on every cluster (R183). -/
def State.bufsFreed (s : State) (id : Nat) : State := s.cluster.cells.foldl (fun x c => x.freeBufs c.1 id) s

theorem bufsFreed_eq (s : State) (id : Nat) : s.bufsFreed id = { s with cluster := (s.bufsFreed id).cluster } :=
  foldl_modCluster_eq (fun c : Nat × Cluster => c.1) (fun _ c => { c with bufs := c.bufs.filter (fun b => b.2.owner != id) }) _ s

/-- The task holds none of the clusters any longer (R88). -/
def State.ungang (s : State) (id : Nat) (cls : List Nat) : State :=
  cls.foldl (fun x cl => x.modCluster cl (fun c => { c with gang := if c.gang = some id then none else c.gang })) s

theorem ungang_frame (s : State) (id : Nat) (cls : List Nat) :
    (s.ungang id cls).core = s.core ∧ (s.ungang id cls).mem = s.mem ∧ (s.ungang id cls).tasks = s.tasks := by
  have only : s.ungang id cls = { s with cluster := (s.ungang id cls).cluster } :=
    foldl_modCluster_eq (fun cl : Nat => cl) (fun _ c => { c with gang := if c.gang = some id then none else c.gang }) cls s
  rw [only]
  exact ⟨rfl, rfl, rfl⟩

/-- The one thread of a task leaves its context, and the task leaves the device (R76 step 4). -/
theorem freeTask_one {s : State} {id core k : Nat} {x y : Task} (only : s.tasks = [(id, y)]) (one : x.threads = [(core, k)]) :
    ((s.freeTask id x).ctxAt core k).phase = .idle ∧ (s.freeTask id x).mem = s.mem ∧ (s.freeTask id x).tasks = [] := by
  let u := ((s.bufsFreed id).freeHolds core k).freeCtx core k
  have state : s.freeTask id x = { u.ungang id x.clusters with tasks := assocErase (u.ungang id x.clusters).tasks id } := by
    unfold State.freeTask
    rw [one]
    rfl
  have tasks : u.tasks = s.tasks := by rw [freeCtx_tasks, freeHolds_tasks, bufsFreed_eq]
  have mem : u.mem = s.mem := by rw [(freeCtx_frees _ core k).2, freeHolds_mem, bufsFreed_eq]
  have idle : (u.ctxAt core k).phase = .idle := (freeCtx_frees ((s.bufsFreed id).freeHolds core k) core k).1
  obtain ⟨gCore, gMem, gTasks⟩ := ungang_frame u id x.clusters
  rw [state]
  refine ⟨?_, gMem.trans mem, ?_⟩
  · exact (congrArg Ctx.phase (ctxAt_of_core gCore core k)).trans idle
  · dsimp only
    rw [gTasks, tasks, only]
    simp [assocErase]

/-- The task that leaves the device, with the counts that it ends (R67, R76, R84). -/
def State.taskEnded (s : State) (id : Nat) (x : Task) : State :=
  (((s.charge.freeTask id x).unbind x.sreg 1).recordEnd x.record).overrunCheck x.origq

theorem taskEnded_leaves {s : State} {id core k : Nat} {x y : Task} (only : s.tasks = [(id, y)]) (one : x.threads = [(core, k)]) :
    ((s.taskEnded id x).ctxAt core k).phase = .idle ∧ (s.taskEnded id x).mem = s.mem ∧ (s.taskEnded id x).tasks = [] := by
  have charged : s.charge.tasks = [(id, { y with start := s.time })] := by
    show s.tasks.map _ = _
    rw [only]
    rfl
  obtain ⟨phase, mem, tasks⟩ := freeTask_one charged one
  obtain ⟨uMem, -, -, uTasks⟩ := unbind_frame (s.charge.freeTask id x) x.sreg 1
  have uCore := unbind_core (s.charge.freeTask id x) x.sreg 1
  obtain ⟨rMem, rCore, rTasks⟩ := recordEnd_frame ((s.charge.freeTask id x).unbind x.sreg 1) x.record
  obtain ⟨oMem, oCore, oTasks⟩ := overrunCheck_frame (((s.charge.freeTask id x).unbind x.sreg 1).recordEnd x.record) x.origq
  refine ⟨?_, ?_, ?_⟩
  · rw [State.taskEnded, ctxAt_of_core (oCore.trans (rCore.trans uCore)), phase]
  · rw [State.taskEnded, oMem, rMem, uMem, mem]
    rfl
  · rw [State.taskEnded, oTasks, rTasks, uTasks, tasks]

/-! ## The steps before it (R76) -/

section
variable {s : State} {id core k : Nat} {x : Task}

/-- The sends of a context have joined the outgoing queue of its core (R115). -/
def State.sendsReleased (s : State) (core k : Nat) : State :=
  (s.modCore core (fun c => { c with outq := c.outq ++ (s.ctxAt core k).sendBuf })).modCtx core k (fun c => { c with sendBuf := [] })

/-- The conditions of a task's end on its one thread: nothing of it is out, and it sends nothing (R76, R255, R263). -/
structure State.EndsQuietly (s : State) (core k : Nat) : Prop where
  pend : (s.ctxAt core k).pend = 0
  streams : (s.ctxAt core k).streams = []
  sends : (s.ctxAt core k).sendBuf = []
  stores : (s.ctxAt core k).stores = 0
  out : s.outOf core k = []
  jobs : s.openJobs core k = []
  outq : (s.coreAt core).outq.length ≤ 32

theorem releaseStreams_none (streams : (s.ctxAt core k).streams = []) : releaseStreams core k s = .ok ((), s) := by
  unfold releaseStreams
  rw [streams]
  rfl

theorem releaseSends_none (h : s.EndsQuietly core k) : s.releaseSends core k = some (s.sendsReleased core k) := by
  have fits : ¬ 32 < (s.coreAt core).outq.length + (s.ctxAt core k).sendBuf.length := by
    rw [h.sends]
    exact Nat.not_lt.mpr h.outq
  exact if_neg fits

theorem sendsReleased_ctxAt (s : State) (core k : Nat) :
    (s.sendsReleased core k).ctxAt core k = { s.ctxAt core k with sendBuf := [] } := by
  rw [State.sendsReleased, State.ctxAt_modCtx_same, ctxAt_modCore s core (f := fun c => { c with outq := c.outq ++ (s.ctxAt core k).sendBuf })
    fun _ => rfl]

theorem sendsReleased_coreAt (h : s.EndsQuietly core k) : (s.sendsReleased core k).coreAt core =
    { s.coreAt core with ctx := ((s.sendsReleased core k).coreAt core).ctx } := by
  rw [State.sendsReleased, coreAt_modCtx, State.coreAt_modCore_same, h.sends, List.append_nil]

/-- The end of a task of one thread with nothing out, once its counter has been decremented (R76). -/
theorem taskEndAct_one {u : State} (only : s.tasks = [(id, x)]) (one : x.threads = [(core, k)]) (plain : x.ordered = none)
    (h : s.EndsQuietly core k)
    (counted : decrementCnt core x.part x.sreg (x.counter s.dev) (s.ctxAt core k).ident.taskId (s.sendsReleased core k) = .ok ((), u)) :
    taskEndAct id s = .ok ((), u.taskEnded id x) := by
  have found : assocGet s.tasks id = some x := by rw [only]; simp [assocGet]
  have noEntry (y : State) : y.entryOfTask x = none := by rw [State.entryOfTask, plain]; rfl
  have streams : x.threads.forM (fun q => releaseStreams q.1 q.2) s = .ok ((), s) := by
    rw [one]
    exact Act.bind_ok (releaseStreams_none h.streams)
  have jobs : (s.sendsReleased core k).openJobs core k = [] := by
    rw [State.openJobs, sendsReleased_coreAt h, sendsReleased_ctxAt]
    exact h.jobs
  have outq : ((s.sendsReleased core k).coreAt core).outq.length ≤ 32 := by
    rw [sendsReleased_coreAt h]
    exact h.outq
  have sends : x.threads.foldl (fun y q => (y.releaseSends q.1 q.2).getD y) s = s.sendsReleased core k := by
    rw [one]
    exact congrArg (fun r => Option.getD r s) (releaseSends_none h)
  unfold taskEndAct
  rw [Act.get_bind, found]
  dsimp only
  rw [if_neg (by simp [one, h.pend]), noEntry]
  dsimp only
  rw [Act.bind_ok streams, Act.get_bind, if_neg (by simp [one, h.stores, h.out]), if_neg (by simp [one, releaseSends_none h]),
    Act.modify_bind, sends, Act.get_bind, if_neg (by simp [one, outq]), if_neg (by simp [one, jobs]), one]
  dsimp only
  rw [sendsReleased_ctxAt]
  refine (Act.bind_ok counted).trans (congrArg (fun y => Except.ok ((), y)) ?_)
  dsimp only
  rw [noEntry]
  rfl

end

/-! ## The completion counter (R76) -/

theorem decrementCnt_zero (core part sreg : Nat) (taskId : Word) (s : State) : decrementCnt core part sreg 0 taskId s = .ok ((), s) := rfl

theorem resolveAt_spad {p : Word} {off : Nat} (ptr : spadPtr p off) (core part sreg : Nat) (a : Access) (s : State) :
    resolveAt core part sreg p a s = .ok (.ok (.mem (spadLoc core off) 0), s) := by
  obtain ⟨space, sub, high, low, -, -⟩ := spadPtr_bits ptr
  unfold resolveAt
  rw [Act.get_bind]
  simp only [space, sub, high, low]
  rfl

theorem spadPtr_ne_zero {p : Word} {off : Nat} (ptr : spadPtr p off) : p ≠ 0 := by
  rintro rfl
  have value : 0 = 3 * 2 ^ 52 + off := spadPtr_toNat ptr
  omega

/-- A counter in a scratchpad falls by 1. -/
def State.counterLowered (s : State) (loc : Nat) : State := s.putBytes loc (bytesOf (s.wordAtLoc loc - 1).toNat 8)

theorem decrementCnt_spad {s : State} (h : s.still) {cnt : Word} {off : Nat} (ptr : spadPtr cnt off) (core part sreg : Nat) (taskId : Word) :
    decrementCnt core part sreg cnt taskId s = .ok ((), s.counterLowered (spadLoc core off)) := by
  unfold decrementCnt
  rw [if_pos (spadPtr_ne_zero ptr), Act.get_bind, Act.bind_ok (resolveAt_spad ptr ..)]
  dsimp only
  rw [Act.get_bind, State.badRange_of_quiet h.quiet, if_neg Bool.false_ne_true, State.ownedRange_of_quiet h.quiet,
    if_neg Bool.false_ne_true, Act.bind_ok (enterLine_still h ..)]
  rfl

theorem counter_here {x : Task} {dev : Nat} (here : x.homeDev = dev) : x.counter dev = x.cnt := by simp [Task.counter, here]

section
variable {s : State} {id core k : Nat} {x : Task} (only : s.tasks = [(id, x)]) (one : x.threads = [(core, k)]) (plain : x.ordered = none)
  (here : x.homeDev = s.dev) (h : s.EndsQuietly core k)
include only one plain here h

theorem taskEnd_uncounted (none : x.cnt = 0) :
    ∃ t, exec (.taskEnd id) s = .next t ∧ (t.ctxAt core k).phase = .idle ∧ t.tasks = [] ∧ t.mem = s.mem := by
  have act := taskEndAct_one (u := s.sendsReleased core k) only one plain h
    (by rw [counter_here here, none]; exact decrementCnt_zero ..)
  obtain ⟨phase, mem, tasks⟩ := taskEnded_leaves (s := s.sendsReleased core k) only one
  exact ⟨_, congrArg Host.Outcome.next (runEvAct_ok act _), phase, tasks, mem⟩

theorem taskEnd_counted {off : Nat} (ptr : spadPtr x.cnt off) (still : s.still) :
    ∃ t, exec (.taskEnd id) s = .next t ∧ (t.ctxAt core k).phase = .idle ∧ t.tasks = [] ∧
      t.stored s (spadLoc core off) (bytesOf (s.wordAtLoc (spadLoc core off) - 1).toNat 8) := by
  have released : (s.sendsReleased core k).still := still
  have act := taskEndAct_one only one plain h (by rw [counter_here here]; exact decrementCnt_spad released ptr ..)
  obtain ⟨phase, mem, tasks⟩ := taskEnded_leaves (s := (s.sendsReleased core k).counterLowered (spadLoc core off)) only one
  exact ⟨_, congrArg Host.Outcome.next (runEvAct_ok act _), phase, tasks, State.stored_of_mem mem⟩

end

end Sys2Proof.Machine
end

section
/-! Shot clocks, quiescing and the umpire (R101, R103, R104, R117). -/

namespace Sys2Proof.Machine

/-! ## Speculation under what leaves every task's entry alone (R97) -/

theorem ordOf_of_work {s t : State} {core k : Nat} (work : (t.ctxAt core k).work = (s.ctxAt core k).work) (cluster : t.cluster = s.cluster)
    (tasks : ∀ id, (assocGet t.tasks id).map Task.ordered = (assocGet s.tasks id).map Task.ordered) : t.ordOf core k = s.ordOf core k := by
  unfold State.ordOf State.taskOf
  rw [work]
  cases (s.ctxAt core k).work with
  | task id =>
    have ordered := tasks id
    dsimp only
    cases old : assocGet s.tasks id <;> cases new : assocGet t.tasks id <;> rw [old, new] at ordered
    · rfl
    · cases ordered
    · cases ordered
    · next x y =>
      have same : y.ordered = x.ordered := Option.some.inj ordered
      dsimp only [Option.map_some]
      rw [same]
      simp only [State.clusterAt, cluster]
  | message u => rfl
  | arrival u => rfl
  | none => rfl

theorem specAt_of_work {s t : State} {core k : Nat} (work : (t.ctxAt core k).work = (s.ctxAt core k).work) (cluster : t.cluster = s.cluster)
    (tasks : ∀ id, (assocGet t.tasks id).map Task.ordered = (assocGet s.tasks id).map Task.ordered) : t.specAt core k = s.specAt core k := by
  rw [State.specAt, State.specAt, ordOf_of_work work cluster tasks]

theorem modTask_frame (s : State) (id : Nat) (f : Task → Task) :
    (s.modTask id f).core = s.core ∧ (s.modTask id f).cluster = s.cluster := by
  unfold State.modTask
  split <;> exact ⟨rfl, rfl⟩

theorem ordered_modTask (s : State) (id : Nat) {f : Task → Task} (keeps : ∀ x, (f x).ordered = x.ordered) (j : Nat) :
    (assocGet (s.modTask id f).tasks j).map Task.ordered = (assocGet s.tasks j).map Task.ordered := by
  unfold State.modTask
  split
  · next x found =>
    by_cases same : j = id
    · subst same
      rw [assocGet_set_same, found]
      exact congrArg some (keeps x)
    · rw [assocGet_set_ne _ _ _ _ same]
  · rfl

/-! ## An expiry (R103, R117) -/

/-- The thread runs, and nothing holds a trap of it back. -/
structure State.TrapsNow (s : State) (core k : Nat) : Prop where
  running : (s.ctxAt core k).phase = .running
  held : (s.ctxAt core k).heldTrap = none
  awake : (s.ctxAt core k).sleep = none
  pend : (s.ctxAt core k).pend = 0
  spec : s.specAt core k = false

theorem aborted_shotEnd {s : State} {core k : Nat} (off : (s.ctxAt core k).shotEnd = none) :
    ((s.aborted core k).ctxAt core k).shotEnd = none := by
  have entry : ∀ d j, (if decide (4 ≤ k) = true then s.abortEntry core (s.ctxAt core k).work else s).ctxAt d j = s.ctxAt d j := by
    intro d j
    split
    · unfold State.abortEntry
      split
      · refine ctxAt_modCore s _ ?_ d j
        exact fun _ => rfl
      · refine ctxAt_modCore s _ ?_ d j
        exact fun _ => rfl
      · rfl
    · rfl
  unfold State.aborted State.stopClock
  split
  · rw [ctxAt_of_core (modTask_frame ..).1, entry, off]
  · rw [State.ctxAt_modCtx_same]

/-- An expiry parks the running thread with SHOTCLOCK (R103). -/
theorem expire_parks {s : State} {core k : Nat} (h : s.TrapsNow core k) :
    let d := (s.expire core k).ctxAt core k
    d.phase = .parked ∧ bits d.trap.ecause 7 0 = 8 ∧ d.trap.epc = (s.ctxAt core k).pc ∧ (s.expire core k).mem = s.mem ∧
      ((s.ctxAt core k).shotEnd = none → d.shotEnd = none) := by
  intro d
  obtain ⟨sameCore, cluster, tasks, mem, -, -⟩ := (withdrawAll_onlySends s core k).fields
  have ctx := ctxAt_of_core sameCore core k
  have expires : s.expire core k = (s.withdrawAll core k).takeTrap core k (shotTrap (s.ctxAt core k)) :=
    if_pos ⟨h.running, by rw [h.held]; rfl⟩
  have spec : (s.withdrawAll core k).specAt core k = false :=
    (specAt_of_work (by rw [ctx]) cluster fun id => by rw [tasks]).trans h.spec
  have pend : ((s.withdrawAll core k).ctxAt core k).pend = 0 := by rw [ctx, h.pend]
  have parks : ¬ (s.withdrawAll core k).tvecTakes core k (shotTrap (s.ctxAt core k)) := by
    rintro ⟨level, -⟩
    exact absurd level (by decide : ¬ (tvecCause 8 = true ∨ false = true))
  have pc : (shotTrap (s.ctxAt core k)).epc = (s.ctxAt core k).pc := by
    rw [shotTrap, Ctx.resumePc, h.awake]
    rfl
  obtain ⟨cause, -⟩ := ecauseOf_fields (shotTrap (s.ctxAt core k)) (decide (4 ≤ k)) ((s.withdrawAll core k).ctxAt core k).intv
  have parked : d = _ := (congrArg (fun u : State => u.ctxAt core k) expires).trans (takeTrap_parks_ctxAt spec pend parks)
  rw [parked]
  refine ⟨rfl, cause, pc, ?_, fun off => ?_⟩
  · rw [expires, takeTrap_mem, mem]
  · exact aborted_shotEnd (by rw [ctx, off])

section
variable {s : State} {id core k e : Nat} {x : Task}

theorem shotclock_early (task : assocGet s.tasks id = some x) (one : x.threads = [(core, k)]) (clock : x.clockEnd = some e)
    (early : s.coreAc core < e) : exec (.shotclock id) s = .next s := by
  have ac : s.taskAc x = s.coreAc core := by rw [State.taskAc, one]; rfl
  refine congrArg Host.Outcome.next ?_
  dsimp only
  rw [task]
  dsimp only
  rw [clock]
  dsimp only
  rw [ac, if_pos (by simp [early])]

theorem shotclock_expires (task : assocGet s.tasks id = some x) (one : x.threads = [(core, k)]) (clock : x.clockEnd = some e)
    (late : e ≤ s.coreAc core) (running : (s.ctxAt core k).phase = .running) (held : s.heldBack core k = false) :
    exec (.shotclock id) s = .next ((s.modTask id (fun y => { y with clockEnd := none })).expire core k) := by
  have ac : s.taskAc x = s.coreAc core := by rw [State.taskAc, one]; rfl
  refine congrArg Host.Outcome.next ?_
  dsimp only
  rw [task]
  dsimp only
  rw [clock]
  dsimp only
  rw [ac, one, if_neg (by simp [late, running, held])]
  rfl

theorem handlerShotclock_early (clock : (s.ctxAt core k).shotEnd = some e) (early : s.coreAc core < e) :
    exec (.handlerShotclock core k) s = .next s := by
  refine congrArg Host.Outcome.next ?_
  dsimp only
  rw [clock]
  exact if_pos early

theorem handlerShotclock_expires (clock : (s.ctxAt core k).shotEnd = some e) (late : e ≤ s.coreAc core) :
    exec (.handlerShotclock core k) s = .next ((s.modCtx core k (fun c => { c with shotEnd := none })).expire core k) := by
  refine congrArg Host.Outcome.next ?_
  dsimp only
  rw [clock]
  exact if_neg (Nat.not_lt.mpr late)

theorem modTask_trapsNow (h : s.TrapsNow core k) (id : Nat) :
    (s.modTask id (fun y => { y with clockEnd := none })).TrapsNow core k := by
  obtain ⟨sameCore, cluster⟩ := modTask_frame s id (fun y => { y with clockEnd := none })
  have ctx := ctxAt_of_core sameCore core k
  have spec : (s.modTask id (fun y => { y with clockEnd := none })).specAt core k = s.specAt core k :=
    specAt_of_work (by rw [ctx]) cluster (ordered_modTask s id fun _ => rfl)
  refine ⟨?_, ?_, ?_, ?_, spec.trans h.spec⟩ <;> rw [ctx]
  exacts [h.running, h.held, h.awake, h.pend]

theorem modCtx_trapsNow (h : s.TrapsNow core k) : (s.modCtx core k (fun c => { c with shotEnd := none })).TrapsNow core k := by
  have ctx := State.ctxAt_modCtx_same s core k (fun c => { c with shotEnd := none })
  have spec : (s.modCtx core k (fun c => { c with shotEnd := none })).specAt core k = s.specAt core k :=
    specAt_of_work (by rw [ctx]) rfl fun _ => rfl
  refine ⟨?_, ?_, ?_, ?_, spec.trans h.spec⟩ <;> rw [ctx]
  exacts [h.running, h.held, h.awake, h.pend]

end

/-! ## Quiescing (R89, R104) -/

theorem quiesceRequest_takes {s : State} {p : Nat} (running : (s.part.get p).state = 2) (fresh : p ∉ s.quiescing) :
    exec (.quiesceRequest p) s = .next { s with quiescing := s.quiescing ++ [p] } :=
  congrArg Host.Outcome.next (if_pos ⟨running, by simp [fresh]⟩)

/-- The quiescing partition has become QUIET (R89, R104). -/
def State.quieted (s : State) (p : Nat) : State :=
  { s with quiescing := s.quiescing.filter (fun q => q != p), reserved := s.reserved.filter (fun r => r.1 != p),
           part := s.part.modify p (fun e => { e with state := 3 }) }

theorem partitionQuiet_takes {s : State} {p : Nat} (asked : p ∈ s.quiescing) (quiet : s.quiet p = true) :
    exec (.partitionQuiet p) s = .next (s.quieted p) :=
  congrArg Host.Outcome.next (if_pos (by simp [asked, quiet]))

theorem partitionQuiet_waits {s : State} {p : Nat} (waits : p ∉ s.quiescing ∨ s.quiet p = false) :
    exec (.partitionQuiet p) s = .next s :=
  congrArg Host.Outcome.next (if_neg (by
    rw [Bool.and_eq_true, List.contains_iff_mem]
    rintro ⟨asked, quiet⟩
    rcases waits with unasked | busy
    · exact unasked asked
    · exact Bool.false_ne_true (busy.symm.trans quiet)))

theorem quieted_leaves (s : State) (p : Nat) : ((s.quieted p).part.get p).state = 3 ∧ p ∉ (s.quieted p).quiescing ∧
    (∀ r ∈ (s.quieted p).reserved, r.1 ≠ p) := by
  refine ⟨?_, by simp [State.quieted], fun r mem => ?_⟩
  · rw [State.quieted, Tab.get_modify_same]
  · exact bne_iff_ne.mp (List.mem_filter.mp mem).2

/-! ## The umpire, where no ordered task is (R101) -/

section
variable {s : State} (noOrd : ∀ cl, (s.clusterAt cl).ord = [])
include noOrd

theorem liveKeys_nil (p : Nat) : s.liveKeys p = [] := by simp [State.liveKeys, noOrd]

theorem quiesceOrd_self (p : Nat) : s.quiesceOrd p = s := by
  have keys : s.queuedKeys p = [] := by simp [State.queuedKeys, noOrd]
  unfold State.quiesceOrd
  rw [keys]
  cases s.quiescing.contains p <;> rfl

theorem commitNext_self (n p : Nat) : commitNext (n + 1) p s = s := by
  have commits : s.committing p = [] :=
    List.eq_nil_iff_forall_not_mem.mpr fun x mem => by simp [State.committing, noOrd] at mem
  have raised (l : List Nat) : l.foldl (fun x cl =>
      if (x.clusterAt cl).ord.any (fun o => o.state == .running && !o.irrevocable && s.leastPublished p o) then
        x.modCluster cl (fun c => { c with ord := c.ord.map (fun o =>
          if o.state == .running && s.leastPublished p o then { o with irrevocable := true } else o) })
      else x) s = s := by
    induction l with
    | nil => rfl
    | cons cl l ih =>
      rw [List.foldl_cons, noOrd cl, List.any_nil, if_neg Bool.false_ne_true]
      exact ih
  unfold commitNext
  rw [commits]
  exact raised _

theorem umpireTick_early {p : Nat} (early : s.time / 1024 ≤ (s.umpire.get p).tick) : exec (.umpireTick p) s = .next s := by
  refine congrArg Host.Outcome.next ?_
  dsimp only
  rw [if_neg (Nat.not_lt.mpr early)]
  exact commitNext_self noOrd 63 p

end

/-- A pass that changes contexts alone at each step changes the cores alone. -/
theorem foldl_onlyCore {α : Type} {f : State → α → State} (h : ∀ s a, f s a = { s with core := (f s a).core }) (l : List α) (s : State) :
    l.foldl f s = { s with core := (l.foldl f s).core } := by
  induction l generalizing s with
  | nil => rfl
  | cons a l ih =>
    have first := h s a
    have rest := ih (f s a)
    rw [List.foldl_cons]
    generalize f s a = t at first rest ⊢
    rw [first] at rest ⊢
    exact rest

theorem latchCore_onlyCore (s : State) (core b : Nat) : s.latchCore core b = { s with core := (s.latchCore core b).core } := by
  refine foldl_onlyCore (fun x k => ?_) _ s
  unfold State.latch
  split <;> rfl

/-- The state in which a key is published and the partition's contexts are told (R101, R330). -/
theorem publishKey_frame (s : State) (p : Nat) (key : Nat × Nat × Nat) :
    (s.publishKey p (some key)).cluster = s.cluster ∧ (s.publishKey p (some key)).mem = s.mem ∧
      (s.publishKey p (some key)).umpire =
        s.umpire.modify p (fun u => { u with published := some (some key), gvt := ofN key.1 }) := by
  have told := foldl_onlyCore (fun x c => latchCore_onlyCore x c 6) ((s.clustersOf p).flatMap coresOf) s
  unfold State.publishKey
  dsimp only
  rw [told]
  exact ⟨rfl, rfl, rfl⟩

/-- The sampled key is published with its GVT, and the next sample sees no task (R101). -/
theorem umpireTick_publishes {s : State} (noOrd : ∀ cl, (s.clusterAt cl).ord = []) {p : Nat} {key : Nat × Nat × Nat}
    (due : (s.umpire.get p).tick < s.time / 1024) (sampled : (s.umpire.get p).sampled = some (some key)) :
    ∃ t, exec (.umpireTick p) s = .next t ∧ (t.umpire.get p).published = some (some key) ∧ (t.umpire.get p).gvt = BitVec.ofNat 64 key.1 ∧
      (t.umpire.get p).sampled = some none ∧ (t.umpire.get p).tick = s.time / 1024 ∧ t.mem = s.mem := by
  obtain ⟨cluster, mem, umpire⟩ := publishKey_frame s p key
  have still : ∀ cl, ((s.publishKey p (some key)).clusterAt cl).ord = [] := fun cl => by
    rw [State.clusterAt, cluster]
    exact noOrd cl
  let t : State := { s.publishKey p (some key) with umpire := (s.publishKey p (some key)).umpire.modify p (fun v =>
    { v with sampled := some none, tick := s.time / 1024 }) }
  have entry : t.umpire.get p = { s.umpire.get p with
      published := some (some key), gvt := ofN key.1, sampled := some none, tick := s.time / 1024 } := by
    show Tab.get (Tab.modify ..) p = _
    rw [Tab.get_modify_same, umpire, Tab.get_modify_same]
  refine ⟨t, congrArg Host.Outcome.next ?_, by rw [entry], by rw [entry]; rfl, by rw [entry], by rw [entry], mem⟩
  dsimp only
  rw [if_pos due, sampled]
  dsimp only
  rw [quiesceOrd_self still, liveKeys_nil still]
  exact commitNext_self (s := t) still 63 p

end Sys2Proof.Machine
end

section
/-! The statement of scheduling (R76, R77, R86 to R88, R93, R101, R103, R104, R117). -/

namespace Sys2Proof.Machine

/-- Of the one candidate's head, a thread task joins the shortest queue and a squad starts its threads (R86 to R88). -/
theorem taskPlace_places (s : State) (q p : Nat) (r : LaunchRec) (rest : List LaunchRec) (low : q < 64)
    (only : ∀ x, x < 64 → (s.candidate x = true ↔ x = q)) (head : (s.launch.get q).recs = r :: rest) (part : s.partOfQueue q = some p) :
    (r.kind = 0 → (∃ c, s.takesThreads p c ∧ (s.coreAt c).taskq.length < 128) → ∃ t c e, exec .taskPlace s = .next t ∧
      s.takesThreads p c ∧ (t.coreAt c).taskq = (s.coreAt c).taskq ++ [e] ∧ e.entry = r.entry ∧ e.arg = r.arg ∧ e.cnt = r.cnt ∧
      e.record = some r.uid ∧ (∀ x, s.takesThreads p x → (s.coreAt c).taskq.length ≤ (s.coreAt x).taskq.length) ∧
      (∀ x, x ≠ c → t.coreAt x = s.coreAt x) ∧ (r.tasks ≤ r.placed + 1 → (t.launch.get q).recs = rest)) ∧
    (∀ cl, r.kind = 1 → s.partReserved p = none → (s.qualifying p r.sqw).head? = some cl → ∃ t, exec .taskPlace s = .next t ∧
      (t.clusterAt cl).gang.isSome = true ∧ ∀ c ∈ (s.openCores cl).take r.sqw, ∃ k, k < 4 ∧ (s.ctxAt c k).phase = .idle ∧
        (t.ctxAt c k).phase = .running ∧ (t.ctxAt c k).pc = r.entry ∧ (t.ctxAt c k).g.get 1 = r.arg) := by
  refine ⟨fun kind room => ?thread, fun cl kind free first => ?squad⟩
  case thread =>
    obtain ⟨c, placed, takes, least⟩ := placeThread_shortest q r room
    obtain ⟨core, -⟩ := placedOne_frame (s.modCore c (fun x => { x with taskq := x.taskq ++ [r.threadEntry q] })) q r
    refine ⟨s.threadPlaced q c r, c, r.threadEntry q, ?_, takes, ?_, rfl, rfl, rfl, rfl, least, fun x other => ?_, fun last => ?_⟩
    · rw [exec_taskPlace_only low only, placeOne_thread head part kind placed]
    · rw [State.threadPlaced, coreAt_of_core core, State.coreAt_modCore_same]
    · rw [State.threadPlaced, coreAt_of_core core, State.coreAt_modCore_ne _ _ _ _ other]
    · rw [State.threadPlaced, placedOne_last last, State.modCore_launch, head]
      rfl
  case squad =>
    obtain ⟨u, placed, gang, starts⟩ := placeGang_starts (q := q) kind first
    refine ⟨u, ?_, gang, fun c mem => ?_⟩
    · rw [exec_taskPlace_only low only, placeOne_gang head part (by omega) free placed]
    · obtain ⟨k, slot, idle, begun⟩ := starts c mem
      exact ⟨k, slot, idle, begun.phase, begun.pc, begun.arg⟩

/-- Settles O49: placement by the one candidate, a start by what `startOn` takes, a task's end by its steps, an expiry by the trap that parks,
and the umpire where no ordered task is. -/
theorem scheduling : Obligations.Scheduling := by
  unfold Obligations.Scheduling
  intro s
  refine ⟨taskPlace_places s, fun core p k ks part free may open_ => ⟨fun e queue => ?residual, fun o none table queued => ?ordered,
      fun es e none unqueued queue => ?tail⟩,
    fun id x core k only one plain here pend streams sends stores out jobs outq => ⟨?uncounted, fun off ptr _ still => ?counted⟩,
    fun id x core k e task one clock running held awake pend spec back => ⟨shotclock_early task one clock, fun late => ?shot⟩,
    fun core k e clock running held awake pend spec => ⟨handlerShotclock_early clock, fun late => ?handler⟩,
    fun p => ⟨quiesceRequest_takes, fun asked quiet => ?quiet, partitionQuiet_waits⟩,
    fun p none => ⟨fun key due sampled => umpireTick_publishes none due sampled, umpireTick_early none⟩⟩
  case residual =>
    obtain ⟨⟨begun, others, mem⟩, left⟩ := startOn_residual (p := p) (k := k) queue
    exact ⟨_, ⟨exec_taskStart part free may open_, begun.phase, begun.pc, begun.arg, begun.zero, begun.vwin, others, mem⟩, left⟩
  case ordered =>
    obtain ⟨⟨begun, others, mem⟩, vtime⟩ := startOn_ordered (p := p) (k := k) none table queued
    exact ⟨_, ⟨exec_taskStart part free may open_, begun.phase, begun.pc, begun.arg, begun.zero, begun.vwin, others, mem⟩, vtime⟩
  case tail =>
    obtain ⟨⟨begun, others, mem⟩, left⟩ := startOn_tail (p := p) (k := k) none unqueued queue
    exact ⟨_, ⟨exec_taskStart part free may open_, begun.phase, begun.pc, begun.arg, begun.zero, begun.vwin, others, mem⟩, left⟩
  case uncounted => exact taskEnd_uncounted only one plain here ⟨pend, streams, sends, stores, out, jobs, outq⟩
  case counted => exact taskEnd_counted only one plain here ⟨pend, streams, sends, stores, out, jobs, outq⟩ ptr still
  case shot =>
    have now := modTask_trapsNow (s := s) ⟨running, held, awake, pend, spec⟩ id
    have ctx := ctxAt_of_core (modTask_frame s id (fun y => { y with clockEnd := none })).1 core k
    obtain ⟨phase, cause, epc, mem, -⟩ := expire_parks now
    exact ⟨_, shotclock_expires task one clock late running back, phase, cause, epc.trans (congrArg Ctx.pc ctx), mem.trans (modTask_mem ..)⟩
  case handler =>
    have ctx := State.ctxAt_modCtx_same s core k (fun c => { c with shotEnd := none })
    obtain ⟨phase, cause, -, mem, off⟩ := expire_parks (modCtx_trapsNow (s := s) ⟨running, held, awake, pend, spec⟩)
    exact ⟨_, handlerShotclock_expires clock late, phase, cause, off (congrArg Ctx.shotEnd ctx), mem⟩
  case quiet =>
    obtain ⟨state, done, unreserved⟩ := quieted_leaves s p
    exact ⟨_, partitionQuiet_takes asked quiet, state, done, unreserved, rfl, rfl⟩

end Sys2Proof.Machine
end

section
/-! What an engine tells a core: the release of a line, the delivery of a fault, the end of a job, and the user-level interrupt with the
return from it (R135, R190, R191, R273, R276, R293, R331, R404, R408). -/

namespace Sys2Proof.Machine

/-! ## Lines and faults (R135, R276) -/

theorem exec_engineLineRelease (s : State) (job : Word) (line : Nat) : exec (.engineLineRelease job line) s =
    .next { s with owned := s.owned.filter (fun p => !(p.1 == line && p.2 == job)) } := rfl

theorem mem_released {l : List (Nat × Word)} {line : Nat} {job : Word} {p : Nat × Word} :
    p ∈ l.filter (fun p => !(p.1 == line && p.2 == job)) ↔ p ∈ l ∧ p ≠ (line, job) := by
  rw [List.mem_filter, Bool.not_eq_true', Bool.and_eq_false_iff, beq_eq_false_iff_ne, beq_eq_false_iff_ne, ne_eq p,
    Prod.ext_iff, not_and_or]

/-- A fault whose issuing work has ended reaches no thread. -/
theorem engineFaultDeliver_drops {s : State} {f : EngineFault} (ended : (s.ctxAt f.core f.ctx).serial ≠ f.work) :
    exec (.engineFaultDeliver f) s = .next s :=
  congrArg Host.Outcome.next (if_pos (by simp [ended]))

theorem engineFaultDeliver_traps {s : State} {f : EngineFault} (work : (s.ctxAt f.core f.ctx).serial = f.work)
    (running : (s.ctxAt f.core f.ctx).phase = .running) (held : (s.ctxAt f.core f.ctx).heldTrap = none) :
    exec (.engineFaultDeliver f) s =
      .next (s.takeTrap f.core f.ctx { f.trap with epc := (s.ctxAt f.core f.ctx).resumePc }) :=
  congrArg Host.Outcome.next ((if_neg (by simp [work, running])).trans (if_neg (by simp [running, held])))

/-! ## What sets latches alone (R330) -/

/-- Of every context only the latches may differ, and of a core not its jobs. -/
structure State.OnlyLatches (s t : State) : Prop where
  ctxs : ∀ c k, t.ctxAt c k = { s.ctxAt c k with latch := (t.ctxAt c k).latch }
  jobs : s.KeepsJobs t

namespace State.OnlyLatches

theorem refl (s : State) : s.OnlyLatches s := ⟨fun _ _ => rfl, .refl s⟩

theorem trans {s t u : State} (h : s.OnlyLatches t) (g : t.OnlyLatches u) : s.OnlyLatches u :=
  ⟨fun c k => by rw [g.ctxs c k, h.ctxs c k], h.jobs.trans g.jobs⟩

theorem foldl {α : Type} {f : State → α → State} (h : ∀ (s : State) (a : α), s.OnlyLatches (f s a)) (l : List α) (s : State) :
    s.OnlyLatches (l.foldl f s) := by
  induction l generalizing s with
  | nil => exact .refl s
  | cons a l ih => exact (h s a).trans (ih _)

end State.OnlyLatches

theorem latch_onlyLatches (s : State) (core k b : Nat) : s.OnlyLatches (s.latch core k b) := by
  unfold State.latch
  split
  · exact .refl s
  refine ⟨fun d j => ?_, modCore_keepsJobs s core fun _ => rfl⟩
  by_cases same : d = core ∧ j = k
  · obtain ⟨rfl, rfl⟩ := same
    rw [State.ctxAt_modCtx_same]
  · rw [State.ctxAt_modCtx_ne _ _ _ _ _ _ same]

theorem bufEvent_onlyLatches (s : State) (cl h : Nat) : s.OnlyLatches (s.bufEvent cl h) := by
  refine .foldl (fun x c => .foldl (fun y k => ?_) _ x) _ s
  split
  · exact latch_onlyLatches ..
  · exact .refl y

theorem modBuf_onlyLatches (s : State) (cl h : Nat) (f : CircBuf → CircBuf) : s.OnlyLatches (s.modBuf cl h f) := by
  unfold State.modBuf
  split <;> exact ⟨fun _ _ => rfl, fun _ => rfl, rfl⟩

/-- A publish tells the holders of its buffer by their latches. -/
theorem publishOf_onlyLatches (s : State) (j : Job) (cl : Nat) : s.OnlyLatches (s.publishOf j cl) := by
  unfold State.publishOf
  split
  · exact (modBuf_onlyLatches ..).trans (bufEvent_onlyLatches ..)
  · exact .refl s

/-! ## The buffer that a job fills (R184) -/

theorem bufOf_of_cluster {s t : State} (h : t.cluster = s.cluster) (cl b : Nat) : t.bufOf cl b = s.bufOf cl b := by
  rw [State.bufOf, State.bufOf, State.clusterAt, State.clusterAt, h]

theorem latch_onlyCore (s : State) (core k b : Nat) : s.latch core k b = { s with core := (s.latch core k b).core } := by
  unfold State.latch
  split <;> rfl

theorem bufEvent_cluster (s : State) (cl h : Nat) : (s.bufEvent cl h).cluster = s.cluster := by
  have only : s.bufEvent cl h = { s with core := (s.bufEvent cl h).core } := by
    refine foldl_onlyCore (fun x c => foldl_onlyCore (fun y k => ?_) _ x) _ s
    split
    · exact latch_onlyCore ..
    · rfl
  rw [only]

theorem bufOf_modBuf {s : State} {cl h : Nat} {b : CircBuf} (found : s.bufOf cl h = some b) {f : CircBuf → CircBuf}
    (owner : (f b).owner = b.owner) : (s.modBuf cl h f).bufOf cl h = some (f b) := by
  have own : b.owner = h / 64 := by
    unfold State.bufOf at found
    split at found
    · split at found
      · next own => cases found; exact own
      · cases found
    · cases found
  unfold State.modBuf
  rw [found]
  simp [State.bufOf, State.clusterAt, State.modCluster, assocGet_set_same, owner, own]

theorem bufOf_bufPublish {s : State} {cl h : Nat} {b : CircBuf} (found : s.bufOf cl h = some b) :
    (s.bufPublish cl h).bufOf cl h = some { b with pidx := b.pidx + 1 } :=
  (bufOf_of_cluster (bufEvent_cluster ..) cl h).trans (bufOf_modBuf found rfl)

/-! ## The end of a job (R190, R191, R408) -/

theorem id_of_jobOf {s : State} {id : Word} {j : Job} (h : s.jobOf id = some j) : j.id = id := by
  unfold State.jobOf at h
  split at h
  · cases h
  · exact eq_of_beq (List.find?_some (p := fun (x : Job) => x.id == id) h)

theorem ringFull_of_full {s : State} {j : Job} {job : Word} {h : Nat} {b : CircBuf} (buf : j.buf = some h)
    (found : s.bufOf (clusterOf (jobCore job)) h = some b) (full : b.room = false) : s.ringFull j job = true := by
  simp [State.ringFull, buf, found, full]

theorem ringFull_of_room {s : State} {j : Job} {job : Word}
    (room : ∀ h b, j.buf = some h → s.bufOf (clusterOf (jobCore job)) h = some b → b.room = true) : s.ringFull j job = false := by
  unfold State.ringFull
  split
  · next b found =>
    obtain ⟨h, buf, at_⟩ := Option.bind_eq_some_iff.mp found
    rw [room h b buf at_]
    rfl
  · rfl

/-- The user-level interrupts that wait at a context after the end of a job (R191). -/
def Ctx.interruptsAfter (c : Ctx) (j : Job) : List UserIntr :=
  c.waitIntr ++ (if bit j.cpl 3 = true ∧ c.waitIntr.length < 8 then [{ job := j.id, hpc := j.hpc }] else [])

theorem jobInterrupt_ctxAt {s : State} {j : Job} (serial : (s.ctxAt (jobCore j.id) j.ctx).serial = j.serial)
    (running : (s.ctxAt (jobCore j.id) j.ctx).phase = .running) : (s.jobInterrupt j).ctxAt (jobCore j.id) j.ctx =
      { s.ctxAt (jobCore j.id) j.ctx with waitIntr := (s.ctxAt (jobCore j.id) j.ctx).interruptsAfter j } := by
  unfold State.jobInterrupt Ctx.interruptsAfter
  dsimp only
  split
  · next asks =>
    simp only [Bool.and_eq_true, decide_eq_true_eq] at asks
    rw [State.ctxAt_modCtx_same, if_pos ⟨asks.1.1.1.1, asks.2⟩]
  · next asks =>
    have none : ¬ (bit j.cpl 3 = true ∧ (s.ctxAt (jobCore j.id) j.ctx).waitIntr.length < 8) := fun yes =>
      asks (by simp [yes.1, yes.2, serial, running])
    rw [if_neg none, List.append_nil]

theorem jobInterrupt_frame (s : State) (j : Job) : s.KeepsJobs (s.jobInterrupt j) ∧ (s.jobInterrupt j).cluster = s.cluster := by
  unfold State.jobInterrupt
  dsimp only
  split
  · exact ⟨modCore_keepsJobs s _ fun _ => rfl, rfl⟩
  · exact ⟨.refl s, rfl⟩

/-- The context of a job's issuer hears of its end by the latch of completions (R330, bit 0). -/
theorem latchOf_latches {s : State} {j : Job} {core : Nat} (serial : (s.ctxAt core j.ctx).serial = j.serial)
    (running : (s.ctxAt core j.ctx).phase = .running) : ((s.latchOf j core).ctxAt core j.ctx).latch.getLsbD 0 = true := by
  rw [State.latchOf, if_pos serial, State.latch, if_neg (by simp [running]), State.ctxAt_modCtx_same]
  simp

theorem latchOf_onlyLatches (s : State) (j : Job) (core : Nat) : s.OnlyLatches (s.latchOf j core) := by
  unfold State.latchOf
  split
  · exact latch_onlyLatches ..
  · exact .refl s

theorem latchOf_cluster (s : State) (j : Job) (core : Nat) : (s.latchOf j core).cluster = s.cluster := by
  unfold State.latchOf
  split
  · rw [latch_onlyCore]
  · rfl

theorem ctxAt_modJob (s : State) (id : Word) (f : Job → Job) (c k : Nat) : (s.modJob id f).ctxAt c k = s.ctxAt c k := by
  refine ctxAt_modCore s _ ?_ c k
  exact fun _ => rfl

theorem ctxAt_ageJobs (s : State) (id : Word) (c k : Nat) : (s.ageJobs id).ctxAt c k = s.ctxAt c k := by
  refine ctxAt_modCore s _ ?_ c k
  exact fun _ => rfl

theorem recordDone_ctxAt (s : State) (job : Word) (c k : Nat) : (s.recordDone job).ctxAt c k = s.ctxAt c k :=
  (ctxAt_ageJobs ..).trans (ctxAt_modJob ..)

theorem recordDone_owned (s : State) (job : Word) : ∀ p ∈ (s.recordDone job).owned, p.2 ≠ job := fun p m => by
  have kept : p ∈ s.owned.filter (fun p => p.2 != job) := m
  exact bne_iff_ne.mp (List.mem_filter.mp kept).2

theorem recordDone_cluster (s : State) (job : Word) : (s.recordDone job).cluster = s.cluster := rfl

/-- The record of a job says that it has completed. -/
theorem jobOf_recordDone {s : State} {job : Word} {j : Job} (found : s.jobOf job = some j) (kept : j.later < 32) :
    (s.recordDone job).jobOf job = some { j with state := 4 } := by
  have recorded := jobOf_modJob (s.disown job) job (fun x => { x with state := 4 }) fun _ => rfl
  rw [show (s.disown job).jobOf job = some j from found, Option.map_some] at recorded
  exact jobOf_ageJobs recorded kept

theorem exec_jobComplete (job : Word) (s : State) : exec (.jobComplete job) s = .next (s.completeJob job) := rfl

section
variable {s : State} {job : Word} {j : Job} (found : s.jobOf job = some j) (running : j.state < 4)
include found running

theorem jobComplete_waits {h : Nat} {b : CircBuf} (buf : j.buf = some h) (at_ : s.bufOf (clusterOf (jobCore job)) h = some b)
    (full : b.room = false) : exec (.jobComplete job) s = .next ((s.disown job).push (.jobComplete job)) := by
  rw [exec_jobComplete, completeJob_eq found, if_neg (Nat.ne_of_lt running), if_pos (ringFull_of_full buf at_ full)]

theorem jobComplete_done
    (room : ∀ h b, j.buf = some h → s.bufOf (clusterOf (jobCore job)) h = some b → b.room = true) :
    exec (.jobComplete job) s = .next ((s.formsDone j job).recordDone job) := by
  rw [exec_jobComplete, completeJob_eq found, if_neg (Nat.ne_of_lt running), if_neg (by simp [ringFull_of_room room])]

end

/-- The forms of completion of a job with neither a huddle nor an arrival entry: the publish, the interrupt and the latch. -/
theorem formsDone_plain {s : State} {j : Job} {job : Word} (huddles : j.huddles = []) (arr : j.arr = none) :
    s.formsDone j job = ((s.publishOf j (clusterOf (jobCore job))).jobInterrupt j).latchOf j (jobCore job) := by
  simp only [State.formsDone, State.arriveOf, State.jobArrivals, huddles, arr, List.foldl_nil]

/-- What those forms leave of the issuer's context, of the job and of the buffer. -/
theorem formsDone_plain_leaves {s : State} {j : Job} (huddles : j.huddles = []) (arr : j.arr = none)
    (serial : (s.ctxAt (jobCore j.id) j.ctx).serial = j.serial) (running : (s.ctxAt (jobCore j.id) j.ctx).phase = .running) :
    let t := s.formsDone j j.id
    let c := t.ctxAt (jobCore j.id) j.ctx
    s.KeepsJobs t ∧ c.latch.getLsbD 0 = true ∧ c.waitIntr = (s.ctxAt (jobCore j.id) j.ctx).interruptsAfter j ∧
      ∀ h b, j.buf = some h → s.bufOf (clusterOf (jobCore j.id)) h = some b →
        t.bufOf (clusterOf (jobCore j.id)) h = some { b with pidx := b.pidx + 1 } := by
  dsimp only
  rw [formsDone_plain huddles arr]
  have published := publishOf_onlyLatches s j (clusterOf (jobCore j.id))
  have ring : ∀ h b, j.buf = some h → s.bufOf (clusterOf (jobCore j.id)) h = some b →
      (s.publishOf j (clusterOf (jobCore j.id))).bufOf (clusterOf (jobCore j.id)) h = some { b with pidx := b.pidx + 1 } :=
    fun h b buf at_ => by rw [State.publishOf, buf]; exact bufOf_bufPublish at_
  generalize s.publishOf j (clusterOf (jobCore j.id)) = p at published ring ⊢
  have heard := published.ctxs (jobCore j.id) j.ctx
  have serial' : (p.ctxAt (jobCore j.id) j.ctx).serial = j.serial := by rw [heard]; exact serial
  have running' : (p.ctxAt (jobCore j.id) j.ctx).phase = .running := by rw [heard]; exact running
  have interrupted := jobInterrupt_ctxAt serial' running'
  obtain ⟨jobs, cluster⟩ := jobInterrupt_frame p j
  have latched := latchOf_onlyLatches (p.jobInterrupt j) j (jobCore j.id)
  refine ⟨published.jobs.trans (jobs.trans latched.jobs), latchOf_latches ?_ ?_, ?_, fun h b buf at_ => ?_⟩
  · rw [interrupted]; exact serial'
  · rw [interrupted]; exact running'
  · rw [latched.ctxs, interrupted, heard]
    rfl
  · rw [bufOf_of_cluster ((latchOf_cluster ..).trans cluster)]
    exact ring h b buf at_

/-! ## The user-level interrupt (R191, R293, R331, R404) -/

/-- A context that enters the handler of the interrupt `u`, with `rest` still to come. -/
def Ctx.entersHandler (c : Ctx) (u : UserIntr) (rest : List UserIntr) : Ctx :=
  { c with waitIntr := rest, uiSaved := some c.resumePc, uie := false, pc := u.hpc, sleep := none, xread := none,
           msgr := { c.msgr with xferId := u.job } }

theorem modCtx_otherCtxs (s : State) (core k : Nat) (f : Ctx → Ctx) : (s.modCtx core k f).otherCtxs s core k :=
  fun d j => State.ctxAt_modCtx_ne s core k d j f

theorem userInterrupt_enters {s : State} {core k : Nat} {u : UserIntr} {rest : List UserIntr}
    (waits : (s.ctxAt core k).waitIntr = u :: rest) (takes : (s.ctxAt core k).takesIntr = true) :
    exec (.userInterrupt core k) s = .next (s.modCtx core k (·.entersHandler u rest)) := by
  refine congrArg Host.Outcome.next ?_
  dsimp only
  rw [waits]
  exact if_pos takes

/-- UIRET tests the saved PC first. -/
theorem uiretAct_saved {s u : State} {pc : Word} {b : Bool} (saved : s.me.uiSaved = some pc) (target : badTarget pc s = .ok (b, u)) :
    uiretAct s = (if b then trapNow cILLTGT pc 0
      else modify (fun x => x.modMe (fun c => { c with pc := pc, uie := true, uiSaved := none })) : Act Unit) u := by
  unfold uiretAct
  rw [Act.get_bind, saved]
  show (badTarget pc >>= _) s = _
  rw [Act.bind_ok target]
  cases b <;> rfl

theorem exec_uiret_returns {s u : State} {pc : Word} (saved : s.me.uiSaved = some pc) (target : badTarget pc s = .ok (false, u)) :
    exec .uiret s = .next (u.modMe (fun c => { c with pc := pc, uie := true, uiSaved := none })) :=
  runAct_ok (uiretAct_saved saved target)

theorem exec_uiret_badTarget {s u : State} {pc : Word} (saved : s.me.uiSaved = some pc) (target : badTarget pc s = .ok (true, u)) :
    exec .uiret s = .next (s.trapped 3 pc 0) := by
  refine runAct_trap ?_
  rw [uiretAct_saved saved target, if_pos rfl, trapNow, State.sameButWalk_me (badTarget_frame target)]
  rfl

theorem exec_uiret_outside {s : State} (none : s.me.uiSaved = none) : exec .uiret s = .next (s.trapped 1 0 0) := by
  refine runAct_ill ?_
  unfold uiretAct
  rw [Act.get_bind, none]

/-- Settles O31: a job's end by what each of its forms of completion leaves, the rest by what the events and UIRET answer. -/
theorem engineEvents : Obligations.EngineEvents := by
  unfold Obligations.EngineEvents
  refine ⟨fun s job line => ⟨_, exec_engineLineRelease s job line, fun p => mem_released, rfl⟩,
    fun s f => ⟨engineFaultDeliver_drops, engineFaultDeliver_traps⟩,
    fun s job j found running kept huddles arr => ⟨fun h b buf at_ => jobComplete_waits found running buf at_, ?_⟩,
    fun s core k u rest waits uie outside running held => ?_,
    fun s => ⟨fun pc u => exec_uiret_returns, fun pc u => exec_uiret_badTarget, exec_uiret_outside⟩⟩
  · intro room serial runs _
    obtain rfl : j.id = job := id_of_jobOf found
    obtain ⟨jobs, latch, intr, ring⟩ := formsDone_plain_leaves huddles arr serial runs
    refine ⟨_, jobComplete_done found running room, ?_, recordDone_owned _ _, ?_, ?_, fun h b buf at_ => ?_, ?_⟩
    · rw [jobOf_recordDone ((jobs.jobOf j.id).trans found) kept]
      rfl
    · rw [recordDone_ctxAt]
      exact latch
    · rw [recordDone_ctxAt]
      exact intr
    · rw [bufOf_of_cluster (recordDone_cluster ..), ring h b buf at_]
      rfl
    · exact ((formsDone_keepsWork s j j.id).trans (recordDone_keepsWork _ j.id)).mem
  · have takes : (s.ctxAt core k).takesIntr = true := by
      simp [Ctx.takesIntr, Ctx.interrupted, uie, outside, waits, running, held]
    refine ⟨_, userInterrupt_enters waits takes, ?_⟩
    rw [State.ctxAt_modCtx_same]
    exact ⟨rfl, rfl, rfl, rfl, rfl, rfl, rfl, modCtx_otherCtxs _ _ _ _, rfl⟩

end Sys2Proof.Machine
end

section
/-! A thread's access of a location with which nothing interferes, and AUPD (R23, R98, R99, R131, R135 to R137, R220, R254, R255, R356,
R357). -/

namespace Sys2Proof.Machine

/-! ## Ordered tasks across a translation -/

theorem State.sameButWalk_ord {s u : State} (w : u.sameButWalk s) (cl : Nat) : (u.clusterAt cl).ord = (s.clusterAt cl).ord := by
  rw [w.2.1 cl]

theorem State.sameButWalk_ordOf {s u : State} (w : u.sameButWalk s) (core k : Nat) : u.ordOf core k = s.ordOf core k := by
  obtain ⟨-, -, -, -, tasks, -, -, -⟩ := State.sameButWalk_cur w
  unfold State.ordOf State.taskOf
  rw [State.sameButWalk_ctxAt w, tasks]
  simp only [State.sameButWalk_ord w]

theorem State.sameButWalk_outOf {s u : State} (w : u.sameButWalk s) (core k : Nat) : u.outOf core k = s.outOf core k := by
  obtain ⟨-, -, -, fab, -, -, -, -⟩ := State.sameButWalk_cur w
  rw [State.outOf, State.outOf, fab]

theorem State.sameButWalk_acquireOut {s u : State} (w : u.sameButWalk s) (core k : Nat) : u.acquireOut core k = s.acquireOut core k := by
  rw [State.acquireOut, State.acquireOut, State.heldOf, State.heldOf, State.sameButWalk_outOf w, State.sameButWalk_ordOf w]

theorem mem_of_assocGet {α : Type} {l : List (Nat × α)} {k : Nat} {x : α} (h : assocGet l k = some x) : (k, x) ∈ l := by
  induction l with
  | nil => cases h
  | cons p r ih =>
    obtain ⟨j, y⟩ := p
    unfold assocGet at h
    split at h
    · next same => cases h; exact same ▸ .head _
    · split at h
      · cases h
      · exact .tail _ (ih h)

/-- Where no speculative task is live, none is in the table of any cluster. -/
theorem State.noneLive.at {s : State} (h : s.noneLive) (cl : Nat) :
    (s.clusterAt cl).ord.filter (fun o => o.state != .queued && !o.irrevocable) = [] := by
  obtain ⟨live, dflt⟩ := h
  cases listed : assocGet s.cluster.cells cl with
  | none =>
    have same : s.clusterAt cl = s.cluster.dflt := by rw [State.clusterAt, Tab.get, listed]; rfl
    rw [same, dflt]
    rfl
  | some c => exact List.map_eq_nil_iff.mp (List.flatMap_eq_nil_iff.mp live _ (mem_of_assocGet listed))

theorem State.liveOrd_nil {s : State}
    (h : ∀ cl, (s.clusterAt cl).ord.filter (fun o => o.state != .queued && !o.irrevocable) = []) : s.liveOrd = [] :=
  List.flatMap_eq_nil_iff.mpr fun c _ => List.map_eq_nil_iff.mpr (h c.1)

/-! ## What an access meets -/

/-- No engine owns a line of the access, no speculative task is live, no partials stand, none of its lines carries an error, no log area
holds it, and the store queue of the running core has room. -/
structure State.Unhindered (s : State) (loc n : Nat) : Prop where
  owned : s.ownedRange loc n = false
  live : s.liveOrd = []
  uline : s.uline = []
  bad : s.badRange loc n = false
  log : s.inLog loc n = false
  room : (s.coreAt s.curCore).storeq < 16

/-- Which locations a log area holds is a matter of the partitions and of the tables of ordered tasks (R98). -/
theorem State.inLog_congr {s u : State} (part : u.part = s.part) (ord : ∀ cl, (u.clusterAt cl).ord = (s.clusterAt cl).ord)
    (loc n : Nat) : u.inLog loc n = s.inLog loc n := by
  have owner (c : Nat) : u.partOfCore c = s.partOfCore c := by
    rw [State.partOfCore, State.partOfCore, State.partOfCluster, State.partOfCluster, part]
  have log (p : Nat) : u.logInUse p = s.logInUse p := by simp only [State.logInUse, State.clustersOf, ord, part]
  unfold State.inLog
  simp only [owner, log]

/-- A translation before the access leaves nothing in its way. -/
theorem State.undisturbed.afterWalk {s u : State} {loc n : Nat} (h : s.undisturbed loc n) (w : u.sameButWalk s) : u.Unhindered loc n := by
  obtain ⟨owned, live, uline, bad, log, room⟩ := h
  obtain ⟨core, -, table, -, -, -, own, -⟩ := State.sameButWalk_cur w
  obtain ⟨-, errors, partials⟩ := w.2.2.2 uline
  refine ⟨?_, State.liveOrd_nil fun cl => ?_, partials.trans uline, ?_, ?_, ?_⟩
  · rw [State.ownedRange, own]; exact owned
  · rw [State.sameButWalk_ord w]; exact live.at cl
  · rw [State.badRange, errors]; exact bad
  · rw [State.inLog_congr table (State.sameButWalk_ord w)]; exact log
  · rw [core, w.1 s.curCore]; exact room

/-- The state in which an access has asked its line's home (R131). -/
def State.homeAsked (s : State) (core k loc : Nat) : State :=
  if s.homeCounts core k loc then s.push (.homeRequest (loc / 64) (s.nodeOf core)) else s

theorem homeAsked_reads (s : State) (core k loc : Nat) : (s.homeAsked core k loc).part = s.part ∧
    (s.homeAsked core k loc).cluster = s.cluster ∧ (s.homeAsked core k loc).badLines = s.badLines ∧
    (s.homeAsked core k loc).mem = s.mem := by
  unfold State.homeAsked
  split <;> exact ⟨rfl, rfl, rfl, rfl⟩

section
variable {s : State} {core k loc n : Nat} (h : s.Unhindered loc n)
include h

theorem specAccess_unhindered (write : Bool) : specAccess core k loc n write s = .ok ((), s) := by
  simp [specAccess, h.live]

theorem enterLine_unhindered (acquire : s.acquireOut core k = false) (near : s.peerLoc loc = false) (write : Bool) :
    enterLine core k loc n write s = .ok ((), s.homeAsked core k loc) := by
  have peer : s.peerOut core k loc n = false := by rw [State.peerOut, near, Bool.false_and]
  have wait : s.ownerWait core k loc n = false := by rw [State.ownerWait, h.owned, Bool.false_and]
  have recalled : s.recallRange loc n = s := by simp [State.recallRange, h.uline]
  unfold enterLine
  rw [Act.get_bind]
  simp only [acquire, peer, wait, Bool.or_self, Bool.and_false, Bool.false_eq_true, if_false]
  rw [Act.modify_bind, recalled, Act.bind_ok (specAccess_unhindered h write)]
  rfl

theorem readLoc_unhindered (acquire : s.acquireOut core k = false) (near : s.peerLoc loc = false) (p : Word) :
    readLoc core k loc n p s = .ok (s.bytesAt loc n, s.homeAsked core k loc) := by
  obtain ⟨part, cluster, badLines, mem⟩ := homeAsked_reads s core k loc
  have bad : (s.homeAsked core k loc).badRange loc n = s.badRange loc n := by rw [State.badRange, State.badRange, badLines]
  have log := State.inLog_congr part (fun cl => by rw [State.clusterAt, State.clusterAt, cluster]) loc n
  have bytes : (s.homeAsked core k loc).bytesAt loc n = s.bytesAt loc n := by rw [State.bytesAt, State.bytesAt, mem]
  unfold readLoc
  rw [Act.bind_ok (enterLine_unhindered h acquire near false), Act.get_bind]
  simp only [bad, log, h.bad, h.log, Bool.false_eq_true, if_false]
  rw [← bytes]
  rfl

end

/-- The state in which an access has written bytes to its line. -/
def State.homeStored (s : State) (core k loc : Nat) (bs : List Byte) : State :=
  ((s.homeAsked core k loc).noteTable core k loc bs.length).putBytes loc bs

theorem noteTable_frame (s : State) (core k loc n : Nat) : (s.noteTable core k loc n).core = s.core ∧
    (s.noteTable core k loc n).curCore = s.curCore ∧ (s.noteTable core k loc n).curCtx = s.curCtx ∧
    (s.noteTable core k loc n).mem = s.mem := by
  unfold State.noteTable
  split <;> exact ⟨rfl, rfl, rfl, rfl⟩

theorem homeAsked_frame (s : State) (core k loc : Nat) : (s.homeAsked core k loc).core = s.core ∧
    (s.homeAsked core k loc).curCore = s.curCore ∧ (s.homeAsked core k loc).curCtx = s.curCtx ∧
    (s.homeAsked core k loc).mem = s.mem ∧ (s.homeAsked core k loc).liveOrd = s.liveOrd := by
  unfold State.homeAsked
  split <;> exact ⟨rfl, rfl, rfl, rfl, rfl⟩

theorem homeStored_frame (s : State) (core k loc : Nat) (bs : List Byte) : (s.homeStored core k loc bs).core = s.core ∧
    (s.homeStored core k loc bs).curCore = s.curCore ∧ (s.homeStored core k loc bs).curCtx = s.curCtx ∧
    (s.homeStored core k loc bs).mem = memWriteBytes s.mem loc bs := by
  obtain ⟨cores, core', ctx', mem, -⟩ := homeAsked_frame s core k loc
  obtain ⟨cores', core'', ctx'', mem'⟩ := noteTable_frame (s.homeAsked core k loc) core k loc bs.length
  exact ⟨cores'.trans cores, core''.trans core', ctx''.trans ctx', congrArg (memWriteBytes · loc bs) (mem'.trans mem)⟩

@[simp] theorem length_bytesOf (n k : Nat) : (bytesOf n k).length = k := by
  induction k generalizing n with
  | zero => rfl
  | succ k ih => rw [bytesOf, List.length_cons, ih]

/-- An atomic that writes stores its value at its location. -/
theorem atomicAt_writes {s : State} {core k loc sub ty v : Nat} {p b c out : Word} (h : s.Unhindered loc (atWidth ty / 8))
    (acquire : s.acquireOut core k = false) (near : s.peerLoc loc = false)
    (op : atomicOp sub ty (natOfBytes (s.bytesAt loc (atWidth ty / 8))) (b.toNat % 2 ^ atWidth ty) c = (some v, out)) :
    atomicAt core k loc p sub ty b c s = .ok (out, s.homeStored core k loc (bytesOf v (atWidth ty / 8))) := by
  have live : (s.homeAsked core k loc).liveOrd = [] := by
    obtain ⟨-, -, -, -, live⟩ := homeAsked_frame s core k loc
    exact live.trans h.live
  have spec : specAccess core k loc (atWidth ty / 8) true (s.homeAsked core k loc) = .ok ((), s.homeAsked core k loc) := by
    simp [specAccess, live]
  unfold atomicAt
  dsimp only
  rw [Act.bind_ok (readLoc_unhindered h acquire near p), op]
  dsimp only
  rw [Act.bind_ok spec, State.homeStored, length_bytesOf]
  rfl

/-! ## Operands of an atomic (R356, R357) -/

theorem sextImm_eq (imm w : Nat) : sextImm imm w = (BitVec.ofNat w imm).signExtend 64 := by
  have value : signed imm w = (BitVec.ofNat w imm).toInt := by
    rw [BitVec.toInt_eq_toNat_cond, BitVec.toNat_ofNat, signed]
    push_cast
    split <;> split <;> omega
  rw [sextImm, value]
  rfl

theorem isRegister_false {p : Word} (h : bits p 53 48 ≠ 50) : isRegister p = false := by
  unfold isRegister
  rw [Bool.and_eq_false_iff, beq_eq_false_iff_ne, beq_eq_false_iff_ne]
  simp only [bits] at h ⊢
  omega

theorem atWidth_eq {ty : Nat} (h : ty = 2 ∨ ty = 3 ∨ ty = 6 ∨ ty = 7) : atWidth ty = 8 * 2 ^ (ty % 4) := by
  rcases h with rfl | rfl | rfl | rfl <;> rfl

theorem atWidth_cases (ty : Nat) : atWidth ty = 32 ∨ atWidth ty = 64 := by
  unfold atWidth
  split
  · exact .inr rfl
  · exact .inl rfl

theorem aligned_ok {p : Word} {ty : Nat} (h : p.toNat % (atWidth ty / 8) = 0) (s : State) : aligned p (atWidth ty / 8) s = .ok ((), s) := by
  have low : bits p 53 0 % (atWidth ty / 8) = 0 := by
    unfold bits
    rcases atWidth_cases ty with w | w <;> rw [w] at h ⊢ <;> omega
  rw [aligned, if_neg (not_not.mpr low)]
  rfl

theorem natOfBytes_lt (bs : List Byte) : natOfBytes bs < 2 ^ (8 * bs.length) := by
  induction bs with
  | nil => exact Nat.one_pos
  | cons b r ih =>
    have byte : b.toNat < 256 := b.isLt
    have whole : 2 ^ (8 * (b :: r).length) = 256 * 2 ^ (8 * r.length) := by
      rw [List.length_cons, Nat.mul_add, Nat.pow_add, Nat.mul_comm]
    rw [natOfBytes, whole]
    omega

@[simp] theorem length_bytesAt (s : State) (loc n : Nat) : (s.bytesAt loc n).length = n := by
  have count : ∀ m a n, (memBytes m a n).length = n := fun m a n => by
    induction n generalizing a with
    | zero => rfl
    | succ n ih => rw [memBytes, List.length_cons, ih]
  exact count ..

theorem signed_inj {w x y : Nat} (hx : x < 2 ^ w) (hy : y < 2 ^ w) (h : signed x w = signed y w) : x = y := by
  have small : ((2 ^ w : Nat) : Int) = (2 : Int) ^ w := by push_cast; rfl
  simp only [signed, Nat.mod_eq_of_lt hx, Nat.mod_eq_of_lt hy, ← small] at h
  split at h <;> split at h <;> omega

/-- AUPD combines as the atomic of its operation does. -/
theorem atomicOp_updSub {op ty x y : Nat} (int : ty = 2 ∨ ty = 3 ∨ ty = 6 ∨ ty = 7) (low : op < 6) (hx : x < 2 ^ atWidth ty)
    (hy : y < 2 ^ atWidth ty) : ∃ out, atomicOp (updSub op ty) ty x y 0 = (some (updCombine op ty x y), out) := by
  have float : ty ≠ 10 := by omega
  have width : (if ty = 3 ∨ ty = 7 then 64 else 32) = atWidth ty := rfl
  refine ⟨_, Prod.ext ?_ rfl⟩
  obtain rfl | rfl | rfl | rfl | rfl | rfl : op = 0 ∨ op = 1 ∨ op = 2 ∨ op = 3 ∨ op = 4 ∨ op = 5 := by omega
  case inl | inr.inl | inr.inr.inl | inr.inr.inr.inl => simp [updSub, atomicOp, updCombine, float, width]
  case inr.inr.inr.inr.inl =>
    by_cases sign : ty < 4
    · simp only [updSub, updCombine, width, float, sign, atomicOp, true_or, if_true, if_false, decide_true]
      split <;> split
      · omega
      · rfl
      · rfl
      · omega
    · simp [updSub, atomicOp, updCombine, float, sign]
  case inr.inr.inr.inr.inr =>
    by_cases sign : ty < 4
    · simp only [updSub, updCombine, width, float, sign, atomicOp, true_or, if_true, if_false, decide_true]
      split <;> split
      · rfl
      · omega
      · next less notMore => rw [signed_inj hx hy (by omega)]
      · rfl
    · simp [updSub, atomicOp, updCombine, float, sign]

end Sys2Proof.Machine
end

section
/-! AUPD (R136, R137, R220, R262, R357). -/

namespace Sys2Proof.Machine

/-! ## After the address -/

theorem travels_stays {leaf : Word} (h : bit leaf 4 = false) (s : State) : travels leaf s = .ok (false, s) := by
  unfold travels
  rw [Act.get_bind, if_neg (by simp [h])]
  rfl

theorem queueRoom_ok {s : State} (room : (s.coreAt s.curCore).storeq < 16) : queueRoom s = .ok ((), s) := by
  unfold queueRoom
  rw [Act.get_bind, decide_eq_false (Nat.not_le.mpr room), Bool.and_false]
  rfl

/-- An address is found only where no earlier acquire is out (R255). -/
theorem acquireOut_of_resolve {p : Word} {acc : Access} {s u : State} {t : Target} (h : resolve p acc s = .ok (t, u)) :
    s.acquireOut s.curCore s.curCtx = false := by
  obtain ⟨_, v, passed, -⟩ := Act.bind_ok_inv h
  unfold acquireWait at passed
  rw [Act.get_bind] at passed
  split at passed
  · cases passed
  · next clear => exact Bool.not_eq_true _ ▸ clear

/-- A thread that goes on in a state where every context is as in `s`. -/
theorem wentOn_onward {s u : State} (core : u.curCore = s.curCore) (ctx : u.curCtx = s.curCtx)
    (ctxs : ∀ d k, u.ctxAt d k = s.ctxAt d k) : u.onward.wentOn s s.me.g := by
  have me : u.me = s.me := by rw [State.me, State.me, core, ctx, ctxs]
  have me' : u.onward.me = { s.me with pc := nextPc s.me.pc s.me.lineN } := by rw [State.onward, State.me_modMe, me]
  refine ⟨?_, ?_, ?_, fun d k other => ?_, core, ctx⟩
  · rw [me']
  · rw [me']
  · rw [me']
    exact ⟨rfl, rfl, rfl, rfl, rfl, rfl, rfl, rfl, rfl, rfl, rfl, rfl, rfl, rfl, rfl, rfl⟩
  · rw [← core, ← ctx] at other
    exact (State.ctxAt_modCtx_ne u _ _ _ _ _ other).trans (ctxs d k)

/-! ## The line -/

/-- The partials with which the running core begins to hold a line: the operand's, and the operation's identity elsewhere. -/
def State.firstPartial (s : State) (loc op ty b : Nat) : ULine where
  line := loc / 64
  core := s.curCore
  op := op
  ty := ty
  parts := (List.replicate (512 / atWidth ty) (updIdentity op ty)).set (loc % 64 / (atWidth ty / 8)) (updCombine op ty (updIdentity op ty) b)

/-- A line that no core holds partials of: the operand is combined in memory, or in a partial of the core's own (R136). -/
theorem update_fresh {s : State} (none : s.uline = []) (loc op ty b : Nat) :
    s.update loc op ty b = (({ s with free := s.free + 1 } : State).noteTable s.curCore s.curCtx loc (atWidth ty / 8)).putBytes loc
      (bytesOf (updCombine op ty (natOfBytes (s.bytesAt loc (atWidth ty / 8))) b) (atWidth ty / 8)) ∨
    s.update loc op ty b = { s with free := s.free + 1, uline := [s.firstPartial loc op ty b] } := by
  unfold State.update
  simp only [none, List.filter_nil, List.all_nil, if_true, List.find?_nil, List.isEmpty_nil, Bool.and_true, List.nil_append]
  split
  · exact .inl rfl
  · exact .inr rfl

/-- The operand stands among the partials at its place in the line. -/
theorem firstPartial_at (s : State) (loc op ty b : Nat) :
    (s.firstPartial loc op ty b).parts[loc % 64 / (atWidth ty / 8)]? = some (updCombine op ty (updIdentity op ty) b) := by
  have inLine : loc % 64 / (atWidth ty / 8) < 512 / atWidth ty := by
    rcases atWidth_cases ty with w | w <;> rw [w] <;> omega
  exact List.getElem?_set_self (by rwa [List.length_replicate])

/-! ## The instruction -/

/-- AUPD at a location of this device, issued in `s`, when its address has been found. -/
def aupdHere (s : State) (loc : Nat) (leaf p : Word) (op ty : Nat) (b : Word) : Act Unit :=
  if decide (2 ^ 39 ≤ loc) || bit leaf 5 || s.spec || s.unitHolds loc then do
    let _ ← atomicAt s.curCore s.curCtx loc p (updSub op ty) ty b 0
    advance
  else do
    if s.ownedRange loc (atWidth ty / 8) then stall
    specAccess s.curCore s.curCtx loc (atWidth ty / 8) true
    let x ← get
    if x.badRange loc (atWidth ty / 8) then trapNow cECC p 0
    modify (fun x => x.update loc op ty (b.toNat % 2 ^ atWidth ty))
    advance

theorem aupdAct_here {s u : State} {i : Instr} {a b op imm ty loc : Nat} {p leaf : Word} (run : s.canRun [a, b] [] = true)
    (addr : s.me.g.get a + sextImm imm 16 = p) (memory : isRegister p = false) (multiple : p.toNat % (atWidth ty / 8) = 0)
    (resolved : resolve p .write s = .ok (.mem loc leaf, u)) (stays : bit leaf 4 = false) (near : s.peerLoc loc = false)
    (room : (u.coreAt u.curCore).storeq < 16) :
    aupdAct i a b op imm ty s = aupdHere s loc leaf p op ty (s.me.g.get b) u := by
  subst addr
  unfold aupdAct
  rw [Act.bind_ok (prepIll_ok run memory), Act.bind_ok (readG_ok (State.canRun_stream run (by simp))),
    Act.bind_ok (readG_ok (State.canRun_stream run (by simp))), Act.get_bind]
  dsimp only
  rw [Act.bind_ok (aligned_ok multiple s), Act.bind_ok resolved]
  dsimp only
  rw [Act.bind_ok (travels_stays stays u), if_neg Bool.false_ne_true, Act.bind_ok (queueRoom_ok room), near]
  rfl

section
variable {s u : State} {loc op ty : Nat} {leaf p b : Word}
  (clear : s.undisturbed loc (atWidth ty / 8)) (walked : u.sameButWalk s) (near : s.peerLoc loc = false)
include clear walked near

/-- In scratchpad, on a FIXH page and in a region that a near-bank unit holds, AUPD combines in memory. -/
theorem aupdHere_home (int : ty = 2 ∨ ty = 3 ∨ ty = 6 ∨ ty = 7) (low : op < 6)
    (acquire : s.acquireOut s.curCore s.curCtx = false) (home : (decide (2 ^ 39 ≤ loc) || bit leaf 5 || s.spec || s.unitHolds loc) = true) :
    aupdHere s loc leaf p op ty b u = .ok ((), (u.homeStored s.curCore s.curCtx loc
      (bytesOf (updCombine op ty (natOfBytes (s.bytesAt loc (atWidth ty / 8))) (b.toNat % 2 ^ atWidth ty)) (atWidth ty / 8))).onward) := by
  have free := clear.afterWalk walked
  obtain ⟨core, -, -, -, -, -, -, -⟩ := State.sameButWalk_cur walked
  obtain ⟨mem, -, -⟩ := walked.2.2.2 clear.2.2.1
  have bytes : u.bytesAt loc (atWidth ty / 8) = s.bytesAt loc (atWidth ty / 8) := by rw [State.bytesAt, State.bytesAt, mem]
  have small : natOfBytes (u.bytesAt loc (atWidth ty / 8)) < 2 ^ atWidth ty := by
    have bound := natOfBytes_lt (u.bytesAt loc (atWidth ty / 8))
    rw [length_bytesAt] at bound
    rcases atWidth_cases ty with w | w <;> rw [w] at bound ⊢ <;> exact bound
  obtain ⟨out, combines⟩ := atomicOp_updSub int low small (Nat.mod_lt b.toNat (Nat.two_pow_pos (atWidth ty)))
  rw [← bytes, aupdHere, if_pos home]
  exact Act.bind_ok (atomicAt_writes free ((State.sameButWalk_acquireOut walked ..).trans acquire)
    (by rw [State.peerLoc, core]; exact near) combines)

omit near in
/-- Elsewhere it combines in the line. -/
theorem aupdHere_line (away : (decide (2 ^ 39 ≤ loc) || bit leaf 5 || s.spec || s.unitHolds loc) = false) :
    aupdHere s loc leaf p op ty b u = .ok ((), (u.update loc op ty (b.toNat % 2 ^ atWidth ty)).onward) := by
  have free := clear.afterWalk walked
  rw [aupdHere, away, if_neg Bool.false_ne_true]
  simp only [clear.1, Bool.false_eq_true, if_false]
  rw [Act.bind_ok (specAccess_unhindered free true), Act.get_bind]
  simp only [free.bad, Bool.false_eq_true, if_false]
  rfl

end

section
variable {s u : State} (walked : u.sameButWalk s)
include walked

/-- A thread that goes on after a translation and what leaves every core as it was. -/
theorem wentOn_afterWalk {x : State} (cores : x.core = u.core) (core : x.curCore = u.curCore) (ctx : x.curCtx = u.curCtx) :
    x.onward.wentOn s s.me.g := by
  obtain ⟨core', ctx', -, -, -, -, -, -⟩ := State.sameButWalk_cur walked
  exact wentOn_onward (core.trans core') (ctx.trans ctx')
    fun d k => (ctxAt_of_core cores d k).trans (State.sameButWalk_ctxAt walked d k)

end

section
variable {s u : State} {loc op ty imm a b : Nat} {i : Instr} {leaf p : Word}
  (run : s.canRun [a, b] [] = true) (addr : s.me.g.get a + sextImm imm 16 = p) (memory : isRegister p = false)
  (multiple : p.toNat % (atWidth ty / 8) = 0) (resolved : resolve p .write s = .ok (.mem loc leaf, u)) (stays : bit leaf 4 = false)
  (near : s.peerLoc loc = false) (clear : s.undisturbed loc (atWidth ty / 8))
include run addr memory multiple resolved stays near clear

/-- AUPD at a location that it combines in at once. -/
theorem aupd_stores (int : ty = 2 ∨ ty = 3 ∨ ty = 6 ∨ ty = 7) (low : op < 6)
    (home : (decide (2 ^ 39 ≤ loc) || bit leaf 5 || s.spec || s.unitHolds loc) = true) :
    ∃ t, runAct (aupdAct i a b op imm ty) s = .next t ∧ t.wentOn s s.me.g ∧ t.stored s loc (bytesOf
      (updCombine op ty (natOfBytes (s.bytesAt loc (atWidth ty / 8))) ((s.me.g.get b).toNat % 2 ^ atWidth ty)) (atWidth ty / 8)) := by
  have walked := resolve_frame resolved
  obtain ⟨mem, -, -⟩ := walked.2.2.2 clear.2.2.1
  obtain ⟨cores, core, ctx, stored⟩ := homeStored_frame u s.curCore s.curCtx loc (bytesOf
    (updCombine op ty (natOfBytes (s.bytesAt loc (atWidth ty / 8))) ((s.me.g.get b).toNat % 2 ^ atWidth ty)) (atWidth ty / 8))
  have here := aupdAct_here (i := i) (op := op) run addr memory multiple resolved stays near (clear.afterWalk walked).room
  refine ⟨_, runAct_ok (here.trans (aupdHere_home clear walked near int low (acquireOut_of_resolve resolved) home)),
    wentOn_afterWalk walked cores core ctx, State.stored_of_mem ?_⟩
  exact stored.trans (by rw [mem])

/-- AUPD elsewhere combines in memory or begins a partial of the core's own. -/
theorem aupd_combines (away : (decide (2 ^ 39 ≤ loc) || bit leaf 5 || s.spec || s.unitHolds loc) = false) :
    ∃ t, runAct (aupdAct i a b op imm ty) s = .next t ∧ t.wentOn s s.me.g ∧
      (t.stored s loc (bytesOf (updCombine op ty (natOfBytes (s.bytesAt loc (atWidth ty / 8)))
        ((s.me.g.get b).toNat % 2 ^ atWidth ty)) (atWidth ty / 8)) ∨
      t.mem = s.mem ∧ t.uline = [s.firstPartial loc op ty ((s.me.g.get b).toNat % 2 ^ atWidth ty)]) := by
  have walked := resolve_frame resolved
  obtain ⟨mem, -, uline⟩ := walked.2.2.2 clear.2.2.1
  have bytes : u.bytesAt loc (atWidth ty / 8) = s.bytesAt loc (atWidth ty / 8) := by rw [State.bytesAt, State.bytesAt, mem]
  have here := aupdAct_here (i := i) (op := op) run addr memory multiple resolved stays near (clear.afterWalk walked).room
  have result := runAct_ok (here.trans (aupdHere_line clear walked away))
  have ways := update_fresh (uline.trans clear.2.2.1) loc op ty ((s.me.g.get b).toNat % 2 ^ atWidth ty)
  rw [bytes] at ways
  generalize u.update loc op ty ((s.me.g.get b).toNat % 2 ^ atWidth ty) = x at result ways
  obtain rfl | rfl := ways
  · obtain ⟨cores, core, ctx, stored⟩ := noteTable_frame { u with free := u.free + 1 } u.curCore u.curCtx loc (atWidth ty / 8)
    refine ⟨_, result, wentOn_afterWalk walked cores core ctx, .inl (State.stored_of_mem ?_)⟩
    exact congrArg (memWriteBytes · loc _) (stored.trans mem)
  · refine ⟨_, result, wentOn_afterWalk walked rfl rfl rfl, .inr ⟨mem, ?_⟩⟩
    obtain ⟨core, -, -, -, -, -, -, -⟩ := State.sameButWalk_cur walked
    show [u.firstPartial ..] = _
    rw [State.firstPartial, core]
    rfl

end

end Sys2Proof.Machine
end

section
/-! The fences, the barrier instructions and the completion of a generation, and the statement of AUPD, fences and barriers (R136, R146, R220,
R255, R259, R260, R357, R359, R361, R362). -/

namespace Sys2Proof.Machine

/-! ## Releases (R97, R255) -/

/-- An ordered task that is irrevocable with nothing held back, or none, keeps no access of its thread. -/
theorem heldOf_of_released {s : State} {core k : Nat} (h : ∀ cl o, s.ordOf core k = some (cl, o) → o.irrevocable = true ∧ o.held = []) :
    s.heldOf core k = [] ∧ s.specAt core k = false := by
  unfold State.heldOf State.specAt
  cases found : s.ordOf core k with
  | none => exact ⟨rfl, rfl⟩
  | some p =>
    obtain ⟨irrevocable, held⟩ := h p.1 p.2 found
    exact ⟨held, by simp [irrevocable]⟩

theorem heldWait_ok {s : State} (h : s.heldOf s.curCore s.curCtx = []) : heldWait s = .ok ((), s) := by
  rw [heldWait, Act.get_bind, h]
  rfl

/-- A release of a settled context waits for nothing. -/
theorem State.settled.releaseWait {s : State} (h : s.settled) : releaseWait 2 s = .ok ((), s) := by
  obtain ⟨out, released⟩ := h
  unfold Machine.releaseWait
  rw [Act.get_bind, out]
  exact heldWait_ok (heldOf_of_released released).1

/-! ## Fences (R259, R260, R359) -/

theorem exec_fence {s : State} (h : s.settled) (scp ord : Nat) : exec (.fence scp ord) s = .next s.onward := by
  obtain ⟨out, released⟩ := h
  obtain ⟨held, -⟩ := heldOf_of_released released
  refine runAct_ok (m := fenceAct ord) ?_
  unfold fenceAct
  rw [Act.get_bind]
  dsimp only
  rw [out, held]
  split
  · rfl
  · exact Act.bind_ok (heldWait_ok held)

theorem exec_tfence {s : State} (h : s.settled) (scp : Nat) : exec (.tfence scp) s = .next (s.tfence scp).onward := by
  obtain ⟨out, released⟩ := h
  refine runAct_ok (m := tfenceAct scp) ?_
  unfold tfenceAct
  rw [Act.get_bind, out]
  exact Act.bind_ok (heldWait_ok (heldOf_of_released released).1)

theorem tfence_onlyStale (s : State) (scp : Nat) : s.tfence scp = { s with stale := (s.tfence scp).stale } := by
  unfold State.tfence
  dsimp only
  split <;> rfl

theorem mem_walkersIn {s : State} {scp : Nat} {cls : List Nat} (h : s.walkersIn scp = some cls) :
    (scp = 2 ∨ scp = 3) ∧ clusterOf s.curCore ∈ cls := by
  unfold State.walkersIn at h
  dsimp only at h
  split at h
  · cases h
    exact ⟨.inl rfl, .head _⟩
  · cases h
    refine ⟨.inr rfl, List.mem_map.mpr ⟨clusterOf s.curCore % 60, List.mem_range.mpr (Nat.mod_lt _ (by decide)), ?_⟩⟩
    omega
  · cases h

/-- After a TFENCE of a scope its walkers read no word that the thread has overwritten (R146). -/
theorem stale_tfence {s : State} {scp : Nat} {x : StaleWord} (m : x ∈ (s.tfence scp).stale) (core : x.core = s.curCore)
    (serial : x.serial = s.me.serial) : (scp = 2 ∨ scp = 3) ∧ x.fenced.contains (clusterOf s.curCore) = true := by
  unfold State.tfence at m
  dsimp only at m
  cases walkers : s.walkersIn scp with
  | none =>
    rw [walkers] at m
    have other := (List.mem_filter.mp m).2
    simp [core, serial] at other
  | some cls =>
    rw [walkers] at m
    obtain ⟨scope, inside⟩ := mem_walkersIn walkers
    obtain ⟨y, -, fenced⟩ := List.mem_map.mp m
    refine ⟨scope, ?_⟩
    split at fenced
    · subst fenced
      exact List.contains_iff_mem.mpr (List.mem_append_right _ inside)
    · next other =>
      subst fenced
      simp [core, serial] at other

section
variable {s : State} (stores : (s.outOf s.curCore s.curCtx).any (fun o => o.store) = true)
include stores

theorem exec_tfence_waits (scp : Nat) : exec (.tfence scp) s = .next s := by
  refine runAct_stall (m := tfenceAct scp) ?_
  unfold tfenceAct
  rw [Act.get_bind, stores]
  rfl

theorem exec_fence_waits (scp : Nat) : exec (.fence scp 2) s = .next s := by
  have out : (!(s.outOf s.curCore s.curCtx).isEmpty) = true := by
    cases h : s.outOf s.curCore s.curCtx with
    | nil => rw [h] at stores; cases stores
    | cons o r => rfl
  refine runAct_stall (m := fenceAct 2) ?_
  unfold fenceAct
  rw [Act.get_bind]
  dsimp only
  rw [out]
  rfl

end

/-! ## Generations (R361) -/

theorem barrier_modBarrier_same (s : State) (b : BarrierId) (f : Barrier → Barrier) : (s.modBarrier b f).barrier b = f (s.barrier b) := by
  cases b with
  | huddle cl n => simp [State.barrier, State.modBarrier, State.clusterAt, State.modCluster]
  | crew d p n => simp [State.barrier, State.modBarrier]

/-- A barrier whose generation completes opens the next with no arrivals. -/
def Barrier.nextGen (x : Barrier) : Barrier := { x with gen := x.gen + 1, arrived := [], engc := 0, engArr := 0 }

theorem barrierCheck_waits {s : State} {b : BarrierId} (h : s.barrierFull b = false) : s.barrierCheck b = s := by
  rw [State.barrierCheck, h, if_neg Bool.false_ne_true]

theorem barrierCheck_completes {s : State} {b : BarrierId} (h : s.barrierFull b = true) :
    (s.barrierCheck b).barrier b = (s.barrier b).nextGen := by
  rw [State.barrierCheck, if_pos h]
  dsimp only
  have told := foldl_onlyCore (fun x c => latchCore_onlyCore x c 5) (s.barrierCores b)
    (s.modBarrier b (fun x => { x with gen := x.gen + 1, arrived := [], engc := 0, engArr := 0 }))
  have same : ∀ t u : State, t = { u with core := t.core } → t.barrier b = u.barrier b := fun t u e => by
    rw [e]
    cases b <;> rfl
  rw [same _ _ told, barrier_modBarrier_same]
  rfl

theorem exec_barrierGenerationComplete (b : BarrierId) (s : State) :
    exec (.barrierGenerationComplete b) s = .next (s.barrierCheck b) := rfl

/-! ## The barrier instructions of a squad (R360, R362) -/

/-- The thread that runs belongs to a gang, and its ordered task, if it has one, holds nothing back. -/
structure State.InGang (s : State) (d a n : Nat) : Prop where
  low : s.curCtx < 4
  gang : ∃ id t, s.taskOf s.curCore s.curCtx = some (id, t) ∧ t.gang = true
  number : n < 8
  released : ∀ cl o, s.ordOf s.curCore s.curCtx = some (cl, o) → o.irrevocable = true ∧ o.held = []
  run : s.canRun [a] [d] = true

/-- The huddle that the running thread names by `n`. -/
def State.huddleHere (s : State) (n : Nat) : Barrier := (s.clusterAt (clusterOf s.curCore)).huddle.get n

theorem State.canRun_noSrcs {s : State} {srcs dsts : List Nat} (h : s.canRun srcs dsts = true) : s.canRun [] dsts = true := by
  have plain := Ctx.plain_of_subset (State.canRun_plain h) (js := [] ++ dsts) fun j m => List.mem_append_right _ m
  have clean : s.me.unpoisoned [] = true := List.all_eq_true.mpr fun _ _ => rfl
  rw [State.canRun, plain, clean]
  rfl

section
variable {s : State} {d a n : Nat} (h : s.InGang d a n)
include h

theorem barrierOf_huddle : barrierOf n s = .ok (.huddle (clusterOf s.curCore) n, s) := by
  obtain ⟨id, t, task, gang⟩ := h.gang
  unfold barrierOf
  rw [Act.get_bind, if_neg (Nat.not_le.mpr h.low), task]
  dsimp only
  rw [if_neg (by have := h.number; omega), if_pos gang, Nat.mod_eq_of_lt h.number]
  rfl

theorem State.InGang.notSpec : Machine.notSpec s = .ok ((), s) := notSpec_ok (heldOf_of_released h.released).2

theorem State.InGang.plain : s.streamOf d = none := State.canRun_stream h.run (by simp)

/-- The state in which the running thread has arrived. -/
def State.arriving (s : State) (n : Nat) : State :=
  s.modBarrier (.huddle (clusterOf s.curCore) n) (fun z => { z with arrived := z.arrived ++ [(s.curCore, s.curCtx)] })

/-- The state in which it has been answered the open generation's number as well. -/
def State.arrived (s : State) (d n : Nat) : State := (s.arriving n).setG d ((s.huddleHere n).gen.setWidth 64)

theorem exec_bara (fresh : (s.huddleHere n).arrived.contains (s.curCore, s.curCtx) = false) (out : s.outOf s.curCore s.curCtx = []) :
    exec (.bara d n) s = .next ((s.arrived d n).barrierCheck (.huddle (clusterOf s.curCore) n)).onward := by
  refine runAct_ok (m := baraAct d n) ?_
  unfold baraAct
  rw [Act.bind_ok (barrierOf_huddle h), Act.bind_ok h.notSpec, Act.bind_ok (prep_ok (State.canRun_noSrcs h.run)),
    Act.bind_ok (State.settled.releaseWait ⟨out, h.released⟩), Act.get_bind]
  dsimp only
  rw [show (s.barrier (.huddle (clusterOf s.curCore) n)).arrived.contains (s.curCore, s.curCtx) = false from fresh,
    if_neg Bool.false_ne_true, Act.modify_bind, ofN, BitVec.ofNat_toNat]
  exact Act.bind_ok (writeG_ok (s := s.arriving n) h.plain)

/-- A thread that reads a barrier's generation goes on with what it makes of it. -/
theorem exec_barRead (f : BitVec 32 → Nat) : runAct (barReadAct d n f) s = .next (s.setG d (ofN (f (s.huddleHere n).gen))).onward := by
  refine runAct_ok ?_
  unfold barReadAct
  rw [Act.bind_ok (barrierOf_huddle h), Act.bind_ok h.notSpec, Act.bind_ok (prep_ok (State.canRun_noSrcs h.run)), Act.get_bind,
    Act.bind_ok (writeG_ok h.plain)]
  rfl

theorem barwAct_reads : barwAct d n a s = (if passed (s.huddleHere n).gen (s.me.g.get a) then do
    writeG d ((s.huddleHere n).gen.setWidth 64); advance else stall : Act Unit) s := by
  unfold barwAct
  rw [Act.bind_ok (barrierOf_huddle h), Act.bind_ok h.notSpec, Act.bind_ok (prep_ok h.run),
    Act.bind_ok (readG_ok (State.canRun_stream h.run (by simp))), Act.get_bind]
  dsimp only
  rw [show s.barrier (.huddle (clusterOf s.curCore) n) = s.huddleHere n from rfl, ofN, BitVec.ofNat_toNat]
  cases passed (s.huddleHere n).gen (s.me.g.get a) <;> rfl

theorem exec_barw_passes (moved : passed (s.huddleHere n).gen (s.me.g.get a) = true) :
    exec (.barw d n a) s = .next (s.setG d ((s.huddleHere n).gen.setWidth 64)).onward := by
  refine runAct_ok ((barwAct_reads h).trans ?_)
  rw [if_pos moved]
  exact answer_ok h.plain _

theorem exec_barw_waits (open_ : passed (s.huddleHere n).gen (s.me.g.get a) = false) : exec (.barw d n a) s = .next s := by
  refine runAct_stall ((barwAct_reads h).trans ?_)
  rw [if_neg (by simp [open_])]
  rfl

end

theorem passed_iff (gen : BitVec 32) (g : Word) : passed gen g = true ↔
    1 ≤ (gen - BitVec.ofNat 32 g.toNat).toNat ∧ (gen - BitVec.ofNat 32 g.toNat).toNat ≤ 2 ^ 31 := by
  unfold passed
  rw [Bool.and_eq_true, decide_eq_true_eq, decide_eq_true_eq]

theorem barrier_onward (s : State) (b : BarrierId) : s.onward.barrier b = s.barrier b := by cases b <;> rfl

theorem barrier_setG (s : State) (d : Nat) (v : Word) (b : BarrierId) : (s.setG d v).barrier b = s.barrier b := by cases b <;> rfl

theorem passed_onward {s u : State} {g : Tab Word} (regs : u.me.g = g) (pc : u.me.pc = s.me.pc) (lineN : u.me.lineN = s.me.lineN)
    (mem : u.sameMem s) : u.onward.passed s g := by
  refine ⟨?_, ?_, mem⟩
  · rw [State.me_onward]
    exact regs
  · rw [State.me_onward]
    exact congrArg₂ nextPc pc lineN

theorem arriving_barrier (s : State) (n : Nat) : (s.arriving n).barrier (.huddle (clusterOf s.curCore) n) =
    { s.huddleHere n with arrived := (s.huddleHere n).arrived ++ [(s.curCore, s.curCtx)] } := barrier_modBarrier_same ..

theorem arrived_sameMem (s : State) (d n : Nat) : (s.arrived d n).sameMem s := ⟨rfl, rfl, rfl⟩

theorem onward_sameMem {s u : State} (h : u.sameMem s) : u.onward.sameMem s := h

theorem arrived_wentOn (s : State) (d n : Nat) :
    (s.arrived d n).onward.wentOn s (s.me.g.set d ((s.huddleHere n).gen.setWidth 64)) :=
  wentOn_result (u := s.arriving n) rfl rfl (fun _ _ => rfl) d _

/-- A thread that arrives before another does leaves the generation open. -/
theorem arrived_barrier (s : State) (d n : Nat) :
    ((s.arrived d n).onward.barrier (.huddle (clusterOf s.curCore) n)).arrived =
        (s.huddleHere n).arrived ++ [(s.curCore, s.curCtx)] ∧
      ((s.arrived d n).onward.barrier (.huddle (clusterOf s.curCore) n)).gen = (s.huddleHere n).gen := by
  rw [barrier_onward, State.arrived, barrier_setG, arriving_barrier]
  exact ⟨rfl, rfl⟩

/-- A thread that arrives last finds the next generation open, and goes on. -/
theorem arrived_completes {s : State} {d n : Nat} (last : (s.arriving n).barrierFull (.huddle (clusterOf s.curCore) n) = true) :
    let v := ((s.arrived d n).barrierCheck (.huddle (clusterOf s.curCore) n)).onward
    v.passed s (s.me.g.set d ((s.huddleHere n).gen.setWidth 64)) ∧
      v.barrier (.huddle (clusterOf s.curCore) n) = ((s.arriving n).barrier (.huddle (clusterOf s.curCore) n)).nextGen := by
  intro v
  have full : (s.arrived d n).barrierFull (.huddle (clusterOf s.curCore) n) = true := last
  have checked := barrierCheck_keepsWork (s.arrived d n) (.huddle (clusterOf s.curCore) n)
  have me : (s.arrived d n).me = s.me.setG d ((s.huddleHere n).gen.setWidth 64) := State.me_setG ..
  have mem := arrived_sameMem s d n
  obtain ⟨g, pc, lineN, -, -⟩ := checked.me
  rw [me] at g pc lineN
  refine ⟨passed_onward g pc lineN
    ⟨checked.mem.trans mem.1, checked.badLines.trans mem.2.1, checked.uline.trans mem.2.2⟩, ?_⟩
  rw [barrier_onward, barrierCheck_completes full, State.arrived, barrier_setG]

/-- Settles O24: AUPD by the place of its line, the rest by what each instruction answers. -/
theorem updatesFencesBarriers : Obligations.UpdatesFencesBarriers := by
  unfold Obligations.UpdatesFencesBarriers
  refine ⟨⟨?aupd, fun s scp ord settled => ⟨exec_fence settled scp ord, _, exec_tfence settled scp, ?_, ?_, fun x => stale_tfence⟩,
    fun s scp stores => ⟨exec_tfence_waits stores scp, exec_fence_waits stores scp⟩⟩, ?barrier, fun s cl n full => ?_⟩
  case aupd =>
    intro s u a b op imm ty scp loc w leaf int width low run p multiple notReg resolved stays near clear _ _ combined new
    rw [← atWidth_eq int] at width
    subst width
    have addr : s.me.g.get a + sextImm imm 16 = p := by rw [sextImm_eq]
    have memory := isRegister_false notReg
    cases home : decide (2 ^ 39 ≤ loc) || bit leaf 5 || s.spec || s.unitHolds loc with
    | true =>
      obtain ⟨t, result, went, stored⟩ := aupd_stores run addr memory multiple resolved stays near clear int low home
      exact ⟨t, result, went, fun _ => stored, .inl stored⟩
    | false =>
      obtain ⟨t, result, went, ways⟩ := aupd_combines run addr memory multiple resolved stays near clear home
      refine ⟨t, result, went, fun here => ?_, ways.imp_right fun ⟨mem, uline⟩ =>
        ⟨mem, _, uline, rfl, rfl, rfl, rfl, firstPartial_at ..⟩⟩
      simp only [Bool.or_eq_false_iff, decide_eq_false_iff_not] at home
      obtain ⟨⟨⟨device, fixh⟩, -⟩, unit⟩ := home
      rcases here with spad | fixed | held
      · exact absurd spad device
      · rw [fixh] at fixed; cases fixed
      · rw [unit] at held; cases held
  case barrier =>
    intro s d a n id t low task gang number released run x past g gen here last
    have h : s.InGang d a n := ⟨low, ⟨id, t, task, gang⟩, number, released, run⟩
    have answered (v : Word) : (s.setG d v).onward.wentOn s (g.set d v) := wentOn_result rfl rfl (fun _ _ => rfl) d v
    refine ⟨fun fresh out => ⟨fun open_ => ?waits, fun full => ?completes⟩, fun one most => ?_, fun stays => ?_, ?_, ?_⟩
    case waits =>
      have unfull : (s.arrived d n).barrierFull (.huddle (clusterOf s.curCore) n) = false := open_
      refine ⟨_, exec_bara h fresh out, ?_⟩
      rw [barrierCheck_waits unfull]
      exact ⟨arrived_wentOn s d n, onward_sameMem (arrived_sameMem s d n), arrived_barrier s d n⟩
    case completes =>
      obtain ⟨passed, next⟩ := arrived_completes (d := d) full
      refine ⟨_, exec_bara h fresh out, passed, congrArg Barrier.arrived next, (congrArg Barrier.gen next).trans ?_⟩
      exact congrArg (·.gen + 1) (arriving_barrier s n)
    · exact ⟨_, exec_barw_passes h ((passed_iff ..).mpr ⟨one, most⟩), answered _, rfl⟩
    · refine exec_barw_waits h (Bool.eq_false_iff.mpr fun moved => ?_)
      have := (passed_iff ..).mp moved
      rcases stays with zero | far
      · exact absurd zero (Nat.ne_of_gt this.1)
      · exact absurd this.2 (Nat.not_le.mpr far)
    · refine ⟨_, exec_barRead h (fun g => g.toNat % 2), ?_, rfl⟩
      have low : ofN (x.gen.toNat % 2) = gen &&& 1 := by
        refine BitVec.eq_of_toNat_eq ?_
        have := x.gen.isLt
        rw [ofN, BitVec.toNat_ofNat, BitVec.toNat_and, BitVec.toNat_setWidth, show (1 : Word).toNat = 1 from rfl, Nat.and_one_is_mod]
        omega
      rw [← low]
      exact answered _
    · refine ⟨_, exec_barRead h (fun g => g.toNat), ?_, rfl⟩
      have whole : ofN x.gen.toNat = gen := BitVec.ofNat_toNat ..
      rw [← whole]
      exact answered _
  · rw [tfence_onlyStale]
    exact wentOn_onward rfl rfl fun _ _ => rfl
  · rw [tfence_onlyStale]
    exact ⟨rfl, rfl, rfl⟩
  · have next := barrierCheck_completes full
    exact ⟨_, exec_barrierGenerationComplete .., congrArg Barrier.gen next, congrArg Barrier.arrived next, (barrierCheck_keepsWork ..).mem⟩

end Sys2Proof.Machine
end

section
/-! TLBI at its issue: the privilege, the messages to the clusters, holds and their end (R147 to R150, R324, R443). -/

namespace Sys2Proof.Machine

/-! ## Privilege (R310, R324) -/

theorem prepPriv_ok {s : State} {op : Nat} {srcs dsts : List Nat} (h : s.canRun srcs dsts = true) :
    prepPriv op true srcs dsts s = .ok ((), s) := by
  unfold prepPriv
  rw [Act.bind_ok (noStream_ok h), Act.bind_ok (show needPriv op true s = .ok ((), s) from rfl),
    Act.bind_ok (waitPend_ok fun k m => (Ctx.plain_mem (State.canRun_plain h) m).2)]
  exact poisonCheck_ok (State.canRun_unpoisoned h) fun _ m => m

theorem noStream_of_none {s : State} {keys : List Nat} (h : ∀ k ∈ keys, assocGet s.me.streams k = none) (op : Nat) :
    noStream op keys s = .ok ((), s) := by
  have unstreamed : (keys.any fun k => (s.streamOf k).isSome) = false :=
    List.any_eq_false.mpr fun k m => by simp [State.streamOf, h k m]
  unfold noStream
  rw [Act.get_bind, unstreamed]
  rfl

/-- TLBI without privilege S is ILL, reason 7. -/
theorem tlbi_unprivileged {s : State} {a sa : Nat} (priv : s.privS = false) (plain : ∀ k ∈ [sa, a], assocGet s.me.streams k = none)
    (kind : Nat) : runAct (tlbiAct a sa kind) s = .next (s.trapped 1 0 (BitVec.ofNat 64 (2 ^ 63 + 0xFC * 256 + 7))) := by
  have subset : ∀ k ∈ (if kind = 1 then [] else [sa]) ++ [a], k ∈ [sa, a] := by
    split <;> simp
  refine runAct_trap ?_
  unfold tlbiAct
  rw [Act.get_bind, Act.bind_ok (noStream_of_none (fun k m => plain k (by simpa using .inl (List.mem_singleton.mp m))) _), priv]
  refine Act.bind_error ?_
  unfold prepPriv
  rw [Act.bind_ok (noStream_of_none (fun k m => plain k (subset k m)) _)]
  exact Act.bind_error rfl

/-! ## The issue -/

/-- The operand of TLBI; INVALL has none. -/
def State.tlbiOperand (s : State) (kind sa : Nat) : Word := if kind = 1 then 0 else s.me.g.get sa

/-- TLBI of the supervisor takes its slot, makes its destination pending, acts and goes on. -/
theorem tlbi_issues {s : State} {a sa kind p : Nat} (priv : s.privS = true) (ask : s.canAsk [sa] a) (part : s.partOfCore s.curCore = some p)
    (space : bits (s.me.g.get sa) 53 52 = 0)
    (free : kind ∈ [2, 3, 4] → s.walkBusy (clusterOf s.curCore) p (bits (s.me.g.get sa) 51 0) = false) :
    runAct (tlbiAct a sa kind) s = .next ((s.asked a).tlbi p kind (s.tlbiOperand kind sa) (s.dest a)).onward := by
  obtain ⟨run, reg, room, ord, out⟩ := ask
  have curPart : s.curPart = p := by rw [State.curPart, part, Option.getD_some]
  have spec : s.spec = false := by rw [State.spec, State.specAt, ord]
  have operands : s.canRun (if kind = 1 then [] else [sa]) [a] = true := by
    split
    · exact State.canRun_noSrcs run
    · exact run
  have operand : (if kind = 1 then return 0 else readG sa : Act Word) s = .ok (s.tlbiOperand kind sa, s) := by
    rw [State.tlbiOperand]
    split
    · rfl
    · exact readG_ok (State.canRun_stream run (by simp))
  have inSpace : ¬ (kind ≠ 1 ∧ bits (s.tlbiOperand kind sa) 53 52 ≠ 0) := fun ⟨other, bad⟩ => by
    rw [State.tlbiOperand, if_neg other] at bad
    exact bad space
  have walks : ([2, 3, 4].contains kind && s.walkBusy (clusterOf s.curCore) s.curPart (bits (s.tlbiOperand kind sa) 51 0)) = false := by
    rw [Bool.and_eq_false_iff]
    by_cases m : kind ∈ [2, 3, 4]
    · refine .inr ?_
      have other : kind ≠ 1 := by rintro rfl; exact absurd m (by decide)
      rw [curPart, State.tlbiOperand, if_neg other]
      exact free m
    · exact .inl (by simpa using m)
  refine runAct_ok ?_
  unfold tlbiAct
  rw [Act.get_bind, Act.bind_ok (noStream_of_none (fun k m => List.mem_singleton.mp m ▸ State.canRun_stream run (by simp)) _), priv,
    Act.bind_ok (prepPriv_ok operands), Act.bind_ok (notSpec_ok spec), Act.bind_ok operand]
  dsimp only
  rw [if_neg inSpace, walks, if_neg Bool.false_ne_true, Act.bind_ok (takeSlot_ok room), Act.modify_bind, dest_slotTaken]
  have asked : s.slotTaken.setPend (s.dest a) = s.asked a := rfl
  have part' : (s.asked a).partOfCore (s.asked a).curCore = some p := part
  have dest : (s.asked a).dest a = s.dest a := by rw [State.dest, State.dest, me_asked]; rfl
  rw [asked, part', dest]
  rfl

/-! ## The messages -/

/-- The message that a TLBI of the partition sends. -/
def tlbiMsg (p kind : Nat) (w : Word) (d : RegDest) (st : Word) : TlbiMsg := { part := p, kind := kind, va := w, dest := d, status := st }

/-- A TLBI issued in `s` has taken its slot and its destination is pending; nothing in flight, and no memory, has changed. -/
structure State.TlbiIssued (s x : State) (a : Nat) : Prop where
  agenda : x.agenda = s.agenda
  tlbis : x.tlbis = s.tlbis
  part : x.part = s.part
  me : x.me = (s.asked a).me
  mem : s.uline = [] → x.sameMem s

theorem asked_tlbiIssued (s : State) (a : Nat) : s.TlbiIssued (s.asked a) a := ⟨rfl, rfl, rfl, rfl, fun _ => ⟨rfl, rfl, rfl⟩⟩

theorem clustersOf_of_part {s t : State} (h : t.part = s.part) (p : Nat) : t.clustersOf p = s.clustersOf p := by
  rw [State.clustersOf, State.clustersOf, h]

/-- A partition that owns a core owns a cluster. -/
theorem clustersOf_ne_nil {s : State} {core p : Nat} (h : s.partOfCore core = some p) : s.clustersOf p ≠ [] := by
  unfold State.partOfCore at h
  split at h
  · next low =>
    have owns := List.find?_some h
    rw [Bool.and_eq_true] at owns
    refine List.ne_nil_of_mem (a := clusterOf core) (List.mem_filter.mpr ⟨List.mem_range.mpr ?_, owns.2⟩)
    unfold clusterOf
    omega
  · cases h

theorem tlbiSend_eq {s : State} {p : Nat} (owns : s.clustersOf p ≠ []) (kind : Nat) (w : Word) (d : RegDest) (st : Word) :
    s.tlbiSend p kind w d st = { s with
      tlbis := s.tlbis ++ [{ msg := tlbiMsg p kind w d st, clusters := s.clustersOf p }],
      agenda := s.agenda ++ (s.clustersOf p).map (fun c => .tlbiWalkerMessage (tlbiMsg p kind w d st) c) } := by
  unfold State.tlbiSend
  dsimp only
  rw [if_neg (by simpa using owns)]
  rfl

/-- What the messages of a TLBI and its end leave. -/
theorem tlbiSend_leaves {s x : State} {a p : Nat} (issued : s.TlbiIssued x a) (owns : s.clustersOf p ≠ []) (reg : a < 16) (kind : Nat)
    (w st : Word) :
    let t := (x.tlbiSend p kind w (s.dest a) st).onward
    let m := tlbiMsg p kind w (s.dest a) st
    (t.agenda = s.agenda ++ (s.clustersOf p).map (fun c => .tlbiWalkerMessage m c) ∧
      t.tlbis = s.tlbis ++ [{ msg := m, clusters := s.clustersOf p }] ∧ t.me.g = s.me.g ∧ t.me.pc = nextPc s.me.pc s.me.lineN ∧
      (s.uline = [] → t.sameMem s) ∧ t.me.pend.getLsbD a = true) ∧ t.holds = x.holds ∧ t.pins = x.pins := by
  intro t m
  have same := clustersOf_of_part issued.part p
  have sent : x.tlbiSend p kind w (s.dest a) st = _ := tlbiSend_eq (by rw [same]; exact owns) kind w (s.dest a) st
  rw [same, issued.agenda, issued.tlbis] at sent
  have me : (x.tlbiSend p kind w (s.dest a) st).me = (s.asked a).me := by rw [sent]; exact issued.me
  have me' : t.me = { (s.asked a).me with pc := nextPc (s.asked a).me.pc (s.asked a).me.lineN } := by
    rw [State.me_onward, State.nextOf, me]
  rw [me_asked] at me'
  refine ⟨⟨?_, ?_, ?_, ?_, fun none => ?_, ?_⟩, ?_, ?_⟩
  · exact congrArg State.agenda sent
  · exact congrArg State.tlbis sent
  · rw [me']
  · rw [me']
  · refine onward_sameMem ?_
    rw [sent]
    exact issued.mem none
  · rw [me']
    exact getLsbD_or_twoPow _ reg
  · exact (congrArg State.holds sent).trans rfl
  · exact (congrArg State.pins sent).trans rfl

/-! ## Unpinning (R148) -/

theorem foldl_ctxAt {α : Type} {f : State → α → State} (h : ∀ s a d k, (f s a).ctxAt d k = s.ctxAt d k) (l : List α) (s : State)
    (d k : Nat) : (l.foldl f s).ctxAt d k = s.ctxAt d k := by
  induction l generalizing s with
  | nil => rfl
  | cons a l ih => rw [List.foldl_cons, ih, h]

/-- Unpinning a page tells the cores that had pinned its lines. -/
theorem unpinPage_eq (s : State) (p vbase logSize : Nat) : s.unpinPage p vbase logSize =
    { s with core := (s.unpinPage p vbase logSize).core, pins := s.pins.filter (fun y => !pinOn p vbase logSize y) } := by
  have told := foldl_onlyCore (f := fun (x : State) (q : Pin) => x.modCore q.core (fun c => { c with plost := true })) (fun _ _ => rfl)
    (s.pins.filter (pinOn p vbase logSize)) s
  exact congrArg (fun (x : State) => { x with pins := s.pins.filter (fun y => !pinOn p vbase logSize y) }) told

theorem unpinPage_ctxAt (s : State) (p vbase logSize d k : Nat) : (s.unpinPage p vbase logSize).ctxAt d k = s.ctxAt d k := by
  refine foldl_ctxAt (f := fun (x : State) (q : Pin) => x.modCore q.core (fun c => { c with plost := true })) (fun x q d k => ?_) _ s d k
  refine ctxAt_modCore x q.core ?_ d k
  exact fun _ => rfl

/-! ## UNMAP, MOVE and MOVEF (R147 to R150) -/

theorem exec_tlbiHolder {i : Instr} {a sa kind : Nat}
    (m : (i, kind) ∈ [(Instr.tlbiUnmap a sa, 2), (.tlbiMove a sa, 3), (.tlbiMovef a sa, 4)]) (s : State) :
    exec i s = runAct (tlbiAct a sa kind) s ∧ kind ∈ [2, 3, 4] := by
  simp only [List.mem_cons, Prod.mk.injEq, List.not_mem_nil, or_false] at m
  rcases m with ⟨rfl, rfl⟩ | ⟨rfl, rfl⟩ | ⟨rfl, rfl⟩ <;> exact ⟨rfl, by decide⟩

/-- The hold that the running context sets on a page. -/
def State.newHold (s : State) (p vbase logSize : Nat) : Hold :=
  { part := p, vbase := vbase, logSize := logSize, core := s.curCore, ctx := s.curCtx, serial := s.me.serial }

/-- The state in which a page is unpinned and held. -/
def State.pageHeld (u x : State) (p vbase logSize : Nat) : State :=
  { u.unpinPage p vbase logSize with holds := u.holds ++ [x.newHold p vbase logSize] }

section
variable {x u : State} {p kind va : Nat}

theorem holderKind_bounds (m : kind ∈ [2, 3, 4]) : ¬ kind < 2 ∧ kind ≠ 5 := by
  simp only [List.mem_cons, List.not_mem_nil, or_false] at m
  omega

theorem tlbi_answers {w v : Word} (m : kind ∈ [2, 3, 4]) (held : x.tlbiHold p kind (bits w 51 0) = (some v, u)) (d : RegDest) :
    x.tlbi p kind w d = u.push (.pendingValueArrive d (.value v)) := by
  obtain ⟨high, other⟩ := holderKind_bounds m
  unfold State.tlbi
  dsimp only
  rw [if_neg high, if_neg other, held]
  rfl

theorem tlbi_sends {w : Word} (m : kind ∈ [2, 3, 4]) (held : x.tlbiHold p kind (bits w 51 0) = (none, u)) (d : RegDest) :
    x.tlbi p kind w d = u.tlbiSend p kind w d 0 := by
  obtain ⟨high, other⟩ := holderKind_bounds m
  unfold State.tlbi
  dsimp only
  rw [if_neg high, if_neg other, held]
  rfl

/-- A page without a leaf is NOMATCH. -/
theorem tlbiHold_noLeaf {f : AccFault} (walked : x.walk (clusterOf x.curCore) p va = (.error (.fault f), u)) :
    x.tlbiHold p kind va = (some 9, u) := by
  unfold State.tlbiHold
  rw [walked]
  rfl

variable {l : Leaf} (walked : x.walk (clusterOf x.curCore) p va = (.ok l, u))
include walked

/-- A page in a region that a near-bank unit holds is refused. -/
theorem tlbiHold_unit (busy : (bit l.entry 6 && u.unitHolds l.frame) = true) :
    x.tlbiHold p kind va = (some (BitVec.ofNat 64 (2 ^ 63 + 3)), u) := by
  unfold State.tlbiHold
  rw [walked]
  exact if_pos busy

variable (free : (bit l.entry 6 && u.unitHolds l.frame) = false)
include free

/-- MOVE refuses a page of which a line is pinned. -/
theorem tlbiHold_pinned (move : kind = 3) (pinned : u.pins.any (pinOn p (va / 2 ^ l.logSize * 2 ^ l.logSize) l.logSize) = true) :
    x.tlbiHold p kind va = (some 3, u) := by
  have refused : (decide (kind = 3) && u.pins.any (pinOn p (va / 2 ^ l.logSize * 2 ^ l.logSize) l.logSize)) = true := by
    rw [decide_eq_true move, pinned, Bool.and_self]
  unfold State.tlbiHold
  rw [walked]
  exact (if_neg (by rw [free]; exact Bool.false_ne_true)).trans (if_pos refused)

/-- Past both, the page is held unless it is held already or the partition has 8 holds. -/
theorem tlbiHold_past (unpinned : kind = 3 → u.pins.any (pinOn p (va / 2 ^ l.logSize * 2 ^ l.logSize) l.logSize) = false) :
    x.tlbiHold p kind va = if (u.holdOn p va).isSome || decide (8 ≤ (u.holds.filter (fun h => h.part == p)).length) then (some 1, u)
      else (none, u.pageHeld x p (va / 2 ^ l.logSize * 2 ^ l.logSize) l.logSize) := by
  have passes : (decide (kind = 3) && u.pins.any (pinOn p (va / 2 ^ l.logSize * 2 ^ l.logSize) l.logSize)) = false := by
    by_cases move : kind = 3
    · rw [unpinned move, Bool.and_false]
    · rw [decide_eq_false move, Bool.false_and]
  unfold State.tlbiHold
  rw [walked]
  exact (if_neg (by rw [free]; exact Bool.false_ne_true)).trans (if_neg (by rw [passes]; exact Bool.false_ne_true))

end

end Sys2Proof.Machine
end

section
/-! The walkers' part of a TLBI, walks that waited, and the homes of lines (R131, R132, R144, R145, R147, R149). -/

namespace Sys2Proof.Machine

/-! ## A walker's message (R147) -/

/-- The entries of a core's TLB that a TLBI reaches are gone. -/
def State.tlbDropped (s : State) (t : TlbiMsg) (k : Nat) : State :=
  if (s.coreAt k).tlb.isEmpty then s else s.modCore k (fun c => { c with tlb := c.tlb.filter (fun e => !tlbiHits t e) })

theorem tlbDropped_tlb (s : State) (t : TlbiMsg) (k core : Nat) : ((s.tlbDropped t k).coreAt core).tlb =
    if core = k then (s.coreAt core).tlb.filter (fun e => !tlbiHits t e) else (s.coreAt core).tlb := by
  unfold State.tlbDropped
  by_cases same : core = k
  · subst same
    split
    · next empty => rw [if_pos rfl, List.isEmpty_iff.mp empty, List.filter_nil]
    · rw [State.coreAt_modCore_same, if_pos rfl]
  · rw [if_neg same]
    split
    · rfl
    · rw [State.coreAt_modCore_ne _ _ _ _ same]

theorem mem_tlbsDropped (t : TlbiMsg) (ks : List Nat) (s : State) {core : Nat} (m : core ∈ ks) (e : TlbEntry) :
    e ∈ ((ks.foldl (fun x k => x.tlbDropped t k) s).coreAt core).tlb ↔ e ∈ (s.coreAt core).tlb ∧ tlbiHits t e = false := by
  have kept (k : Nat) (s : State) (e : TlbEntry) : e ∈ ((s.tlbDropped t k).coreAt core).tlb ↔
      e ∈ (s.coreAt core).tlb ∧ (core = k → tlbiHits t e = false) := by
    rw [tlbDropped_tlb]
    split
    · next same => simp [List.mem_filter, same]
    · next other => simp [other]
  have all : e ∈ ((ks.foldl (fun x k => x.tlbDropped t k) s).coreAt core).tlb ↔
      e ∈ (s.coreAt core).tlb ∧ (core ∈ ks → tlbiHits t e = false) := by
    clear m
    induction ks generalizing s with
    | nil => simp
    | cons k ks ih =>
      rw [List.foldl_cons, ih, kept, List.mem_cons, and_assoc]
      exact and_congr_right fun _ => ⟨fun ⟨one, rest⟩ m => m.elim one rest, fun h => ⟨fun m => h (.inl m), fun m => h (.inr m)⟩⟩
  rw [all]
  exact and_congr_right fun _ => ⟨fun h => h m, fun h _ => h⟩

theorem tlbDropped_onlyCore (s : State) (t : TlbiMsg) (k : Nat) : s.tlbDropped t k = { s with core := (s.tlbDropped t k).core } := by
  unfold State.tlbDropped
  split <;> rfl

/-- The cluster of a walker that has heard a TLBI. -/
def State.walkerHears (s : State) (t : TlbiMsg) (cl : Nat) : State :=
  s.modCluster cl (fun c =>
    { c with tlb2 := c.tlb2.filter (fun e => !tlbiHits t e),
             walkq := c.walkq.filter (fun w => (s.holdOn w.1 (w.2 * 4096)).isSome || !(w.1 == t.part &&
               (t.kind == 1 || w.2 == bits t.va 51 12))) })

theorem exec_tlbiWalkerMessage (t : TlbiMsg) (cl : Nat) (s : State) : exec (.tlbiWalkerMessage t cl) s =
    .next (((coresOf cl).foldl (fun x k => x.tlbDropped t k) (s.walkerHears t cl)).push (.tlbiAcknowledge t cl)) := rfl

/-- A walker drops the translations of its cluster that a TLBI reaches, and acknowledges. -/
theorem tlbiWalkerMessage_drops (t : TlbiMsg) (cl : Nat) (s : State) : ∃ u, exec (.tlbiWalkerMessage t cl) s = .next u ∧
    u.agenda = s.agenda ++ [.tlbiAcknowledge t cl] ∧ u.mem = s.mem ∧
    (∀ e, e ∈ (u.clusterAt cl).tlb2 ↔ e ∈ (s.clusterAt cl).tlb2 ∧ tlbiHits t e = false) ∧
    ∀ core, core / 8 = cl → ∀ e, e ∈ (u.coreAt core).tlb ↔ e ∈ (s.coreAt core).tlb ∧ tlbiHits t e = false := by
  have dropped := foldl_onlyCore (fun x k => tlbDropped_onlyCore x t k) (coresOf cl) (s.walkerHears t cl)
  have tlbs (core : Nat) (own : core / 8 = cl) (e : TlbEntry) := mem_tlbsDropped t (coresOf cl) (s.walkerHears t cl) (mem_coresOf.mpr own) e
  refine ⟨_, exec_tlbiWalkerMessage t cl s, ?_⟩
  generalize (coresOf cl).foldl (fun x k => x.tlbDropped t k) (s.walkerHears t cl) = x at dropped tlbs
  refine ⟨?_, ?_, fun e => ?_, tlbs⟩
  · rw [dropped]; rfl
  · rw [dropped]; rfl
  · have second : ((x.push (.tlbiAcknowledge t cl)).clusterAt cl).tlb2 = (s.clusterAt cl).tlb2.filter (fun e => !tlbiHits t e) := by
      rw [dropped]
      simp only [State.clusterAt, State.push, State.walkerHears, State.modCluster, Tab.get_modify_same]
    rw [second, List.mem_filter, Bool.not_eq_true']

/-! ## Acknowledgements (R147) -/

section
variable {s : State} {m : TlbiMsg} {c : Nat}

theorem exec_tlbiAcknowledge (m : TlbiMsg) (c : Nat) (s : State) : exec (.tlbiAcknowledge m c) s = .next
    (match s.tlbis.find? (fun w => w.msg == m) with
      | none => s
      | some w =>
        let left := w.clusters.filter (fun x => x != c)
        let rest := s.tlbis.filter (fun x => x.msg != m)
        if left.isEmpty then ({ s with tlbis := rest } : State).tlbiDone m.dest m.status
        else { s with tlbis := rest ++ [{ w with clusters := left }] }) := rfl

theorem tlbiAcknowledge_last (waits : s.tlbis = [{ msg := m, clusters := [c] }]) : exec (.tlbiAcknowledge m c) s =
    .next { s with tlbis := [], agenda := s.agenda ++ [.pendingValueArrive m.dest (.value m.status)] } := by
  rw [exec_tlbiAcknowledge, waits]
  simp [State.tlbiDone, State.push]

theorem tlbiAcknowledge_first {d : Nat} (other : c ≠ d) (waits : s.tlbis = [{ msg := m, clusters := [c, d] }]) :
    exec (.tlbiAcknowledge m c) s = .next { s with tlbis := [{ msg := m, clusters := [d] }] } := by
  rw [exec_tlbiAcknowledge, waits]
  simp [Ne.symm other]

theorem tlbiAcknowledge_stray (none : s.tlbis = []) : exec (.tlbiAcknowledge m c) s = .next s := by
  rw [exec_tlbiAcknowledge, none]
  rfl

end

/-! ## Walks that waited (R145, R149) -/

/-- What is inserted into a second-level TLB stands there. -/
theorem mem_tlb2Insert (pick : Nat) (es : List TlbEntry) (t : TlbEntry) : t ∈ tlb2Insert pick es t := by
  unfold tlb2Insert
  dsimp only
  split
  · exact .head _
  · split <;> exact .head _

/-- The state in which a cluster's walker has no walk waiting. -/
def State.noWalks (s : State) (cl : Nat) : State := s.modCluster cl (fun c => { c with walkq := [] })

theorem noWalks_walkq (s : State) (cl : Nat) : ((s.noWalks cl).clusterAt cl).walkq = [] := by
  simp [State.noWalks, State.clusterAt, State.modCluster]

/-- The translation that a walk finds for the page `n`. -/
def Leaf.translation (l : Leaf) (n : Nat) : TlbEntry :=
  { vbase := n * 4096 / 2 ^ l.logSize * 2 ^ l.logSize, logSize := l.logSize, leaf := setBits l.entry 51 12 (l.frame / 4096), use := 0 }

/-- The translation enters the second-level TLB of a cluster. -/
def State.walkFills (s : State) (cl : Nat) (t : TlbEntry) : State :=
  { s.modCluster cl (fun c => { c with tlb2 := tlb2Insert (Config.freeNat s.free) c.tlb2 t }) with free := s.free + 1 }

theorem walkFills_leaves (s : State) (cl : Nat) (t : TlbEntry) : t ∈ ((s.walkFills cl t).clusterAt cl).tlb2 ∧
    ((s.walkFills cl t).clusterAt cl).walkq = (s.clusterAt cl).walkq ∧ (s.walkFills cl t).mem = s.mem := by
  have cluster : (s.walkFills cl t).clusterAt cl =
      { s.clusterAt cl with tlb2 := tlb2Insert (Config.freeNat s.free) (s.clusterAt cl).tlb2 t } := by
    simp [State.walkFills, State.clusterAt, State.modCluster]
  rw [cluster]
  exact ⟨mem_tlb2Insert .., rfl, rfl⟩

section
variable {s : State} {cl p : Nat} {va : Word} (queue : (s.clusterAt cl).walkq = [(p, bits va 51 12)])
include queue

/-- The one walk that waits is made, unless its page is held. -/
theorem exec_walkComplete : exec (.walkComplete cl va) s = .next
    (if (s.holdOn p (bits va 51 12 * 4096)).isSome then s
      else match (s.noWalks cl).walk cl p (bits va 51 12 * 4096) with
        | (.error .busy, _) => s
        | (.error _, u) => u
        | (.ok l, u) => u.walkFills cl (l.translation (bits va 51 12))) := by
  have found : ((s.clusterAt cl).walkq.take 32).find? (fun w => w.2 == bits va 51 12) = some (p, bits va 51 12) := by
    rw [queue]
    exact List.find?_cons_of_pos (beq_self_eq_true _)
  have cleared : s.modCluster cl (fun c => { c with walkq := c.walkq.filter (fun x => x != (p, bits va 51 12)) }) = s.noWalks cl := by
    have queue' : (s.cluster.get cl).walkq = [(p, bits va 51 12)] := queue
    simp [State.noWalks, State.modCluster, Tab.modify, queue']
  refine congrArg Host.Outcome.next ?_
  dsimp only
  rw [found]
  dsimp only
  rw [cleared]
  rfl

theorem walkComplete_fills {l : Leaf} {u : State} (free : s.holdOn p (bits va 51 12 * 4096) = none)
    (walked : (s.noWalks cl).walk cl p (bits va 51 12 * 4096) = (.ok l, u)) :
    ∃ t e, exec (.walkComplete cl va) s = .next t ∧ (t.clusterAt cl).walkq = [] ∧ e ∈ (t.clusterAt cl).tlb2 ∧ e.logSize = l.logSize ∧
      e.vbase = bits va 51 12 * 4096 / 2 ^ l.logSize * 2 ^ l.logSize ∧ t.mem = u.mem := by
  have frame := walk_frame (s.noWalks cl) cl p (bits va 51 12 * 4096)
  rw [walked] at frame
  obtain ⟨fills, waits, mem⟩ := walkFills_leaves u cl (l.translation (bits va 51 12))
  refine ⟨_, l.translation (bits va 51 12), (exec_walkComplete queue).trans ?_, ?_, fills, rfl, rfl, mem⟩
  · rw [free, walked]
    rfl
  · rw [waits, frame.2.1 cl]
    exact noWalks_walkq s cl

theorem walkComplete_faults {f : AccFault} {u : State} (free : s.holdOn p (bits va 51 12 * 4096) = none)
    (walked : (s.noWalks cl).walk cl p (bits va 51 12 * 4096) = (.error (.fault f), u)) : exec (.walkComplete cl va) s = .next u := by
  rw [exec_walkComplete queue, free, walked]
  rfl

theorem walkComplete_waits {h : Hold} (held : s.holdOn p (bits va 51 12 * 4096) = some h) : exec (.walkComplete cl va) s = .next s := by
  rw [exec_walkComplete queue, held]
  rfl

end

/-! ## Homes of lines (R131, R132) -/

/-- A request that leaves a line where it is counts at its home. -/
theorem homeRequest_counts {s : State} {line node : Nat}
    (few : (if (s.home.get line).node = node then (s.home.get line).run + 1 else 1) < 4) :
    exec (.homeRequest line node) s = .next { s with home := s.home.set line { s.home.get line with
      node := node, run := if (s.home.get line).node = node then (s.home.get line).run + 1 else 1 } } :=
  congrArg Host.Outcome.next (if_pos (.inl few))

/-- The state in which a line stands in the slice of a node of its die, away from its home slice. -/
def State.lineMoved (s : State) (line node : Nat) : State :=
  { s with home := s.home.set line { node := node, run := 0, holder := node },
           forwards := s.forwards.modify ((homeSlice (line * 64)).1 * 64 + (homeSlice (line * 64)).2) (fun n => n + 1) }

theorem homeRequest_moves {s : State} {line node : Nat} (pins : s.pins = []) (uline : s.uline = []) (same : (s.home.get line).node = node)
    (fourth : 3 ≤ (s.home.get line).run) (away : node ≠ (homeSlice (line * 64)).2) (home : s.holderOf line = (homeSlice (line * 64)).2)
    (room : s.forwards.get ((homeSlice (line * 64)).1 * 64 + (homeSlice (line * 64)).2) < 2048) :
    exec (.homeRequest line node) s = .next (s.lineMoved line node) := by
  have moves : ¬ ((if (s.home.get line).node = node then (s.home.get line).run + 1 else 1) < 4 ∨ node = s.holderOf line ∨
      s.pinned line = true ∨ s.uline.any (fun u => u.line == line) = true) := by
    rw [if_pos same, home, State.pinned, pins, uline]
    simp only [List.any_nil, Bool.false_eq_true, or_false, not_or]
    exact ⟨by omega, away⟩
  exact congrArg Host.Outcome.next ((if_neg moves).trans ((if_neg away).trans ((if_neg (not_not.mpr home)).trans (if_pos room))))

theorem lineMoved_leaves (s : State) {line node : Nat} (low : node < 64) : (s.lineMoved line node).holderOf line = node ∧
    (s.lineMoved line node).forwards.get ((homeSlice (line * 64)).1 * 64 + (homeSlice (line * 64)).2) =
      s.forwards.get ((homeSlice (line * 64)).1 * 64 + (homeSlice (line * 64)).2) + 1 := by
  refine ⟨?_, Tab.get_modify_same ..⟩
  unfold State.holderOf State.lineMoved
  dsimp only
  rw [Tab.get_set_same]
  exact if_pos low

end Sys2Proof.Machine
end

section
/-! What a TLBI of the supervisor answers, and the statement of shootdown, walks and homes (R131, R132, R145, R147 to R150, R443). -/

namespace Sys2Proof.Machine

/-- A walk leaves the units, the pins and the holds. -/
theorem State.sameButWalk_tables {s u : State} (w : u.sameButWalk s) : u.unit = s.unit ∧ u.pins = s.pins ∧ u.holds = s.holds ∧
    u.tlbis = s.tlbis := by
  rw [w.2.2.1]
  exact ⟨rfl, rfl, rfl, rfl⟩

/-- The messages of a TLBI of the running context's supervisor, in the terms of the statement. -/
def State.tlbiSent (s t : State) (p a : Nat) (m : TlbiMsg) : Prop :=
  t.agenda = s.agenda ++ (s.clustersOf p).map (fun c => .tlbiWalkerMessage m c) ∧
    t.tlbis = s.tlbis ++ [{ msg := m, clusters := s.clustersOf p }] ∧ t.me.g = s.me.g ∧ t.me.pc = nextPc s.me.pc s.me.lineN ∧
    (s.uline = [] → t.sameMem s) ∧ t.me.pend.getLsbD a = true

section
variable {s : State} {a sa p : Nat} (priv : s.privS = true) (ask : s.canAsk [sa] a) (part : s.partOfCore s.curCore = some p)
  (space : bits (s.me.g.get sa) 53 52 = 0)
include priv ask part space

/-! ## INV, INVALL and REL -/

theorem tlbiInv_sends : ∃ t, exec (.tlbiInv a sa) s = .next t ∧ s.tlbiSent t p a (tlbiMsg p 0 (s.me.g.get sa) (s.dest a) 0) ∧
    t.holds = s.holds := by
  obtain ⟨sent, holds, -⟩ := tlbiSend_leaves (asked_tlbiIssued s a) (clustersOf_ne_nil part) ask.2.1 0 (s.me.g.get sa) 0
  exact ⟨_, tlbi_issues (kind := 0) priv ask part space (fun m => absurd m (by decide)), sent, holds⟩

theorem tlbiInvall_sends : ∃ t, exec (.tlbiInvall a sa) s = .next t ∧ s.tlbiSent t p a (tlbiMsg p 1 0 (s.dest a) 0) ∧
    t.holds = s.holds := by
  obtain ⟨sent, holds, -⟩ := tlbiSend_leaves (asked_tlbiIssued s a) (clustersOf_ne_nil part) ask.2.1 1 0 0
  exact ⟨_, tlbi_issues (kind := 1) priv ask part space (fun m => absurd m (by decide)), sent, holds⟩

theorem exec_tlbiRel : exec (.tlbiRel a sa) s = .next
    (match s.holdOn p (bits (s.me.g.get sa) 51 0) with
      | some h => ({ s.asked a with holds := s.holds.filter (fun x => x != h) } : State).tlbiSend p 5 (s.me.g.get sa) (s.dest a) 0
      | none => (s.asked a).tlbiSend p 5 (s.me.g.get sa) (s.dest a) 2).onward :=
  tlbi_issues (kind := 5) priv ask part space (fun m => absurd m (by decide))

theorem tlbiRel_ends {h : Hold} (held : s.holdOn p (bits (s.me.g.get sa) 51 0) = some h) :
    ∃ t, exec (.tlbiRel a sa) s = .next t ∧ s.tlbiSent t p a (tlbiMsg p 5 (s.me.g.get sa) (s.dest a) 0) ∧
      t.holds = s.holds.filter (fun y => y != h) := by
  have issued : s.TlbiIssued { s.asked a with holds := s.holds.filter (fun x => x != h) } a :=
    ⟨rfl, rfl, rfl, rfl, fun _ => ⟨rfl, rfl, rfl⟩⟩
  obtain ⟨sent, holds, -⟩ := tlbiSend_leaves issued (clustersOf_ne_nil part) ask.2.1 5 (s.me.g.get sa) 0
  refine ⟨_, exec_tlbiRel priv ask part space, ?_⟩
  rw [held]
  exact ⟨sent, holds⟩

theorem tlbiRel_empty (free : s.holdOn p (bits (s.me.g.get sa) 51 0) = none) :
    ∃ t, exec (.tlbiRel a sa) s = .next t ∧ s.tlbiSent t p a (tlbiMsg p 5 (s.me.g.get sa) (s.dest a) 2) ∧ t.holds = s.holds := by
  obtain ⟨sent, holds, -⟩ := tlbiSend_leaves (asked_tlbiIssued s a) (clustersOf_ne_nil part) ask.2.1 5 (s.me.g.get sa) 2
  refine ⟨_, exec_tlbiRel priv ask part space, ?_⟩
  rw [free]
  exact ⟨sent, holds⟩

/-! ## UNMAP, MOVE and MOVEF -/

section
variable {i : Instr} {kind : Nat} (m : (i, kind) ∈ [(Instr.tlbiUnmap a sa, 2), (.tlbiMove a sa, 3), (.tlbiMovef a sa, 4)])
  (idle : s.walkBusy (clusterOf s.curCore) p (bits (s.me.g.get sa) 51 0) = false)
include m idle

theorem exec_tlbiHolder_issues : exec i s = .next ((s.asked a).tlbi p kind (s.me.g.get sa) (s.dest a)).onward := by
  obtain ⟨meaning, holder⟩ := exec_tlbiHolder m s
  have operand : s.tlbiOperand kind sa = s.me.g.get sa := if_neg (by rintro rfl; exact absurd holder (by decide))
  rw [meaning, tlbi_issues priv ask part space fun _ => idle, operand]

/-- One that ends at once answers its destination. -/
theorem tlbiHolder_answers {u : State} {v : Word} (held : (s.asked a).tlbiHold p kind (bits (s.me.g.get sa) 51 0) = (some v, u)) :
    exec i s = .next (u.push (.pendingValueArrive (s.dest a) (.value v))).onward := by
  rw [exec_tlbiHolder_issues priv ask part space m idle, tlbi_answers (exec_tlbiHolder m s).2 held]

/-- One that holds its page sends its messages. -/
theorem tlbiHolder_holds {u : State} {l : Leaf} (walked : (s.asked a).walk (clusterOf s.curCore) p (bits (s.me.g.get sa) 51 0) = (.ok l, u))
    (held : (s.asked a).tlbiHold p kind (bits (s.me.g.get sa) 51 0) =
      (none, u.pageHeld (s.asked a) p (bits (s.me.g.get sa) 51 0 / 2 ^ l.logSize * 2 ^ l.logSize) l.logSize)) :
    ∃ t h, exec i s = .next t ∧ s.tlbiSent t p a (tlbiMsg p kind (s.me.g.get sa) (s.dest a) 0) ∧ t.holds = s.holds ++ [h] ∧
      h.part = p ∧ h.vbase = bits (s.me.g.get sa) 51 0 / 2 ^ l.logSize * 2 ^ l.logSize ∧ h.logSize = l.logSize ∧ h.core = s.curCore ∧
      h.ctx = s.curCtx ∧
      t.pins = s.pins.filter (fun y => !pinOn p (bits (s.me.g.get sa) 51 0 / 2 ^ l.logSize * 2 ^ l.logSize) l.logSize y) := by
  have frame := walk_frame (s.asked a) (clusterOf s.curCore) p (bits (s.me.g.get sa) 51 0)
  rw [walked] at frame
  obtain ⟨core, ctx, table, -, -, agenda, -, -⟩ := State.sameButWalk_cur frame
  obtain ⟨-, pins, holds, tlbis⟩ := State.sameButWalk_tables frame
  generalize bits (s.me.g.get sa) 51 0 / 2 ^ l.logSize * 2 ^ l.logSize = vbase at held ⊢
  have page := unpinPage_eq u p vbase l.logSize
  have ctxs := unpinPage_ctxAt u p vbase l.logSize
  have issued : s.TlbiIssued (u.pageHeld (s.asked a) p vbase l.logSize) a := by
    unfold State.pageHeld
    generalize u.unpinPage p vbase l.logSize = y at page ctxs
    refine ⟨?_, ?_, ?_, ?_, fun none => ?_⟩
    · rw [page]; exact agenda
    · rw [page]; exact tlbis
    · rw [page]; exact table
    · have cur : y.curCore = u.curCore ∧ y.curCtx = u.curCtx := by rw [page]; exact ⟨rfl, rfl⟩
      have me : y.me = u.me := by rw [State.me, State.me, ctxs, cur.1, cur.2]
      exact me.trans (State.sameButWalk_me frame)
    · rw [page]
      exact frame.2.2.2 none
  obtain ⟨sent, holds', pins'⟩ := tlbiSend_leaves issued (clustersOf_ne_nil part) ask.2.1 kind (s.me.g.get sa) 0
  refine ⟨_, (s.asked a).newHold p vbase l.logSize, ?_, sent, ?_, rfl, rfl, rfl, rfl, rfl, ?_⟩
  · rw [exec_tlbiHolder_issues priv ask part space m idle, tlbi_sends (exec_tlbiHolder m s).2 held]
  · rw [holds', State.pageHeld, holds]
    rfl
  · rw [pins', State.pageHeld, page, pins]
    rfl

end

end

/-- Settles O53: TLBI by what its issue, a walker and an acknowledgement do, then the walk that waited and the home's count. -/
theorem shootdownAndHomes : Obligations.ShootdownAndHomes := by
  unfold Obligations.ShootdownAndHomes
  intro s
  refine ⟨?unprivileged, ?tlbi, fun t cl => tlbiWalkerMessage_drops t cl s,
    fun m c => ⟨tlbiAcknowledge_last, fun d => tlbiAcknowledge_first, tlbiAcknowledge_stray⟩, ?walks, ?homes⟩
  case unprivileged =>
    intro a sa ill priv plain
    have bad := tlbi_unprivileged priv plain
    exact ⟨bad 0, bad 1, bad 2, bad 3, bad 4, bad 5⟩
  case walks =>
    intro cl va p queue x
    exact ⟨fun l u => walkComplete_fills queue, fun f u => walkComplete_faults queue, fun h => walkComplete_waits queue⟩
  case tlbi =>
    intro a sa p priv ask part space v va x msg sent
    refine ⟨tlbiInv_sends priv ask part space, tlbiInvall_sends priv ask part space, fun h => tlbiRel_ends priv ask part space,
      tlbiRel_empty priv ask part space, fun i kind m => ⟨fun f u walked idle => ?_, fun l u walked idle => ?_⟩⟩
    · exact tlbiHolder_answers priv ask part space m idle (tlbiHold_noLeaf walked)
    intro vbase busy pinned ends
    have frame := walk_frame (s.asked a) (clusterOf s.curCore) p (bits (s.me.g.get sa) 51 0)
    rw [walked] at frame
    obtain ⟨unit, pins, holds, -⟩ := State.sameButWalk_tables frame
    have busy_eq : (bit l.entry 6 && u.unitHolds l.frame) = busy := by rw [State.unitHolds, unit]; rfl
    have pinned_eq : u.pins.any (pinOn p vbase l.logSize) = pinned := by rw [pins]; rfl
    have hold_eq : u.holdOn p (bits (s.me.g.get sa) 51 0) = s.holdOn p (bits (s.me.g.get sa) 51 0) := by
      rw [State.holdOn, State.holdOn, holds]; rfl
    have holds_eq : u.holds = s.holds := holds
    refine ⟨fun yes => ?_, fun no move yes => ?_, fun no unpinned => ⟨fun free few => ?_, fun full => ?_⟩⟩
    · exact tlbiHolder_answers priv ask part space m idle (tlbiHold_unit walked (busy_eq.trans yes))
    · exact tlbiHolder_answers priv ask part space m idle (tlbiHold_pinned walked (busy_eq.trans no) move (pinned_eq.trans yes))
    · refine tlbiHolder_holds priv ask part space m idle walked
        ((tlbiHold_past walked (busy_eq.trans no) fun move => pinned_eq.trans (unpinned move)).trans (if_neg ?_))
      rw [hold_eq, free, holds_eq, Option.isSome_none, Bool.false_or, decide_eq_true_eq, Nat.not_le]
      exact Nat.lt_of_le_of_lt (List.length_filter_le ..) few
    · refine tlbiHolder_answers priv ask part space m idle
        ((tlbiHold_past walked (busy_eq.trans no) fun move => pinned_eq.trans (unpinned move)).trans (if_pos ?_))
      rw [hold_eq, holds_eq, Bool.or_eq_true, decide_eq_true_eq]
      exact full
  case homes =>
    intro line node pins uline h home
    refine ⟨fun same few => ⟨_, homeRequest_counts (by rw [if_pos same]; exact Nat.succ_lt_succ few), ?_⟩,
      fun other => ⟨_, homeRequest_counts (by rw [if_neg other]; decide), ?_⟩,
      fun same fourth low away home room => ⟨_, homeRequest_moves pins uline same fourth away home room, ?_⟩⟩
    · dsimp only
      rw [Tab.get_set_same, if_pos same, ← same]
    · dsimp only
      rw [Tab.get_set_same, if_neg other]
    · obtain ⟨holder, forwards⟩ := lineMoved_leaves s low
      exact ⟨holder, forwards, rfl⟩

end Sys2Proof.Machine
end
